-- ==== Sys2Proof/Word.lean ====
section
/-! DEFINITION. The byte and register-word types of the block, and the canonical sparse map used for every table and memory. -/

namespace Sys2Proof

/-- One byte (R7, R9). -/
abbrev Byte := BitVec 8

/-- One 32-bit BAR0 register (R9). -/
abbrev Word := BitVec 32

/-- A sparse table: pairs of a key and its entry, keys strictly rising. -/
abbrev Assoc (α : Type) := List (Nat × α)

end Sys2Proof
end

