-- ==== Sys2Proof/Syntax.lean ====
section
/-! DEFINITION. The commands the block takes from outside: one constructor per row of spec/opcode_table.json. -/

namespace Sys2Proof

/-- A mailbox command as it reaches Teruo: its source and ORIGIN (Table 11-1), the header fields but OPCODE (Table 11-2),
CMD_LEN (Table 10-10), the parameter bytes, the response area, and what a host-memory or flash read at its ADDR returns
(`none`: the read fails, R373). OPCODE is the row. -/
structure Cmd where
  source : Nat
  origin : Nat
  tag : Nat
  paramLen : Nat
  timeout : Nat
  target : Nat
  flags : Nat
  reserved : Nat
  cmdLen : Nat
  params : List Byte
  respAddr : Nat
  respLen : Nat
  data : Option (List Byte)
  deriving DecidableEq, Repr

/-- A 64-byte descriptor begun on a work ring (R344), with what the reads it asks for return (`none`: the read fails):
the fragment table, and the frame, context, slot list or template at ADDR. -/
structure Desc where
  ring : Nat
  bytes : List Byte
  frags : Option (List Byte)
  data : Option (List Byte)
  deriving DecidableEq, Repr

/-- What a failed DMA read was for (R373). -/
inductive ReadKind where
  /-- Frame data, a fragment table, a command block or the ADDR of a table update: ends its descriptor. -/
  | data
  /-- Ring memory or a host-written entry: stops the ring. -/
  | ringMemory
  deriving DecidableEq, Repr

/-- The turn of the egress credit scheduler (R290, R293). -/
inductive GrantTurn where
  | port (mac : Nat)
  | peal (dest cls : Nat)
  deriving DecidableEq, Repr

/-- A supply rail as rail faults tell them apart (R601). -/
inductive Rail where
  | core | management | other
  deriving DecidableEq, Repr

/-- A FlexE overhead frame received on an instance of a PHY (R131 to R137): the block position of its marker, its check,
and its fields. `blockType`, `oCode`: type and O code of the control block found at the position; `cal`: slots of the instance with the
client numbers of calendars A and B that the frame carries; `phyMap`: bit n set: PHY number n belongs to the group. -/
structure OhFrame where
  port : Nat
  inst : Nat
  block : Nat
  blockType : Nat
  oCode : Nat
  crcGood : Bool
  omf : Bool
  group : Nat
  phy : Nat
  phyMap : Nat
  instNumber : Nat
  c : List Bool
  cr : Bool
  ca : Bool
  rpf : Bool
  cal : List (Nat × Nat × Nat)
  deriving DecidableEq, Repr

/-- What a receiver counted in a window of 10 ms (R114, R141, R336): `line` 0 to 79 a port, 128 + l fabric lane l; its symbol errors or
errored blocks, and the codewords that its FEC corrected and could not correct. -/
structure WindowCount where
  line : Nat
  errors : Nat
  corrected : Nat
  uncorrectable : Nat
  deriving DecidableEq, Repr

/-- How a frame in transmission goes on (R94, R98, R107): it is sent complete; it is found bad after its first byte, by the cause; or its
last byte has not left yet. -/
inductive TxEnd where
  | sent
  | bad (cause : Nat)
  | begun
  deriving DecidableEq, Repr

/-- An error of a TCAM entry that a search meets (R173 to R175): a false hit, a key copy with an uncorrectable error, or an entry that
fails to match, which the search cannot see. -/
inductive TcamFault where
  | falseHit | copyError | noMatch
  deriving DecidableEq, Repr

/-- The DDR4 read that a stalled pass waits for (R225, R416, R424 to R426): its channel and address, the bits of the beat that the read and
the second read find flipped, and how long it took in nanoseconds. -/
structure CtxRead where
  channel : Nat
  address : Nat
  flips : List Nat
  again : List Nat
  waited : Nat
  deriving DecidableEq, Repr

/-- A request to a DDR4 channel (R416): a write or a read, its port code, its address, and the bank (rank × 16 + bank) and row it needs. -/
structure DdrRequest where
  write : Bool
  port : Nat
  address : Nat
  bank : Nat
  row : Nat
  deriving DecidableEq, Repr

/-- What happens at a DDR4 channel (R416 to R420): a request arrives; the channel serves one access, whose beat and second read find bits
flipped; nanoseconds pass; a rank is refreshed. -/
inductive DdrEvent where
  | request (r : DdrRequest)
  | serve (flips again : List Nat)
  | wait (ns : Nat)
  | refresh (rank : Nat)
  deriving DecidableEq, Repr

/-- What a read-back meets at the stack (R432, R435): for each 32-byte access in error, its burst of 2 KiB, counted from the one that holds
the first unread byte, and the 8-bit symbols in error; and for each command of the read, whether the interface reports a parity error. -/
structure ReadErrors where
  accesses : List (Nat × List Nat)
  commands : List Bool
  deriving DecidableEq, Repr

/-- What the audit engine reads next of a scan's region (R532, R533): whole 64-byte units, and whether the read after them fails. -/
structure ScanRead where
  bytes : List Byte
  failed : Bool
  deriving DecidableEq, Repr

/-- An error that the on-die scrub finds (R523, R538): memory code, die, uncorrectable, word address, and what holds the
word: a table kind, a queue, a bucket or a context, by the memory. -/
structure SramError where
  memory : Nat
  die : Nat
  uncorrectable : Bool
  word : Nat
  kind : Nat
  item : Nat
  deriving DecidableEq, Repr

/-- The commands, one constructor per row of the table, in its order. -/
inductive Instr where
  /-- SYS_INFO (R405). -/
  | sysInfo (c : Cmd)
  /-- SYS_ABORT (R390). -/
  | sysAbort (c : Cmd)
  /-- SYS_CMD_QUERY (R391). -/
  | sysCmdQuery (c : Cmd)
  /-- SYS_RESTART (R406). -/
  | sysRestart (c : Cmd)
  /-- EVENT_BIND (R398). -/
  | eventBind (c : Cmd)
  /-- JOURNAL_READ (R404). -/
  | journalRead (c : Cmd)
  /-- UNKNOWN_OPCODE (R14). -/
  | unknownOpcode (opcode : Nat) (c : Cmd)
  /-- PORT_CONFIG (R79). -/
  | portConfig (c : Cmd)
  /-- PORT_DELETE (R82). -/
  | portDelete (c : Cmd)
  /-- PORT_ADMIN (R82). -/
  | portAdmin (c : Cmd)
  /-- PORT_QUERY (R82). -/
  | portQuery (c : Cmd)
  /-- PORT_DEGRADE (R141). -/
  | portDegrade (c : Cmd)
  /-- PORT_MAC_SET (R613). -/
  | portMacSet (c : Cmd)
  /-- FLEXE_GROUP_CONFIG (R118). -/
  | flexeGroupConfig (c : Cmd)
  /-- FLEXE_GROUP_DELETE (R145). -/
  | flexeGroupDelete (c : Cmd)
  /-- FLEXE_GROUP_ADMIN (R145). -/
  | flexeGroupAdmin (c : Cmd)
  /-- FLEXE_CLIENT_CONFIG (R122). -/
  | flexeClientConfig (c : Cmd)
  /-- FLEXE_CLIENT_DELETE (R122). -/
  | flexeClientDelete (c : Cmd)
  /-- FLEXE_CLIENT_ADMIN (R145). -/
  | flexeClientAdmin (c : Cmd)
  /-- FLEXE_CALENDAR_STAGE (R125). -/
  | flexeCalendarStage (c : Cmd)
  /-- FLEXE_CALENDAR_SWITCH (R127). -/
  | flexeCalendarSwitch (c : Cmd)
  /-- FLEXE_QUERY (R144). -/
  | flexeQuery (c : Cmd)
  /-- PARSE_SELECT_LAYOUT (R149). -/
  | parseSelectLayout (c : Cmd)
  /-- PROFILE_WRITE (R152). -/
  | profileWrite (c : Cmd)
  /-- PROFILE_DELETE (R152). -/
  | profileDelete (c : Cmd)
  /-- PROFILE_SELECT_ADD (R150). -/
  | profileSelectAdd (c : Cmd)
  /-- PROFILE_SELECT_DELETE (R150). -/
  | profileSelectDelete (c : Cmd)
  /-- PARSE_CLASS_MAP_SET (R157). -/
  | parseClassMapSet (c : Cmd)
  /-- RULE_TABLE_CREATE (R166). -/
  | ruleTableCreate (c : Cmd)
  /-- RULE_TABLE_DELETE (R166). -/
  | ruleTableDelete (c : Cmd)
  /-- RULE_ADD (R167). -/
  | ruleAdd (c : Cmd)
  /-- RULE_DELETE (R167). -/
  | ruleDelete (c : Cmd)
  /-- RULE_MODIFY (R167). -/
  | ruleModify (c : Cmd)
  /-- RULE_OVERLAPS (R169). -/
  | ruleOverlaps (c : Cmd)
  /-- RULE_QUERY (R167). -/
  | ruleQuery (c : Cmd)
  /-- EXCEPTION_CONFIG (R159). -/
  | exceptionConfig (c : Cmd)
  /-- TCAM_STATUS (R170). -/
  | tcamStatus (c : Cmd)
  /-- FIB_VRF_CONFIG (R186). -/
  | fibVrfConfig (c : Cmd)
  /-- FIB_STATUS (R193). -/
  | fibStatus (c : Cmd)
  /-- ID_QUERY (R210). -/
  | idQuery (c : Cmd)
  /-- ECMP_HASH_SEED (R196). -/
  | ecmpHashSeed (c : Cmd)
  /-- TABLE_COMMIT (R59). -/
  | tableCommit (c : Cmd)
  /-- TABLE_COMMIT_QUERY (R71). -/
  | tableCommitQuery (c : Cmd)
  /-- FLOW_TABLE_CREATE (R211). -/
  | flowTableCreate (c : Cmd)
  /-- FLOW_TABLE_DELETE (R212). -/
  | flowTableDelete (c : Cmd)
  /-- FLOW_TABLE_FLUSH (R212). -/
  | flowTableFlush (c : Cmd)
  /-- FLOW_STATUS (R212). -/
  | flowStatus (c : Cmd)
  /-- VOQ_DEST_SET (R229). -/
  | voqDestSet (c : Cmd)
  /-- VOQ_DEST_DELETE (R231). -/
  | voqDestDelete (c : Cmd)
  /-- VOQ_PROFILE_SET (R239). -/
  | voqProfileSet (c : Cmd)
  /-- VOQ_EPLIST_SET (R255). -/
  | voqEplistSet (c : Cmd)
  /-- PEAL_LIST_SET (R257). -/
  | pealListSet (c : Cmd)
  /-- PEAL_LIST_DELETE (R257). -/
  | pealListDelete (c : Cmd)
  /-- BUF_POOL_LAYOUT (R234). -/
  | bufPoolLayout (c : Cmd)
  /-- BUF_POOL_CONFIG (R235). -/
  | bufPoolConfig (c : Cmd)
  /-- SAMPLER_CONFIG (R259). -/
  | samplerConfig (c : Cmd)
  /-- PUNT_QUEUE_CONFIG (R262). -/
  | puntQueueConfig (c : Cmd)
  /-- VOQ_QUERY (R265). -/
  | voqQuery (c : Cmd)
  /-- BUF_STATUS (R265). -/
  | bufStatus (c : Cmd)
  /-- SCHED_PORT_CONFIG (R278). -/
  | schedPortConfig (c : Cmd)
  /-- SCHED_NODE_SET (R270). -/
  | schedNodeSet (c : Cmd)
  /-- SCHED_NODE_DELETE (R272). -/
  | schedNodeDelete (c : Cmd)
  /-- GATE_LIST_SET (R280). -/
  | gateListSet (c : Cmd)
  /-- GATE_LIST_CLEAR (R281). -/
  | gateListClear (c : Cmd)
  /-- CREDIT_CONFIG (R292). -/
  | creditConfig (c : Cmd)
  /-- CREDIT_PEAL_SET (R293). -/
  | creditPealSet (c : Cmd)
  /-- POLICER_CONFIG (R294). -/
  | policerConfig (c : Cmd)
  /-- SCHED_QUERY (R298). -/
  | schedQuery (c : Cmd)
  /-- POLICER_QUERY (R297). -/
  | policerQuery (c : Cmd)
  /-- FABRIC_CONFIG (R300). -/
  | fabricConfig (c : Cmd)
  /-- FABRIC_QUERY (R337). -/
  | fabricQuery (c : Cmd)
  /-- FABRIC_LANE_QUERY (R337). -/
  | fabricLaneQuery (c : Cmd)
  /-- RING_INDEX_CONFIG (R348). -/
  | ringIndexConfig (c : Cmd)
  /-- RING_CREATE (R346). -/
  | ringCreate (c : Cmd)
  /-- RING_ENABLE (R355). -/
  | ringEnable (c : Cmd)
  /-- RING_DISABLE (R356). -/
  | ringDisable (c : Cmd)
  /-- RING_DESTROY (R347). -/
  | ringDestroy (c : Cmd)
  /-- RING_QUERY (R377). -/
  | ringQuery (c : Cmd)
  /-- RX_GROUP_CONFIG (R370). -/
  | rxGroupConfig (c : Cmd)
  /-- PUNT_QUEUE_BIND (R369). -/
  | puntQueueBind (c : Cmd)
  /-- TEMPO_SOURCE_SET (R37). -/
  | tempoSourceSet (c : Cmd)
  /-- TEMPO_TOD_SET (R407). -/
  | tempoTodSet (c : Cmd)
  /-- TEMPO_ADJUST (R407). -/
  | tempoAdjust (c : Cmd)
  /-- TEMPO_STEP (R41). -/
  | tempoStep (c : Cmd)
  /-- TEMPO_QUERY (R407). -/
  | tempoQuery (c : Cmd)
  /-- TEMPO_GRID_SET (R44). -/
  | tempoGridSet (c : Cmd)
  /-- TEMPO_MAX_AGE_SET (R54). -/
  | tempoMaxAgeSet (c : Cmd)
  /-- CARILLON_CONFIG (R482). -/
  | carillonConfig (c : Cmd)
  /-- CARILLON_STATUS (R482). -/
  | carillonStatus (c : Cmd)
  /-- CARILLON_PARK (R467). -/
  | carillonPark (c : Cmd)
  /-- MGMT_BUS_CONFIG (R482). -/
  | mgmtBusConfig (c : Cmd)
  /-- PROTECT_PAIR_SET (R469). -/
  | protectPairSet (c : Cmd)
  /-- PROTECT_PAIR_DELETE (R481). -/
  | protectPairDelete (c : Cmd)
  /-- PROTECT_SWITCH (R482). -/
  | protectSwitch (c : Cmd)
  /-- PROTECT_QUERY (R482). -/
  | protectQuery (c : Cmd)
  /-- FW_DOWNLOAD (R499). -/
  | fwDownload (c : Cmd)
  /-- FW_VERIFY (R498). -/
  | fwVerify (c : Cmd)
  /-- FW_DISTRIBUTE (R500). -/
  | fwDistribute (c : Cmd)
  /-- FW_ACTIVATE (R501). -/
  | fwActivate (c : Cmd)
  /-- FW_CONFIRM (R504). -/
  | fwConfirm (c : Cmd)
  /-- FW_REVERT (R505). -/
  | fwRevert (c : Cmd)
  /-- FW_STATUS (R519). -/
  | fwStatus (c : Cmd)
  /-- SETTINGS_READ (R518). -/
  | settingsRead (c : Cmd)
  /-- SETTINGS_WRITE (R509). -/
  | settingsWrite (c : Cmd)
  /-- KEY_REVOKE (R490). -/
  | keyRevoke (c : Cmd)
  /-- ATTEST_QUOTE (R520). -/
  | attestQuote (c : Cmd)
  /-- TOLL_CONFIG (R567). -/
  | tollConfig (c : Cmd)
  /-- TOLL_SELECT (R568). -/
  | tollSelect (c : Cmd)
  /-- TOLL_START (R570). -/
  | tollStart (c : Cmd)
  /-- TOLL_STOP (R571). -/
  | tollStop (c : Cmd)
  /-- COUNTER_READ (R572). -/
  | counterRead (c : Cmd)
  /-- TOLL_STATUS (R577). -/
  | tollStatus (c : Cmd)
  /-- POWER_SHED_CONFIG (R546). -/
  | powerShedConfig (c : Cmd)
  /-- POWER_STATUS (R552). -/
  | powerStatus (c : Cmd)
  /-- HUM_CONFIG (R552). -/
  | humConfig (c : Cmd)
  /-- HUM_STATUS (R552). -/
  | humStatus (c : Cmd)
  /-- KNELL_READ (R550). -/
  | knellRead (c : Cmd)
  /-- AUDIT_SCAN (R530). -/
  | auditScan (c : Cmd)
  /-- AUDIT_CONTEXT_READ (R552). -/
  | auditContextRead (c : Cmd)
  /-- AUDIT_CONTEXT_WRITE (R529). -/
  | auditContextWrite (c : Cmd)
  /-- AUDIT_STATUS (R552). -/
  | auditStatus (c : Cmd)
  /-- MEM_STATUS (R440). -/
  | memStatus (c : Cmd)
  /-- MEM_RETIRED_QUERY (R441). -/
  | memRetiredQuery (c : Cmd)
  /-- DIAG_FAULT_QUERY (R552). -/
  | diagFaultQuery (c : Cmd)
  /-- ROUTE_ADD (R203). -/
  | routeAdd (d : Desc)
  /-- ROUTE_DELETE (R203). -/
  | routeDelete (d : Desc)
  /-- LABEL_ADD (R203). -/
  | labelAdd (d : Desc)
  /-- LABEL_DELETE (R203). -/
  | labelDelete (d : Desc)
  /-- NH_SET (R194). -/
  | nhSet (d : Desc)
  /-- NH_FREE (R209). -/
  | nhFree (d : Desc)
  /-- ECMP_SET (R195). -/
  | ecmpSet (d : Desc)
  /-- ECMP_FREE (R209). -/
  | ecmpFree (d : Desc)
  /-- TEMPLATE_SET (R199). -/
  | templateSet (d : Desc)
  /-- TEMPLATE_FREE (R209). -/
  | templateFree (d : Desc)
  /-- FLOW_READ (R222). -/
  | flowRead (d : Desc)
  /-- FLOW_WRITE (R222). -/
  | flowWrite (d : Desc)
  /-- FLOW_DELETE (R222). -/
  | flowDelete (d : Desc)
  /-- INJECT_PIPELINE (R362). -/
  | injectPipeline (d : Desc)
  /-- INJECT_DIRECT (R363). -/
  | injectDirect (d : Desc)
  /-- BUFFER_POST (R370). -/
  | bufferPost (d : Desc)
  /-- NEW_WORK (R353). -/
  | newWork (fn ring : Nat) (host : Option Nat)
  /-- INVALIDATE (R359). -/
  | invalidate (fn ring : Nat) (host : Option Nat)
  /-- DOORBELL_DISCARD (R352). -/
  | doorbellDiscard (fn offset size value : Nat)
  /-- MBX_SUBMIT (R393). -/
  | mbxSubmit (fn : Nat) (data : Option (List Byte))
  /-- MBX_ABORT (R394). -/
  | mbxAbort (fn : Nat)
  /-- WARM_RESET (R588). -/
  | warmReset (fn : Nat) (value : Word)
  /-- DBG_INJECT (R591). -/
  | dbgInject (fn : Nat) (value : Word)
  /-- DDR_RH_THRESHOLD_WRITE (R423). -/
  | ddrRhThresholdWrite (fn : Nat) (value : Word)
  /-- GLB_INT_ENABLE_WRITE (R587). -/
  | glbIntEnableWrite (fn : Nat) (value : Word)
  /-- W1C_CLEAR (R11). -/
  | w1cClear (fn offset : Nat) (ones sets : Word)
  /-- COUNTER_CLEARING_READ (R112). -/
  | counterClearingRead (fn offset counted : Nat)
  /-- GROUP_LATCH_READ (R42). -/
  | groupLatchRead (fn offset : Nat)
  /-- CNT_VAL_READ (R573). -/
  | cntValRead (fn : Nat)
  /-- REGISTER_WRITE (R10). -/
  | registerWrite (fn offset : Nat) (value : Word)
  /-- BAR0_BAD_ACCESS (R9). -/
  | bar0BadAccess (fn offset : Nat) (write : Bool)
  /-- UNMAPPED_ACCESS (R581). -/
  | unmappedAccess (fn offset : Nat) (write : Bool)
  /-- FUNCTION_RESET (R342). -/
  | functionReset (fn : Nat)
  /-- BUS_MASTER_ENABLE (R341). -/
  | busMasterEnable (fn : Nat) (enable : Bool) (hosts : List (Nat × Nat))
  /-- POWER_ON_RESET (R492). -/
  | powerOnReset (straps : Nat)
  /-- PERST (R606). -/
  | perst (fn : Nat) (low : Bool)
  /-- PWR_FAIL_N_ACCEPTED (R547). -/
  | pwrFailNAccepted
  /-- SHED_REQUEST_CHANGE (R545). -/
  | shedRequestChange (board : Nat)
  /-- SHED_LEVEL_DECAY (R545). -/
  | shedLevelDecay
  /-- S3_DORMANT_STEP (R110). -/
  | s3DormantStep
  /-- THERMAL_TRIP (R544). -/
  | thermalTrip
  /-- RAIL_FAULT (R601). -/
  | railFault (rail : Rail)
  /-- SENSOR_SAMPLE (R522). -/
  | sensorSample (dies hbm : List Int) (rail : Nat)
  /-- PPS_IN_EDGE (R39). -/
  | ppsInEdge (arrival : Nat)
  /-- PPS_LOSS (R39). -/
  | ppsLoss
  /-- HOST_ADJUST_SILENCE (R39). -/
  | hostAdjustSilence
  /-- TEMPO_SECOND_BOUNDARY (R75). -/
  | tempoSecondBoundary
  /-- PPS_OUT_END (R604). -/
  | ppsOutEnd
  /-- DOWNBEAT (R46). -/
  | downbeat
  /-- MUFFLE_END (R163). -/
  | muffleEnd
  /-- PREPARATION_DONE (R64). -/
  | preparationDone
  /-- PREPARE (R63). -/
  | prepare (port : Nat) (msg : List Byte)
  /-- VOTE (R64). -/
  | vote (port : Nat) (msg : List Byte)
  /-- GO (R66). -/
  | go (port : Nat) (msg : List Byte)
  /-- DEFER (R65). -/
  | defer (port : Nat) (msg : List Byte)
  /-- ABORT (R65). -/
  | abort (port : Nat) (msg : List Byte)
  /-- ACK (R63). -/
  | ack (port : Nat) (msg : List Byte)
  /-- CONFIRM (R63). -/
  | confirm (port : Nat) (msg : List Byte)
  /-- REVERT (R67). -/
  | revert (port : Nat) (msg : List Byte)
  /-- TOLL_INSTANT (R561). -/
  | tollInstant
  /-- TOLL_DUMP_WRITE (R563). -/
  | tollDumpWrite (fn : Nat)
  /-- GATE_ENTRY_BOUNDARY (R282). -/
  | gateEntryBoundary (mac : Nat)
  /-- GATE_LIST_START (R285). -/
  | gateListStart (mac : Nat)
  /-- PORT_LINK_OK (R106). -/
  | portLinkOk (mac : Nat)
  /-- PORT_LINK_FAIL (R106). -/
  | portLinkFail (mac : Nat) (pcsLost localFault remoteFault : Bool)
  /-- UP_DEBOUNCE_END (R106). -/
  | upDebounceEnd (mac : Nat)
  /-- HOLD_TIMER_EXPIRY (R106). -/
  | holdTimerExpiry (mac : Nat)
  /-- DEG_WINDOW_END (R141). -/
  | degWindowEnd (counts : List WindowCount)
  /-- FRAME_RECEIVED (R84). -/
  | frameReceived (mac : Nat) (frame : List Byte) (codeError : Bool)
  /-- PAUSE_REFRESH (R92). -/
  | pauseRefresh (mac : Nat)
  /-- MAC_CONTROL_FRAME_RX (R94). -/
  | macControlFrameRx (mac : Nat) (frame : List Byte)
  /-- PAUSE_EXPIRY (R94). -/
  | pauseExpiry (mac : Nat) (priority : Option Nat)
  /-- FLEXE_OH_FRAME_RX (R134). -/
  | flexeOhFrameRx (f : OhFrame)
  /-- FLEXE_MARKER_MISSED (R132). -/
  | flexeMarkerMissed (port inst : Nat)
  /-- FLEXE_CR_SET (R127). -/
  | flexeCrSet (group : Nat)
  /-- FLEXE_C_BIT_CHANGE (R127). -/
  | flexeCBitChange (group : Nat)
  /-- FLEXE_NO_ACK (R129). -/
  | flexeNoAck (group : Nat)
  /-- INGRESS_PASS (R177). -/
  | ingressPass (pipe : Nat) (selFaults : List (Nat × TcamFault)) (faults : List (Nat × TcamFault))
  /-- EGRESS_PASS (R179). -/
  | egressPass (pipe : Nat) (faults : List (Nat × TcamFault))
  /-- STAGE_TIMEOUT (R535). -/
  | stageTimeout (pipe : Nat)
  /-- FLOW_CACHE_FILL (R225). -/
  | flowCacheFill (pipe : Nat) (read : CtxRead)
  /-- BRIDGE_TRANSFER (R27). -/
  | bridgeTransfer (toQd : Bool) (failures : Nat)
  /-- BRIDGE_STALL (R30). -/
  | bridgeStall (toQd : Bool)
  /-- VOQ_ADMISSION (R240). -/
  | voqAdmission
  /-- BUF_ALLOC_RETRY (R237). -/
  | bufAllocRetry
  /-- BUF_EXHAUST (R237). -/
  | bufExhaust
  /-- LOSSLESS_REOFFER (R242). -/
  | losslessReoffer (voq : Nat)
  /-- SPILL_WRITE (R247). -/
  | spillWrite (voq : Nat)
  /-- READ_BACK (R248). -/
  | readBack (voq : Nat) (errors : ReadErrors)
  /-- REREQUEST (R315). -/
  | rerequest (voq : Nat)
  /-- REQUEST (R316). -/
  | request (lane : Nat) (unit : List Byte)
  /-- GRANT_ISSUE (R290). -/
  | grantIssue (turn : GrantTurn)
  /-- GRANT (R314). -/
  | grant (lane : Nat) (unit : List Byte)
  /-- DENY (R317). -/
  | deny (lane : Nat) (unit : List Byte)
  /-- DENY_HOLDOFF_END (R317). -/
  | denyHoldoffEnd (voq : Nat)
  /-- VOQ_DEQUEUE (R314). -/
  | voqDequeue (voq : Nat)
  /-- AGE_DRAIN (R321). -/
  | ageDrain (voq : Nat)
  /-- DUAL_STREAM_SWITCH (R331). -/
  | dualStreamSwitch (voq : Nat)
  /-- CELL (R326). -/
  | cell (lane : Nat) (unit : List Byte)
  /-- REASSEMBLY_GAP (R326). -/
  | reassemblyGap (source : Nat) (dual : Bool)
  /-- ANNOUNCE (R320). -/
  | announce (lane : Nat) (unit : List Byte)
  /-- ANNOUNCE_REPEAT (R320). -/
  | announceRepeat (dest : Nat)
  /-- WITHDRAWAL_LAPSE (R320). -/
  | withdrawalLapse (dest : Nat)
  /-- LINK (R313). -/
  | link (lane : Nat) (unit : List Byte)
  /-- LINK_SEND (R313). -/
  | linkSend (lane : Nat)
  /-- REACH (R319). -/
  | reach (lane : Nat) (unit : List Byte)
  /-- REACH_CHUNK_EXPIRY (R319). -/
  | reachChunkExpiry (lane chunk : Nat)
  /-- FC (R324). -/
  | fc (lane : Nat) (unit : List Byte)
  /-- UNIT_HEADER_FAILURE (R306). -/
  | unitHeaderFailure (lane : Nat)
  /-- FABRIC_LANE_ALIGNED (R307). -/
  | fabricLaneAligned (lane : Nat)
  /-- FABRIC_LANE_LOSS (R307). -/
  | fabricLaneLoss (lane : Nat)
  /-- FABRIC_LANE_CONFIRMED (R307). -/
  | fabricLaneConfirmed (lane : Nat)
  /-- LINK_SILENCE (R307). -/
  | linkSilence (lane : Nat)
  /-- SCHEDULER_SELECTION (R274). -/
  | schedulerSelection (group : Nat)
  /-- FRAME_TRANSMIT (R97). -/
  | frameTransmit (mac : Nat) (ends : TxEnd) (underrun : Bool)
  /-- DIRECT_INJECT_ENQUEUE (R363). -/
  | directInjectEnqueue (leaf : Nat)
  /-- PUNT_DELIVERY (R371). -/
  | puntDelivery
  /-- DESCRIPTOR_FETCH (R358). -/
  | descriptorFetch (ring first : Nat) (descs : List (List Byte))
  /-- HOST_INDEX_POLL (R353). -/
  | hostIndexPoll (hosts : List (Nat × Option Nat))
  /-- DMA_READ_ERROR (R373). -/
  | dmaReadError (ring : Nat) (kind : ReadKind) (desc : List Byte)
  /-- DMA_TIMEOUT (R373). -/
  | dmaTimeout (ring : Nat)
  /-- COMPLETION_HELD_FLUSH (R367). -/
  | completionHeldFlush (ring : Nat)
  /-- INTERRUPT_MODERATION (R374). -/
  | interruptModeration (ring : Nat)
  /-- COMMAND_TIMEOUT (R389). -/
  | commandTimeout (source origin tag : Nat)
  /-- WATCHDOG_EXPIRY (R541). -/
  | watchdogExpiry
  /-- MANAGEMENT_RESTART (R542). -/
  | managementRestart (cause : Nat)
  /-- MANAGEMENT_RESTART_END (R397). -/
  | managementRestartEnd
  /-- HEARTBEAT_SEND (R450). -/
  | heartbeatSend
  /-- HEARTBEAT (R451). -/
  | heartbeat (port : Nat) (msg : List Byte)
  /-- NEIGHBOUR_LOST (R451). -/
  | neighbourLost (port : Nat) (pcs : Bool)
  /-- HEAD_BEACON (R452). -/
  | headBeacon (port : Nat) (msg : List Byte)
  /-- HEAD_LOST (R452). -/
  | headLost
  /-- CLAIM (R454). -/
  | claim (port : Nat) (msg : List Byte)
  /-- ELECTION_SETTLE (R454). -/
  | electionSettle
  /-- ELECTION_RETRY (R454). -/
  | electionRetry
  /-- POSITION (R454). -/
  | position (port : Nat) (msg : List Byte)
  /-- MEMBER (R449). -/
  | member (port : Nat) (msg : List Byte)
  /-- RELAY_CMD (R459). -/
  | relayCmd (port : Nat) (msg : List Byte)
  /-- RELAY_RESP (R459). -/
  | relayResp (port : Nat) (msg : List Byte)
  /-- FRAGMENT_TIMEOUT (R447). -/
  | fragmentTimeout (bus : Bool) (src msgId : Nat)
  /-- IMAGE_CHUNK (R460). -/
  | imageChunk (port : Nat) (msg : List Byte)
  /-- IMAGE_ACK (R460). -/
  | imageAck (port : Nat) (msg : List Byte)
  /-- COMMAND (R464). -/
  | command (msg : List Byte)
  /-- BUS_COLLISION (R462). -/
  | busCollision
  /-- PARK_ENTRY (R467). -/
  | parkEntry
  /-- WAKE (R468). -/
  | wake (frame : List Byte)
  /-- PAIR_BEAT (R478). -/
  | pairBeat (bus : Bool) (port : Nat) (msg : List Byte)
  /-- PAIR_BEAT_SEND (R475). -/
  | pairBeatSend
  /-- PEER_LOST (R475). -/
  | peerLost
  /-- RELINQUISH (R476). -/
  | relinquish (port : Nat) (msg : List Byte)
  /-- RELINQUISH_WAIT_EXPIRY (R476). -/
  | relinquishWaitExpiry
  /-- WTR_EXPIRY (R479). -/
  | wtrExpiry
  /-- PAIRING_TIMEOUT (R480). -/
  | pairingTimeout
  /-- MIRROR_CFG (R471). -/
  | mirrorCfg (port : Nat) (msg : List Byte)
  /-- MIRROR_FLOW (R473). -/
  | mirrorFlow (port : Nat) (msg : List Byte)
  /-- MIRROR_ACK (R471). -/
  | mirrorAck (port : Nat) (msg : List Byte)
  /-- FLOW_LOCK_LAPSE (R224). -/
  | flowLockLapse (table : Nat) (key : List Byte)
  /-- FLOW_AGING (R221). -/
  | flowAging (table : Nat)
  /-- TCAM_ENTRY_REWRITE (R174). -/
  | tcamEntryRewrite (entry : Nat)
  /-- TCAM_SCRUB_PASS (R175). -/
  | tcamScrubPass (fixed : List Nat)
  /-- SRAM_SCRUB_PASS (R523). -/
  | sramScrubPass (errors : List SramError)
  /-- BUFFER_AUDIT_PASS (R524). -/
  | bufferAuditPass
  /-- CONFIG_AUDIT_PASS (R525). -/
  | configAuditPass (bad : List (Nat × Nat))
  /-- FLASH_PATROL (R526). -/
  | flashPatrol
  /-- DDR_RECENTER (R414). -/
  | ddrRecenter (margins : List (Nat × Nat))
  /-- DDR_SCRUB (R427). -/
  | ddrScrub (channel : Nat) (errors : List (Nat × List Nat)) (again : List (Nat × List Nat))
  /-- DDR_REQUEST_TIMEOUT (R421). -/
  | ddrRequestTimeout (channel port address : Nat) (retried : Bool)
  /-- DDR_WRITE_QUEUE_AGE (R419). -/
  | ddrWriteQueueAge (channel : Nat) (events : List DdrEvent)
  /-- ROW_WINDOW_START (R422). -/
  | rowWindowStart (activates : List (Nat × Nat × Nat))
  /-- FLASH_COPY_CHECKED (R496). -/
  | flashCopyChecked (good : Bool)
  /-- PROBATION_LIMIT (R503). -/
  | probationLimit
  /-- SETTINGS_COMPACTION (R508). -/
  | settingsCompaction
  /-- KNELL_SECTOR_ERASE (R549). -/
  | knellSectorErase
  /-- RETIRED_PAGE_RECORD (R433). -/
  | retiredPageRecord
  /-- SECOND_CONFIRMATION (R307). -/
  | secondConfirmation (lane : Nat)
  /-- HBM_TRAINING_DONE (R436). -/
  | hbmTrainingDone (failed : Nat)
  /-- START_READY (R492). -/
  | startReady (ddr : List (Nat × Nat))
  /-- FLASH_OPERATION_TIMEOUT (R486). -/
  | flashOperationTimeout (erase : Bool) (address : Nat)
  /-- FLASH_WRITE_DONE (R509). -/
  | flashWriteDone
  /-- VERIFICATION_COMPLETE (R498). -/
  | verificationComplete
  /-- AUDIT_SCAN_COMPLETE (R530). -/
  | auditScanComplete (context : Nat) (read : ScanRead)
  /-- CONFIG_WORD_REWRITE (R538). -/
  | configWordRewrite (table word : Nat)
  /-- CLOCK_LOCK_LOSS (R540). -/
  | clockLockLoss
  /-- REFUSED_PACKET_AGE (R242). -/
  | refusedPacketAge
  /-- PWR_FAIL_N_RISE (R606). -/
  | pwrFailNRise
  deriving DecidableEq, Repr

end Sys2Proof
end

