-- ==== Sys2Proof/Config.lean ====
section
/-! DEFINITION. What an implementation fixes and the spec leaves open: each constant has no body, so no proof can see its value. -/

namespace Sys2Proof.Config

/-- A fresh draw of the part's random source: the curve of R243, the RANDOM sampler of R260, RANDOM eviction of R218, bus backoff of R462 (log 12). -/
opaque random : Nat → Nat

/-- Where Teruo starts its search for an unused RULE_ID or ENTRY_ID (R150, R167, R558; log 13). -/
opaque freeId : Nat → Nat

/-- Where Teruo places an entry in the TCAM, as far as R170 leaves it open (log 13). -/
opaque tcamIndex : Nat → Nat

/-- Which context the full on-die cache gives up (R225; log 50). -/
opaque cacheVictim : Nat → Nat

/-- The bucket of a flow key in a table, internal to the part (R216; log 14). -/
opaque flowBucket : Nat → List Byte → Nat

/-- Which HBM page of a VOQ holds a failing burst (R253; log 15). -/
opaque hbmPage : Nat → Nat

/-- A byte of DDR4 or HBM whose content the spec leaves undefined (R428, R436; log 16). -/
opaque freeByte : Nat → Byte

/-- SHA3-512 (FIPS 202, named by R489 and not restated by the spec; log 17). -/
opaque sha3 : List Byte → List Byte

/-- ML-DSA-87 verification of a signature over a message under a public key (FIPS 204; log 17). -/
opaque verifySignature : List Byte → List Byte → List Byte → Bool

/-- ML-DSA-87 signature by the die's identity key (R520; log 17). -/
opaque sign : List Byte → List Byte

/-- The die's identity public key (R520; log 17). -/
opaque identityKey : List Byte

/-- A value the spec leaves unstated, drawn by its place and the model's counter (log 18). -/
opaque unstated : Nat → Nat → Nat

/-- The Peal target list that a received packet carries, of its fabric data: the spec names no field for it (R254, R256; log 20). -/
opaque pealCarried : List Byte → Nat

/-- The digest of the public key in a key slot of the fuses (R490; log 21). -/
opaque keyDigest : Nat → List Byte

/-- The block of a resynchronisation record, whose layout the spec does not give (R474; log 22). -/
opaque resyncRecord : Nat → List Byte

/-- The 128-byte line of DDR4 that holds a flow context, by table, bucket and position (R428; log 27). -/
opaque contextLine : Nat → Nat → Nat → Nat

/-- The 64-byte line of DDR4 that holds a counter's total, by its identifier (R428; log 27). -/
opaque counterLine : Nat → Nat

/-- What QD's copy of Tempo is off FD's at an elapsed instant, before the bound of R31 is applied (R31; log 52). -/
opaque qdSkew : Nat → Int

/-- What the DDR4 code makes of a beat with flipped bits beyond what R424 states: 0 nothing seen, 1 a correction, 2 an uncorrectable error
(R424; log 68). -/
opaque eccBeyond : List Nat → Nat

/-- What the HBM3 code makes of an access with errors in more than two symbols, which R432 does not state: modulo 3 as for `eccBeyond` (log 72). -/
opaque hbmBeyond : List Nat → Nat

end Sys2Proof.Config
end

