-- ==== Sys2Proof/Machine/Assoc.lean ====
section
/-! DEFINITION. Sparse tables in one canonical form: keys strictly rising, so that equal tables are equal data. -/

namespace Sys2Proof.Machine

/-- The entry of key `k`. -/
def aget {α : Type} : Assoc α → Nat → Option α
  | [], _ => none
  | (j, v) :: t, k => if j = k then some v else aget t k

/-- The entry of key `k`, or `d`. -/
def agetD {α : Type} (t : Assoc α) (k : Nat) (d : α) : α := (aget t k).getD d

/-- Key `k` is present. -/
def ahas {α : Type} (t : Assoc α) (k : Nat) : Bool := (aget t k).isSome

/-- Set the entry of key `k`. -/
def aset {α : Type} : Assoc α → Nat → α → Assoc α
  | [], k, v => [(k, v)]
  | (j, w) :: t, k, v =>
    if k < j then (k, v) :: (j, w) :: t
    else if k = j then (k, v) :: t
    else (j, w) :: aset t k v

/-- Remove key `k`. -/
def adel {α : Type} (t : Assoc α) (k : Nat) : Assoc α := t.filter (fun p => p.1 != k)

/-- Set or remove key `k`. -/
def aput {α : Type} (t : Assoc α) (k : Nat) : Option α → Assoc α
  | some v => aset t k v
  | none => adel t k

/-- Change the entry of key `k`, when present. -/
def aupd {α : Type} (t : Assoc α) (k : Nat) (f : α → α) : Assoc α :=
  t.map (fun p => if p.1 = k then (p.1, f p.2) else p)

/-- The keys of a table, rising. -/
def akeys {α : Type} (t : Assoc α) : List Nat := t.map Prod.fst

/-- The entries of a table, in the order of their keys. -/
def avals {α : Type} (t : Assoc α) : List α := t.map Prod.snd

/-- Keys strictly rising: the canonical form. -/
def awf {α : Type} : Assoc α → Bool
  | [] => true
  | [_] => true
  | a :: b :: t => a.1 < b.1 && awf (b :: t)

/-- Lowest natural number below `n` that satisfies `p`. -/
def firstBelow (p : Nat → Bool) : Nat → Option Nat
  | 0 => none
  | n + 1 => match firstBelow p n with
    | some k => some k
    | none => if p n then some n else none

/-- Lowest number at or above `k`, tried `fuel` times, that satisfies `p`. -/
def firstFrom (p : Nat → Bool) : Nat → Nat → Option Nat
  | 0, _ => none
  | fuel + 1, k => if p k then some k else firstFrom p fuel (k + 1)

/-- The lowest key that a table lacks. -/
def lowestAbsent {α : Type} (t : Assoc α) (k : Nat) : Nat :=
  (firstFrom (fun j => !ahas t j) (t.length + 1) k).getD k

/-- The next of some queues in ascending order after the one served last: deficit round-robin in bursts of 2 KiB, whose quantum is one
burst, serves them in turn (R250). -/
def nextTurn (last : Option Nat) (l : List Nat) : Option Nat :=
  match last.bind (fun p => l.find? (fun v => p < v)) with
  | some v => some v
  | none => l.head?

end Sys2Proof.Machine
end

