-- ==== Sys2Proof/Machine/Codes.lean ====
section
/-! DEFINITION. Status codes (Table 11-13 and the group owners), discard causes (R408) and event codes (Table 11-9 and the group owners). -/

namespace Sys2Proof.Machine.St

abbrev ok : Nat := 0x0000
abbrev invalidParam : Nat := 0x0001
abbrev unknownOpcode : Nat := 0x0002
abbrev aborted : Nat := 0x0003
abbrev abortTooLate : Nat := 0x0004
abbrev timedOut : Nat := 0x0005
abbrev restarted : Nat := 0x0006
abbrev tagInUse : Nat := 0x0007
abbrev targetUnreachable : Nat := 0x0008
abbrev notFound : Nat := 0x0009
abbrev noSuchId : Nat := 0x000A
abbrev idInUse : Nat := 0x000B
abbrev idQuarantined : Nat := 0x000C
abbrev noResource : Nat := 0x000D
abbrev dmaError : Nat := 0x000E
abbrev laneGroup : Nat := 0x0201
abbrev laneConflict : Nat := 0x0202
abbrev portBusy : Nat := 0x0203
abbrev flexeMember : Nat := 0x0301
abbrev flexeBusy : Nat := 0x0302
abbrev flexeClientActive : Nat := 0x0303
abbrev flexeNoAck : Nat := 0x0304
abbrev flexeGroupDown : Nat := 0x0305
abbrev noSuchProfile : Nat := 0x0401
abbrev profileInUse : Nat := 0x0402
abbrev tcamFull : Nat := 0x0403
abbrev keyTooWide : Nat := 0x0404
abbrev noSuchTable : Nat := 0x0405
abbrev tableInUse : Nat := 0x0406
abbrev commitTooLate : Nat := 0x0501
abbrev commitBusy : Nat := 0x0502
abbrev commitNotHead : Nat := 0x0503
abbrev commitNotReady : Nat := 0x0504
abbrev commitReverted : Nat := 0x0505
abbrev commitDiverged : Nat := 0x0506
abbrev fibFull : Nat := 0x0507
abbrev emFull : Nat := 0x0508
abbrev ecmpFull : Nat := 0x0509
abbrev stagingFull : Nat := 0x050A
abbrev flowAbsent : Nat := 0x050B
abbrev flowExists : Nat := 0x050C
abbrev flowBucketFull : Nat := 0x050D
abbrev flowLocked : Nat := 0x050E
abbrev lockFull : Nat := 0x050F
abbrev lockExpired : Nat := 0x0510
abbrev bufBusy : Nat := 0x0601
abbrev pealFull : Nat := 0x0602
abbrev nodeInUse : Nat := 0x0701
abbrev fabricBusy : Nat := 0x0801
abbrev ringExists : Nat := 0x0901
abbrev noSuchRing : Nat := 0x0902
abbrev ringBusy : Nat := 0x0903
abbrev txOversize : Nat := 0x0904
abbrev noIndexBlocks : Nat := 0x0905
abbrev tempoFollower : Nat := 0x0A01
abbrev tempoBusy : Nat := 0x0A02
abbrev carillonBusy : Nat := 0x0B01
abbrev protectMember : Nat := 0x0B02
abbrev protectStandby : Nat := 0x0B03
abbrev protectNotSync : Nat := 0x0B04
abbrev protectActive : Nat := 0x0B05
abbrev protectLockout : Nat := 0x0B06
abbrev noSuchPair : Nat := 0x0B07
abbrev fwBusy : Nat := 0x0C01
abbrev fwNotStaged : Nat := 0x0C02
abbrev fwBadHeader : Nat := 0x0C03
abbrev fwWrongPart : Nat := 0x0C04
abbrev fwKeyInvalid : Nat := 0x0C05
abbrev fwKeyRevoked : Nat := 0x0C06
abbrev fwRollback : Nat := 0x0C07
abbrev fwDigest : Nat := 0x0C08
abbrev fwSignature : Nat := 0x0C09
abbrev fwOutOfOrder : Nat := 0x0C0A
abbrev fwNotHead : Nat := 0x0C0B
abbrev fwNoPrevious : Nat := 0x0C0C
abbrev fwNotProbation : Nat := 0x0C0D
abbrev settingsMigrationFailed : Nat := 0x0C0E
abbrev settingsFull : Nat := 0x0C0F
abbrev settingsReadOnly : Nat := 0x0C10
abbrev noSuchSetting : Nat := 0x0C11
abbrev flashError : Nat := 0x0C12
abbrev keyInUse : Nat := 0x0C13
abbrev keyLast : Nat := 0x0C14
abbrev fwSettingsFormat : Nat := 0x0C15
abbrev tollBusy : Nat := 0x0D01
abbrev noSuchCounter : Nat := 0x0D02
abbrev auditBusy : Nat := 0x0F01
abbrev auditSpace : Nat := 0x0F02
abbrev auditMismatch : Nat := 0x0F03
abbrev runt : Nat := 0x1001
abbrev oversize : Nat := 0x1002
abbrev fcsError : Nat := 0x1003
abbrev rxFifoFull : Nat := 0x1004
abbrev stageTimeout : Nat := 0x1005
abbrev ruleDrop : Nat := 0x1006
abbrev excRate : Nat := 0x1007
abbrev routeDrop : Nat := 0x1008
abbrev routeMiss : Nat := 0x1009
abbrev nhDrop : Nat := 0x100A
abbrev flowDrop : Nat := 0x100B
abbrev policer : Nat := 0x100C
abbrev bridgeError : Nat := 0x100D
abbrev noDest : Nat := 0x100E
abbrev unreachable : Nat := 0x100F
abbrev portDown : Nat := 0x1010
abbrev tailLimit : Nat := 0x1011
abbrev curveDrop : Nat := 0x1012
abbrev spillFull : Nat := 0x1013
abbrev bufExhaust : Nat := 0x1014
abbrev bufError : Nat := 0x1015
abbrev hbmError : Nat := 0x1016
abbrev reasmTimeout : Nat := 0x1017
abbrev puntLimit : Nat := 0x1018
abbrev age : Nat := 0x1019
abbrev egrOversize : Nat := 0x101A
abbrev macControl : Nat := 0x101B
abbrev standby : Nat := 0x101C
abbrev memError : Nat := 0x0F20

end Sys2Proof.Machine.St

namespace Sys2Proof.Machine.Ev

abbrev eventsLost : Nat := 0x0101
abbrev mgmtRestart : Nat := 0x0102
abbrev cmdDone : Nat := 0x0103
abbrev bridgeError : Nat := 0x0104
abbrev bridgeFailed : Nat := 0x0105
abbrev journalLost : Nat := 0x0106
abbrev portLinkUp : Nat := 0x0201
abbrev portLinkDown : Nat := 0x0202
abbrev portFlushed : Nat := 0x0203
abbrev portCtRaised : Nat := 0x0204
abbrev portTsLost : Nat := 0x0205
abbrev portDormant : Nat := 0x0206
abbrev portDegraded : Nat := 0x0207
abbrev flexeGroupUp : Nat := 0x0301
abbrev flexeGroupDown : Nat := 0x0302
abbrev flexeDefect : Nat := 0x0303
abbrev flexeCalSwitched : Nat := 0x0304
abbrev flexeCalRequest : Nat := 0x0305
abbrev tcamError : Nat := 0x0401
abbrev commitConfirmed : Nat := 0x0501
abbrev commitReverted : Nat := 0x0502
abbrev commitSelfRevert : Nat := 0x0503
abbrev epochDiverged : Nat := 0x0504
abbrev flowEcc : Nat := 0x0505
abbrev bufWarn : Nat := 0x0601
abbrev bufExhaust : Nat := 0x0602
abbrev hbmWarn : Nat := 0x0603
abbrev hbmFull : Nat := 0x0604
abbrev hbmError : Nat := 0x0605
abbrev spillDisabled : Nat := 0x0606
abbrev spillEnabled : Nat := 0x0607
abbrev gateListStarted : Nat := 0x0701
abbrev gateHeld : Nat := 0x0702
abbrev leafReleased : Nat := 0x0703
abbrev fabricLaneUp : Nat := 0x0801
abbrev fabricLaneDown : Nat := 0x0802
abbrev fabricMiswire : Nat := 0x0803
abbrev fabricUnreachable : Nat := 0x0804
abbrev fabricReachable : Nat := 0x0805
abbrev fabricDualExposed : Nat := 0x0806
abbrev fabricDestMismatch : Nat := 0x0807
abbrev ringStopped : Nat := 0x0901
abbrev ringCqStall : Nat := 0x0902
abbrev ringCqResume : Nat := 0x0903
abbrev rxPoolEmpty : Nat := 0x0904
abbrev tempoLocked : Nat := 0x0A01
abbrev tempoUnlocked : Nat := 0x0A02
abbrev tempoHoldover : Nat := 0x0A03
abbrev tempoStepped : Nat := 0x0A04
abbrev tempoSkew : Nat := 0x0A05
abbrev carillonNeighbour : Nat := 0x0B01
abbrev carillonMiswire : Nat := 0x0B02
abbrev carillonHead : Nat := 0x0B03
abbrev carillonRing : Nat := 0x0B04
abbrev carillonExcluded : Nat := 0x0B05
abbrev protectState : Nat := 0x0B06
abbrev protectSwitch : Nat := 0x0B07
abbrev protectMirrorStale : Nat := 0x0B08
abbrev protectDualActive : Nat := 0x0B09
abbrev mgmtBusExcess : Nat := 0x0B0A
abbrev fwStaged : Nat := 0x0C01
abbrev fwVerified : Nat := 0x0C02
abbrev fwActivateStep : Nat := 0x0C03
abbrev fwProbation : Nat := 0x0C04
abbrev fwConfirmed : Nat := 0x0C05
abbrev fwReverted : Nat := 0x0C06
abbrev fwSlotBad : Nat := 0x0C07
abbrev fwNoPrevious : Nat := 0x0C08
abbrev fwCarillonStep : Nat := 0x0C09
abbrev flashError : Nat := 0x0C0A
abbrev fwMigrationFailed : Nat := 0x0C0B
abbrev keyRevoked : Nat := 0x0C0C
abbrev tollSkipped : Nat := 0x0D01
abbrev tollError : Nat := 0x0D02
abbrev tollState : Nat := 0x0D03
abbrev shedLevel : Nat := 0x0E01
abbrev thermal : Nat := 0x0E02
abbrev humOverrun : Nat := 0x0E03
abbrev knellFound : Nat := 0x0E04
abbrev auditMismatch : Nat := 0x0F01
abbrev auditTable : Nat := 0x0F02
abbrev sramUe : Nat := 0x0F03
abbrev queueError : Nat := 0x0F04
abbrev fatal : Nat := 0x0F05
abbrev stageTimeout : Nat := 0x0F06
abbrev bufReclaimed : Nat := 0x0F07
abbrev ddrUe : Nat := 0x0F20
abbrev ddrTimeout : Nat := 0x0F21
abbrev ddrCeRate : Nat := 0x0F22
abbrev ddrMargin : Nat := 0x0F23
abbrev stagingLost : Nat := 0x0F24
abbrev hbmPageRetired : Nat := 0x0F25
abbrev hbmRetireFull : Nat := 0x0F26
abbrev hbmStackFailed : Nat := 0x0F27
abbrev hbmPower : Nat := 0x0F28

end Sys2Proof.Machine.Ev
end

