-- ==== Sys2Proof/Machine/Bytes.lean ====
section
/-! DEFINITION. Byte strings: the two byte orders of R7, two's complement, padding, and the check codes the spec names. -/

namespace Sys2Proof.Machine

/-- The value of a byte string, least significant byte first (R7, host structures). -/
def leVal : List Byte → Nat
  | [] => 0
  | b :: bs => b.toNat + 256 * leVal bs

/-- The value of a byte string, most significant byte first (R7, frames and cells). -/
def beVal (bs : List Byte) : Nat := leVal bs.reverse

/-- `n` bytes of `v`, least significant first. -/
def le : Nat → Nat → List Byte
  | 0, _ => []
  | n + 1, v => BitVec.ofNat 8 v :: le n (v / 256)

/-- `n` bytes of `v`, most significant first. -/
def be (n v : Nat) : List Byte := (le n v).reverse

/-- The `n` bytes at offset `off`; bytes past the end are absent. -/
def slice (bs : List Byte) (off n : Nat) : List Byte := (bs.drop off).take n

/-- The little-endian field of `n` bytes at offset `off`. -/
def rd (bs : List Byte) (off n : Nat) : Nat := leVal (slice bs off n)

/-- The big-endian field of `n` bytes at offset `off`. -/
def rdBe (bs : List Byte) (off n : Nat) : Nat := beVal (slice bs off n)

/-- Bit `i` of a number, as a number. -/
def bit (v i : Nat) : Nat := v / 2 ^ i % 2

/-- Bits `hi` down to `lo` of a number (R6). -/
def bits (v hi lo : Nat) : Nat := v / 2 ^ lo % 2 ^ (hi + 1 - lo)

/-- Two's complement reading of the low `w` bits. -/
def signed (w v : Nat) : Int :=
  if v % 2 ^ w < 2 ^ (w - 1) then (v % 2 ^ w : Nat) else ((v % 2 ^ w : Nat) : Int) - ((2 ^ w : Nat) : Int)

/-- The two's complement bits of an integer in `w` bits. -/
def unsignedOf (w : Nat) (i : Int) : Nat := (i % ((2 ^ w : Nat) : Int)).toNat

/-- `true` as one, `false` as zero. -/
def b2n (b : Bool) : Nat := if b then 1 else 0

/-- A byte string of `n` zeros. -/
def zeros (n : Nat) : List Byte := List.replicate n 0

/-- A byte string cut or zero-filled to exactly `n` bytes. -/
def fit (n : Nat) (bs : List Byte) : List Byte := bs.take n ++ zeros (n - bs.length)

/-- The bytes at `off` replaced by `new`, the length kept. -/
def patch (bs : List Byte) (off : Nat) (new : List Byte) : List Byte :=
  (bs.take off ++ new ++ bs.drop (off + new.length)).take bs.length

/-- Every byte of the string is zero. -/
def allZero (bs : List Byte) : Bool := bs.all (· == 0)

/-- `f` applied `n` times. -/
def iter {α : Type} (f : α → α) : Nat → α → α
  | 0, a => a
  | n + 1, a => iter f n (f a)

/-- One bit of a reflected CRC with polynomial `poly` (bit-reversed form). -/
def crcBitR (poly c : Nat) : Nat := if c % 2 = 1 then (c / 2) ^^^ poly else c / 2

/-- One byte of a reflected CRC. -/
def crcByteR (poly c : Nat) (b : Byte) : Nat := iter (crcBitR poly) 8 (c ^^^ b.toNat)

/-- One bit of a most-significant-first CRC of width `w`. -/
def crcBitM (w poly c : Nat) : Nat :=
  if c / 2 ^ (w - 1) % 2 = 1 then (2 * c % 2 ^ w) ^^^ poly else 2 * c % 2 ^ w

/-- One byte of a most-significant-first CRC of width `w`. -/
def crcByteM (w poly c : Nat) (b : Byte) : Nat :=
  iter (crcBitM w poly) 8 (c ^^^ (b.toNat * 2 ^ (w - 8)))

/-- CRC-32C running value over a byte string (polynomial 0x1EDC6F41 reflected), without the final inversion. -/
def crc32cRun (c : Nat) (bs : List Byte) : Nat := bs.foldl (crcByteR 0x82F63B78) c

/-- CRC-32C (Table 15-2): initial value and final inversion all ones, reflected. -/
def crc32c (bs : List Byte) : Nat := crc32cRun 0xFFFFFFFF bs ^^^ 0xFFFFFFFF

/-- CRC-64, ECMA-182 polynomial, most significant bit first, running value. -/
def crc64Run (c : Nat) (bs : List Byte) : Nat := bs.foldl (crcByteM 64 0x42F0E1EBA9EA3693) c

/-- CRC-64 of the change journal and of the tables (Table 11-10, Table 15-2). -/
def crc64 (bs : List Byte) : Nat := crc64Run 0 bs

/-- CRC-16 with polynomial 0x1021, initial value all ones, most significant bit first. -/
def crc16 (bs : List Byte) : Nat := bs.foldl (crcByteM 16 0x1021) 0xFFFF

/-- CRC-32 of IEEE 802.3 (the frame check sequence). -/
def crc32 (bs : List Byte) : Nat := bs.foldl (crcByteR 0xEDB88320) 0xFFFFFFFF ^^^ 0xFFFFFFFF

end Sys2Proof.Machine
end

