-- ==== Sys2Proof/Machine/Messages.lean ====
section
/-! DEFINITION. Carillon and management-bus messages in their Ethernet frames (R446, Table 13-1). -/

namespace Sys2Proof.Machine

/-- A carillon or bus message taken out of its frame. -/
structure Msg where
  version : Nat
  domain : Nat
  typ : Nat
  cid : Nat
  src : Nat
  dst : Nat
  msgId : Nat
  fragIndex : Nat
  fragCount : Nat
  length : Nat
  payload : List Byte
  deriving DecidableEq, Repr

/-- The message of a frame from its destination address to its FCS. -/
def msgOf (f : List Byte) : Msg :=
  { version := rdBe f 14 1, domain := rdBe f 15 1, typ := rdBe f 16 1, cid := rdBe f 18 4, src := rdBe f 22 1,
    dst := rdBe f 23 1, msgId := rdBe f 24 4, fragIndex := rdBe f 28 1, fragCount := rdBe f 29 1, length := rdBe f 30 2,
    payload := slice f 34 (rdBe f 30 2) }

/-- A frame whose check sequence is right. -/
def fcsGood (f : List Byte) : Bool := 4 < f.length && le 4 (crc32 (f.take (f.length - 4))) == f.drop (f.length - 4)

/-- A frame with its padding to 64 bytes and its check sequence. -/
def frameOf (body : List Byte) : List Byte :=
  let b := if body.length < 60 then fit 60 body else body
  b ++ le 4 (crc32 b)

/-- The bytes of a message frame. -/
def msgFrame (dstMac srcMac : List Byte) (m : Msg) : List Byte :=
  frameOf (dstMac ++ srcMac ++ [0x88, 0xB5] ++ be 1 m.version ++ be 1 m.domain ++ be 1 m.typ ++ zeros 1 ++ be 4 m.cid ++
    be 1 m.src ++ be 1 m.dst ++ be 4 m.msgId ++ be 1 m.fragIndex ++ be 1 m.fragCount ++ be 2 m.payload.length ++ zeros 2 ++
    m.payload)

end Sys2Proof.Machine
end

