-- ==== Sys2Proof/Machine/ConfTypes.lean ====
section
/-! DEFINITION. The epoch-bound configuration (Table 02-5, left column), one value per epoch, and the changes that a commit holds. -/

namespace Sys2Proof.Machine

/-- A profile-selection entry (Table 05-2). -/
structure SelEntry where
  prio : Nat
  profile : Nat
  key : Nat
  mask : Nat
  /-- Insertion order (R150). -/
  order : Nat
  /-- Physical index (R170). -/
  index : Nat
  deriving DecidableEq, Repr

/-- A rule table (Table 05-8). `width` is the code 0 to 2, `hole` the spacing in force. -/
structure RuleTable where
  width : Nat
  hole : Nat
  dflt : List Byte
  deriving DecidableEq, Repr

/-- A classification rule (Table 05-9). -/
structure Rule where
  table : Nat
  prio : Nat
  key : List Byte
  mask : List Byte
  action : List Byte
  order : Nat
  index : Nat
  deriving DecidableEq, Repr

/-- An exception reason's settings (Table 05-7). -/
structure ExcCfg where
  queue : Nat
  truncate : Nat
  burst : Nat
  rate : Nat
  deriving DecidableEq, Repr

/-- A next hop (Table 06-5). -/
structure NextHop where
  kind : Nat
  reason : Nat
  dest : Nat
  template : Nat
  dmac : List Byte
  val0 : Nat
  val1 : Nat
  deriving DecidableEq, Repr

/-- A destination port (Table 07-1). -/
structure Dest where
  kind : Nat
  endpoint : Nat
  epList : Nat
  localPort : Nat
  leafBase : Nat
  pealList : Nat
  profiles : List Nat
  deriving DecidableEq, Repr

/-- A VOQ profile (Table 07-5). -/
structure VoqProfile where
  flags : Nat
  tailLimit : Nat
  ondieLimit : Nat
  spillHigh : Nat
  spillLow : Nat
  headKeep : Nat
  /-- The four points DEPTH, PROB. -/
  curve : List (Nat × Nat)
  deriving DecidableEq, Repr

/-- A pool's warning levels and reserves (Table 07-3). -/
structure PoolCfg where
  warn1 : Nat
  warn2 : Nat
  warn3 : Nat
  resLg : Nat
  resEgress : Nat
  resHost : Nat
  deriving DecidableEq, Repr

/-- A sampler (Table 07-10). -/
structure SamplerCfg where
  mode : Nat
  reason : Nat
  n : Nat
  truncate : Nat
  deriving DecidableEq, Repr

/-- A port node's shaper (R278). -/
structure PortSched where
  rate : Nat
  burst : Nat
  overhead : Int
  deriving DecidableEq, Repr

/-- A channel, aggregate or leaf queue (Table 08-2). -/
structure SchedNode where
  prio : Nat
  weight : Nat
  parent : Nat
  cls : Nat
  gate : Nat
  overhead : Int
  rate : Nat
  burst : Nat
  grantStop : Nat
  deriving DecidableEq, Repr

/-- A gate control list (Tables 08-3, 08-4): BASE in ns from the Tempo epoch, entries of interval and GATES. -/
structure GateList where
  cycle : Nat
  base : Nat
  lead : Nat
  guards : List Nat
  entries : List (Nat × Nat)
  deriving DecidableEq, Repr

/-- A policer (Table 08-7). -/
structure PolicerCfg where
  flags : Nat
  overhead : Int
  rate : Nat
  burst : Nat
  deriving DecidableEq, Repr

/-- The configuration of one epoch (R47, R48). A sparse table without a key holds the reset entry of that key. -/
structure Conf where
  layout : List Nat
  profiles : Assoc (List Byte)
  selects : Assoc SelEntry
  classMaps : Assoc (List Nat)
  /-- Keyed by direction × 256 + table. -/
  ruleTables : Assoc RuleTable
  /-- Keyed by direction × 131,072 + RULE_ID. -/
  rules : Assoc Rule
  exceptions : Assoc ExcCfg
  vrfMiss : Assoc Nat
  /-- Prefix and host routes, by `routeKey`. -/
  routes : Assoc Nat
  labels : Assoc Nat
  hashSeed : Nat
  nextHops : Assoc NextHop
  ecmp : Assoc (List Nat)
  templates : Assoc (List Byte)
  dests : Assoc Dest
  voqProfiles : Assoc VoqProfile
  epLists : Assoc (List Nat)
  pealLists : Assoc (List Nat)
  pools : Assoc PoolCfg
  samplers : Assoc SamplerCfg
  puntLimits : Assoc Nat
  portScheds : Assoc PortSched
  channels : Assoc SchedNode
  aggregates : Assoc SchedNode
  leaves : Assoc SchedNode
  gateLists : Assoc GateList
  creditBytes : Nat
  creditRatio : Nat
  creditPeal : Assoc (List Nat)
  policers : Assoc PolicerCfg
  /-- Grid period in units of 250 µs (R43). -/
  grid : Nat
  /-- Maximum packet age in ms (R54). -/
  maxAge : Nat
  deriving DecidableEq, Repr

/-- One configuration change as staged (R47, R60). `none` removes the entry. -/
inductive Change where
  | layout (offs : List Nat)
  | profile (id : Nat) (e : Option (List Byte))
  | select (id : Nat) (e : Option SelEntry)
  | classMap (m : Nat) (classes : List Nat)
  | ruleTable (key : Nat) (t : Option RuleTable)
  | rule (key : Nat) (r : Option Rule)
  | ruleAction (key : Nat) (a : List Byte)
  | exception (reason : Nat) (e : ExcCfg)
  | vrfMiss (vrf miss : Nat)
  | route (key : Nat) (result : Option Nat)
  | label (l : Nat) (result : Option Nat)
  | hashSeed (seed : Nat)
  | nextHop (id : Nat) (n : Option NextHop)
  | ecmp (id : Nat) (slots : Option (List Nat))
  | template (id : Nat) (t : Option (List Byte))
  | dest (d : Nat) (e : Option Dest)
  | voqProfile (p : Nat) (e : VoqProfile)
  | epList (n : Nat) (dests : List Nat)
  | pealList (n : Nat) (targets : Option (List Nat))
  | pool (p : Nat) (c : PoolCfg)
  | sampler (s : Nat) (c : SamplerCfg)
  | puntLimit (q limit : Nat)
  | portSched (port : Nat) (c : PortSched)
  | channel (n : Nat) (c : Option SchedNode)
  | aggregate (n : Nat) (c : Option SchedNode)
  | leaf (n : Nat) (c : Option SchedNode)
  | gateList (port : Nat) (g : Option GateList)
  | credit (bytes ratio : Nat)
  | creditPeal (dest : Nat) (rates : List Nat)
  | policer (n : Nat) (c : PolicerCfg)
  | grid (period : Nat)
  | maxAge (ms : Nat)
  deriving DecidableEq, Repr

/-- What the completion of a staged change still waits for (R60): nothing; the standby's acknowledgement of its MIRROR_CFG (R471); the
write of the record that a full completion ring holds on die, by the ring and the producer index that the write reaches (R367). -/
inductive Due where
  | written
  | mirror (seq : Nat)
  | record (ring index : Nat)
  deriving DecidableEq, Repr

/-- A staged change: its change units (R203) and the commit that sealed it (R60): carillon scope and SEQ. -/
structure Staged where
  change : Change
  units : Nat
  sealedBy : Option (Bool × Nat)
  /-- Entries of the same table that an insertion moves, with their new physical indices: copies held until its commit switches (R170). -/
  moves : List (Nat × Nat) := []
  /-- Function, table-update ring, INDEX and TAG of the descriptor that staged it (R402). -/
  src : Option (Nat × Nat × Nat × Nat) := none
  /-- Its staging is complete when its completion is written (R60). -/
  due : Due := .written
  deriving DecidableEq, Repr

/-- An outstanding commit's phase (Table 02-4, Table 02-12). -/
inductive CommitPhase where
  | preparing | prepared | armed | switched
  deriving DecidableEq, Repr

/-- An outstanding commit (R59 to R72). -/
structure Commit where
  carillon : Bool
  /-- A package-scope commit that the pair's two members run together (R472). -/
  pair : Bool
  seq : Nat
  target : Nat
  phase : CommitPhase
  /-- This package coordinates the commit: the head, or the package itself in package scope. -/
  head : Bool
  noDefer : Bool
  reapply : Option Nat
  /-- Elapsed ns at which preparation may begin, and its end at the latest (R64). -/
  prepStart : Nat
  prepEnd : Nat
  /-- Positions whose vote for the current attempt has arrived (bit n). -/
  votes : Nat
  /-- Positions that answered SWITCHED, and those that answered NOT_SWITCHED. -/
  acks : Nat
  nacks : Nat
  deferrals : Nat
  missing : Nat
  changes : Nat
  decided : Bool
  /-- This package withholds its vote: it lost staged changes (Table 12-3). -/
  lost : Bool
  /-- The configuration before the switch, kept for a return (R67). -/
  retained : Option Conf
  retainedEpoch : Nat
  retainedCseq : Nat
  /-- ECMP slots and Peal targets of the lists that its switch rewrote, held until its release (R193, R257). -/
  oldSlots : Nat
  oldTargets : Nat
  /-- A REVERT asks for the return at D+2 (R67). -/
  reverting : Bool
  /-- Source and ORIGIN of its `table.commit` (Table 11-1). -/
  source : Nat
  origin : Nat
  deriving DecidableEq, Repr

/-- The outcome of a commit (Table 02-12). -/
structure CommitOutcome where
  carillon : Bool
  seq : Nat
  outcome : Nat
  status : Nat
  downbeat : Nat
  changes : Nat
  deferrals : Nat
  missing : Nat
  deriving DecidableEq, Repr

/-- A quarantine mark (R55): the freeing downbeat, its elapsed instant, the largest maximum age since, and postponement in ns. -/
structure Quar where
  freedBy : Nat
  freedAt : Nat
  age : Nat
  postponed : Nat
  /-- What a freed next hop, template or Peal list held: packets that resolved it before still use it (R53, R55; log 19). -/
  hop : Option NextHop
  template : Option (List Byte)
  peal : Option (List Nat)
  /-- Slots of a freed ECMP group (R193). -/
  slots : Nat
  deriving DecidableEq, Repr

/-- Sources of Tempo (Table 02-1). -/
inductive TempoSource where
  | freeRun | pps | host | carillon
  deriving DecidableEq, Repr

/-- Tempo states (Table 02-2). -/
inductive TempoMode where
  | freeRun | acquiring | locked | holdover
  deriving DecidableEq, Repr

/-- Tempo and the grid (chapter 02). -/
structure Tempo where
  /-- Tempo in units of 10⁻¹² ns. -/
  now : Nat
  /-- Frequency correction, units of 0.001 ppb, signed (R40). -/
  freq : Int
  /-- Phase still to be slewed, units of 10⁻¹² ns, signed (R40). -/
  slew : Int
  source : TempoSource
  mode : TempoMode
  /-- Elapsed ns of the selection of the source, of its last edge or adjustment, and of the last PPS_IN edge, if any. -/
  selectedAt : Nat
  lastInput : Nat
  lastEdge : Option Nat
  /-- Correction in force at the selection, and the last 16 corrections since, newest first (R39). -/
  freqAtSelect : Int
  corrections : List Int
  todGiven : Bool
  goodEdges : Nat
  badEdges : Nat
  spacedEdges : Nat
  /-- Tempo at the last PPS_IN edge (TMP_PPS_*), and its offset in ns. -/
  ppsTempo : Nat
  ppsOffset : Int
  /-- A step that the servo waits for, in ns, signed (R41). -/
  stepWaiting : Option Int
  stepped : Bool
  skewAlarm : Bool
  /-- Grid anchor downbeat and its instant in ns from the Tempo epoch (R43). -/
  anchor : Nat
  anchorAt : Nat
  lastDownbeat : Nat
  /-- Downbeat numbers that forward steps passed over, each from the first one to below the second: they never occur (R46). -/
  skips : List (Nat × Nat)
  /-- The second boundary that comes next: a step moves it (R75). -/
  nextSecond : Nat
  /-- Last second boundary that latched (R75). -/
  lastSecond : Nat
  epoch : Nat
  cseq : Nat
  /-- Value in ns to which the last step led: no exchange of a heartbeat spans it (R38, R41). -/
  steppedTo : Nat
  /-- Last multiple of 10 ms at which heartbeats were sent, and one due when a forward step came (R75). -/
  lastBeat : Option Nat
  beatDue : Option Nat
  /-- QD's copy of Tempo minus FD's, and FD's Tempo at which QD made the last downbeat's changes by its copy, units of 10⁻¹² ns (R31). -/
  qdOffset : Int
  qdDownbeat : Int
  deriving DecidableEq, Repr

end Sys2Proof.Machine
end

