-- ==== Sys2Proof/Machine/OutTypes.lean ====
section
/-! DEFINITION. What the block sends to the outside: frames, fabric units, messages, interrupts, pins and read data. -/

namespace Sys2Proof.Machine

/-- A ring as it stood when a descriptor of it was taken: its number and its place among all rings created (R342, R365). -/
structure RingRef where
  ring : Nat
  made : Nat
  deriving DecidableEq, Repr

/-- Output pins of the board interface and the flash (R544, R604, R608). -/
inductive Pin where
  | ppsOut | thermTripN | flResetN
  deriving DecidableEq, Repr

/-- What a line's transmitter carries besides frames (R105, R109). -/
inductive LineSignal where
  | off | normal | remoteFault | idle
  deriving DecidableEq, Repr

/-- What the overhead of one FlexE instance carries (R116, R118, R120, R126, R127): the group and PHY numbers with the PHY map, the instance
number, CR, CA, the three copies of C, RPF, SC, and the CLIENT_IDs of both calendars, 0 for an unused slot; slots of the calendar in use
that carry Error blocks. The management channels are sent as Idle blocks. -/
structure Overhead where
  port : Nat
  inst : Nat
  group : Nat
  phy : Nat
  phyMap : Nat
  instNumber : Nat
  cr : Bool
  ca : Bool
  c : List Bool
  rpf : Bool
  sc : Bool
  calA : List Nat
  calB : List Nat
  errorSlots : List Nat
  deriving DecidableEq, Repr

/-- One thing the block sent (R7, R97, R303, R374, R449, R462). -/
inductive Out where
  /-- A frame on a line port or client, FCS included, with its egress timestamp; `stomped`: R98. -/
  | frame (mac : Nat) (bytes : List Byte) (ts : Nat) (stomped : Bool)
  /-- A port's or client's transmitter carries another signal from here on (R105). -/
  | signal (mac : Nat) (x : LineSignal)
  /-- A unit on a fabric lane. -/
  | fabric (lane : Nat) (unit : List Byte)
  /-- IDLE units that filled a fabric lane since its last unit (R304). -/
  | fabricIdle (lane units : Nat)
  /-- A message on a carillon port. -/
  | carillon (port : Nat) (msg : List Byte)
  /-- A frame on the management bus. -/
  | bus (msg : List Byte)
  /-- The overhead frames of a FlexE instance carry this from the next one on, a staged calendar from the next multiframe on (R126). -/
  | flexe (x : Overhead)
  /-- An MSI-X message. -/
  | msix (fn vector : Nat)
  /-- The data a register read returns. -/
  | readData (value : Nat)
  /-- A pin driven to a level. -/
  | pin (p : Pin) (level : Bool)
  /-- A pin driven to a level for some nanoseconds, and then back. -/
  | pulse (p : Pin) (level : Bool) (ns : Nat)
  deriving DecidableEq, Repr

end Sys2Proof.Machine
end

