-- ==== Sys2Proof/Machine/DataTypes.lean ====
section
/-! DEFINITION. The state of the data plane: packets, ports, queues, buffers, schedulers and the fabric side (chapters 01, 03, 05 to 09). -/

namespace Sys2Proof.Machine

/-- Link states of Table 03-7. -/
inductive LinkState where
  | adminDown | down | debounce | up | hold | holdDebounce | dormant
  deriving DecidableEq, Repr

/-- Where an injected frame's completion goes (R365). -/
structure InjectRef where
  home : RingRef
  cq : RingRef
  index : Nat
  tag : Nat
  seqTag : Nat
  notify : Bool
  capture : Bool
  /-- Of a DIRECT frame: the port or client of its leaf queue (Table 10-9). -/
  port : Nat
  deriving DecidableEq, Repr

/-- A packet with its metadata between its stages (Tables 05-1, 09-6, 09-7). -/
structure Pkt where
  /-- The frame from its destination address, FCS excluded. -/
  bytes : List Byte
  /-- Frame length, FCS included, as admission, policers and depths count it. -/
  len : Nat
  source : Nat
  injected : Bool
  pass : Nat
  /-- Ingress timestamp, or injection instant: Tempo in units of 10⁻¹² ns. -/
  ts : Nat
  /-- Profile selected, 0xFFFF when none. -/
  profile : Nat
  cls : Nat
  /-- System destination port. -/
  dest : Nat
  nh : Option Nat
  encap : Option Nat
  pop : Nat
  decTtl : Bool
  writes : List (Nat × Nat)
  ecn : Bool
  /-- COPY of Table 05-5. -/
  copy : Bool
  /-- VRF carried by a pass after a tunnel termination (R183). -/
  vrf : Option Nat
  /-- Peal target list carried by a multicast copy (R254). -/
  peal : Option Nat
  /-- DIRECT injection: no table, template or field write in its egress pass (R363); and its leaf queue. -/
  direct : Bool
  leaf : Nat
  /-- One-step action and message offset (R101). -/
  ptp : Nat × Nat
  inject : Option InjectRef
  /-- Number of the stored copy on the on-die buffer (R233, R258). -/
  store : Option Nat
  /-- RUNT, FCS_ERROR and OVERSIZE of a frame punted under DELIVER_BAD (R86). -/
  bad : Nat
  /-- MAC sub-queue it came from (R90). -/
  subQueue : Nat
  /-- Stream whose cells brought it, source endpoint × 2 + stream; none before reassembly (R19). -/
  stream : Option Nat
  deriving DecidableEq, Repr

/-- A packet on its way to the host (R161, R371, Table 10-13). -/
structure Punt where
  bytes : List Byte
  /-- FRAME_LENGTH and the frame length without FCS. -/
  frameLen : Nat
  trunc : Nat
  reason : Nat
  source : Nat
  profile : Nat
  flags : Nat
  ts : Nat
  store : Option Nat
  deriving DecidableEq, Repr

/-- What crosses the die-to-die bridge (R27). -/
inductive Xfer where
  /-- A packet after its ingress pass, to its VOQ. -/
  | toVoq (p : Pkt)
  /-- A punted packet or copy, to its punt queue. -/
  | toPunt (queue : Nat) (p : Punt)
  /-- A directly injected packet, to its leaf queue. -/
  | toLeaf (leaf : Nat) (p : Pkt)
  /-- A selected packet, to its egress pass at a MAC, with its leaf queue. -/
  | toEgress (mac leaf : Nat) (p : Pkt)
  /-- A punted packet on its way back to the host DMA engine (R15): its punt queue, its RECEIVE ring, and the buffer assigned to
  it: place of the pool in its group, descriptor, and bytes delivered. -/
  | toHost (queue ring place : Nat) (desc : List Byte) (len : Nat) (p : Punt)
  deriving DecidableEq, Repr

/-- Settings of a port's or client's MAC (Table 03-2). -/
structure MacCfg where
  speed : Nat
  lanes : Nat
  laneRate : Nat
  fec : Nat
  maxFrame : Nat
  deliverBad : Bool
  cutThrough : Bool
  fcMode : Nat
  flexePhy : Bool
  ctThreshold : Nat
  hold : Nat
  shedRank : Nat
  defaultPriority : Nat
  classToTxq : Nat
  pfcEnable : Nat
  xoff : Nat
  xon : Nat
  headroom : Nat
  rxCorr : Int
  txCorr : Int
  deriving DecidableEq, Repr

/-- A frame in a TXQ (R95). -/
structure TxFrame where
  pkt : Pkt
  /-- The frame as it will be sent, FCS excluded. -/
  out : List Byte
  gate : Nat
  leaf : Nat
  /-- CLASS of its leaf queue, for its TXQ and pause (R95, R96). -/
  cls : Nat
  /-- It has been counted as held by its gate (R284). -/
  held : Bool
  deriving DecidableEq, Repr

/-- A transmit timestamp FIFO entry (R103). -/
structure TsEntry where
  seqTag : Nat
  ts : Nat
  deriving DecidableEq, Repr

/-- Degraded-signal detection of a port (R141). -/
structure Degrade where
  action : Nat
  set : Nat
  clear : Nat
  windowsSet : Nat
  windowsClear : Nat
  declared : Bool
  badRun : Nat
  goodRun : Nat
  deriving DecidableEq, Repr

/-- A frame in transmission, with its bytes, FCS excluded, and its egress timestamp (R100, R101). -/
structure SentFrame where
  frame : TxFrame
  out : List Byte
  ts : Nat
  deriving DecidableEq, Repr

/-- A pause frame, of quanta 0xFFFF or 0, or a PFC frame of the priorities enabled and those of quanta 0xFFFF; its source address is the one
in force when it starts (R92, R613). -/
inductive ControlFrame where
  | pause (on : Bool)
  | pfc (enable on : Nat)
  deriving DecidableEq, Repr

/-- A port's or client's MAC and link (chapter 03). Ports 0–79, clients 128–255. -/
structure Mac where
  cfg : MacCfg
  /-- Speed in Gb/s: a port's SPEED, a client's size (R124). -/
  gbps : Nat
  sa : List Byte
  link : LinkState
  /-- Tempo, in units of 10⁻¹² ns, at which the hold timer expires, while it runs; and whether it has expired (R106). -/
  holdUntil : Option Nat
  holdExpired : Bool
  /-- Tempo, in units of 10⁻¹² ns, at which the up-debounce ends. -/
  debounceAt : Option Nat
  /-- Passed from DEBOUNCE to UP since creation and the last flush (R108). -/
  announced : Bool
  pcs : Bool
  localFault : Bool
  remoteFault : Bool
  ctNow : Nat
  /-- Pause toward the partner: 802.3x, and per priority (Table 03-7), with the elapsed ns of the next refresh of each (R92). -/
  xoffSent : Bool
  pfcXoff : Nat
  refreshAt : Option Nat
  pfcRefreshAt : Assoc Nat
  /-- Elapsed ns until which the partner has paused the port, or each priority (R94). -/
  pausedUntil : Option Nat
  pfcPausedUntil : Assoc Nat
  /-- Receive FIFO sub-queues, oldest first (R90). -/
  rx : Assoc (List Pkt)
  /-- TXQ0 to TXQ3 (R95). -/
  txq : Assoc (List TxFrame)
  /-- The frame in transmission: its first byte has left, and its last has not (R94). -/
  sending : Option SentFrame
  /-- Control frames waiting ahead of every queue (R92). -/
  control : List ControlFrame
  /-- What the transmitter carries besides frames (R105). -/
  signal : LineSignal
  tsFifo : List TsEntry
  tsLossMark : Bool
  dormantByShed : Bool
  /-- The next sub-queue (R90). -/
  nextSub : Nat
  /-- Counts of this second, FCS errors, link failures, failed ns, corrected and uncorrectable codewords, and the PRT_SEC values latched at the last boundary (R114). -/
  secNow : List Nat
  secLatched : List Nat
  secTempo : Nat
  /-- Elapsed ns since which the link has failed in this second. -/
  failSince : Option Nat
  gateHeldSec : Option Nat
  degrade : Degrade
  deriving DecidableEq, Repr

/-- A token bucket: its content in scaled units and the elapsed ns of its last update. -/
structure Bucket where
  level : Nat
  at' : Nat
  deriving DecidableEq, Repr

/-- A flow context (Table 06-18). -/
structure FlowCtx where
  table : Nat
  key : List Byte
  isStatic : Bool
  learned : Bool
  mirror : Bool
  packets : Nat
  bytes : Nat
  last : Nat
  first : Nat
  action : Nat
  nh : Nat
  user : List Byte
  /-- Position in its bucket of eight (R216). -/
  bucket : Nat
  slot : Nat
  /-- Lock: elapsed ns of its FLOW_READ, with the increments and latest timestamp kept aside (R223). -/
  lock : Option Nat
  keptPackets : Nat
  keptBytes : Nat
  keptLast : Nat
  /-- A lock lapsed, and the context has not been locked since (R224). -/
  lapsed : Bool
  deriving DecidableEq, Repr

/-- A context in the on-die cache: whether it is modified, and what DDR4 then still holds (R225, Table 12-3). -/
structure CacheLine where
  table : Nat
  key : List Byte
  modified : Bool
  stored : Option FlowCtx
  deriving DecidableEq, Repr

/-- A flow table's settings (Table 06-17). -/
structure FlowTable where
  policy : Nat
  flags : Nat
  contexts : Nat
  idle : Nat
  learnAction : Nat
  learnNh : Nat
  deriving DecidableEq, Repr

/-- FD's pipelines, TCAM health and flow tables (chapters 05, 06). -/
structure Fwd where
  flowTables : Assoc FlowTable
  flows : List FlowCtx
  /-- Passes that wait for a DDR4 read of a context: pipeline, packet, and the epoch in which they began (R49, R225). -/
  stalled : List (Nat × Pkt × Conf)
  limiters : Assoc Bucket
  policers : Assoc Bucket
  samplers : Assoc Nat
  /-- Rules removed from search until rewritten, by rule key (R174). -/
  removed : Assoc Unit
  /-- Selection entries removed from search until rewritten. -/
  removedSel : Assoc Unit
  /-- Rules and selection entries that an unseen error keeps from matching until the scrub (R175). -/
  missing : Assoc Unit
  missingSel : Assoc Unit
  /-- Entries that are RETIRED: rule key or ENTRY_ID, what stood there, and the elapsed ns before which it is not FREE (R171). -/
  retired : List (Nat × Rule × Nat)
  retiredSel : List (Nat × SelEntry × Nat)
  /-- Contexts in the on-die cache (R225). -/
  cache : List CacheLine
  /-- The table-update ring served last (R206). -/
  lastTable : Option Nat
  falseHits : Assoc Nat
  /-- Pipelines Muffled: bit k for IPk, and since when (R163). -/
  muffled : Nat
  muffledAt : Nat
  /-- Inject path of each lane group (R362), oldest first. -/
  injectPath : Assoc (List Pkt)
  /-- Packets for a further pass of a pipeline (R162), oldest first. -/
  recirc : Assoc (List Pkt)
  /-- Round-robin credits of the ports and inject paths of the lane groups (R24); 1,000 + k: inject path k. -/
  slotCredits : Assoc Nat
  /-- Change units processed in this and the last whole second (TBL_RATE). -/
  unitsNow : Nat
  unitsLast : Nat
  deriving DecidableEq, Repr

/-- A buffer pool of the layout in force (R233). -/
structure Pool where
  size : Nat
  count : Nat
  /-- Buffers held by consumer 0–9 (R235). -/
  used : List Nat
  /-- Warning level last reported. -/
  level : Nat
  deriving DecidableEq, Repr

/-- A stored packet: its pool, its consumer and its references (R233, R258). -/
structure Stored where
  pool : Nat
  consumer : Nat
  refs : Nat
  deriving DecidableEq, Repr

/-- A VOQ with its credit (R240 to R253, R314 to R321). -/
structure Voq where
  head : List Pkt
  backlog : List Pkt
  seg : List Pkt
  tail : List Pkt
  spilled : Bool
  /-- Bytes of the first backlog packet already written to HBM. -/
  written : Nat
  /-- First unread byte and end of the segment, counted from its start (R247). -/
  segStart : Nat
  segEnd : Nat
  /-- HBM pages of the segment, oldest first (R247). -/
  pages : List Nat
  /-- Profile, its settings, and endpoint when its destination was last configured (R231). -/
  lastProfile : Nat
  lastSettings : Option VoqProfile
  lastEndpoint : Nat
  credit : Int
  asked : Int
  lastReq : Option Nat
  lastGrant : Option Nat
  denyUntil : Option Nat
  /-- Elapsed ns of its last cell and the stream it used (R331). -/
  lastCell : Nat
  dualStream : Bool
  deriving DecidableEq, Repr

/-- A packet that waits for a buffer or after a lossless refusal (R237, R242). -/
structure Waiting where
  pkt : Pkt
  consumer : Nat
  /-- Elapsed ns since when; `lossless`: refused by its VOQ, otherwise waiting for a buffer. -/
  since : Nat
  lossless : Bool
  /-- Where it goes: a punt queue, a leaf, or its VOQ. -/
  punt : Option (Nat × Punt)
  leaf : Option Nat
  deriving DecidableEq, Repr

/-- A punt queue's packets, oldest first. -/
abbrev PuntQueue := List Punt

/-- QD's buffer and queues (chapter 07). -/
structure Qdm where
  pools : List Pool
  stored : Assoc Stored
  nextStore : Nat
  /-- Consumer of highest priority in the allocator (R237). -/
  allocNext : Nat
  waiting : List Waiting
  voqs : Assoc Voq
  punts : Assoc PuntQueue
  /-- Tempo second of the last EV_BUF_EXHAUST (R268). -/
  exhaustSec : Option Nat
  hbmReady : Bool
  hbmWarn : Bool
  hbmFull : Bool
  /-- Spill path enabled: HBM ready and shed level below S2 (R252). -/
  spillEnabled : Bool
  /-- Spilled queues written last and read back last: the places of the two round-robins (R250). -/
  lastWrite : Option Nat
  lastRead : Option Nat
  deriving DecidableEq, Repr

/-- A shaper's credit in units of 1/8,000,000 byte, with the elapsed ns of its last update, and its deficit (R274, R276). -/
structure Shaper where
  credit : Int
  at' : Nat
  deficit : Int
  deriving DecidableEq, Repr

/-- A gate list's run (R285): pending list with its start, or `none` content for a clear. -/
structure GateRun where
  /-- The list in force at the MAC; `none`: all gates open. -/
  list : Option GateList
  /-- Cycle start from which it runs, ns from the Tempo epoch; before it, `gates` holds (Table 02-11). -/
  startedAt : Nat
  gates : Nat
  /-- A pending change: its start S, and the list it installs, `none` for a clear (R285). -/
  pending : Option (Nat × Option GateList)
  deriving DecidableEq, Repr

/-- The egress hierarchy's running state (chapter 08). -/
structure Sched where
  ports : Assoc Shaper
  channels : Assoc Shaper
  aggregates : Assoc Shaper
  leaves : Assoc Shaper
  /-- Packets of each leaf queue, oldest first. -/
  queues : Assoc (List Pkt)
  gates : Assoc GateRun
  /-- Selections taken by each port node in its lane group's round (R275). -/
  served : Assoc Nat
  /-- Tokens of the grant rate of each local port, PEAL_RX class (R290, R293), scaled as a shaper. -/
  grantTokens : Assoc Bucket
  /-- Deleted leaf queues that a quarantine still holds, with their node (R272). -/
  leaving : Assoc SchedNode
  deriving DecidableEq, Repr

/-- Fabric lane states (Table 09-3). -/
inductive LaneState where
  | disabled | down | hunt | check | up
  deriving DecidableEq, Repr

/-- A fabric lane. -/
structure FabLane where
  state : LaneState
  xoffRx : Bool
  xoffTx : Bool
  miswire : Bool
  peerKind : Nat
  peerEndpoint : Nat
  peerLane : Nat
  peerElement : Nat
  failures : Nat
  /-- In HUNT: headers in a row that checked, the candidate among them (R306). -/
  confirms : Nat
  /-- Elapsed ns since which LINK has been consistent with READY 1. -/
  consistentSince : Option Nat
  lastLink : Nat
  /-- Reachability chunks: map bits and elapsed ns of refresh (R319). -/
  chunks : Assoc (Nat × Nat)
  /-- Elapsed instant at which the bytes waiting to be sent have gone, in units of 1/25 ns, one byte at 200 Gb/s (R303, R323). -/
  waiting : Nat
  /-- Cells sent since the last unit that was none (R304). -/
  cellRun : Nat
  /-- Block boundaries left of the search for the next header after a failure outside HUNT (R306). -/
  search : Option Nat
  deriving DecidableEq, Repr

/-- A received cell in reorder (Table 09-5). -/
structure CellIn where
  seq : Nat
  first : Bool
  last : Bool
  dest : Nat
  cls : Nat
  payload : List Byte
  pad : Nat
  arrived : Nat
  tempo : Nat
  deriving DecidableEq, Repr

/-- A stream's receiving side (R326, R327). -/
structure Stream where
  next : Nat
  cells : Assoc CellIn
  /-- Elapsed ns at which the first cell beyond the missing one arrived. -/
  gapSince : Option Nat
  /-- Cells of the packet in progress, in order. -/
  inProgress : List CellIn
  /-- The packet whose cells come next is already counted as lost; its DEST and CLASS. -/
  broken : Bool
  lostDest : Nat
  lostCls : Nat
  deriving DecidableEq, Repr

/-- An ANNOUNCE still to be sent (R320): repeats left and when the next is due. -/
structure AnnSend where
  up : Bool
  left : Nat
  due : Nat
  deriving DecidableEq, Repr

/-- The fabric side (chapter 09). -/
structure Fabric where
  mode : Nat
  dual : Nat
  endpoint : Nat
  systemId : Nat
  laneEnable : Nat
  planeB : Nat
  lanes : Assoc FabLane
  lastLane : Nat
  /-- Next SEQ of each stream sent, by endpoint × 2 + dual (R322). -/
  txSeq : Assoc Nat
  /-- NEED of each requesting source, by (DEST × 8 + class) × 4,096 + endpoint (R316). -/
  requests : Assoc Int
  /-- Source endpoint granted last, by DEST × 8 + class (R290). -/
  lastGranted : Assoc Nat
  streams : Assoc Stream
  reorderFill : Nat
  xoffSent : Bool
  /-- Own GEN of each DEST, and what is to be sent (R320). -/
  gen : Assoc Nat
  announcing : Assoc AnnSend
  /-- GEN applied, by endpoint × 65,536 + DEST. -/
  applied : Assoc Nat
  /-- Withdrawn destinations: since when, and last refresh (R320, R321). -/
  withdrawn : Assoc (Nat × Nat)
  /-- Endpoints that have become unreachable, and since when; an absent endpoint keeps what its lanes say. -/
  unreachable : Assoc Nat
  /-- Endpoints known reachable at the last look, and those exposed (R329). -/
  reachable : Assoc Unit
  exposed : Assoc Unit
  /-- Units on the internal loop toward the own endpoint (R17), oldest first. -/
  loop : List (List Byte)
  /-- PEAL_LIST of multicast copies on the internal loop, by the stream × 2^21 + SEQ of their first cell (R254). -/
  loopPeal : Assoc Nat
  /-- Peer of each mesh slot with a lane in UP (R333). -/
  slotPeer : Assoc Nat
  /-- ANNOUNCE messages sent in this second (R320). -/
  annSecond : Nat
  annCount : Nat
  deriving DecidableEq, Repr

/-- The die-to-die bridge (R27 to R30). -/
structure Bridge where
  toQd : List Xfer
  toFd : List Xfer
  /-- Arrived on QD and on FD, not yet taken by the next stage. -/
  atQd : List Xfer
  atFd : List Xfer
  /-- Transfers abandoned by each direction in the Tempo second given. -/
  second : Nat
  lostToQd : Nat
  lostToFd : Nat
  stopped : Bool
  deriving DecidableEq, Repr

end Sys2Proof.Machine
end

