-- ==== Sys2Proof/Machine/HostTypes.lean ====
section
/-! DEFINITION. The state of the host attachment, of Teruo's command handling, of Toll and of the register blocks (chapters 10, 11, 16, 17). -/

namespace Sys2Proof.Machine

/-- Ring types of Table 10-2. -/
inductive RingType where
  | inject | table | command | buffer | completion | receive
  deriving DecidableEq, Repr

/-- Ring states of Table 10-4. -/
inductive RingState where
  | free | disabled | enabled | stopped
  deriving DecidableEq, Repr

/-- One ring (R344 to R374). A FREE ring has no entry in the ring table. -/
structure Ring where
  typ : RingType
  fn : Nat
  /-- The 32 bytes of `ring.create` as given (Table 10-3). -/
  create : List Byte
  size : Nat
  base : Nat
  cq : Nat
  vector : Nat
  noIrq : Bool
  modCount : Nat
  modTime : Nat
  bufSize : Nat
  warn : Nat
  weight : Nat
  /-- Its place among all rings created. -/
  made : Nat
  state : RingState
  /-- CAUSE of Table 10-4, 0 outside STOPPED. -/
  cause : Nat
  /-- Consumer index of a work ring, producer index of a part-written ring (R345). -/
  partIndex : Nat
  /-- Host index last read (R349). -/
  hostIndex : Nat
  invCount : Nat
  /-- Descriptors fetched and not begun, oldest first (R358). -/
  fetched : List (List Byte)
  /-- Descriptors begun and not consumed (R356). -/
  begun : Nat
  /-- No descriptor read until the next NEW_WORK (R359). -/
  fetchStopped : Bool
  /-- Invalidations that wait for the begun descriptors (R359). -/
  invWaiting : Nat
  /-- A `ring.disable` waits for the begun descriptors (R356). -/
  disabling : Bool
  /-- Interrupt armed (R374). -/
  armed : Bool
  /-- Records written since the last message (R374). -/
  unsignalled : Nat
  /-- Elapsed ns at which MOD_TIME ends, when it runs (R374). -/
  modDeadline : Option Nat
  /-- Completions held on die, oldest first (R367). -/
  held : List (List Byte)
  /-- R368 holds this completion ring's work rings back. -/
  stalled : Bool
  /-- Tempo second of the last EV_RX_POOL_EMPTY (R378). -/
  poolEmptySec : Option Nat
  deriving DecidableEq, Repr

/-- One event of R399 before it is written. -/
structure Event where
  seq : Nat
  code : Nat
  arg0 : Nat
  arg1 : Nat
  arg2 : Nat
  /-- Tempo of the cause. -/
  at' : Nat
  /-- FLAGS bit 0: raised during a management restart. -/
  delayed : Bool
  deriving DecidableEq, Repr

/-- One PCIe function (R338 to R348, R398, R400, R567, R568). -/
structure PciFn where
  /-- Negotiated link width in lanes and rate code (Table 10-14). -/
  width : Nat
  rate : Nat
  linkUp : Bool
  /-- The level of the PERST pin of the function is low (R606). -/
  perstLow : Bool
  busMaster : Bool
  indexValid : Bool
  stride : Nat
  hib : Nat
  pib : Nat
  evRing : Option Nat
  evMute : Nat
  evPending : List Event
  evLost : Nat
  evLostFirst : Nat
  tollRing : Option Nat
  /-- Counter identifiers selected, in selection order (R568). -/
  tollSel : List Nat
  /-- Records of the dump in progress not yet written (R563). -/
  tollPending : List (List Byte)
  /-- A dump of the function is in progress, with its dump number. -/
  tollDump : Option Nat
  tollLastTrailer : Nat
  tollSkippedSincePrev : Nat
  tollSkippedSinceStart : Nat
  /-- Second and count of the EV_TOLL_SKIPPED of this second (R579). -/
  tollSkipSec : Option Nat
  /-- FIRST is due on the next dump (R570). -/
  tollFirst : Bool
  /-- Tempo of the instant of the dump in progress, and the net step and STEPPED due on the next dump (R562). -/
  tollInstant : Nat
  tollStepNs : Int
  tollStepped : Bool
  /-- Identifiers flagged since the function's previous dump (R566). -/
  tollFlagged : Assoc Unit
  /-- MSI-X table words by offset in the span, as written; absent words read their PCIe reset. -/
  msix : Assoc Nat
  /-- DMA writes held back while Bus Master Enable is clear (R341), oldest first. -/
  deferred : List (Nat × List Byte)
  /-- MSI-X pending bits: vectors whose bit is set. -/
  pba : Assoc Unit
  deriving DecidableEq, Repr

/-- A receive group of R370: the RECEIVE ring's pools in rising BUF_SIZE. -/
structure RxGroup where
  pools : List Nat
  deriving DecidableEq, Repr

/-- A punt queue's binding (R369). -/
structure PuntBind where
  ring : Nat
  weight : Nat
  deriving DecidableEq, Repr

/-- The host attachment (chapter 10). -/
structure HostIf where
  pf0 : PciFn
  pf1 : PciFn
  rings : Assoc Ring
  /-- Rings created since reset. -/
  made : Nat
  groups : Assoc RxGroup
  binds : Assoc PuntBind
  /-- Deficits of the punt queues in bytes and the queue the round stands at (R369). -/
  deficits : Assoc Nat
  drrNext : Nat
  /-- Credits of the inject rings' weighted round-robin in bytes (R364). -/
  injectCredits : Assoc Nat
  /-- HIF_ERROR bits and HIF_ERROR_RING (Table 10-14). -/
  error : Nat
  errorRing : Nat
  deriving DecidableEq, Repr

/-- A command as Teruo holds it: opcode, block and where its answer goes (Tables 11-2, 10-10). -/
structure HeldCmd where
  op : Nat
  source : Nat
  origin : Nat
  tag : Nat
  paramLen : Nat
  timeout : Nat
  target : Nat
  flags : Nat
  reserved : Nat
  cmdLen : Nat
  params : List Byte
  respAddr : Nat
  respLen : Nat
  data : Option (List Byte)
  deriving DecidableEq, Repr

/-- What a RUNNING command waits for (R385, R386). -/
inductive WaitFor where
  /-- `table.commit`: scope and SEQ. -/
  | commit (carillon : Bool) (seq : Nat)
  /-- `flexe.calendar.switch` of a group. -/
  | calendar (group : Nat)
  /-- `tempo.tod.set`: seconds of the next edge. -/
  | timeOfDay (sec : Nat)
  /-- `tempo.step`: signed ns. -/
  | tempoStep (delta : Int)
  /-- `ring.disable`: the ring. -/
  | ringDisable (ring : Nat)
  /-- Relay to a carillon position under a MSG_ID. -/
  | relay (position msgId : Nat)
  /-- A flash program or journal record. -/
  | flash
  /-- A stored setting: identifier, erase flag and value (R509). -/
  | setting (id : Nat) (value : Option (List Byte))
  /-- `fw.verify`. -/
  | verify
  /-- `fw.distribute`. -/
  | distribute
  /-- `fw.activate`. -/
  | activate
  /-- `fw.confirm`, `fw.revert` or `key.revoke`: a fuse or record write. -/
  | fuse
  /-- `audit.scan` of a context. -/
  | scan (context : Nat)
  /-- `toll.stop`. -/
  | tollStop
  /-- `protect.switch` of a kind. -/
  | switchOver (kind : Nat)
  /-- Change mirrored to the standby, decided by its MIRROR_ACK. -/
  | mirror (seq : Nat)
  deriving DecidableEq, Repr

/-- A RUNNING command (Table 11-3). -/
structure Running where
  cmd : HeldCmd
  /-- INDEX of its descriptor on a command ring, and the completion ring that reports it. -/
  index : Nat
  reply : Option RingRef
  accepted : Nat
  /-- Elapsed ns at which TIMEOUT expires (R389). -/
  deadline : Nat
  waits : WaitFor
  /-- Response prepared so far. -/
  resp : List Byte
  deriving DecidableEq, Repr

/-- A command that reached DONE (R390, R391). -/
structure DoneCmd where
  source : Nat
  origin : Nat
  tag : Nat
  op : Nat
  status : Nat
  journalSeq : Nat
  deriving DecidableEq, Repr

/-- A journal record of Table 11-10. -/
structure JRec where
  seq : Nat
  tempo : Nat
  source : Nat
  kind : Nat
  op : Nat
  status : Nat
  tag : Nat
  origin : Nat
  detail0 : Nat
  detail1 : Nat
  paramCrc : Nat
  deriving DecidableEq, Repr

/-- Work of one table ring since it was last journalled (R402). -/
structure RingWork where
  tag : Nat
  first : Nat
  last : Nat
  count : Nat
  deriving DecidableEq, Repr

/-- STATE of the register window (Table 11-6). -/
inductive MbxState where
  | idle | pending | running | done
  deriving DecidableEq, Repr

/-- Teruo: commands, events, journal and the register window (chapter 11, R541, R542). -/
structure Mgmt where
  /-- READY of MBX_STATUS. -/
  ready : Bool
  /-- ROM of MBX_STATUS: recovery mode serves the window. -/
  rom : Bool
  restarting : Bool
  /-- Cause of the restart under way (EV_MGMT_RESTART) and its begin in elapsed ns. -/
  restartCause : Nat
  restartAt : Nat
  /-- `sys.restart` completed and the restart is due (R406). -/
  restartDue : Option Nat
  restarts : Nat
  /-- Elapsed ns of the last service of the watchdog (R541). -/
  watchdogAt : Nat
  /-- POSTED commands, in arrival order (R385, R388). -/
  held : List HeldCmd
  /-- Source last served in rotation (R388). -/
  lastSource : Nat
  /-- RUNNING commands in order of acceptance. -/
  running : List Running
  /-- Last 4,096 DONE commands, newest first. -/
  done : List DoneCmd
  /-- Next event SEQ (R399). -/
  eventSeq : Nat
  /-- Events raised by hardware during a restart (R400). -/
  restartEvents : List Event
  restartLost : Nat
  restartLostFirst : Nat
  /-- Journal records held, newest first (R402). -/
  journal : List JRec
  journalNext : Nat
  /-- Register writes in the hardware log, oldest first, and those lost (R402). -/
  regLog : List JRec
  regLost : Nat
  /-- Flow operations of each table ring in this Tempo second (R402). -/
  flowWork : Assoc RingWork
  /-- Staged changes were lost: the vote on the next commit is withheld (Table 12-3). -/
  stagingLost : Bool
  mbx : MbxState
  /-- Function of the last SUBMIT. -/
  mbxFn : Nat
  mbxStatus : Nat
  mbxCmd : Assoc Nat
  mbxResp : List Byte
  mbxRespBytes : Nat
  mbxError : Nat
  mbxIrq : Nat
  deriving DecidableEq, Repr

/-- Toll (chapter 16). -/
structure Toll where
  running : Bool
  /-- PERIOD in ms. -/
  period : Nat
  /-- Every total at the most recent instant (R559, R561). -/
  snap : Assoc Nat
  /-- Dump number and Tempo of the most recent instant. -/
  last : Nat
  lastTempo : Nat
  /-- The next instant, ns from the Tempo epoch (R560, R562). -/
  next : Nat
  /-- The first instant that a forward step left: those between the one due and it do not occur (R75). -/
  resumeAt : Nat
  /-- Tempo of the instant of the last dump whose trailer reached host memory (R563). -/
  lastReached : Nat
  /-- Net Tempo step since the previous instant, ns (R562). -/
  stepNs : Int
  stepped : Bool
  /-- Values flagged ERR since the previous instant (R566). -/
  flagged : Assoc Unit
  /-- CNT_SEL, the latched CNT_VAL and NO_COUNTER (Table 16-10). -/
  sel : Nat
  val : Nat
  noCounter : Bool
  deriving DecidableEq, Repr

/-- The GLB and DBG blocks (chapter 17). -/
structure Glb where
  serial : Nat
  /-- FORM of GLB_ID: 0 H64, 1 H96. -/
  form : Nat
  /-- Bit 0 PCIE_SPLIT; bits 6:4 DDR_ORG; 9:8 DDR_SPEED; 12 FORCE_RECOVERY. -/
  strap : Nat
  /-- LAST_RESET of GLB_STATUS. -/
  lastReset : Nat
  /-- A fatal report stands (R540). -/
  fatal : Bool
  bridgeFailed : Bool
  error : Nat
  errorAddr : Nat
  intStatus : Nat
  intEnable : Nat
  intVector : Nat
  scratch : Nat
  /-- Elapsed ns until which BAR0 reads all ones after a warm reset (R588). -/
  warmUntil : Nat
  dbgScratch : Assoc Nat
  /-- Armed injection: memory code, die, UE (R591). -/
  inject : Option (Nat × Nat × Bool)
  injectStatus : Nat
  /-- Words stored with an injected error, awaiting their next read or scrub: memory code, die, UE. -/
  injected : List (Nat × Nat × Bool)
  /-- Group latches: register offset to latched value (R42). -/
  latch : Assoc Nat
  /-- _HI words copied by clearing reads, by register offset (R112). -/
  hiCopy : Assoc Nat
  /-- What clearing reads took out of a counter since reset, by counter (R440). -/
  cleared : Assoc Nat
  deriving DecidableEq, Repr

end Sys2Proof.Machine
end

