-- ==== Sys2Proof/Machine/SysTypes.lean ====
section
/-! DEFINITION. The state of FlexE, of the external memories, of the carillon, the bus and protection, of flash and fuses, and of power, Hum and faults (chapters 04, 12 to 15). -/

namespace Sys2Proof.Machine

/-! ### FlexE (chapter 04) -/

/-- Overhead alignment of an instance (Table 04-6): the candidate's block, confirmations, the next expected block. -/
inductive Align where
  | search
  | confirm (start confirmations next : Nat)
  | inFrame (misses next : Nat)
  deriving DecidableEq, Repr

/-- A run of differing or matching frames for a mismatch defect (Table 04-7). -/
structure Mismatch where
  bad : Nat
  good : Nat
  declared : Bool
  deriving DecidableEq, Repr

/-- One 100 Gb/s instance of a PHY. -/
structure FlxInst where
  align : Align
  /-- Markers seen since the candidate while in CONFIRM (R132). -/
  seen : List Nat
  /-- OMF of the last frame, and frames since its last change from 1 to 0 (R133). -/
  omf : Option Bool
  sinceFall : Option Nat
  inMulti : Bool
  lomf : Bool
  omfBad : Nat
  /-- Frame number in the multiframe, when in multiframe. -/
  frame : Nat
  gid : Mismatch
  phy : Mismatch
  number : Mismatch
  cr : Bool
  ca : Bool
  c : Bool
  rpf : Bool
  /-- Calendars as last received CRC-good, 20 client numbers each. -/
  calA : List Nat
  calB : List Nat
  /-- Every frame of the multiframe in progress was CRC-good; the last whole multiframe was; its end awaits the other instances. -/
  allGood : Bool
  lastGood : Bool
  ended : Bool
  /-- Block at which its last multiframe began. -/
  start : Option Nat
  deriving DecidableEq, Repr

/-- A FlexE PHY's line instance (Table 04-10). -/
structure FlxLine where
  insts : List FlxInst
  /-- Overhead CRC failures, windows above threshold and symbol errors of this second; the four FLX_LINE_SEC values latched. -/
  secNow : List Nat
  secLatched : List Nat
  secTempo : Nat
  /-- Elapsed ns since which a defect of order 1 to 6 stands. -/
  defectSince : Option Nat
  defectNs : Nat
  deriving DecidableEq, Repr

/-- Group states of Table 04-8. -/
inductive FlxState where
  | adminDown | down | up | dormant
  deriving DecidableEq, Repr

/-- A calendar switch in progress (R127): multiframe sent, and the elapsed ns at which CR was set. -/
structure CalSwitch where
  startedAt : Nat
  crAt : Option Nat
  deriving DecidableEq, Repr

/-- A FlexE group. -/
structure FlxGroup where
  rate : Nat
  shedRank : Nat
  number : Nat
  /-- Port and PHY number, in PHY list order. -/
  phys : List (Nat × Nat)
  state : FlxState
  dormantByShed : Bool
  /-- Calendar in use: `true` is B. -/
  txB : Bool
  rxB : Bool
  txCalA : List Nat
  txCalB : List Nat
  rxCalA : List Nat
  rxCalB : List Nat
  switch : Option CalSwitch
  /-- CR and CA sent: `true` is B. -/
  crB : Bool
  caB : Bool
  /-- A request that the part withholds CA from (R130). -/
  crPending : Bool
  skew : Bool
  skewBlocks : Nat
  /-- Multiframe starts of the group's instances in a row with the skew within its limit. -/
  skewOkMulti : Nat
  secTempo : Nat
  downSince : Option Nat
  downNs : Nat
  skewMax : Nat
  secLatched : List Nat
  deriving DecidableEq, Repr

/-- A FlexE client's place: group, CLIENT_ID, and CAL_MISMATCH with its run of differing multiframes. -/
structure FlxClient where
  group : Nat
  clientId : Nat
  badRun : Nat
  mismatch : Bool
  deriving DecidableEq, Repr

/-- FlexE. -/
structure Flexe where
  lines : Assoc FlxLine
  groups : Assoc FlxGroup
  clients : Assoc FlxClient
  deriving DecidableEq, Repr

/-! ### DDR4 and HBM3 (chapter 12) -/

/-- A request that waits at a DDR4 channel: its number in arrival order, elapsed ns of its arrival, and whether its deadline has been
counted (R416). -/
structure DdrWait where
  no : Nat
  req : DdrRequest
  at' : Nat
  late : Bool
  deriving DecidableEq, Repr

/-- A drain of a write queue: the entries at which it ends, and the writes since it last served a read at level 4 (R419). -/
structure DdrDrain where
  floor : Nat
  since : Nat
  deriving DecidableEq, Repr

/-- What reading a 72-bit beat of DDR4 (R424) or a 32-byte access of HBM3 (R432) finds. -/
inductive Ecc where
  | clean | corrected | uncorrectable
  deriving DecidableEq, Repr

/-- A DDR4 channel. -/
structure DdrChan where
  /-- STATE and failed step of Table 12-6. -/
  state : Nat
  step : Nat
  forced : Bool
  readMargin : Nat
  writeMargin : Nat
  ueAddr : Nat
  uePort : Nat
  /-- Corrected errors of the 100 ms interval and of the Tempo second (R415, R425). -/
  ceInterval : Nat
  ceSecond : Nat
  ceSec : Nat
  /-- Requests numbered so far, and the reads that wait, in arrival order (R416, R417). -/
  arrived : Nat
  reads : List DdrWait
  /-- Write queue of 64 entries, oldest first, its drain, and the requests held while it is full (R419). -/
  writes : List DdrWait
  drain : Option DdrDrain
  held : List DdrWait
  /-- The open row of each bank, and the row hits served in a bank while a read to another of its rows waits (R417, R418). -/
  openRows : Assoc Nat
  hits : Assoc Nat
  /-- Words that stay uncorrectable until they are written (R426). -/
  badWords : List Nat
  /-- Activate counts by bank × 2^20 + row, at most 64 of a bank (R422); a bank is rank × 16 + bank. -/
  rows : Assoc Nat
  scrubPos : Nat
  deriving DecidableEq, Repr

/-- DDR4 and HBM3. -/
structure Mem where
  ddr : List DdrChan
  rhThreshold : Nat
  deferred : Bool
  scrubPasses : Nat
  hbmStacks : List (Nat × Nat)
  /-- Stack temperatures in °C and their doubled refresh (R437). -/
  temps : List Int
  doubled : Nat
  powerDowns : List Nat
  /-- Retired pages: page, then stack, cause, second, and whether the settings record it (R433). -/
  retired : Assoc (Nat × Nat × Nat × Bool)
  retireFull : Bool
  /-- Uncorrectable errors of each stack in the Tempo second given. -/
  ueSec : Nat
  ueSecond : List Nat
  /-- Tempo ns of each page's corrected errors of the last hour (R433). -/
  pageErrors : Assoc (List Nat)
  /-- Each stack's consecutive commands with a parity error (R435). -/
  parityRun : List Nat
  /-- An uncorrectable error of port HST that the next `journal.read`, and the next flow operation, meets (Table 12-3). -/
  journalBad : Bool
  flowBad : Bool
  deriving DecidableEq, Repr

/-! ### Carillon, management bus and protection (chapter 13) -/

/-- A carillon port's neighbour. -/
structure Neighbour where
  serial : Nat
  position : Nat
  /-- Elapsed ns of its last heartbeat. -/
  seenAt : Nat
  excluded : Bool
  deriving DecidableEq, Repr

/-- A carillon port. -/
structure CrlPort where
  pcs : Bool
  neighbour : Option Neighbour
  miswire : Bool
  /-- TX_TS and local receive Tempo of the last heartbeat, in ns (Table 13-3). -/
  echoTs : Nat
  echoRx : Nat
  /-- Delay of the link in ns, as the last two-way exchange measured it (R38). -/
  delay : Option Nat
  deriving DecidableEq, Repr

/-- A claim (Table 13-2). -/
structure Claim where
  term : Nat
  upEnd : Bool
  incumbent : Bool
  priority : Nat
  serial : Nat
  deriving DecidableEq, Repr

/-- Roles of Table 13-4. -/
inductive Role where
  | alone | electing | follower | head | excluded
  deriving DecidableEq, Repr

/-- A message being put together from fragments (R447). -/
structure Partial where
  bus : Bool
  src : Nat
  msgId : Nat
  typ : Nat
  count : Nat
  firstAt : Nat
  parts : Assoc (List Byte)
  deriving DecidableEq, Repr

/-- The carillon side of a package. -/
structure Carillon where
  enable : Bool
  priority : Nat
  cid : Nat
  role : Role
  position : Nat
  term : Nat
  highestTerm : Nat
  ring : Bool
  headSerial : Nat
  up : CrlPort
  down : CrlPort
  /-- MEMBER payloads by position. -/
  members : Assoc (List Byte)
  best : Option Claim
  /-- The package was head of the term that the election ends (R453). -/
  incumbent : Bool
  settleAt : Nat
  electionAt : Nat
  msgId : Nat
  /-- SRC × 2^32 + MSG_ID of flooded messages, with the elapsed ns of their first copy (R449). -/
  seen : Assoc Nat
  partials : List Partial
  beat : Nat
  lastBeacon : Nat
  /-- Port over which the head's last beacon came (R38). -/
  beaconPort : Nat
  /-- Carillon sequence of the head's beacon, and that this package or another has diverged (R69). -/
  headCseq : Nat
  diverged : Bool
  peersDiverged : Nat
  /-- Relayed commands received: position, MSG_ID, tag by which Teruo knows them. -/
  relayed : List (Nat × Nat × Nat)
  /-- Relayed commands sent: position and MSG_ID. -/
  relaySent : List (Nat × Nat × Nat)
  /-- `carillon.park` completed: elapsed ns at which the package parks; and parked. -/
  parkAt : Option Nat
  parked : Bool
  nextTag : Nat
  deriving DecidableEq, Repr

/-- The management bus. -/
structure Bus where
  enable : Bool
  nodeBase : Nat
  eventNode : Nat
  eventMute : Nat
  msgId : Nat
  /-- RUNNING bus commands: node, MSG_ID, tag. -/
  running : List (Nat × Nat × Nat)
  /-- Last RESPONSE of each peer: MSG_ID and payload. -/
  lastResp : Assoc (Nat × List Byte)
  /-- Frames held back by a management restart, oldest first (R465). -/
  holding : List (Bool × Nat × List Byte)
  /-- Frame in transmission and its attempts (R462). -/
  sending : Option (List Byte)
  attempts : Nat
  retryAt : Nat
  excessSec : Option Nat
  eventSec : Nat
  eventCount : Nat
  deriving DecidableEq, Repr

/-- A protection pair's member (R469 to R481). -/
structure Protect where
  /-- State code of Table 13-6, 0 UNPAIRED. -/
  state : Nat
  pair : Nat
  flags : Nat
  wtr : Nat
  peerSerial : Nat
  portMask : Nat
  since : Nat
  inSync : Bool
  lockout : Bool
  /-- Elapsed ns of the peer's last PAIR_BEAT, and its payload; the own one as last sent. -/
  peerAt : Option Nat
  peerBeat : List Byte
  ownBeat : List Byte
  /-- Tempo ns of entry to ACTIVE. -/
  activeSince : Nat
  wtrAt : Option Nat
  /-- A switch triggered, and its cause (R476): the new active starts at RELINQUISH or at this elapsed ns. -/
  switching : Option (Nat × Nat)
  lastCause : Nat
  lastSwitch : Nat
  mirrorSeq : Nat
  mirrorAcked : Nat
  /-- Mirrored changes not yet acknowledged: MIRROR_SEQ. -/
  mirrorQueue : List Nat
  mirrorApplied : Nat
  /-- Completions held until MIRROR_ACK covers them (R471): MIRROR_SEQ, ring, record. -/
  mirrorHeld : List (Nat × Nat × List Byte)
  /-- The peer as an ACTIVE member sees it: standby in sync. -/
  peerSync : Bool
  /-- A resynchronisation runs: the member is in sync at the first downbeat after it (R474). -/
  resync : Bool
  /-- The hold of R470 is in force. -/
  hold : Bool
  /-- Ports and groups (256 + g) that the hold put in ADMIN_DOWN and its end brings back. -/
  heldItems : List Nat
  /-- Settings of a pair in place that take effect at the next PAIR_BEAT: flags, WTR, peer, PORT_MASK. -/
  next : Option (Nat × Nat × Nat × Nat)
  deriving DecidableEq, Repr

/-! ### Flash, firmware, settings (chapter 14) -/

/-- A slot copy in progress: source and destination slot. -/
structure SlotCopy where
  src : Nat
  dst : Nat
  retried : Bool
  deriving DecidableEq, Repr

/-- An image distribution by a head or to a neighbour (R500, R516). -/
structure Distribution where
  transfer : Nat
  positions : Nat
  neighbour : Option Nat
  /-- CONTIG reported and result by position. -/
  contig : Assoc Nat
  results : Assoc Nat
  sent : Nat
  deriving DecidableEq, Repr

/-- A carillon activation schedule (R502). -/
structure Schedule where
  todo : List Nat
  active : List (Nat × Nat)
  parallel : Nat
  done : List Nat
  version : Nat
  stopped : Bool
  deriving DecidableEq, Repr

/-- Flash, fuses, and what the boot ROM and Teruo keep on die about them. -/
structure Fw where
  flash : List (Nat × Byte)
  /-- The device is present and fits R486. -/
  flashOk : Bool
  flashSize : Nat
  fuseCounter : Nat
  revoked : Nat
  /-- Slot started: 0 ACTIVE, 1 PREVIOUS. -/
  started : Nat
  /-- Watchdog expiries before READY on consecutive starts of the slot (R494). -/
  failedStarts : Nat
  copy : Option SlotCopy
  /-- Bytes 0 to 23 of the running image's header, as loaded; none before an image runs. -/
  image : List Byte
  /-- Bytes held in STAGING since the last FIRST, and TOTAL. -/
  contig : Nat
  total : Nat
  verifying : Bool
  /-- Elapsed ns at which the probation began. -/
  probationAt : Nat
  migration : Nat
  dist : Option Distribution
  /-- TRANSFER of the distribution received. -/
  rxTransfer : Option Nat
  schedule : Option Schedule
  /-- EV_FW_SLOT_BAD to raise once Teruo runs: slot and status. -/
  badSlots : List (Nat × Nat)
  wear : Assoc Nat
  deriving DecidableEq, Repr

/-! ### Power, Hum, audit and faults (chapter 15) -/

/-- A Hum activity (Table 15-14). -/
structure Hum where
  enabled : Bool
  period : Nat
  passes : Nat
  fixes : Nat
  lastEnd : Nat
  /-- A pass that may still run: elapsed ns and Tempo of its end, and what it fixes. -/
  current : Option (Nat × Nat × Nat)
  /-- Elapsed ns of the last EV_HUM_OVERRUN (R527). -/
  overrunAt : Option Nat
  deriving DecidableEq, Repr

/-- An audit context (R529). -/
structure AuditCtx where
  algo : Nat
  value : Nat
  running : Bool
  deriving DecidableEq, Repr

/-- A scan in progress (R530). -/
structure Scan where
  context : Nat
  algo : Nat
  compare : Bool
  space : Nat
  start : Nat
  length : Nat
  expected : Nat
  /-- Units of 64 bytes done. -/
  done : Nat
  deriving DecidableEq, Repr

/-- A fault-log record (R553). -/
structure FaultRec where
  code : Nat
  cls : Nat
  tempo : Nat
  arg1 : Nat
  arg2 : Nat
  deriving DecidableEq, Repr

/-- Power, Hum, audit and faults. -/
structure Power where
  level : Nat
  floor : Nat
  keepRank : Nat
  board : Nat
  railLow : Bool
  /-- Elapsed ns since which the rail is back in range. -/
  railOkSince : Option Nat
  powerFail : Bool
  thermalTrip : Bool
  /-- Shed level asked by the die temperature, and by the HBM temperature. -/
  dieAsk : Nat
  hbmAsk : Nat
  tempFd : Int
  tempQd : Int
  rail : Nat
  /-- Elapsed ns since which the highest request lies below the level. -/
  belowSince : Option Nat
  lastChange : Nat
  /-- Level changes, newest first: level and elapsed ns. -/
  history : List (Nat × Nat)
  /-- Ports and groups to go dormant at S3, and those to wake, in order (256 + g: group g). -/
  toSleep : List Nat
  toWake : List Nat
  asleep : List Nat
  /-- Ports and groups that S4 alone made dormant. -/
  asleepS4 : List Nat
  fault : Nat
  /-- The part is held in reset, and the boot ROM waits for PWR_FAIL_N (R601, R606). -/
  dead : Bool
  waitFail : Bool
  hum : List Hum
  contexts : List AuditCtx
  scans : List Scan
  mismatch : Nat
  irq : Nat
  faults : List FaultRec
  faultCount : Nat
  /-- Uncorrectable errors of each on-die memory in the Tempo second given (R538). -/
  ueSec : Nat
  ueSecond : List Nat
  stageSec : Option Nat
  stageCount : Nat
  /-- Configuration words waiting for their rewrite (R538): table kind, word, and the entry that the word belongs to. -/
  badWords : List (Nat × Nat × Nat)
  /-- Elapsed ns at which PPS_OUT falls (R604). -/
  ppsOutUntil : Option Nat
  deriving DecidableEq, Repr

end Sys2Proof.Machine
end

