-- ==== Sys2Proof/Machine/State.lean ====
section
/-! DEFINITION. The state of the block, its faults and refusals, and the state right after reset. -/

namespace Sys2Proof.Machine
open Sys2Proof

/-- Faults of the block: none. The spec turns every error into a status, a counter, an event or a recorded access. -/
inductive Fault where
  /-- Raised by no command of this model; the name a later stop would take. Safe: it stops. -/
  | unspecified
  deriving DecidableEq, Repr

/-- Refusals of the model. -/
inductive Refusal where
  /-- Raised by an arm of `exec` whose command has no meaning yet. Safe: it stops. -/
  | notModelled (mnemonic : String)
  deriving DecidableEq, Repr

/-- The block's state. `cfg` is the epoch in force; `staged` what waits for a commit. -/
structure State where
  /-- Commands waiting, first in, first out. -/
  pending : List Instr
  /-- Elapsed ns since the deassertion of PORST_N (R36). -/
  elapsed : Nat
  /-- The model's own counter of free values drawn. -/
  fresh : Nat
  /-- Everything the block sent, oldest first: the model's own record. -/
  out : List Out
  tempo : Tempo
  cfg : Conf
  staged : List Staged
  commits : List Commit
  outcomes : List CommitOutcome
  nextPackageSeq : Nat
  nextOrder : Nat
  quar : Assoc Quar
  mgmt : Mgmt
  host : HostIf
  hostMem : List Host.Cell
  ctrs : Assoc Nat
  toll : Toll
  glb : Glb
  macs : Assoc Mac
  fwd : Fwd
  qdm : Qdm
  sched : Sched
  fab : Fabric
  bridge : Bridge
  flexe : Flexe
  mem : Mem
  crl : Carillon
  bus : Bus
  prot : Protect
  fw : Fw
  pwr : Power
  deriving DecidableEq, Repr

namespace State

/-- Tempo right after reset (R36, R43): FREE_RUN at 0.000000000, the anchor at downbeat 0. -/
def resetTempo : Tempo :=
  { now := 0, freq := 0, slew := 0, source := .freeRun, mode := .freeRun, selectedAt := 0, lastInput := 0, lastEdge := none,
    freqAtSelect := 0, corrections := [], todGiven := false, goodEdges := 0, badEdges := 0, spacedEdges := 0, ppsTempo := 0,
    ppsOffset := 0, stepWaiting := none, stepped := false, skewAlarm := false, anchor := 0, anchorAt := 0,
    lastDownbeat := 0, skips := [], nextSecond := 1, lastSecond := 0, epoch := 0, cseq := 0, steppedTo := 0,
    lastBeat := none, beatDue := none, qdOffset := 0, qdDownbeat := 0 }

/-- The configuration right after reset: the layout of R149, the seed of R196, the credit of R292, the grid and age of R43 and R54;
every absent entry of a sparse table stands for its reset entry. -/
def resetConf : Conf :=
  { layout := (List.range 18).map (fun k => 12 + k), profiles := [], selects := [], classMaps := [], ruleTables := [],
    rules := [], exceptions := [], vrfMiss := [], routes := [], labels := [], hashSeed := 0, nextHops := [], ecmp := [],
    templates := [], dests := [], voqProfiles := [], epLists := [], pealLists := [], pools := [], samplers := [],
    puntLimits := [], portScheds := [], channels := [], aggregates := [], leaves := [], gateLists := [], creditBytes := 4096,
    creditRatio := 1056, creditPeal := [], policers := [], grid := 4, maxAge := 100 }

/-- Teruo right after reset: no command, no record, READY clear. -/
def resetMgmt : Mgmt :=
  { ready := false, rom := false, restarting := false, restartCause := 0, restartAt := 0, restartDue := none, restarts := 0,
    watchdogAt := 0, held := [], lastSource := 5, running := [], done := [], eventSeq := 0, restartEvents := [],
    restartLost := 0, restartLostFirst := 0, journal := [], journalNext := 0, regLog := [], regLost := 0, flowWork := [], stagingLost := false,
    mbx := .idle, mbxFn := 0, mbxStatus := 0, mbxCmd := [], mbxResp := [], mbxRespBytes := 0, mbxError := 0, mbxIrq := 0 }

/-- A PCIe function right after reset. -/
def resetFunction : PciFn :=
  { width := 0, rate := 0, linkUp := false, perstLow := false, busMaster := false, indexValid := false, stride := 8, hib := 0, pib := 0,
    evRing := none, evMute := 0, evPending := [], evLost := 0, evLostFirst := 0, tollRing := none, tollSel := [],
    tollPending := [], tollDump := none, tollLastTrailer := 0, tollSkippedSincePrev := 0, tollSkippedSinceStart := 0,
    tollSkipSec := none, tollFirst := false, tollInstant := 0, tollStepNs := 0, tollStepped := false, tollFlagged := [],
    msix := [], deferred := [], pba := [] }

/-- The host attachment right after reset: every ring FREE. -/
def resetHost : HostIf :=
  { pf0 := resetFunction, pf1 := resetFunction, rings := [], made := 0, injectCredits := [], groups := [], binds := [], deficits := [], drrNext := 0,
    error := 0, errorRing := 0 }

/-- Toll right after reset. -/
def resetToll : Toll :=
  { running := false, period := 100, snap := [], last := 0, lastTempo := 0, next := 0, resumeAt := 0, lastReached := 0, stepNs := 0, stepped := false, flagged := [],
    sel := 0, val := 0, noCounter := false }

/-- The GLB and DBG blocks right after a power-on reset. -/
def resetGlb : Glb :=
  { serial := 0, form := 0, strap := 0, lastReset := 0, fatal := false, bridgeFailed := false, error := 0, errorAddr := 0,
    intStatus := 0, intEnable := 0, intVector := 0, scratch := 0, warmUntil := 0, dbgScratch := [], inject := none,
    injectStatus := 0, injected := [], latch := [], hiCopy := [], cleared := [] }

/-- FD's pipelines and flow tables right after reset. -/
def resetFwd : Fwd :=
  { flowTables := [], flows := [], stalled := [], limiters := [], policers := [], samplers := [], removed := [],
    removedSel := [], missing := [], missingSel := [], retired := [], retiredSel := [], cache := [], lastTable := none, falseHits := [], muffled := 0, muffledAt := 0, injectPath := [],
    recirc := [], slotCredits := [], unitsNow := 0, unitsLast := 0 }

/-- An empty pool (Table 07-2). -/
def resetPool (size count : Nat) : Pool := { size := size, count := count, used := List.replicate 10 0, level := 0 }

/-- QD's buffer and queues right after reset (Table 07-2, Table 07-14). -/
def resetQdm : Qdm :=
  { pools := [resetPool 256 65536, resetPool 512 32768, resetPool 1024 16384, resetPool 2048 8192, resetPool 4096 4096,
      resetPool 10240 3072, resetPool 16384 1152],
    stored := [], nextStore := 0, allocNext := 0, waiting := [], voqs := [], punts := [], exhaustSec := none, hbmReady := false,
    hbmWarn := false, hbmFull := false, spillEnabled := false, lastWrite := none, lastRead := none }

/-- The egress hierarchy right after reset: no node, no list (R270, R279). -/
def resetSched : Sched :=
  { ports := [], channels := [], aggregates := [], leaves := [], queues := [], gates := [], served := [], grantTokens := [],
    leaving := [] }

/-- The fabric side right after reset: MODE OFF (R300). -/
def resetFab : Fabric :=
  { mode := 0, dual := 0, endpoint := 0, systemId := 0, laneEnable := 2 ^ 112 - 1,
    planeB := 2 ^ 112 - 2 ^ 56, lanes := [], lastLane := 0, txSeq := [],
    requests := [], lastGranted := [], streams := [], reorderFill := 0, xoffSent := false, gen := [], announcing := [],
    applied := [], withdrawn := [], unreachable := [], reachable := [(0, ())], exposed := [], loop := [], loopPeal := [], slotPeer := [], annSecond := 0,
    annCount := 0 }

/-- The bridge right after reset. -/
def resetBridge : Bridge :=
  { toQd := [], toFd := [], atQd := [], atFd := [], second := 0, lostToQd := 0, lostToFd := 0, stopped := false }

/-- A DDR4 channel right after reset: RESET. -/
def resetDdr : DdrChan :=
  { state := 0, step := 0, forced := false, readMargin := 0, writeMargin := 0, ueAddr := 0, uePort := 0, ceInterval := 0,
    ceSecond := 0, ceSec := 0, arrived := 0, reads := [], writes := [], drain := none, held := [], openRows := [], hits := [], badWords := [],
    rows := [], scrubPos := 0 }

/-- The external memories right after reset (Tables 12-5 to 12-8). -/
def resetMem : Mem :=
  { ddr := List.replicate 8 resetDdr, rhThreshold := 4096, deferred := false, scrubPasses := 0,
    hbmStacks := List.replicate 4 (0, 0), temps := List.replicate 4 0, doubled := 0, powerDowns := List.replicate 4 0,
    retired := [], retireFull := false, ueSec := 0, ueSecond := List.replicate 4 0, pageErrors := [],
    parityRun := List.replicate 4 0, journalBad := false, flowBad := false }

/-- A carillon port right after reset. -/
def resetCrlPort : CrlPort := { pcs := false, neighbour := none, miswire := false, echoTs := 0, echoRx := 0, delay := none }

/-- The carillon side right after reset: ALONE (R445), PRIORITY 128. -/
def resetCrl : Carillon :=
  { enable := false, priority := 128, cid := 0, role := .alone, position := 0, term := 0, highestTerm := 0, ring := false,
    headSerial := 0, up := resetCrlPort, down := resetCrlPort, members := [], best := none, incumbent := false, settleAt := 0, electionAt := 0,
    msgId := 0, seen := [], partials := [], beat := 0, lastBeacon := 0, beaconPort := 0, headCseq := 0, diverged := false, peersDiverged := 0,
    relayed := [], relaySent := [], parkAt := none, parked := false, nextTag := 0 }

/-- The management bus right after reset: disabled, NODE_BASE 0x10. -/
def resetBus : Bus :=
  { enable := false, nodeBase := 0x10, eventNode := 0, eventMute := 0, msgId := 0, running := [], lastResp := [], holding := [],
    sending := none, attempts := 0, retryAt := 0, excessSec := none, eventSec := 0, eventCount := 0 }

/-- Protection right after reset: UNPAIRED. -/
def resetProt : Protect :=
  { state := 0, pair := 0, flags := 0, wtr := 5, peerSerial := 0, portMask := 0, since := 0, inSync := false, lockout := false,
    peerAt := none, peerBeat := [], ownBeat := [], activeSince := 0, wtrAt := none, switching := none, lastCause := 0,
    lastSwitch := 0, mirrorSeq := 0, mirrorAcked := 0, mirrorQueue := [], mirrorApplied := 0, mirrorHeld := [],
    peerSync := false, resync := false, hold := false, heldItems := [], next := none }

/-- Flash, fuses and the boot ROM right after reset: an erased device of 64 MiB, no fuse step blown. -/
def resetFw : Fw :=
  { flash := [], flashOk := true, flashSize := 67108864, fuseCounter := 0, revoked := 0, started := 0, failedStarts := 0,
    copy := none, image := [], contig := 0, total := 0, verifying := false,
    probationAt := 0, migration := 0, dist := none, rxTransfer := none, schedule := none, badSlots := [], wear := [] }

/-- A Hum activity right after reset. -/
def resetHum (period : Nat) : Hum :=
  { enabled := true, period := period, passes := 0, fixes := 0, lastEnd := 0, current := none, overrunAt := none }

/-- Power, Hum, audit and faults right after reset: S0. -/
def resetPwr : Power :=
  { level := 0, floor := 0, keepRank := 8, board := 0, railLow := false, railOkSince := none, powerFail := false,
    thermalTrip := false, dieAsk := 0, hbmAsk := 0, tempFd := 0, tempQd := 0, rail := 0, belowSince := none,
    lastChange := 0, history := [], toSleep := [], toWake := [], asleep := [], asleepS4 := [], fault := 0, dead := false,
    waitFail := false, hum := [0, 0, 0, 0, 0, 0, 0, 60, 86400].map resetHum,
    contexts := List.replicate 4 { algo := 0, value := 0, running := false }, scans := [], mismatch := 0, irq := 0,
    faults := [], faultCount := 0, ueSec := 0, ueSecond := List.replicate 10 0, stageSec := none, stageCount := 0,
    badWords := [], ppsOutUntil := none }

/-- The block right after the deassertion of power-on reset (R36, R492 step 1). -/
def reset : State :=
  { pending := [], elapsed := 0, fresh := 0, out := [], tempo := resetTempo, cfg := resetConf, staged := [], commits := [],
    outcomes := [], nextPackageSeq := 1, nextOrder := 0, quar := [], mgmt := resetMgmt, host := resetHost, hostMem := [],
    ctrs := [], toll := resetToll, glb := resetGlb, macs := [], fwd := resetFwd, qdm := resetQdm, sched := resetSched,
    fab := resetFab, bridge := resetBridge, flexe := { lines := [], groups := [], clients := [] }, mem := resetMem,
    crl := resetCrl, bus := resetBus, prot := resetProt, fw := resetFw, pwr := resetPwr }

end State

end Sys2Proof.Machine
end

