-- ==== Sys2Proof/Machine/Ops.lean ====
section
/-! DEFINITION. The shared operations: the clocks, counters, host memory, rings and their records, interrupts, events and the journal. -/

namespace Sys2Proof.Machine
open Sys2Proof

/-- Result of a command. -/
abbrev Res := Host.Outcome State Fault Refusal

/-! ### Clocks -/

/-- Tempo units in one nanosecond. -/
def tuPerNs : Nat := 1000000000000

/-- Tempo in whole ns since the Tempo epoch. -/
def tempoNs (s : State) : Nat := s.tempo.now / tuPerNs

/-- Seconds, nanoseconds and fraction of a Tempo value (R12). -/
def secOf (t : Nat) : Nat := t / tuPerNs / 1000000000
def nsOf (t : Nat) : Nat := t / tuPerNs % 1000000000
def fracOf (t : Nat) : Nat := t % tuPerNs * 65536 / tuPerNs

/-- A Tempo value from seconds and nanoseconds. -/
def tempoAt (sec ns : Nat) : Nat := (sec * 1000000000 + ns) * tuPerNs

/-- The frequency range of R40, 200 ppm, in units of 0.001 ppb. -/
def maxFreq : Int := 200000000

/-- `i` limited to the range from `lo` to `hi`. -/
def clampInt (lo hi i : Int) : Int := if i < lo then lo else if hi < i then hi else i

/-- QD's copy of Tempo minus FD's at an elapsed instant: FD corrects it over the bridge to within 2 ns (R31, log 52). -/
def qdOffsetAt (e : Nat) : Int := clampInt (-2 * (tuPerNs : Int)) (2 * (tuPerNs : Int)) (Config.qdSkew e)

/-- QD's copy of Tempo. -/
def qdNow (s : State) : Nat := ((s.tempo.now : Int) + s.tempo.qdOffset).toNat

/-- Let `ns` nanoseconds pass: elapsed time and Tempo advance, and a phase correction is slewed within the range of R40. -/
def tickBy (ns : Nat) (s : State) : State :=
  let room := s.tempo.slew
  let up := (ns : Int) * (maxFreq - s.tempo.freq)
  let down := (ns : Int) * (maxFreq + s.tempo.freq)
  let step := clampInt (-down) up room
  let adv := (ns : Int) * (1000000000000 + s.tempo.freq) + step
  { s with elapsed := s.elapsed + ns,
           tempo := { s.tempo with now := s.tempo.now + adv.toNat, slew := room - step, qdOffset := qdOffsetAt (s.elapsed + ns) } }

/-- Let time pass until elapsed instant `t`, when it lies ahead (log 2). -/
def advanceTo (t : Nat) (s : State) : State :=
  if s.elapsed < t then tickBy (t - s.elapsed) s else s

/-- Quotient rounded up; 0 for a dividend that is not positive. -/
def ceilDiv (a : Int) (b : Nat) : Nat := (a.toNat + b - 1) / b

/-- Whole ns until Tempo has risen by `need`: at the frequency with the slew all made, or at the end of the range of R40 while the slew lasts. -/
def nsUntil (need : Nat) (t : Tempo) : Nat :=
  let even := ceilDiv ((need : Int) - t.slew) (1000000000000 + t.freq).toNat
  if 0 ≤ t.slew then max even (ceilDiv need (1000000000000 + maxFreq).toNat)
  else min even (ceilDiv need (1000000000000 - maxFreq).toNat)

/-- Let time pass until Tempo reaches `t`, when it lies ahead (log 2). -/
def advanceTempo (t : Nat) (s : State) : State :=
  if s.tempo.now < t then
    let s1 := tickBy (nsUntil (t - s.tempo.now) s.tempo) s
    { s1 with tempo := { s1.tempo with now := max s1.tempo.now t } }
  else s

/-- Draw the next free value of `place` (log 18). -/
def unstatedAt (place : Nat) (s : State) : Nat := Config.unstated place s.fresh

/-- Advance the counter of free values. -/
def drawn (s : State) : State := { s with fresh := s.fresh + 1 }

/-! ### Counters (R557, R559) -/

/-- A counter identifier of R557. -/
def ctrId (cls inst idx : Nat) : Nat := cls * 134217728 + inst * 64 + idx

/-- A counter's value. -/
def ctr (id : Nat) (s : State) : Nat := agetD s.ctrs id 0

/-- Add to a counter. -/
def bump (id n : Nat) (s : State) : State :=
  { s with ctrs := aset s.ctrs id ((ctr id s + n) % 18446744073709551616) }

/-- Count one event. -/
def tally (id : Nat) (s : State) : State := bump id 1 s

/-- Raise a maximum counter. -/
def raiseMax (id n : Nat) (s : State) : State :=
  { s with ctrs := aset s.ctrs id (max (ctr id s) n) }

/-- drop.cause (class 27, R240, R263). -/
def dropCause (cause : Nat) (s : State) : State := tally (ctrId 27 (cause - 0x1001) 0) s

/-- A port or client counter by its offset in Table 03-6. -/
def portCtr (mac off : Nat) : Nat := ctrId 0 mac ((off - 0x100) / 8)

/-- A host interface counter by its offset in Table 10-14. -/
def hifCtr (off : Nat) : Nat := ctrId 5 0 ((off - 0x100) / 8)

/-- A global fabric counter by its offset in Table 09-14. -/
def fabCtr (off : Nat) : Nat := ctrId 3 0 ((off - 0x100) / 8)

/-- A fabric lane counter by its offset in Table 09-15. -/
def laneCtr (lane off : Nat) : Nat := ctrId 4 lane ((off - 0x100) / 8)

/-! ### The outside -/

/-- Send something to the outside. -/
def emit (o : Out) (s : State) : State := { s with out := s.out ++ [o] }

/-- Write bytes into a sparse memory, one address after another. -/
def memWrite (m : List Host.Cell) (a : Nat) : List Byte → List Host.Cell
  | [] => m
  | b :: bs => memWrite (aset m a b) (a + 1) bs

/-- A byte of a sparse memory, `none` where nothing is listed. -/
def memRead (m : List Host.Cell) (a : Nat) : Option Byte := aget m a

/-- A DMA write to host memory (R7, R351, R373: posted). -/
def hostWrite (a : Nat) (bs : List Byte) (s : State) : State :=
  { s with hostMem := memWrite s.hostMem a bs }

/-! ### Functions and rings -/

/-- The function numbered 0 or 1. -/
def pciFn (n : Nat) (s : State) : PciFn := if n = 0 then s.host.pf0 else s.host.pf1

/-- Change a function. -/
def updFn (n : Nat) (f : PciFn → PciFn) (s : State) : State :=
  if n = 0 then { s with host := { s.host with pf0 := f s.host.pf0 } }
  else { s with host := { s.host with pf1 := f s.host.pf1 } }

/-- A DMA write for a function, held back while its Bus Master Enable is clear (R341). -/
def dmaWrite (n a : Nat) (bs : List Byte) (s : State) : State :=
  if (pciFn n s).busMaster then hostWrite a bs s
  else updFn n (fun f => { f with deferred := f.deferred ++ [(a, bs)] }) s

/-- PF1 exists only in two-function mode (R338). -/
def fnExists (n : Nat) (s : State) : Bool := n == 0 || (n == 1 && bit s.glb.strap 0 == 1)

/-- A ring that is not FREE. -/
def ring? (r : Nat) (s : State) : Option Ring := aget s.host.rings r

/-- A ring has not been destroyed since it was named. -/
def stands (r : RingRef) (s : State) : Bool := (ring? r.ring s).any (fun x => x.made == r.made)

/-- Name a ring as it stands. -/
def ringRef (r : Nat) (s : State) : RingRef := { ring := r, made := ((ring? r s).map (·.made)).getD 0 }

/-- Set a ring's record. -/
def setRing (r : Nat) (x : Ring) (s : State) : State :=
  { s with host := { s.host with rings := aset s.host.rings r x } }

/-- Change a ring's record. -/
def updRing (r : Nat) (f : Ring → Ring) (s : State) : State :=
  { s with host := { s.host with rings := aupd s.host.rings r f } }

/-- A COMPLETION or RECEIVE ring (R344). -/
def partWritten (t : RingType) : Bool := t == .completion || t == .receive

/-- STATE code of Table 10-4. -/
def ringStateCode : RingState → Nat
  | .free => 0 | .disabled => 1 | .enabled => 2 | .stopped => 3

/-- Occupancy of a ring: P − C modulo 2³² (R354). -/
def occupancy (p c : Nat) : Nat := (p + 4294967296 - c % 4294967296) % 4294967296

/-- The part-written entry of a ring (Table 10-4). -/
def indexEntry (x : Ring) : List Byte :=
  le 4 x.partIndex ++ le 2 x.invCount ++ le 1 (ringStateCode x.state) ++ le 1 x.cause

/-- Write a ring's part-written entry (R350), which waits while Bus Master Enable is clear (R341). -/
def publish (r : Nat) (s : State) : State :=
  match ring? r s with
  | none => s
  | some x =>
    let f := pciFn x.fn s
    if f.indexValid && f.busMaster then hostWrite (f.pib + f.stride * r) (indexEntry x) s else s

/-- The vector control word of an MSI-X vector masks it; it is masked at reset (PCIe Base Specification, log 6). -/
def vectorMasked (f : PciFn) (v : Nat) : Bool := bit (agetD f.msix (16 * v + 12) 1) 0 == 1

/-- Signal a vector: its message, or its pending bit where it is masked or the function may not issue requests (R374, R587). -/
def sendMsix (n v : Nat) (s : State) : State :=
  if !fnExists n s then s
  else
    let f := pciFn n s
    if vectorMasked f v || !f.busMaster then updFn n (fun f => { f with pba := aset f.pba v () }) s
    else emit (.msix n v) s

/-- Send a ring's message and disarm it (R374). -/
def signalRing (r : Nat) (s : State) : State :=
  match ring? r s with
  | none => s
  | some x =>
    sendMsix x.fn x.vector
      (updRing r (fun x => { x with armed := false, unsignalled := 0, modDeadline := none }) s)

/-- Moderation of R374 after a record or a re-arm. -/
def moderate (r : Nat) (s : State) : State :=
  match ring? r s with
  | none => s
  | some x =>
    if x.noIrq || !x.armed || x.unsignalled == 0 then s
    else if x.modCount ≤ x.unsignalled || x.modTime == 0 then signalRing r s
    else if x.modDeadline.isNone then
      updRing r (fun x => { x with modDeadline := some (s.elapsed + x.modTime * 1000) }) s
    else s

/-- The ring takes a record now (R354, R341). -/
def canWrite (x : Ring) (s : State) : Bool :=
  x.state == .enabled && (pciFn x.fn s).busMaster && occupancy x.partIndex x.hostIndex < x.size

/-- Write a 32-byte record at the producer index, then the part-written entry, then the interrupt (R351). -/
def writeRecord (r : Nat) (rec : List Byte) (s : State) : State :=
  match ring? r s with
  | none => s
  | some x =>
    let s1 := hostWrite (x.base + 32 * (x.partIndex % x.size)) (fit 32 rec) s
    let s2 := updRing r (fun x => { x with
                                            partIndex := (x.partIndex + 1) % 4294967296,
                                            unsignalled := x.unsignalled + 1 }) s1
    moderate r (publish r s2)

/-! ### Events (R398 to R401) -/

/-- The 32 bytes of an event record (Table 11-8). -/
def eventBytes (e : Event) : List Byte :=
  le 4 e.seq ++ le 2 e.code ++ le 2 e.arg0 ++ le 2 (b2n e.delayed) ++ le 1 0xE0 ++ zeros 1 ++
  le 4 e.arg1 ++ le 4 (nsOf e.at') ++ le 4 (secOf e.at') ++ le 8 e.arg2

/-- The fields of an event record most significant byte first, as a bus message carries them (R7, R466). -/
def eventMessageBytes (e : Event) : List Byte :=
  be 4 e.seq ++ be 2 e.code ++ be 2 e.arg0 ++ be 2 (b2n e.delayed) ++ be 1 0xE0 ++ zeros 1 ++
  be 4 e.arg1 ++ be 4 (nsOf e.at') ++ be 4 (secOf e.at') ++ be 8 e.arg2

/-- Whether the event ring of a function takes a record now. -/
def eventRingReady (n : Nat) (s : State) : Option Nat :=
  match (pciFn n s).evRing with
  | none => none
  | some r =>
    match ring? r s with
    | some x => if canWrite x s && !s.mgmt.restarting then some r else none
    | none => none

/-- Write held events of a function while its ring has room, EV_EVENTS_LOST ahead of the next one (R400). -/
def flushEvents : Nat → Nat → State → State
  | 0, _, s => s
  | fuel + 1, n, s =>
    match eventRingReady n s, (pciFn n s).evPending with
    | some r, e :: rest =>
      if 0 < (pciFn n s).evLost then
        let l : Event := { seq := s.mgmt.eventSeq, code := Ev.eventsLost, arg0 := 0, arg1 := (pciFn n s).evLost,
                           arg2 := (pciFn n s).evLostFirst, at' := s.tempo.now, delayed := false }
        let s1 := { s with mgmt := { s.mgmt with eventSeq := (s.mgmt.eventSeq + 1) % 4294967296 } }
        flushEvents fuel n (writeRecord r (eventBytes l) (updFn n (fun f => { f with evLost := 0 }) s1))
      else flushEvents fuel n (writeRecord r (eventBytes e) (updFn n (fun f => { f with evPending := rest }) s))
    | _, _ => s

/-- Give an event to one function: muted, held, or lost when 8,192 wait (R398, R400). -/
def giveEvent (e : Event) (n : Nat) (s : State) : State :=
  if !fnExists n s || bit (pciFn n s).evMute (e.code / 256) == 1 then s
  else if 8192 ≤ (pciFn n s).evPending.length then
    updFn n (fun f => { f with evLost := f.evLost + 1, evLostFirst := if f.evLost = 0 then e.seq else f.evLostFirst }) s
  else
    let s1 := updFn n (fun f => { f with evPending := f.evPending ++ [e] }) s
    flushEvents ((pciFn n s1).evPending.length + 1) n s1

/-- Class of an event that the fault log records (R537, R556): 1 CONTAINED, 2 DEGRADED, 3 MANAGEMENT, 4 FATAL. -/
def faultClass (code : Nat) : Option Nat :=
  if [Ev.bridgeError, Ev.tcamError, Ev.flowEcc, Ev.hbmError, Ev.auditTable, Ev.sramUe, Ev.queueError, Ev.stageTimeout,
      Ev.ddrUe, Ev.ddrTimeout, Ev.stagingLost].contains code then some 1
  else if [Ev.fabricLaneDown, Ev.hbmPageRetired, Ev.hbmStackFailed].contains code then some 2
  else if code == Ev.mgmtRestart then some 3
  else if code == Ev.bridgeFailed || code == Ev.fatal then some 4
  else none

/-- Enter an event in the fault log, which keeps 64 records, newest first (R553, R556). -/
def logFault (code arg1 arg2 : Nat) (s : State) : State :=
  match faultClass code with
  | none => s
  | some c => { s with pwr := { s.pwr with
      faults := ({ code := code, cls := c, tempo := s.tempo.now, arg1 := arg1, arg2 := arg2 } :: s.pwr.faults).take 64,
      faultCount := s.pwr.faultCount + 1 } }

/-- The package's carillon position, when it has one (R456). -/
def ownPosition (s : State) : Option Nat :=
  if s.crl.role == .follower || s.crl.role == .head then some s.crl.position else none

/-- The package's management-bus node address (R463). -/
def busNode (s : State) : Nat := s.bus.nodeBase + (ownPosition s).getD 0

/-- The bus MAC address of a node; the broadcast address for 0xFF (R463). -/
def busMac (node : Nat) : List Byte := if node = 0xFF then List.replicate 6 0xFF else [2, 0, 0, 0, 1, BitVec.ofNat 8 node]

/-- Send one frame on the bus (R462): it is counted and stands in transmission. -/
def busFrame (f : List Byte) (s : State) : State :=
  emit (.bus f) (tally (ctrId 8 0 4) { s with bus := { s.bus with sending := some f, attempts := 0 } })

/-- Pieces of 1,024 bytes, at least one (R447). -/
def pieces : Nat → List Byte → List (List Byte)
  | 0, b => [b]
  | n + 1, b => if b.length ≤ 1024 then [b] else b.take 1024 :: pieces n (b.drop 1024)

/-- The fragments of a message with their numbers (R447). -/
def fragments (m : Msg) : List Msg :=
  let ps := pieces 64 m.payload
  (List.range ps.length).map (fun k => { m with fragIndex := k, fragCount := ps.length, payload := ps.getD k [] })

/-- Send a bus message with a given MSG_ID (R446, R447, R463). -/
def busSendId (typ dst msgId : Nat) (payload : List Byte) (s : State) : State :=
  if !s.bus.enable then s
  else
    let m : Msg := { version := 1, domain := 1, typ := typ, cid := s.crl.cid, src := busNode s, dst := dst, msgId := msgId,
                     fragIndex := 0, fragCount := 1, length := 0, payload := payload }
    (fragments m).foldl (fun s m => busFrame (msgFrame (busMac dst) (busMac m.src) m) s) s

/-- Send a bus message under the next MSG_ID. -/
def busSend (typ dst : Nat) (payload : List Byte) (s : State) : State :=
  busSendId typ dst s.bus.msgId payload { s with bus := { s.bus with msgId := (s.bus.msgId + 1) % 4294967296 } }

/-- Send an event to EVENT_NODE, at most 100 in a second (R466). -/
def busEvent (e : Event) (s : State) : State :=
  if !s.bus.enable || s.bus.eventNode == 0 || bit s.bus.eventMute (e.code / 256) == 1 then s
  else
    let sec := secOf s.tempo.now
    let n := if s.bus.eventSec = sec then s.bus.eventCount else 0
    if 100 ≤ n then s
    else busSend 0x04 s.bus.eventNode (eventMessageBytes e) { s with bus := { s.bus with eventSec := sec, eventCount := n + 1 } }

/-- Raise an event: it takes the next SEQ and goes to every function and to the bus; during a management restart it waits on die (R399, R400, R466). -/
def raiseEvent (code arg0 arg1 arg2 : Nat) (s : State) : State :=
  let e : Event := { seq := s.mgmt.eventSeq, code := code, arg0 := arg0, arg1 := arg1, arg2 := arg2, at' := s.tempo.now,
                     delayed := s.mgmt.restarting }
  let s1 := logFault code arg1 arg2 { s with mgmt := { s.mgmt with eventSeq := (s.mgmt.eventSeq + 1) % 4294967296 } }
  if s.mgmt.restarting then
    if s.mgmt.restartEvents.length < 1024 then
      { s1 with mgmt := { s1.mgmt with restartEvents := s1.mgmt.restartEvents ++ [e] } }
    else
      { s1 with mgmt := { s1.mgmt with restartLost := s1.mgmt.restartLost + 1,
                                       restartLostFirst := if s1.mgmt.restartLost = 0 then e.seq else s1.mgmt.restartLostFirst } }
  else busEvent e (giveEvent e 1 (giveEvent e 0 s1))

/-! ### Completions (R367, R368) -/

/-- Records held on die for all completion rings. -/
def heldTotal (s : State) : Nat := (avals s.host.rings).foldl (fun n x => n + x.held.length) 0

/-- Free records of the shared completion store. -/
def storeFree (s : State) : Nat := 65536 - heldTotal s

/-- Entry to and exit from the stall of R368 for a completion ring. -/
def checkStall (r : Nat) (s : State) : State :=
  match ring? r s with
  | none => s
  | some x =>
    if !x.stalled && (256 ≤ x.held.length || (storeFree s < 4096 && 0 < x.held.length)) then
      raiseEvent Ev.ringCqStall r 0 0 (tally (hifCtr 0x118) (updRing r (fun x => { x with stalled := true }) s))
    else if x.stalled && x.held.length < 128 && 4096 ≤ storeFree s then
      raiseEvent Ev.ringCqResume r 0 0 (updRing r (fun x => { x with stalled := false }) s)
    else s

/-- The stall of R368 for every completion ring: the shared store bears on all of them. -/
def checkStalls (s : State) : State := (akeys s.host.rings).foldl (fun s r => checkStall r s) s

/-- An inject completion with a timestamp frees its entry of the port's timestamp FIFO when it is written (R103). -/
def freeTs (rec : List Byte) (s : State) : State :=
  if rd rec 10 1 = 0x80 && bit (rd rec 11 1) 0 == 1 then
    { s with macs := aupd s.macs (rd rec 14 2) (fun m => { m with
        tsFifo := m.tsFifo.eraseP (fun e => e.seqTag == rd rec 12 2), tsLossMark := m.tsLossMark && 1 < m.tsFifo.length }) }
  else s

/-- Write held completions while the ring has room (R367). -/
def flushHeld : Nat → Nat → State → State
  | 0, _, s => s
  | fuel + 1, r, s =>
    match ring? r s with
    | none => s
    | some x =>
      match x.held with
      | [] => s
      | h :: t => if canWrite x s then flushHeld fuel r (freeTs h (writeRecord r h (updRing r (fun x => { x with held := t }) s))) else s

/-- Post a completion to a completion ring: written in order, or held on die (R367). -/
def postCompletion (r : Nat) (rec : List Byte) (s : State) : State :=
  match ring? r s with
  | none => s
  | some x =>
    if x.held.isEmpty && canWrite x s then freeTs rec (writeRecord r rec s)
    else checkStalls (updRing r (fun x => { x with held := x.held ++ [rec] }) s)

/-- Drain everything a part-written ring may now take: held completions, then events of a function bound to it. -/
def drainRing (r : Nat) (s : State) : State :=
  match ring? r s with
  | none => s
  | some x =>
    let s1 := checkStalls (flushHeld (x.held.length + 1) r s)
    let s2 := if (pciFn 0 s1).evRing = some r then flushEvents ((pciFn 0 s1).evPending.length + 1) 0 s1 else s1
    if (pciFn 1 s2).evRing = some r then flushEvents ((pciFn 1 s2).evPending.length + 1) 1 s2 else s2

/-! ### Change journal (R402, R403) -/

/-- Append a journal record; the oldest is overwritten beyond 1,048,576. -/
def journal (j : JRec) (s : State) : State :=
  { s with mgmt := { s.mgmt with
      journal := ({ j with seq := s.mgmt.journalNext, tempo := s.tempo.now } :: s.mgmt.journal).take 1048576,
      journalNext := s.mgmt.journalNext + 1 } }

/-- The 64 bytes of a journal record (Table 11-10). -/
def journalBytes (j : JRec) : List Byte :=
  le 8 j.seq ++ le 4 (nsOf j.tempo) ++ le 6 (secOf j.tempo) ++ le 1 j.source ++ le 1 j.kind ++ le 2 j.op ++
  le 2 j.status ++ le 4 j.tag ++ le 4 j.origin ++ le 8 j.detail0 ++ le 8 j.detail1 ++ le 8 j.paramCrc ++ zeros 8

/-! ### Global status (R585 to R587) -/

/-- Set bits of GLB_INT_STATUS; each bit that becomes 1 while enabled sends the message of GLB_INT_VECTOR (R587). -/
def raiseGlb (mask : Nat) (s : State) : State :=
  let fresh := mask &&& (0xFFFFFFFF - s.glb.intStatus % 4294967296)
  let s1 := { s with glb := { s.glb with intStatus := s.glb.intStatus ||| mask } }
  if fresh &&& s.glb.intEnable = 0 then s1 else sendMsix (bit s.glb.intVector 31) (s.glb.intVector % 2048) s1

/-- Record an access in GLB_ERROR and GLB_ERROR_ADDR (R586). -/
def recordAccess (cause fn offset : Nat) (write : Bool) (s : State) : State :=
  let was := s.glb.error
  let s1 := { s with glb := { s.glb with
      error := was ||| cause,
      errorAddr := fn * 2147483648 + b2n write * 1073741824 + offset % 67108864 } }
  if was &&& cause = cause then s1 else raiseGlb 16 s1

/-- The data plane is stopped: shed level S4 or higher, a standing fatal report, parked, or recovery mode (R467, R511, R540, R545). -/
def halted (s : State) : Bool := 4 ≤ s.pwr.level || s.glb.fatal || s.crl.parked || s.mgmt.rom

/-- BAR0 is served: the part has power and is below S5, no power failure is accepted, and no warm reset holds it (R588, R592). -/
def barServed (s : State) : Bool :=
  !s.crl.parked && !s.pwr.dead && s.pwr.level < 5 && !s.pwr.powerFail && s.glb.warmUntil ≤ s.elapsed

/-- A port or client that exists (R82). -/
def mac? (m : Nat) (s : State) : Option Mac := aget s.macs m

/-- Change a MAC. -/
def updMac (m : Nat) (f : Mac → Mac) (s : State) : State := { s with macs := aupd s.macs m f }

end Sys2Proof.Machine
end

