-- ==== Sys2Proof/Machine/Stage.lean ====
section
/-! DEFINITION. Epochs and staging (R47, R48, R57, R60): the change of one entry, the next epoch, identifier states, references and capacities. -/

namespace Sys2Proof.Machine
open Sys2Proof

/-! ### Reset entries of the sparse tables -/

/-- An exception reason's settings (R159). -/
def excOf (c : Conf) (r : Nat) : ExcCfg := agetD c.exceptions r { queue := 0, truncate := 0, burst := 64, rate := 10000 }

/-- Entry `v` of class map `m` (R157). -/
def classOf (c : Conf) (m v : Nat) : Nat :=
  match aget c.classMaps m with
  | some l => l.getD v 0
  | none => v % 8

/-- A VRF's miss action: 0 to the host, 1 discard (R186). -/
def missOf (c : Conf) (vrf : Nat) : Nat := agetD c.vrfMiss vrf 0

/-- The default VOQ profile (Table 07-5). -/
def defaultVoqProfile : VoqProfile :=
  { flags := 0, tailLimit := 16777216, ondieLimit := 1048576, spillHigh := 524288, spillLow := 131072, headKeep := 98304,
    curve := List.replicate 4 (0, 0) }

/-- A VOQ profile. -/
def voqProfileOf (c : Conf) (p : Nat) : VoqProfile := agetD c.voqProfiles p defaultVoqProfile

/-- A pool's settings, the default column of Table 07-3 for its buffer count. -/
def poolCfgOf (c : Conf) (pools : List Pool) (p : Nat) : PoolCfg :=
  let n := (pools[p]?.map (·.count)).getD 0
  agetD c.pools p { warn1 := n / 4, warn2 := n / 8, warn3 := n / 32, resLg := n / 128, resEgress := n / 16, resHost := n / 128 }

/-- A sampler (Table 07-10). -/
def samplerOf (c : Conf) (n : Nat) : SamplerCfg := agetD c.samplers n { mode := 0, reason := 24, n := 1024, truncate := 128 }

/-- A punt queue's TAIL_LIMIT (R262). -/
def puntLimitOf (c : Conf) (q : Nat) : Nat := agetD c.puntLimits q 1048576

/-- A port node's shaper (R278). -/
def portSchedOf (c : Conf) (m : Nat) : PortSched := agetD c.portScheds m { rate := 0, burst := 0, overhead := 20 }

/-- A policer (Table 08-7). -/
def policerOf (c : Conf) (n : Nat) : PolicerCfg := agetD c.policers n { flags := 0, overhead := 0, rate := 0, burst := 64 }

/-- The eight rates of a PEAL_RX destination (R293). -/
def creditPealOf (c : Conf) (d : Nat) : List Nat := agetD c.creditPeal d (List.replicate 8 10000000)

/-- A classification rule's key in the rule table: direction and RULE_ID. -/
def ruleKey (dir id : Nat) : Nat := dir * 131072 + id

/-- A rule table's key: direction and TABLE. -/
def tableKey (dir t : Nat) : Nat := dir * 256 + t

/-- A route's key: family, VRF, length, prefix value. -/
def routeKey (v6 : Bool) (vrf len prefixVal : Nat) : Nat :=
  ((b2n v6 * 65536 + vrf) * 256 + len) * 2 ^ 128 + prefixVal

/-- Family, VRF, length and prefix of a route key. -/
def routeParts (k : Nat) : Bool × Nat × Nat × Nat :=
  (1 ≤ k / 2 ^ 128 / 256 / 65536, k / 2 ^ 128 / 256 % 65536, k / 2 ^ 128 % 256, k % 2 ^ 128)

/-! ### Changes -/

/-- One change applied to an epoch's values. -/
def applyChange (c : Conf) : Change → Conf
  | .layout offs => { c with layout := offs }
  | .profile id e => { c with profiles := aput c.profiles id e }
  | .select id e => { c with selects := aput c.selects id e }
  | .classMap m l => { c with classMaps := aset c.classMaps m l }
  | .ruleTable k t => { c with ruleTables := aput c.ruleTables k t }
  | .rule k r => { c with rules := aput c.rules k r }
  | .ruleAction k a => { c with rules := aupd c.rules k (fun r => { r with action := a }) }
  | .exception r e => { c with exceptions := aset c.exceptions r e }
  | .vrfMiss v m => { c with vrfMiss := aset c.vrfMiss v m }
  | .route k r => { c with routes := aput c.routes k r }
  | .label l r => { c with labels := aput c.labels l r }
  | .hashSeed n => { c with hashSeed := n }
  | .nextHop id n => { c with nextHops := aput c.nextHops id n }
  | .ecmp id l => { c with ecmp := aput c.ecmp id l }
  | .template id t => { c with templates := aput c.templates id t }
  | .dest d e => { c with dests := aput c.dests d e }
  | .voqProfile p e => { c with voqProfiles := aset c.voqProfiles p e }
  | .epList n l => { c with epLists := aset c.epLists n l }
  | .pealList n l => { c with pealLists := aput c.pealLists n l }
  | .pool p e => { c with pools := aset c.pools p e }
  | .sampler n e => { c with samplers := aset c.samplers n e }
  | .puntLimit q l => { c with puntLimits := aset c.puntLimits q l }
  | .portSched m e => { c with portScheds := aset c.portScheds m e }
  | .channel n e => { c with channels := aput c.channels n e }
  | .aggregate n e => { c with aggregates := aput c.aggregates n e }
  | .leaf n e => { c with leaves := aput c.leaves n e }
  | .gateList m g => { c with gateLists := aput c.gateLists m g }
  | .credit b r => { c with creditBytes := b, creditRatio := r }
  | .creditPeal d l => { c with creditPeal := aset c.creditPeal d l }
  | .policer n e => { c with policers := aset c.policers n e }
  | .grid p => { c with grid := p }
  | .maxAge ms => { c with maxAge := ms }

/-- A staged change with the entries that it moves (R170). -/
def applyStaged (c : Conf) (x : Staged) : Conf :=
  let n := applyChange c x.change
  match x.change with
  | .select _ _ => { n with selects := x.moves.foldl (fun t m => aupd t m.1 (fun e => { e with index := m.2 })) n.selects }
  | .rule _ _ => { n with rules := x.moves.foldl (fun t m => aupd t m.1 (fun r => { r with index := m.2 })) n.rules }
  | _ => n

/-- Changes applied in order. -/
def applyAll (c : Conf) (l : List Staged) : Conf := l.foldl applyStaged c

/-- The staged changes that a commit has sealed (R60). -/
def sealedBy (car : Bool) (seq : Nat) (s : State) : List Staged := s.staged.filter (fun x => x.sealedBy == some (car, seq))

/-- The epochs after each outstanding commit that still holds changes, in order of target. -/
def sealedConfs (s : State) : List Conf :=
  (s.commits.foldl (fun (a : Conf × List Conf) c =>
    let n := applyAll a.1 (sealedBy c.carillon c.seq s)
    (n, a.2 ++ [n])) (s.cfg, [])).2

/-- The epoch after every sealed change. -/
def sealedConf (s : State) : Conf := (sealedConfs s).getLastD s.cfg

/-- The next epoch: the live configuration with every staged change (R204). -/
def nextConf (s : State) : Conf := applyAll (sealedConf s) (s.staged.filter (fun x => x.sealedBy.isNone))

/-- The values that are live, sealed and staged. -/
def standing (s : State) : List Conf := [s.cfg] ++ sealedConfs s ++ [nextConf s]

/-- Every set of values that still holds resources: not yet released, live, sealed and staged (R191 to R193, R257). -/
def heldConfs (s : State) : List Conf := s.commits.filterMap (·.retained) ++ standing s

/-- The changes of each commit that has not switched, and those staged for the next one. -/
def batches (s : State) : List (List Staged) :=
  s.commits.map (fun c => sealedBy c.carillon c.seq s) ++ [s.staged.filter (fun x => x.sealedBy.isNone)]

/-- Change units held staged (R207). -/
def stagedUnits (s : State) : Nat := s.staged.foldl (fun n x => n + x.units) 0

/-- Stage a change. -/
def stage (units : Nat) (ch : Change) (s : State) : State :=
  { s with staged := s.staged ++ [{ change := ch, units := units, sealedBy := none }] }

/-! ### Identifiers (R55, R209, R210) -/

/-- Identifier `id` of a kind of Table 06-15 is allocated in an epoch. -/
def idIn (kind id : Nat) (c : Conf) : Bool :=
  match kind with
  | 0 => ahas c.nextHops id
  | 1 => ahas c.ecmp id
  | 2 => ahas c.templates id
  | 3 => ahas c.dests (id / 8)
  | 4 => ahas c.leaves id
  | 5 => ahas c.pealLists id
  | _ => false

/-- Key of a quarantine mark. -/
def quarKey (kind id : Nat) : Nat := kind * 1048576 + id

/-- A quarantine mark stands. -/
def quarantined (kind id : Nat) (s : State) : Bool := ahas s.quar (quarKey kind id)

/-- The free of an identifier is sealed into a commit that has not switched (Table 06-14). -/
def freeSealed (kind id : Nat) (s : State) : Bool :=
  !idIn kind id (sealedConf s) && (s.cfg :: sealedConfs s).any (idIn kind id)

/-- LIVE or STAGED_ALLOC in the next epoch (R204). -/
def idNext (kind id : Nat) (s : State) : Bool := idIn kind id (nextConf s)

/-- STATE of Table 06-15. -/
def idState (kind id : Nat) (s : State) : Nat :=
  if idIn kind id s.cfg then (if idNext kind id s then 2 else 3)
  else if quarantined kind id s then 4
  else if idNext kind id s || (sealedConfs s).any (idIn kind id) then 1
  else 0

/-- The instant of a downbeat, ns from the Tempo epoch (R43). -/
def downbeatAt (d : Nat) (s : State) : Nat := s.tempo.anchorAt + (d - s.tempo.anchor) * (s.cfg.grid * 250000)

/-- The lowest number from `n` on that no forward step passed over (R46). -/
def unskipped (n : Nat) (s : State) : Nat := s.tempo.skips.foldl (fun n i => if i.1 ≤ n && n < i.2 then i.2 else n) n

/-- The number of the next downbeat (R46). -/
def nextDownbeat (s : State) : Nat := unskipped (s.tempo.lastDownbeat + 1) s

/-- The lowest downbeat at or after an instant, above the last that occurred (R46). -/
def downbeatFrom (t : Nat) (s : State) : Nat :=
  let p := s.cfg.grid * 250000
  unskipped (max (s.tempo.lastDownbeat + 1) (s.tempo.anchor + (t - s.tempo.anchorAt + p - 1) / p)) s

/-- Elapsed ns at which a quarantine may end (R55). -/
def quarEnd (q : Quar) : Nat := q.freedAt + (q.age + 1) * 1000000 + q.postponed

/-- The release downbeat as the part reports it now (R56). -/
def releaseDownbeat (q : Quar) (s : State) : Nat :=
  downbeatFrom (tempoNs s + (quarEnd q - s.elapsed)) s

/-- The release downbeat of an identifier, 0 while no mark stands. -/
def releaseOf (kind id : Nat) (s : State) : Nat :=
  match aget s.quar (quarKey kind id) with
  | some q => releaseDownbeat q s
  | none => 0

/-- Whether a SET of an identifier is refused, and the release downbeat then reported (Table 06-14). -/
def setRefused (kind id : Nat) (s : State) : Option Nat :=
  if quarantined kind id s then some (releaseOf kind id s)
  else if freeSealed kind id s then some 0
  else none

/-- The identifier part of a lookup result or an NH word. -/
def resId (r : Nat) : Nat := r % 1048576

/-- Little-endian word `off` of an action record or template. -/
def word (b : List Byte) (off : Nat) : Nat := rd b off 4

/-- References to an identifier of kind 0 to 2 in an epoch (R209). -/
def refsIn (kind id : Nat) (c : Conf) : Nat :=
  let results := avals c.routes ++ avals c.labels
  let actions := (avals c.rules).map (·.action)
  match kind with
  | 0 =>
    results.countP (fun r => bits r 63 61 == 0 && resId r == id) +
    (avals c.ecmp).foldl (fun n l => n + l.countP (· == id)) 0 +
    actions.countP (fun a => bit (word a 0) 27 == 1 && bit (word a 8) 31 == 0 && bits (word a 8) 19 0 == id)
  | 1 =>
    results.countP (fun r => bits r 63 61 == 1 && resId r == id) +
    actions.countP (fun a => bit (word a 0) 27 == 1 && bit (word a 8) 31 == 1 && bits (word a 8) 19 0 == id)
  | 2 =>
    (avals c.nextHops).countP (fun n => n.kind == 0 && n.template == id) +
    (avals c.templates).countP (fun t => bit (word t 4) 31 == 1 && bits (word t 4) 18 0 == id) +
    actions.countP (fun a => bit (word a 0) 26 == 1 && bits (word a 12) 18 0 == id)
  | _ => 0

/-! ### Capacities (R191 to R193, Table 06-21) -/

/-- Distinct elements, in order of first appearance. -/
def distinct {α : Type} [BEq α] (l : List α) : List α := l.foldl (fun a x => if a.contains x then a else a ++ [x]) []

/-- Route units of a route key: none for a host route. -/
def routeUnits (k : Nat) : Nat :=
  let (v6, _, len, _) := routeParts k
  if v6 then (if len = 128 then 0 else if len ≤ 64 then 2 else 4) else (if len = 32 then 0 else 1)

/-- Exact-match entries of a route key: none for a prefix. -/
def routeEntries (k : Nat) : Nat :=
  let (v6, _, len, _) := routeParts k
  if v6 then (if len = 128 then 2 else 0) else (if len = 32 then 1 else 0)

/-- Keys that some of the sets of values holds. -/
def keysOf {α : Type} (f : Conf → Assoc α) (cs : List Conf) : List Nat := distinct (cs.flatMap (fun c => akeys (f c)))

/-- Route units held. -/
def unitsHeld (cs : List Conf) : Nat := (keysOf (·.routes) cs).foldl (fun n k => n + routeUnits k) 0

/-- Exact-match entries held. -/
def entriesHeld (cs : List Conf) : Nat :=
  (keysOf (·.routes) cs).foldl (fun n k => n + routeEntries k) 0 + (keysOf (·.labels) cs).length

/-- Entries of the lists of a table. -/
def listSizes (t : Assoc (List Nat)) : Nat := t.foldl (fun n p => n + p.2.length) 0

/-- The ECMP slot list that a change writes. -/
def ecmpWritten : Change → Option (Nat × Option (List Nat))
  | .ecmp id l => some (id, l)
  | _ => none

/-- The Peal target list that a change writes. -/
def pealWritten : Change → Option (Nat × Option (List Nat))
  | .pealList id l => some (id, l)
  | _ => none

/-- The lists that changes staged for one commit write: the last one of each identifier (log 48). -/
def listsWritten (f : Change → Option (Nat × Option (List Nat))) (l : List Staged) : Assoc (List Nat) :=
  l.foldl (fun t x => match f x.change with
    | some (id, v) => aput t id v
    | none => t) []

/-- ECMP slots of lists that are not live any more and not yet released (R193). -/
def slotsKept (s : State) : Nat := s.commits.foldl (fun n c => n + c.oldSlots) (s.quar.foldl (fun n q => n + q.2.slots) 0)

/-- Peal targets likewise (R257). -/
def targetsKept (s : State) : Nat :=
  s.commits.foldl (fun n c => n + c.oldTargets) (s.quar.foldl (fun n q => n + ((q.2.peal.map List.length).getD 0)) 0)

/-- ECMP slots of live and not-yet-released lists, and those of staged lists (R193). -/
def slotsUsed (s : State) : Nat := listSizes s.cfg.ecmp + slotsKept s
def slotsStaged (l : List (List Staged)) : Nat := l.foldl (fun n b => n + listSizes (listsWritten ecmpWritten b)) 0

/-- Peal targets likewise (R257). -/
def targetsUsed (s : State) : Nat := listSizes s.cfg.pealLists + targetsKept s
def targetsStaged (l : List (List Staged)) : Nat := l.foldl (fun n b => n + listSizes (listsWritten pealWritten b)) 0

/-- The batches with one more change staged. -/
def batchesWith (ch : Change) (s : State) : List (List Staged) :=
  s.commits.map (fun c => sealedBy c.carillon c.seq s) ++
    [s.staged.filter (fun x => x.sealedBy.isNone) ++ [{ change := ch, units := 0, sealedBy := none }]]

def routeUnitCapacity : Nat := 10485760
def entryCapacity : Nat := 4194304
def nextHopCapacity : Nat := 1048576
def groupCapacity : Nat := 65536
def slotCapacity : Nat := 2097152
def templateCapacity : Nat := 524288
def targetCapacity : Nat := 1048576

/-- Identifiers of a kind that are not FREE, and those that are STAGED_ALLOC. -/
def idsTaken (kind : Nat) (s : State) : Nat × Nat :=
  let keys := match kind with
    | 0 => keysOf (·.nextHops) (heldConfs s)
    | 1 => keysOf (·.ecmp) (heldConfs s)
    | _ => keysOf (·.templates) (heldConfs s)
  let marked := (akeys s.quar).filterMap (fun k => if k / 1048576 == kind then some (k % 1048576) else none)
  let all := distinct (keys ++ marked)
  (all.countP (fun id => idState kind id s == 2 || idState kind id s == 3 || idState kind id s == 4),
   all.countP (fun id => idState kind id s == 1))

/-- Free identifiers of a kind. -/
def idsFree (kind : Nat) (s : State) : Nat :=
  let (u, g) := idsTaken kind s
  (if kind = 0 then nextHopCapacity else if kind = 1 then groupCapacity else templateCapacity) - u - g

end Sys2Proof.Machine
end

