-- ==== Sys2Proof/Machine/Operands.lean ====
section
/-! DEFINITION. The operand forms the part reads out of bytes: profiles and extracted fields, keys, action records, templates, lookup results, fabric units and carillon messages. -/

namespace Sys2Proof.Machine
open Sys2Proof

/-! ### Profiles and fields (Tables 05-3, 05-4) -/

/-- Extraction descriptor of field `n` of a profile. -/
def descOf (p : List Byte) (n : Nat) : Nat := rd p (64 + 4 * n) 4

/-- VALID of field `n`. -/
def fieldValid (p : List Byte) (n : Nat) : Bool := n < 32 && bit (descOf p n) 31 == 1

/-- First bit of field `n`, counted from the first bit of the packet. -/
def fieldStart (p : List Byte) (n : Nat) : Nat := bits (descOf p n) 30 23 * 8 + bits (descOf p n) 22 20

/-- Width of field `n` in bits. -/
def fieldWidth (p : List Byte) (n : Nat) : Nat := bits (descOf p n) 19 15 + 1

/-- `w` bits of a byte string from bit `b` on, most significant first. -/
def bitsAt (bs : List Byte) (b w : Nat) : Nat :=
  let n := (b % 8 + w + 7) / 8
  beVal (fit n (bs.drop (b / 8))) / 2 ^ (8 * n - b % 8 - w) % 2 ^ w

/-- The first 256 bytes of a packet, zeros beyond its end (R146). -/
def headOf (bs : List Byte) : List Byte := fit 256 bs

/-- Value of field `n` in a packet (R153). -/
def fieldVal (p : List Byte) (bs : List Byte) (n : Nat) : Nat := bitsAt (headOf bs) (fieldStart p n) (fieldWidth p n)

/-- The fields a mask names, in ascending order. -/
def maskFields (m : Nat) : List Nat := (List.range 32).filter (fun n => bit m n == 1)

/-- Profile members. -/
def pDisposition (p : List Byte) : Nat := rd p 2 1
def pReason (p : List Byte) : Nat := rd p 3 1
def pMinLen (p : List Byte) : Nat := rd p 4 2
def pLookupKind (p : List Byte) : Nat := rd p 6 1
def pLookupField (p : List Byte) : Nat := rd p 7 1
def pIngTable (p : List Byte) : Nat := rd p 8 1
def pEgrTable (p : List Byte) : Nat := rd p 9 1
def pClassField (p : List Byte) : Nat := rd p 10 1
def pClass (p : List Byte) : Nat := rd p 11 1
def pMark (p : List Byte) (k : Nat) : Nat := rd p (11 + k) 1
def pTtlField (p : List Byte) : Nat := rd p 15 1
def pL3 (p : List Byte) : Nat := rd p 16 1
def pChecks (p : List Byte) : Nat := rd p 18 1
def pIngKey (p : List Byte) : Nat := rd p 20 4
def pEgrKey (p : List Byte) : Nat := rd p 24 4
def pHash (p : List Byte) : Nat := rd p 28 4
def pFlow (p : List Byte) : Nat := rd p 32 4

/-- A profile with no fields, no marks and no table (R311). -/
def emptyProfile : List Byte := zeros 8 ++ [0xFF, 0xFF, 0xFF, 0, 0xFF, 0xFF, 0xFF, 0xFF, 0xFF, 0xFF] ++ zeros 174

/-- Bits of the fields that a mask names. -/
def keyBits (p : List Byte) (m : Nat) : Nat := (maskFields m).foldl (fun w n => w + fieldWidth p n) 0

/-- Fields appended to a value, most significant first. -/
def appendFields (p bs : List Byte) (m v : Nat) : Nat :=
  (maskFields m).foldl (fun v n => v * 2 ^ fieldWidth p n + fieldVal p bs n) v

/-- Width in bits of a rule table. -/
def tableBits (width : Nat) : Nat := 160 * 2 ^ width

/-- Metadata and fields of a classification key, filled with zeros to `w` bits (R155). -/
def classKey (p bs : List Byte) (mask md w : Nat) : Nat :=
  appendFields p bs mask md * 2 ^ (w - 24 - keyBits p mask)

/-- Ingress metadata (Table 05-5). -/
def ingressMeta (table source pass : Nat) (injected : Bool) : Nat :=
  ((table * 256 + source) * 4 + pass) * 64 + b2n injected * 32

/-- Egress metadata (Table 05-5). -/
def egressMeta (table dest cls : Nat) (copy : Bool) : Nat :=
  ((table * 256 + dest) * 8 + cls) * 32 + b2n copy * 16

/-- Flow key of 48 bytes (R214). -/
def flowKey (p bs : List Byte) : List Byte :=
  be 48 (appendFields p bs (pFlow p) 0 * 2 ^ (384 - keyBits p (pFlow p)))

/-- Selection key of 160 bits (Table 05-1). -/
def selectKey (layout : List Nat) (bs : List Byte) (source pass : Nat) (injected : Bool) : Nat :=
  beVal ([BitVec.ofNat 8 source, BitVec.ofNat 8 (pass * 64 + b2n injected * 32)] ++
    (List.range 18).map (fun k => ((headOf bs)[layout.getD k 0]?).getD 0))

/-- A ternary match: no compared bit differs. -/
def ternary (key mask v : Nat) : Bool := (key ^^^ v) &&& mask == 0

/-! ### Action records (Table 05-11) -/

def aDisposition (a : List Byte) : Nat := bits (word a 0) 31 30
def aSetVrf (a : List Byte) : Bool := bit (word a 0) 29 == 1
def aSetClass (a : List Byte) : Bool := bit (word a 0) 28 == 1
def aSetNh (a : List Byte) : Bool := bit (word a 0) 27 == 1
def aSetTemplate (a : List Byte) : Bool := bit (word a 0) 26 == 1
def aPolice (a : List Byte) : Bool := bit (word a 0) 25 == 1
def aSample (a : List Byte) : Bool := bit (word a 0) 24 == 1
def aMirror (a : List Byte) : Bool := bit (word a 0) 23 == 1
def aDecTtl (a : List Byte) : Bool := bit (word a 0) 22 == 1
def aRecirculate (a : List Byte) : Bool := bit (word a 0) 21 == 1
def aFlow (a : List Byte) : Bool := bit (word a 0) 20 == 1
def aPop (a : List Byte) : Nat := bits (word a 0) 19 18
def aWrites (a : List Byte) : Nat := bits (word a 0) 17 16
def aReason (a : List Byte) : Nat := bits (word a 0) 15 8
def aVrf (a : List Byte) : Nat := rd a 4 2
def aClass (a : List Byte) : Nat := rd a 6 1 % 8
def aFlowTable (a : List Byte) : Nat := rd a 7 1 % 16
def aNh (a : List Byte) : Nat := word a 8
def aTemplate (a : List Byte) : Nat := bits (word a 12) 18 0
def aPolicer (a : List Byte) : Nat := bits (word a 16) 18 0
def aSampler (a : List Byte) : Nat := bits (word a 16) 31 20

/-- Field writes of an action record: field and value. -/
def aFieldWrites (a : List Byte) : List (Nat × Nat) :=
  [(rd a 20 1 % 32, word a 24), (rd a 21 1 % 32, word a 28)].take (aWrites a)

/-- The action of a search with table 0xFF: FORWARD with no other action (R166). -/
def forwardAction : List Byte := zeros 32

/-- A reserved bit of an action record is set, or a member is out of range (R176). -/
def actionMalformed (a : List Byte) : Bool :=
  bits (word a 0) 7 0 != 0 || aDisposition a == 3 || aWrites a == 3 ||
  ((aDisposition a == 2 || aMirror a) && aReason a < 64) ||
  8 ≤ rd a 6 1 || 16 ≤ rd a 7 1 || bits (aNh a) 30 20 != 0 ||
  (bit (aNh a) 31 == 1 && 65536 ≤ bits (aNh a) 19 0) ||
  bits (word a 12) 31 19 != 0 || bit (word a 16) 19 == 1 || 32 ≤ rd a 20 1 || 32 ≤ rd a 21 1 || rd a 22 2 != 0

/-- POP of an action record names a mark that every profile of a list defines. -/
def popDefined (profiles : List (List Byte)) (pop : Nat) : Bool :=
  pop == 0 || profiles.all (fun p => pMark p pop != 0xFF)

/-! ### Lookup results (Tables 06-1, 06-2) -/

/-- Entry kinds of Table 06-2. -/
inductive EntryKind where
  | net | host | label
  deriving DecidableEq, Repr

/-- A result that R185 permits for an entry kind. -/
def resultOk (k : EntryKind) (r : Nat) : Bool :=
  let kind := bits r 63 61
  let pop := bits r 60 59
  let reserved := bits r 58 56 == 0 && bits r 31 20 == 0
  let noVrf := bits r 55 40 == 0
  let noReason := bits r 39 32 == 0
  let noId := bits r 19 0 == 0
  let fields := match kind with
    | 0 => noVrf && noReason
    | 1 => noVrf && noReason && bits r 19 0 < 65536
    | 2 => noVrf && noReason && noId
    | 3 => noVrf && noId && 64 ≤ bits r 39 32
    | 4 => noReason && noId
    | _ => false
  let pops := match k, kind with
    | .net, 4 => false
    | .net, _ => pop == 0
    | .host, 4 => pop != 0
    | .host, _ => pop == 0
    | .label, 0 => true
    | .label, 1 => true
    | .label, 4 => pop != 0
    | .label, _ => pop == 0
  reserved && fields && pops

/-! ### Templates (Tables 06-6 to 06-8) -/

def tPopLen (t : List Byte) : Nat := rd t 0 1
def tPushLen (t : List Byte) : Nat := rd t 1 1
def tPtp (t : List Byte) : Nat := rd t 2 1
def tPtpOffset (t : List Byte) : Nat := rd t 3 1
def tChain (t : List Byte) : Option Nat := if bit (word t 4) 31 == 1 then some (bits (word t 4) 18 0) else none
def tPush (t : List Byte) : List Byte := slice t 24 40

/-- Patch entries: OP, OFFSET, ARG. -/
def tPatches (t : List Byte) : List (Nat × Nat × Nat) :=
  (List.range 4).map (fun k => (rd t (8 + 4 * k) 1, rd t (9 + 4 * k) 1, rd t (10 + 4 * k) 1))

/-- Bytes a patch operation reaches from its OFFSET (R199). -/
def patchReach (op : Nat) : Nat :=
  match op with
  | 1 => 6 | 2 => 4 | 3 => 4 | 4 => 2 | 5 => 1 | 6 => 20 | 7 => 40
  | _ => 0

/-- The form checks of a template (R199) that do not concern its chain. -/
def templateMalformed (t : List Byte) : Bool :=
  40 < tPushLen t || 3 ≤ tPtp t || bits (word t 4) 30 19 != 0 ||
  (List.range 4).any (fun k =>
    let op := rd t (8 + 4 * k) 1
    let off := rd t (9 + 4 * k) 1
    let arg := rd t (10 + 4 * k) 1
    8 ≤ op || (op != 0 && tPushLen t < off + patchReach op) || rd t (11 + 4 * k) 1 != 0 || (if op == 5 then 32 ≤ arg else arg != 0))

/-! ### Flow contexts (Table 06-18) -/

/-- The 128 bytes of a context. -/
def ctxBytes (f : FlowCtx) : List Byte :=
  le 4 (0x80000000 + b2n f.lock.isSome * 0x40000000 + b2n f.isStatic * 0x20000000 + b2n f.learned * 0x10000000 +
    b2n f.mirror * 0x08000000 + f.table * 65536) ++ zeros 4 ++ fit 48 f.key ++ le 8 f.packets ++ le 8 f.bytes ++
  le 4 (nsOf f.last) ++ le 4 (secOf f.last) ++ le 4 (nsOf f.first) ++ le 4 (secOf f.first) ++ le 4 f.action ++ le 4 f.nh ++
  fit 32 f.user

end Sys2Proof.Machine
end

