-- ==== Sys2Proof/Machine/Peers.lean ====
section
/-! DEFINITION. What the package sends to its peers: carillon messages, relays, mirrored changes, and answers over the bus and the relay (chapter 13). -/

namespace Sys2Proof.Machine
open Sys2Proof

/-- A carillon member: it has a position (R456). -/
def isMember (s : State) : Bool := s.crl.enable && (ownPosition s).isSome

/-- Carillon port 0 up, 1 down. -/
def crlPort (p : Nat) (s : State) : CrlPort := if p = 0 then s.crl.up else s.crl.down

/-- Change a carillon port. -/
def updCrlPort (p : Nat) (f : CrlPort → CrlPort) (s : State) : State :=
  if p = 0 then { s with crl := { s.crl with up := f s.crl.up } } else { s with crl := { s.crl with down := f s.crl.down } }

/-- A port that carries messages: aligned, with a neighbour, not miswired (R451). -/
def crlOpen (p : Nat) (s : State) : Bool :=
  s.crl.enable && (crlPort p s).pcs && (crlPort p s).neighbour.isSome && !(crlPort p s).miswire

/-- The source address of a carillon frame (R446). -/
def crlMac (src : Nat) : List Byte := [2, 0, 0, 0, 0, BitVec.ofNat 8 src]

/-- SRC of an own message (Table 13-1). -/
def ownSrc (s : State) : Nat := (ownPosition s).getD 0xFF

/-- Send a message's fragments out of a carillon port. -/
def crlOut (p : Nat) (m : Msg) (s : State) : State :=
  (fragments m).foldl (fun s m => emit (.carillon p (msgFrame (List.replicate 6 0xFF) (crlMac m.src) m)) s) s

/-- A message of the package itself. -/
def ownMsg (typ dst msgId : Nat) (payload : List Byte) (s : State) : Msg :=
  { version := 1, domain := 0, typ := typ, cid := s.crl.cid, src := ownSrc s, dst := dst, msgId := msgId, fragIndex := 0,
    fragCount := 1, length := 0, payload := payload }

/-- Take the next MSG_ID. -/
def nextMsg (s : State) : State := { s with crl := { s.crl with msgId := (s.crl.msgId + 1) % 4294967296 } }

/-- Send to a neighbour, when the port is open. -/
def crlNeighbour (p typ : Nat) (payload : List Byte) (s : State) : State :=
  if crlOpen p s then crlOut p (ownMsg typ 0xFF s.crl.msgId payload s) (nextMsg s) else s

/-- Flood a message under a MSG_ID: out of both ports (R449). -/
def floodId (typ dst msgId : Nat) (payload : List Byte) (s : State) : State :=
  let m := ownMsg typ dst msgId payload s
  let s1 := if crlOpen 0 s then crlOut 0 m s else s
  if crlOpen 1 s then crlOut 1 m s1 else s1

/-- Flood a message under the next MSG_ID. -/
def flood (typ dst : Nat) (payload : List Byte) (s : State) : State := floodId typ dst s.crl.msgId payload (nextMsg s)

/-! ### Relays (R384, R459) -/

/-- Where a command goes: here, to an unreachable position, or to a position to relay to. -/
def relayTo (h : HeldCmd) (s : State) : Option (Option Nat) :=
  if h.target = 0xFF then none
  else match ownPosition s with
    | none => some none
    | some p =>
      if h.target = p then none
      else if ahas s.crl.members h.target && (crlOpen 0 s || crlOpen 1 s) then some (some h.target) else some none

/-- The command block of a held command (Table 11-2). -/
def blockBytes (h : HeldCmd) : List Byte :=
  le 2 h.op ++ le 2 h.paramLen ++ le 4 h.tag ++ le 2 h.timeout ++ le 1 h.target ++ le 1 h.flags ++ le 4 h.reserved ++
  fit h.paramLen h.params

/-- Relay a command to a position. -/
def relaySend (h : HeldCmd) (pos : Nat) (s : State) : State := flood 0x20 pos (blockBytes h) s

/-- RESPONSE and RELAY_RESP payload (Table 13-2). -/
def respPayload (status : Nat) (resp : List Byte) : List Byte := be 2 status ++ zeros 2 ++ be 4 resp.length ++ resp

/-- Answer a bus command (R464): RESPONSE under the command's MSG_ID, which a remote command holds in `respAddr`; kept for its repetition. -/
def busRespond (h : HeldCmd) (status : Nat) (resp : List Byte) (s : State) : State :=
  match s.bus.running.find? (fun r => r.1 == h.origin && r.2.1 == h.respAddr) with
  | none => s
  | some r =>
    let p := respPayload status resp
    busSendId 0x03 h.origin r.2.1 p
      { s with bus := { s.bus with
          running := s.bus.running.filter (fun q => q != r), lastResp := aset s.bus.lastResp h.origin (r.2.1, p) } }

/-- Answer a relayed command (R459): RELAY_RESP under the request's MSG_ID. -/
def relayRespond (h : HeldCmd) (status : Nat) (resp : List Byte) (s : State) : State :=
  match s.crl.relayed.find? (fun r => r.1 == h.origin && r.2.1 == h.respAddr) with
  | none => s
  | some r =>
    floodId 0x21 h.origin r.2.1 (respPayload status resp)
      { s with crl := { s.crl with relayed := s.crl.relayed.filter (fun q => q != r) } }

/-! ### Mirroring (R471 to R473) -/

/-- The peer's carillon position: the head's is 0, and 0xFF stands when its MEMBER is not known. -/
def peerPosition (s : State) : Nat :=
  if s.crl.headSerial = s.prot.peerSerial then 0
  else ((s.crl.members.find? (fun m => rdBe m.2 0 8 == s.prot.peerSerial)).map (·.1)).getD 0xFF

/-- The member is the ACTIVE one of its pair and its standby is in sync. -/
def mirrors (s : State) : Bool := s.prot.state == 6 && s.prot.peerSync

/-- Changes are mirrored: to a standby in sync, and to one that is being resynchronised (R471, R474). -/
def mirroring (s : State) : Bool := s.prot.state == 6 && (s.prot.peerSync || s.prot.resync)

/-- A member that stands by: SYNCING, STANDBY or WTR (Table 13-6). -/
def standsBy (s : State) : Bool := 3 ≤ s.prot.state && s.prot.state ≤ 5

/-- A port of PORT_MASK under the hold of R470. -/
def standbyPort (m : Nat) (s : State) : Bool := s.prot.hold && bit s.prot.portMask m == 1

/-- STANDBY_PORT is OFF (R469). -/
def standbyOff (s : State) : Bool := bits s.prot.flags 3 2 == 0

/-- A port that the hold keeps in ADMIN_DOWN: outside the mask, or inside it with STANDBY_PORT OFF (R470). -/
def heldDown (m : Nat) (s : State) : Bool := s.prot.hold && m < 80 && (standbyOff s || bit s.prot.portMask m == 0)

/-- Note what `port.admin` asks of a held port, or take the note back. -/
def holdItem (item : Nat) (up : Bool) (s : State) : State :=
  let rest := s.prot.heldItems.filter (· != item)
  { s with prot := { s.prot with heldItems := if up then rest ++ [item] else rest } }

/-- A group with a PHY that the hold keeps in ADMIN_DOWN. -/
def heldGroup (g : Nat) (s : State) : Bool :=
  match aget s.flexe.groups g with
  | some x => x.phys.any (fun p => heldDown p.1 s)
  | none => false

/-- Give the next MIRROR_SEQ to a mirrored change; beyond 65,536 waiting it is discarded and the standby falls out of sync (R473). -/
def mirrorOut (typ : Nat) (before after : List Byte) (s : State) : State :=
  if 65536 ≤ s.prot.mirrorQueue.length then
    raiseEvent Ev.protectMirrorStale s.prot.pair 1 0
      (tally (ctrId 8 0 3) { s with prot := { s.prot with peerSync := false } })
  else
    let seq := s.prot.mirrorSeq
    flood typ (peerPosition s) (before ++ be 4 seq ++ after)
      { s with prot := { s.prot with mirrorSeq := (seq + 1) % 4294967296, mirrorQueue := s.prot.mirrorQueue ++ [seq] } }

/-- Mirror a configuration command or a table-update descriptor (R471): kind and block. -/
def mirrorCfg (kind : Nat) (block : List Byte) (s : State) : State :=
  if mirroring s then mirrorOut 0x41 (be 1 kind ++ zeros 3) block s else s

/-- Mirror a write or deletion of a context with MIRROR set (R473): PACKETS, BYTES and LAST go as zero. -/
def mirrorFlow (delete : Bool) (f : FlowCtx) (s : State) : State :=
  if mirroring s && f.mirror then
    mirrorOut 0x42 [] (be 1 (b2n delete) ++ zeros 3 ++ ctxBytes { f with packets := 0, bytes := 0, last := 0 }) s
  else s

end Sys2Proof.Machine
end

