-- ==== Sys2Proof/Machine/Command.lean ====
section
/-! DEFINITION. The life of a command (R379 to R391): acceptance checks, RUNNING, the one terminal status and its answer. -/

namespace Sys2Proof.Machine
open Sys2Proof

/-- What a command's own rules decide once its header has passed. -/
inductive Verdict where
  /-- Refused with a status; nothing changes. -/
  | refuse (status : Nat)
  /-- Decided at once: status, response, state with the effect. -/
  | done (status : Nat) (resp : List Byte) (s : State)
  /-- Accepted; RUNNING until its decision point. -/
  | wait (w : WaitFor) (resp : List Byte) (s : State)

/-- How a command is journalled (R386, R402). -/
inductive CmdKind where
  | query | effect | config | bulk
  deriving DecidableEq, Repr

/-- A command of the catalogue: bytes of its fixed parameters, its kind, and its own rules. -/
structure CmdSpec where
  minLen : Nat
  kind : CmdKind
  body : HeldCmd → State → Verdict

/-- A command row's operand as Teruo holds it. -/
def heldOf (op : Nat) (c : Cmd) : HeldCmd :=
  { op := op, source := c.source, origin := c.origin, tag := c.tag, paramLen := c.paramLen, timeout := c.timeout,
    target := c.target, flags := c.flags, reserved := c.reserved, cmdLen := c.cmdLen, params := c.params,
    respAddr := c.respAddr, respLen := c.respLen, data := c.data }

/-- The parameter bytes, PARAM_LEN of them. -/
def pars (h : HeldCmd) : List Byte := fit h.paramLen h.params

/-- A little-endian parameter. -/
def par (h : HeldCmd) (off n : Nat) : Nat := rd (pars h) off n

/-- A range of parameter bytes is zero. -/
def parZero (h : HeldCmd) (off n : Nat) : Bool := allZero (slice (pars h) off n)

/-- READY, not restarting, and fewer than 64 commands RUNNING (R388, R395, R396). -/
def canAccept (s : State) : Bool := s.mgmt.ready && !s.mgmt.restarting && s.mgmt.running.length < 64

/-- A command of the same source and ORIGIN that is not terminal carries the tag (R382). -/
def tagInUse (h : HeldCmd) (s : State) : Bool :=
  s.mgmt.running.any (fun r => r.cmd.source == h.source && r.cmd.origin == h.origin && r.cmd.tag == h.tag)

/-- The header checks of R380 and R381; only a command ring gives a CMD_LEN. -/
def headerBad (minLen : Nat) (h : HeldCmd) : Bool :=
  (h.source ≤ 1 && h.cmdLen != 16 + h.paramLen) || 65520 < h.paramLen || 6000 < h.timeout || (8 ≤ h.target && h.target != 0xFF) ||
  1 < h.flags || h.reserved != 0 || h.paramLen < minLen

/-- TIMEOUT in ns (Table 11-2). -/
def timeoutNs (h : HeldCmd) : Nat := (if h.timeout = 0 then 50 else h.timeout) * 100000000

/-- A command completion record (Table 10-11). -/
def completionBytes (h : HeldCmd) (index status respBytes : Nat) (s : State) : List Byte :=
  le 4 h.tag ++ le 4 index ++ le 2 status ++ le 1 0xC0 ++ zeros 1 ++ le 2 h.op ++ zeros 2 ++ le 4 respBytes ++
  le 4 (nsOf s.tempo.now) ++ le 4 (secOf s.tempo.now) ++ zeros 4

/-- Put the register window in DONE (R393). -/
def windowDone (status : Nat) (resp : List Byte) (s : State) : State :=
  let s1 := { s with mgmt := { s.mgmt with
                mbx := .done, mbxStatus := status, mbxResp := resp.take 1024 ++ s.mgmt.mbxResp.drop resp.length, mbxRespBytes := resp.length } }
  if bit s.mgmt.mbxIrq 16 == 1 then sendMsix (bit s.mgmt.mbxIrq 31) (s.mgmt.mbxIrq % 2048) s1 else s1

/-- The completion ring that reports a command ring's descriptor. -/
def replyTo (h : HeldCmd) (s : State) : Option RingRef :=
  if h.source ≤ 1 then (ring? h.origin s).map (fun x => ringRef x.cq s) else none

/-- Write the response, then the completion record (R386), by the command's source. No completion reports a descriptor whose completion
ring a reset of its function has destroyed (R342). -/
def answer (h : HeldCmd) (q : Option RingRef) (index status : Nat) (resp : List Byte) (s : State) : State :=
  if h.source ≤ 1 then
    match q with
    | some r =>
      if stands r s then
        postCompletion r.ring (completionBytes h index status resp.length s) (dmaWrite h.source h.respAddr (resp.take h.respLen) s)
      else s
    | none => s
  else if h.source ≤ 3 then windowDone status resp s
  else if h.source = 4 then busRespond h status resp s
  else relayRespond h status resp s

/-- The journal record of a command (R402). -/
def cmdRecord (h : HeldCmd) (status d0 d1 : Nat) : JRec :=
  { seq := 0, tempo := 0, source := h.source, kind := 0, op := h.op, status := status, tag := h.tag, origin := h.origin,
    detail0 := d0, detail1 := d1, paramCrc := crc64 (pars h) }

/-- A command reaches DONE: journal where it leaves an effect, answer, EV_CMD_DONE where asked, and the record of R390. -/
def finishTo (q : Option RingRef) (h : HeldCmd) (index status : Nat) (resp : List Byte) (effect : Bool) (d0 d1 : Nat) (s : State) : State :=
  let journalled := effect && !s.mgmt.rom
  let seq := if journalled then s.mgmt.journalNext else 0
  let s1 := if journalled then journal (cmdRecord h status d0 d1) s else s
  let d : DoneCmd := { source := h.source, origin := h.origin, tag := h.tag, op := h.op, status := status, journalSeq := seq }
  let s2 := { s1 with mgmt := { s1.mgmt with done := (d :: s1.mgmt.done).take 4096 } }
  let s3 := answer h q index status resp s2
  if bit h.flags 0 == 1 then raiseEvent Ev.cmdDone h.op h.tag (status + h.source * 65536) s3 else s3

/-- A command that Teruo has just begun reaches DONE. -/
def finish (h : HeldCmd) (index status : Nat) (resp : List Byte) (effect : Bool) (d0 d1 : Nat) (s : State) : State :=
  finishTo (replyTo h s) h index status resp effect d0 d1 s

/-- A RUNNING command ends. -/
def finishRunning (r : Running) (status : Nat) (resp : List Byte) (effect : Bool) (d0 d1 : Nat) (s : State) : State :=
  finishTo r.reply r.cmd r.index status resp effect d0 d1
    { s with mgmt := { s.mgmt with running := s.mgmt.running.filter (fun q => q != r) } }

/-- End the RUNNING command that waits for `w`, when there is one. During a management restart no command reaches its decision: each
ends RESTARTED after it (Table 01-7, R397). -/
def finishWaiting (p : WaitFor → Bool) (status : Nat) (resp : Running → List Byte) (effect : Bool) (d0 d1 : Nat) (s : State) : State :=
  if s.mgmt.restarting && status != St.restarted then s
  else match s.mgmt.running.find? (fun r => p r.waits) with
  | some r => finishRunning r status (resp r) effect d0 d1 s
  | none => s

/-! ### When the completion of a staged change is written (R60) -/

/-- What a record that was just posted to a completion ring waits for. -/
def recordDue (r : Nat) (s : State) : Due :=
  match ring? r s with
  | some x => if x.held.isEmpty then .written else .record r ((x.partIndex + x.held.length) % 4294967296)
  | none => .written

/-- The changes staged after the first `n` wait for `due`. -/
def markDue (n : Nat) (due : Due) (s : State) : State :=
  if due = .written then s else { s with staged := s.staged.take n ++ (s.staged.drop n).map (fun x => { x with due := due }) }

/-- The changes that waited for the acknowledgement of MIRROR_CFG `q` wait for `due`. -/
def remarkDue (q : Nat) (due : Due) (s : State) : State :=
  { s with staged := s.staged.map (fun x => if x.due = .mirror q then { x with due := due } else x) }

/-- What a command's completion, just given, waits for: only a ring holds records back. -/
def cmdDue (h : HeldCmd) (s : State) : Due :=
  if h.source ≤ 1 then match ring? h.origin s with
    | some x => recordDue x.cq s
    | none => .written
  else .written

/-- Write a completion record that waited for the standby. -/
def postMirrored (m : Nat × Nat × List Byte) (s : State) : State :=
  let s1 := postCompletion m.2.1 m.2.2 s
  remarkDue m.1 (recordDue m.2.1 s1) s1

/-- End a command that waited for its mirrored change. -/
def finishMirrored (r : Running) (s : State) : State :=
  let s1 := finishRunning r St.ok r.resp true 0 0 s
  match r.waits with
  | .mirror q => remarkDue q (cmdDue r.cmd s1) s1
  | _ => s1

/-- A command that waits for its mirrored change. -/
def waitsMirror : WaitFor → Bool
  | .mirror _ => true
  | _ => false

/-- Write every completion held for the standby: the wait does not apply while the standby is out of sync (R471). -/
def releaseMirror (s : State) : State :=
  let s1 := s.prot.mirrorHeld.foldl (fun s m => postMirrored m s) { s with prot := { s.prot with mirrorHeld := [] } }
  (s1.mgmt.running.filter (fun r => waitsMirror r.waits)).foldl (fun s r => finishMirrored r s) s1

/-- Release them when this member does not mirror. -/
def releaseUnmirrored (s : State) : State := if mirrors s then s else releaseMirror s

/-- Keep a command POSTED (R385). -/
def hold (h : HeldCmd) (s : State) : State := { s with mgmt := { s.mgmt with held := s.mgmt.held ++ [h] } }

/-- INDEX of the descriptor a ring command came from. -/
def cmdIndex (h : HeldCmd) (s : State) : Nat :=
  if h.source ≤ 1 then match ring? h.origin s with
    | some x => x.partIndex
    | none => 0
  else 0

/-- Consume a ring's descriptor: the consumer index advances and is published (R350, R356). -/
def consume (r : Nat) (s : State) : State :=
  publish r (updRing r (fun x => { x with partIndex := (x.partIndex + 1) % 4294967296, fetched := x.fetched.drop 1 }) s)

/-- Consume the descriptor of a ring command. -/
def consumeCmd (h : HeldCmd) (s : State) : State := if h.source ≤ 1 then consume h.origin s else s

/-- A command of the recovery ROM (R511). -/
def recoveryOp (op : Nat) : Bool := op == 0x0101 || op == 0x0C01 || op == 0x0C02 || op == 0x0C04 || op == 0x0C07

/-- The window's STATE at acceptance (R393). -/
def windowRunning (h : HeldCmd) (s : State) : State :=
  if h.source == 2 || h.source == 3 then { s with mgmt := { s.mgmt with mbx := .running } } else s

/-- A refusal: a terminal status with no response (R383), the descriptor consumed. -/
def refuse (h : HeldCmd) (status : Nat) (s : State) : State :=
  finish h (cmdIndex h s) status [] false 0 0 (consumeCmd h s)

/-- Accept a command that waits: it becomes RUNNING (Table 11-3). -/
def running (h : HeldCmd) (index : Nat) (w : WaitFor) (resp : List Byte) (s : State) : State :=
  { s with mgmt := { s.mgmt with running := s.mgmt.running ++
      [{ cmd := h, index := index, reply := replyTo h s, accepted := s.elapsed, deadline := s.elapsed + timeoutNs h, waits := w, resp := resp }] } }

/-- A refusal of the checks that come before the state of the part (R385, steps 4 and 5). -/
def earlyRefusal (st : Nat) : Bool :=
  [St.invalidParam, St.notFound, St.noSuchId, St.noSuchProfile, St.noSuchTable, St.noSuchRing, St.noSuchPair, St.noSuchSetting].contains st

/-- A configuration command that a standing-by member refuses (R471). -/
def standbyRefuses (k : CmdKind) (s : State) : Bool := k == .config && standsBy s

/-- Teruo begins a command: the checks of R385 in order, then its own rules. -/
def beginCmd (spec : CmdSpec) (h : HeldCmd) (s : State) : State :=
  if s.mgmt.rom && !(recoveryOp h.op && 2 ≤ h.source && h.source ≤ 4) then refuse h St.unknownOpcode s
  else if tagInUse h s then refuse h St.tagInUse s
  else if headerBad spec.minLen h then refuse h St.invalidParam s
  else
    match relayTo h s with
    | some none => refuse h St.targetUnreachable s
    | some (some pos) => relaySend h pos (running h (cmdIndex h s) (.relay pos s.crl.msgId) [] (windowRunning h (consumeCmd h s)))
    | none =>
      match spec.body h (windowRunning h (consumeCmd h s)) with
      | .refuse st => refuse h (if standbyRefuses spec.kind s && !earlyRefusal st then St.protectStandby else st) s
      | .done st resp s' =>
        if standbyRefuses spec.kind s then refuse h St.protectStandby s
        else if spec.kind == .config && mirrors s then
          releaseUnmirrored (mirrorCfg 0 (blockBytes h) (running h (cmdIndex h s) (.mirror s.prot.mirrorSeq) resp
            (markDue s.staged.length (.mirror s.prot.mirrorSeq) s')))
        else
          let s1 := if spec.kind == .config then mirrorCfg 0 (blockBytes h) s' else s'
          let t := finish h (cmdIndex h s) st resp (spec.kind != .query && (st == St.ok || spec.kind == .bulk)) 0
            (if spec.kind == .bulk then rd resp 0 4 else 0) s1
          markDue s.staged.length (cmdDue h t) t
      | .wait w resp s' => running h (cmdIndex h s) w resp s'

/-- A completion ring in the stall of R368 holds its work rings back. -/
def cqStalled (x : Ring) (s : State) : Bool :=
  match ring? x.cq s with
  | some q => q.stalled
  | none => false

/-- Descriptors posted and not begun, as the host index last read gives them (R345, R354). -/
def unbegun (x : Ring) : Nat := occupancy x.hostIndex x.partIndex - x.begun

/-- A work ring may begin a descriptor (R341, R356, R358, R368). -/
def mayBegin (x : Ring) (s : State) : Bool :=
  x.state == .enabled && (pciFn x.fn s).busMaster && !cqStalled x s && !x.disabling && 0 < unbegun x

/-- A command from the bus or a relay is known by its node or position, its MSG_ID and its tag (R459, R464). -/
def noteRemote (h : HeldCmd) (s : State) : State :=
  if h.source = 4 then { s with bus := { s.bus with running := s.bus.running ++ [(h.origin, h.respAddr, h.tag)] } }
  else { s with crl := { s.crl with relayed := s.crl.relayed ++ [(h.origin, h.respAddr, h.tag)] } }

/-- An earlier command of the same source and ORIGIN is still POSTED: they are taken in order (R388). -/
def behind (h : HeldCmd) (s : State) : Bool := s.mgmt.held.any (fun q => q.source == h.source && q.origin == h.origin)

/-- A command arrives from its source: begun when Teruo can, otherwise POSTED; the window takes one at a time (R388, R394). -/
def enter (begin : HeldCmd → State → State) (h : HeldCmd) (s : State) : State :=
  if h.source ≤ 1 then
    match ring? h.origin s with
    | some x =>
      if x.typ == .command && x.fn == h.source && x.state == .enabled then
        if mayBegin x s && canAccept s && !behind h s then begin h s else hold h s
      else s
    | none => s
  else if h.source ≤ 3 then
    if !fnExists (h.source - 2) s || !barServed s then s
    else if s.mgmt.mbx == .pending || s.mgmt.mbx == .running then
      { s with mgmt := { s.mgmt with mbxError := s.mgmt.mbxError ||| 1 } }
    else
      let s1 := { s with mgmt := { s.mgmt with mbx := .pending, mbxFn := h.source - 2 } }
      if 1024 < 16 + h.paramLen then
        refuse h St.invalidParam { s1 with mgmt := { s1.mgmt with mbxError := s1.mgmt.mbxError ||| 2 } }
      else if canAccept s1 then begin h s1 else hold h s1
  else if h.source ≤ 5 then
    if s.crl.parked || s.pwr.dead || 5 ≤ s.pwr.level then s
    else if canAccept s && !behind h s then begin h (noteRemote h s) else hold h (noteRemote h s)
  else s

/-- A command row's command arrives. -/
def issue (op : Nat) (spec : CmdSpec) (c : Cmd) (s : State) : State := enter (beginCmd spec) (heldOf op c) s

/-- The result of a command row. -/
def runCmd (op : Nat) (spec : CmdSpec) (c : Cmd) (s : State) : Res := .next (issue op spec c s)

end Sys2Proof.Machine
end

