-- ==== Sys2Proof/Machine/Rings.lean ====
section
/-! DEFINITION. Host rings (chapter 10): the ring commands, doorbells, prefetch, DMA errors, interrupts and function resets. -/

namespace Sys2Proof.Machine
open Sys2Proof

/-- Drop the POSTED commands of a ring that left ENABLED (R357). -/
def dropPosted (r : Nat) (s : State) : State :=
  { s with mgmt := { s.mgmt with held := s.mgmt.held.filter (fun h => !(h.source ≤ 1 && h.origin == r)) } }

/-- ENABLED to STOPPED: unbegun descriptors are discarded, the entry is published, EV_RING_STOPPED (Table 10-6, R356). -/
def stopRing (r cause : Nat) (s : State) : State :=
  match ring? r s with
  | none => s
  | some x =>
    if x.state == .enabled then
      raiseEvent Ev.ringStopped r cause 0
        (publish r (updRing r (fun x => { x with state := .stopped, cause := cause, fetched := [] }) (dropPosted r s)))
    else s

/-- The occupancy of a ring for a host index just read (R354). -/
def occupancyOf (x : Ring) (h : Nat) : Nat :=
  if partWritten x.typ then occupancy x.partIndex h else occupancy h x.partIndex

/-- The part has read a host-written entry: an occupancy above SIZE stops the ring (R354). -/
def hostIndexRead (r h : Nat) (s : State) : State :=
  match ring? r s with
  | none => s
  | some x =>
    let s1 := updRing r (fun x => { x with hostIndex := h % 4294967296 }) s
    if x.size < occupancyOf x (h % 4294967296) then stopRing r 1 s1 else s1

/-- A failed read of ring memory or of a host-written entry (R373). -/
def ringReadFailed (r : Nat) (s : State) : State := stopRing r 2 (tally (hifCtr 0x108) s)

/-- Record a discarded doorbell (R352): bit of HIF_ERROR, HIF_ERROR_RING, hif.db_error. -/
def discardDoorbell (fn ring cause : Nat) (s : State) : State :=
  tally (hifCtr 0x100)
    { s with host := { s.host with error := s.host.error ||| 2 ^ cause, errorRing := fn * 2147483648 + ring % 32768 } }

/-- Re-arm a part-written ring (R374). -/
def rearm (r : Nat) (s : State) : State :=
  moderate r (updRing r (fun x => { x with armed := !x.noIrq }) s)

/-- NEW_WORK on a ring that is ENABLED (R353). -/
def newWork (r : Nat) (host : Option Nat) (s : State) : State :=
  match ring? r s with
  | none => s
  | some x =>
    if x.state != .enabled || !(pciFn x.fn s).busMaster then s
    else match host with
      | none => ringReadFailed r s
      | some h =>
        if partWritten x.typ then drainRing r (rearm r (hostIndexRead r h s))
        else hostIndexRead r h (updRing r (fun x => { x with fetchStopped := false }) s)

/-- The cause for which a doorbell to a ring is discarded, when it is (R352): FREE 3, other owner 2. -/
def doorbellFault (fn r : Nat) (s : State) : Option Nat :=
  match ring? r s with
  | none => some 3
  | some x => if x.fn == fn then none else some 2

def execNewWork (fn ring : Nat) (host : Option Nat) (s : State) : Res :=
  .next (match doorbellFault fn ring s with
    | some c => discardDoorbell fn ring c s
    | none => newWork ring host s)

/-- An invalidation completes: INV_COUNT advances and the entry is published (R359). -/
def invalidated (r n : Nat) (s : State) : State :=
  publish r (updRing r (fun x => { x with invCount := (x.invCount + n) % 65536, invWaiting := 0 }) s)

/-- INVALIDATE on a work ring that is ENABLED (R359). -/
def invalidate (r : Nat) (s : State) : State :=
  match ring? r s with
  | none => s
  | some x =>
    if x.state != .enabled then s
    else
      let s1 := updRing r (fun x => { x with fetched := [], fetchStopped := true }) (dropPosted r s)
      if x.begun = 0 then invalidated r 1 s1 else updRing r (fun x => { x with invWaiting := x.invWaiting + 1 }) s1

def execInvalidate (fn ring : Nat) (host : Option Nat) (s : State) : Res :=
  .next (match doorbellFault fn ring s, ring? ring s with
    | some c, _ => discardDoorbell fn ring c s
    | none, some x => if partWritten x.typ then newWork ring host s else invalidate ring s
    | none, none => s)

/-- Which bit of HIF_ERROR a BAR2 access sets, when it is discarded (R352, R584). -/
def doorbellCause (fn offset size value : Nat) (s : State) : Option Nat :=
  if size != 8 || offset % 32 != 0 then some 0
  else if value % 32768 != offset / 32 then some 1
  else match doorbellFault fn (offset / 32) s with
    | some c => some c
    | none => if 2 ≤ bits value 35 32 then some 4 else none

def execDoorbellDiscard (fn offset size value : Nat) (s : State) : Res :=
  .next (match doorbellCause fn offset size value s with
    | some c => discardDoorbell fn (offset / 32) c s
    | none => s)

/-- Descriptors still to be fetched: up to 16 ahead of the consumer index and never beyond P (R358). -/
def fetchRoom (x : Ring) : Nat := min (16 - x.fetched.length) (occupancy x.hostIndex x.partIndex - x.begun - x.fetched.length)

def execDescriptorFetch (ring first : Nat) (descs : List (List Byte)) (s : State) : Res :=
  .next (match ring? ring s with
    | none => s
    | some x =>
      if x.state == .enabled && !partWritten x.typ && !x.fetchStopped && (pciFn x.fn s).busMaster && !cqStalled x s &&
          first == (x.partIndex + x.begun + x.fetched.length) % 4294967296 then
        updRing ring (fun x => { x with fetched := x.fetched ++ (descs.take (fetchRoom x)).map (fit 64) }) s
      else s)

/-- One ring of the 100 µs poll (R353). -/
def pollRing (p : Nat × Option Nat) (s : State) : State :=
  match ring? p.1 s with
  | none => s
  | some x =>
    if x.state == .enabled && partWritten x.typ && (pciFn x.fn s).busMaster then
      match p.2 with
      | some h => drainRing p.1 (hostIndexRead p.1 h s)
      | none => ringReadFailed p.1 s
    else s

def execHostIndexPoll (hosts : List (Nat × Option Nat)) (s : State) : Res :=
  .next (hosts.foldl (fun s p => pollRing p s) s)

/-- An inject completion (Table 10-9); `ts`: the egress timestamp where it is valid. -/
def injectBytes (tag index status : Nat) (ts : Option Nat) (lost : Bool) (seqTag port : Nat) : List Byte :=
  le 4 tag ++ le 4 index ++ le 2 status ++ le 1 0x80 ++ le 1 (b2n ts.isSome + 2 * b2n lost) ++ le 2 seqTag ++ le 2 port ++
  (match ts with
   | some t => le 4 (nsOf t) ++ le 4 (secOf t) ++ le 2 (fracOf t)
   | none => zeros 10) ++ zeros 6

/-- A table-update completion (Table 06-13). -/
def tableBytes (tag index status op id release free : Nat) : List Byte :=
  le 4 tag ++ le 4 index ++ le 2 status ++ le 1 op ++ zeros 1 ++ le 4 id ++ le 8 release ++ le 4 free ++ zeros 4

def execDmaTimeout (ring : Nat) (s : State) : Res :=
  .next (match ring? ring s with
    | none => s
    | some x => if (pciFn x.fn s).busMaster then stopRing ring 3 (tally (hifCtr 0x110) s) else s)

def execCompletionHeldFlush (ring : Nat) (s : State) : Res := .next (drainRing ring s)

def execInterruptModeration (ring : Nat) (s : State) : Res :=
  .next (match ring? ring s with
    | none => s
    | some x =>
      match x.modDeadline with
      | some t => let s1 := advanceTo t s
                  if x.armed && 0 < x.unsignalled then signalRing ring s1
                  else updRing ring (fun x => { x with modDeadline := none }) s1
      | none => s)

/-! ### Bus mastering and function resets -/

/-- Vectors that became pending while the function could issue no request send their messages, those not masked (log 6). -/
def sendPending (n : Nat) (s : State) : State :=
  let f := pciFn n s
  let due := (akeys f.pba).filter (fun v => !vectorMasked f v)
  due.foldl (fun s v => sendMsix n v s) (updFn n (fun f => { f with pba := f.pba.filter (fun x => !due.contains x.1) }) s)

/-- Take up a function again: held-back writes, part-written entries, and the host indices read at once (R341). -/
def resumeFn (n : Nat) (hosts : List (Nat × Nat)) (s : State) : State :=
  let d := (pciFn n s).deferred
  let s1 := d.foldl (fun s w => hostWrite w.1 w.2 s) (updFn n (fun f => { f with busMaster := true, deferred := [] }) s)
  let mine := (s1.host.rings.filter (fun p => p.2.fn == n)).map Prod.fst
  let s2 := mine.foldl (fun s r => publish r s) s1
  let s3 := hosts.foldl (fun s p => match ring? p.1 s with
    | some x => if x.fn == n && x.state == .enabled then hostIndexRead p.1 p.2 s else s
    | none => s) s2
  mine.foldl (fun s r => drainRing r s) (sendPending n s3)

def execBusMasterEnable (fn : Nat) (enable : Bool) (hosts : List (Nat × Nat)) (s : State) : Res :=
  .next (if !fnExists fn s then s
    else if enable then (if (pciFn fn s).busMaster then s else resumeFn fn hosts s)
    else updFn fn (fun f => { f with busMaster := false }) s)

/-- A function after its reset (R342, R339): rings, index blocks and bindings gone, its selection list kept. -/
def resetFn (f : PciFn) : PciFn :=
  { f with busMaster := false, indexValid := false, stride := 8, hib := 0, pib := 0, evRing := none, tollRing := none,
           tollPending := [], tollDump := none, msix := [], deferred := [], pba := [] }

/-- Punted packets that cross to a RECEIVE ring that is gone wait in their queues again, in their order (R369). -/
def recallPunts (gone : Nat → Bool) (s : State) : State :=
  let mine := fun (x : Xfer) => match x with
    | .toHost _ r _ _ _ _ => gone r
    | _ => false
  ((s.bridge.atFd ++ s.bridge.toFd).filter mine).reverse.foldl (fun s x => match x with
    | .toHost q _ _ _ _ p => { s with qdm := { s.qdm with punts := aset s.qdm.punts q (p :: agetD s.qdm.punts q []) } }
    | _ => s) { s with bridge := { s.bridge with atFd := s.bridge.atFd.filter (fun x => !mine x), toFd := s.bridge.toFd.filter (fun x => !mine x) } }

/-- Destroy everything a function owns (R342). -/
def functionReset (n : Nat) (s : State) : State :=
  let mine := (s.host.rings.filter (fun p => p.2.fn == n)).map Prod.fst
  let gone := fun r => mine.contains r
  let s0 := recallPunts gone { s with prot := { s.prot with mirrorHeld := s.prot.mirrorHeld.filter (fun h => !gone h.2.1) } }
  let s1 := mine.foldl (fun s r => dropPosted r s) s0
  updFn n resetFn
    { s1 with host := { s1.host with
        rings := s1.host.rings.filter (fun p => !gone p.1),
        groups := s1.host.groups.filter (fun p => !gone p.1),
        binds := s1.host.binds.filter (fun p => !gone p.2.ring) } }

def execFunctionReset (fn : Nat) (s : State) : Res := .next (if fnExists fn s then functionReset fn s else s)

/-! ### Ring commands (Table 10-15) -/

/-- `ring.index.config` (R348). -/
def ringIndexConfig (h : HeldCmd) (s : State) : Verdict :=
  let fn := par h 0 1
  if !fnExists fn s || 2 < par h 1 1 || !parZero h 2 6 || par h 8 8 % 4096 != 0 || par h 16 8 % 4096 != 0 then .refuse St.invalidParam
  else if (avals s.host.rings).any (fun x => x.fn == fn && (x.state == .enabled || x.state == .stopped)) then .refuse St.ringBusy
  else .done St.ok [] (updFn fn (fun f => { f with
    indexValid := true, stride := (if par h 1 1 = 0 then 8 else if par h 1 1 = 1 then 16 else 64), hib := par h 8 8, pib := par h 16 8 }) s)

def specRingIndexConfig : CmdSpec := ⟨24, .effect, ringIndexConfig⟩
def execRingIndexConfig (c : Cmd) (s : State) : Res := runCmd 0x0901 specRingIndexConfig c s

/-- A power of two from 16 to 65,536 (R345). -/
def ringSizeOk (n : Nat) : Bool := (List.range 13).any (fun k => n == 16 * 2 ^ k)

/-- TYPE of Table 10-2. -/
def ringTypeOf : Nat → Option RingType
  | 0 => some .inject | 1 => some .table | 2 => some .command | 3 => some .buffer | 4 => some .completion | 5 => some .receive
  | _ => none

/-- The form checks of `ring.create` (R347). -/
def ringCreateBad (t : RingType) (h : HeldCmd) (s : State) : Bool :=
  let work := t == .inject || t == .table || t == .command
  let pw := partWritten t
  32767 < par h 0 2 || !fnExists (par h 3 1) s || !ringSizeOk (par h 4 4) || par h 8 8 % 4096 != 0 ||
  (if work then par h 16 2 < 32768 else par h 16 2 != 0) ||
  (if pw then bits (par h 18 2) 14 11 != 0 || par h 20 2 < 1 || 4096 < par h 20 2 || 1000 < par h 22 2
   else !parZero h 18 6) ||
  (if t == .buffer then par h 24 4 % 64 != 0 || par h 24 4 < 256 || 16384 < par h 24 4 || par h 4 4 < par h 28 2
   else !parZero h 24 6) ||
  (if t == .inject then false else !parZero h 30 1) || !parZero h 31 1

/-- The record of a new ring. -/
def newRing (t : RingType) (h : HeldCmd) : Ring :=
  { typ := t, fn := par h 3 1, create := slice (pars h) 0 32, size := par h 4 4, base := par h 8 8, cq := par h 16 2 % 32768,
    vector := par h 18 2 % 2048, noIrq := bit (par h 18 2) 15 == 1, modCount := par h 20 2, modTime := par h 22 2,
    bufSize := par h 24 4, warn := (if par h 28 2 = 0 then par h 4 4 / 8 else par h 28 2),
    weight := (if par h 30 1 = 0 then 1 else par h 30 1), made := 0, state := .disabled, cause := 0, partIndex := 0, hostIndex := 0,
    invCount := 0, fetched := [], begun := 0, fetchStopped := false, invWaiting := 0, disabling := false, armed := false,
    unsignalled := 0, modDeadline := none, held := [], stalled := false, poolEmptySec := none }

/-- `ring.create` (R346, R347). -/
def ringCreate (h : HeldCmd) (s : State) : Verdict :=
  match ringTypeOf (par h 2 1) with
  | none => .refuse St.invalidParam
  | some t =>
    if ringCreateBad t h s then .refuse St.invalidParam
    else
      let cqBad := match ring? (par h 16 2 % 32768) s with
        | some q => q.typ != .completion || q.fn != par h 3 1
        | none => true
      if (t == .inject || t == .table || t == .command) && cqBad then .refuse St.noSuchRing
      else if (ring? (par h 0 2) s).isSome then .refuse St.ringExists
      else .done St.ok [] (publish (par h 0 2) (setRing (par h 0 2) { newRing t h with made := s.host.made }
        { s with host := { s.host with made := s.host.made + 1 } }))

def specRingCreate : CmdSpec := ⟨32, .effect, ringCreate⟩
def execRingCreate (c : Cmd) (s : State) : Res := runCmd 0x0902 specRingCreate c s

/-- `ring.enable` (R355). -/
def ringEnable (h : HeldCmd) (s : State) : Verdict :=
  let r := par h 0 2
  if 32767 < r || !parZero h 2 2 then .refuse St.invalidParam
  else match ring? r s with
    | none => .refuse St.noSuchRing
    | some x =>
      if x.state != .disabled then .refuse St.ringBusy
      else if !(pciFn x.fn s).indexValid then .refuse St.noIndexBlocks
      else
        let s1 := updRing r (fun x => { x with
                    state := .enabled, partIndex := par h 4 4, hostIndex := par h 4 4, fetched := [],
                    fetchStopped := false, armed := !x.noIrq, unsignalled := 0, modDeadline := none }) s
        -- the host-written entry is read at once where the model has its value (`data`)
        let s2 := match h.data with
          | some b => hostIndexRead r (rd b 0 4) s1
          | none => s1
        .done St.ok [] (if partWritten x.typ then drainRing r (publish r s2) else publish r s2)

def specRingEnable : CmdSpec := ⟨8, .effect, ringEnable⟩
def execRingEnable (c : Cmd) (s : State) : Res := runCmd 0x0903 specRingEnable c s

/-- A ring that has left ENABLED for DISABLED (R356). -/
def ringDisabled (r : Nat) (s : State) : State :=
  publish r (updRing r (fun x => { x with state := .disabled, cause := 0, fetched := [], disabling := false, armed := false }) (dropPosted r s))

/-- `ring.disable` (R355, R356): it completes after the begun descriptors. -/
def ringDisable (h : HeldCmd) (s : State) : Verdict :=
  let r := par h 0 2
  if 32767 < r || !parZero h 2 2 then .refuse St.invalidParam
  else match ring? r s with
    | none => .refuse St.noSuchRing
    | some x =>
      if x.state == .disabled then .done St.ok [] s
      else if x.begun = 0 then .done St.ok [] (ringDisabled r s)
      else .wait (.ringDisable r) []
        (updRing r (fun x => { x with disabling := true, fetched := [] }) (dropPosted r s))

def specRingDisable : CmdSpec := ⟨4, .effect, ringDisable⟩
def execRingDisable (c : Cmd) (s : State) : Res := runCmd 0x0904 specRingDisable c s

/-- A begun descriptor is consumed: waiting invalidations and a waiting `ring.disable` complete with the last (R356, R359). -/
def descDone (r : Nat) (s : State) : State :=
  if (ring? r s).all (fun x => x.begun == 0) then s else
  let s1 := publish r (updRing r (fun x => { x with begun := x.begun - 1, partIndex := (x.partIndex + 1) % 4294967296 }) s)
  match ring? r s1 with
  | none => s1
  | some x =>
    if x.begun != 0 then s1
    else
      let s2 := if 0 < x.invWaiting then invalidated r x.invWaiting s1 else s1
      if x.disabling && !s2.mgmt.restarting then
        finishWaiting (fun w => w == .ringDisable r) St.ok (fun _ => []) true 0 0 (ringDisabled r s2)
      else s2

/-- `ring.destroy` (R347). -/
def ringDestroy (h : HeldCmd) (s : State) : Verdict :=
  let r := par h 0 2
  if 32767 < r || !parZero h 2 2 then .refuse St.invalidParam
  else match ring? r s with
    | none => .refuse St.noSuchRing
    | some x =>
      if x.state != .disabled ||
          s.host.rings.any (fun p => (p.2.typ == .inject || p.2.typ == .table || p.2.typ == .command) && p.2.cq == r && x.typ == .completion) ||
          (x.typ == .receive && ((avals s.host.binds).any (fun b => b.ring == r) || ahas s.host.groups r)) ||
          (x.typ == .buffer && (avals s.host.groups).any (fun g => g.pools.contains r)) then .refuse St.ringBusy
      else
        let f := pciFn x.fn s
        let gone := { s with host := { s.host with rings := adel s.host.rings r } }
        .done St.ok [] (if f.indexValid then
          dmaWrite x.fn (f.pib + f.stride * r) (indexEntry { x with state := .free, cause := 0 }) gone else gone)

def specRingDestroy : CmdSpec := ⟨4, .effect, ringDestroy⟩
def execRingDestroy (c : Cmd) (s : State) : Res := runCmd 0x0905 specRingDestroy c s

/-- Posted count of a BUFFER ring (R371): its descriptors between the consumer index and the P last read. -/
def posted (x : Ring) : Nat := occupancy x.hostIndex x.partIndex

/-- Descriptors of a ring fetched and not begun: those of a command ring include its POSTED commands (R377). -/
def fetchedCount (r : Nat) (x : Ring) (s : State) : Nat :=
  max x.fetched.length (s.mgmt.held.countP (fun h => h.source ≤ 1 && h.origin == r))

/-- The response of `ring.query` (Table 10-18). -/
def ringQueryResp (r : Nat) (x : Ring) (s : State) : List Byte :=
  fit 32 x.create ++ le 1 (ringStateCode x.state) ++ le 1 x.cause ++ le 2 x.invCount ++ le 4 x.partIndex ++ le 4 x.hostIndex ++
  le 4 (fetchedCount r x s) ++ le 4 (if x.typ == .completion then x.held.length else 0) ++
  le 4 (if x.typ == .buffer then posted x else 0) ++ zeros 8

/-- `ring.query` (R377). -/
def ringQuery (h : HeldCmd) (s : State) : Verdict :=
  if 32767 < par h 0 2 || !parZero h 2 2 then .refuse St.invalidParam
  else match ring? (par h 0 2) s with
    | none => .done St.ok (zeros 64) s
    | some x => .done St.ok (ringQueryResp (par h 0 2) x s) s

def specRingQuery : CmdSpec := ⟨4, .query, ringQuery⟩
def execRingQuery (c : Cmd) (s : State) : Res := runCmd 0x0906 specRingQuery c s

/-- Values strictly rise. -/
def rising : List Nat → Bool
  | a :: b :: t => a < b && rising (b :: t)
  | _ => true

/-- `rx.group.config` (R370). -/
def rxGroupConfig (h : HeldCmd) (s : State) : Verdict :=
  let r := par h 0 2
  let n := par h 2 1
  let pools := (List.range n).map (fun k => par h (4 + 2 * k) 2)
  if 32767 < r || n < 1 || 4 < n || !parZero h 3 1 || !parZero h (4 + 2 * n) (8 - 2 * n) then .refuse St.invalidParam
  else match ring? r s with
    | none => .refuse St.noSuchRing
    | some x =>
      let rs := pools.filterMap (fun p => ring? p s)
      if x.typ != .receive || rs.length != n || rs.any (fun q => q.typ != .buffer || q.fn != x.fn) ||
          !rising (rs.map (fun q => q.bufSize)) ||
          s.host.groups.any (fun g => g.1 != r && pools.any (fun p => g.2.pools.contains p)) then .refuse St.invalidParam
      else if x.state != .disabled || rs.any (fun q => q.state != .disabled) then .refuse St.ringBusy
      else .done St.ok [] { s with host := { s.host with groups := aset s.host.groups r { pools := pools } } }

def specRxGroupConfig : CmdSpec := ⟨12, .effect, rxGroupConfig⟩
def execRxGroupConfig (c : Cmd) (s : State) : Res := runCmd 0x0907 specRxGroupConfig c s

/-- `punt.queue.bind` (R369). -/
def puntQueueBind (h : HeldCmd) (s : State) : Verdict :=
  let q := par h 0 2
  let valid := bit (par h 2 2) 15 == 1
  let r := par h 2 2 % 32768
  if 4095 < q || (valid && par h 4 1 == 0) || !parZero h 5 3 then .refuse St.invalidParam
  else if !valid then .done St.ok [] { s with host := { s.host with binds := adel s.host.binds q } }
  else match ring? r s with
    | some x =>
      if x.typ == .receive then
        .done St.ok [] { s with host := { s.host with binds := aset s.host.binds q { ring := r, weight := par h 4 1 } } }
      else .refuse St.noSuchRing
    | none => .refuse St.noSuchRing

def specPuntQueueBind : CmdSpec := ⟨8, .effect, puntQueueBind⟩
def execPuntQueueBind (c : Cmd) (s : State) : Res := runCmd 0x0908 specPuntQueueBind c s

end Sys2Proof.Machine
end

