-- ==== Sys2Proof/Machine/Except.lean ====
section
/-! DEFINITION. Exceptions and the way to the host: the rate limiters of the reasons and the hand-over to a punt queue (R158 to R161). -/

namespace Sys2Proof.Machine
open Sys2Proof

/-- Exception reasons that the part raises itself (Tables 05-6, 06-4, R261). -/
abbrev Exc.rxBadFrame : Nat := 0
abbrev Exc.noProfile : Nat := 1
abbrev Exc.short : Nat := 2
abbrev Exc.check : Nat := 3
abbrev Exc.recircLimit : Nat := 4
abbrev Exc.ttlExpired : Nat := 5
abbrev Exc.routeMiss : Nat := 16
abbrev Exc.labelMiss : Nat := 17
abbrev Exc.flowMiss : Nat := 18
abbrev Exc.flowLearn : Nat := 19
abbrev Exc.flowExport : Nat := 20
abbrev Exc.markUndefined : Nat := 21
abbrev Exc.tableError : Nat := 32

/-- One token of a limiter, in units of 10⁻⁹ packet. -/
def oneToken : Nat := 1000000000

/-- A bucket of `depth` filled at `rate` units a nanosecond since its last update; an absent bucket is full. -/
def fillBucket (b : Option Bucket) (depth rate now : Nat) : Bucket :=
  match b with
  | some b => { level := min depth (b.level + rate * (now - b.at')), at' := now }
  | none => { level := depth, at' := now }

/-- A reason's limiter as it stands now (R160). -/
def limiterNow (r : Nat) (s : State) : Bucket :=
  let c := excOf s.cfg r
  fillBucket (aget s.fwd.limiters r) (c.burst * oneToken) c.rate s.elapsed

/-- Offer a packet to a reason's limiter: whether it is admitted; RATE 0 admits none (Table 05-7). -/
def limit (r : Nat) (s : State) : Bool × State :=
  let b := limiterNow r s
  let ok := oneToken ≤ b.level && 0 < (excOf s.cfg r).rate
  let b1 := if ok then { b with level := b.level - oneToken } else b
  (ok, { s with fwd := { s.fwd with limiters := aset s.fwd.limiters r b1 } })

/-- Hand something to the bridge toward QD (R27). -/
def toQd (x : Xfer) (s : State) : State := { s with bridge := { s.bridge with toQd := s.bridge.toQd ++ [x] } }

/-- Send a packet to the host under its reason: admitted and counted, or discarded with cause EXC_RATE (R160). -/
def punt (p : Punt) (s : State) : State :=
  let (ok, s1) := limit p.reason s
  if ok then toQd (.toPunt (excOf s.cfg p.reason).queue p) (tally (ctrId 17 p.reason 0) s1)
  else dropCause St.excRate (tally (ctrId 17 p.reason 1) s1)

/-- Whether `punt` admits the packet. -/
def puntAdmits (r : Nat) (s : State) : Bool := (limit r s).1

end Sys2Proof.Machine
end

