-- ==== Sys2Proof/Machine/Buffers.lean ====
section
/-! DEFINITION. The on-die buffer (R233 to R238): pools, reserves, warning levels, and the pool that serves a request. -/

namespace Sys2Proof.Machine
open Sys2Proof

/-- Consumers of R237 in their order: INGRESS 0 to 7, EGRESS, HOST. -/
abbrev consumerEgress : Nat := 8
abbrev consumerHost : Nat := 9

/-- A pool. -/
def pool (p : Nat) (s : State) : Pool := s.qdm.pools.getD p (State.resetPool 0 0)

/-- A pool's settings in force. -/
def poolCfg (p : Nat) (s : State) : PoolCfg := poolCfgOf s.cfg s.qdm.pools p

/-- The reserve of a consumer (Table 07-3). -/
def reserveOf (c : PoolCfg) (consumer : Nat) : Nat :=
  if consumer < 8 then c.resLg else if consumer = consumerEgress then c.resEgress else c.resHost

/-- Buffers of a pool in use, and free. -/
def usedBuffers (p : Pool) : Nat := p.used.foldl (· + ·) 0
def freeBuffers (p : Pool) : Nat := p.count - usedBuffers p

/-- The unused part of every consumer's reserve. -/
def unusedReserve (c : PoolCfg) (p : Pool) : Nat :=
  (List.range 10).foldl (fun n k => n + (reserveOf c k - p.used.getD k 0)) 0

/-- The shared free count of a pool (R236). -/
def sharedFree (p : Nat) (s : State) : Nat := freeBuffers (pool p s) - unusedReserve (poolCfg p s) (pool p s)

/-- The warning level of a pool (R236). -/
def warnLevel (p : Nat) (s : State) : Nat :=
  let c := poolCfg p s
  let n := sharedFree p s
  if n < c.warn3 then 3 else if n < c.warn2 then 2 else if n < c.warn1 then 1 else 0

/-- Pool numbers of the layout in force. -/
def poolIds (s : State) : List Nat := List.range s.qdm.pools.length

/-- Some pool stands at a level or above. -/
def anyLevel (l : Nat) (s : State) : Bool := (poolIds s).any (fun p => l ≤ warnLevel p s)

/-- A pool can serve a consumer now (R236, Table 07-4). -/
def poolServes (p consumer : Nat) (s : State) : Bool :=
  let x := pool p s
  0 < freeBuffers x &&
  (x.used.getD consumer 0 < reserveOf (poolCfg p s) consumer ||
   (0 < sharedFree p s && (warnLevel p s < 3 || consumer == consumerEgress)))

/-- The smallest pool that fits a stored length (R233). -/
def fitPool (stored : Nat) (s : State) : Nat := ((poolIds s).find? (fun p => stored ≤ (pool p s).size)).getD 0

/-- The pool that serves a request: the smallest that fits, else the first larger one at level 0 or 1 (R237). -/
def servingPool (stored consumer : Nat) (s : State) : Option Nat :=
  let first := fitPool stored s
  if poolServes first consumer s then some first
  else (poolIds s).find? (fun p => first < p && warnLevel p s < 2 && poolServes p consumer s)

/-- Change what a consumer holds of a pool. -/
def setUsed (p consumer : Nat) (f : Nat → Nat) (s : State) : State :=
  { s with qdm := { s.qdm with pools := s.qdm.pools.modify p (fun x => { x with used := x.used.modify consumer f }) } }

/-- Stored length of a frame without its FCS (R233). -/
def storedLen (bytes : List Byte) : Nat := bytes.length + 64

end Sys2Proof.Machine
end

