-- ==== Sys2Proof/Machine/Voq.lean ====
section
/-! DEFINITION. Virtual output queues (R228 to R253): their parts, depth, profile, limit, spill and the part's HBM pages; buffers taken and given back (R236 to R238); and the end of HBM's power (R252, R436). -/

namespace Sys2Proof.Machine
open Sys2Proof

/-- A VOQ on which nothing has happened. -/
def emptyVoq : Voq :=
  { head := [], backlog := [], seg := [], tail := [], spilled := false, written := 0, segStart := 0, segEnd := 0, pages := [], lastProfile := 0,
    lastSettings := none,
    lastEndpoint := 0,
    credit := 0, asked := 0, lastReq := none, lastGrant := none, denyUntil := none, lastCell := 0, dualStream := false }

/-- A VOQ's queue. -/
def voq (v : Nat) (s : State) : Voq := agetD s.qdm.voqs v emptyVoq

/-- Set a VOQ's queue. -/
def setVoq (v : Nat) (q : Voq) (s : State) : State := { s with qdm := { s.qdm with voqs := aset s.qdm.voqs v q } }

/-- Change a VOQ's queue. -/
def updVoq (v : Nat) (f : Voq → Voq) (s : State) : State := setVoq v (f (voq v s)) s

/-- Sum of the frame lengths of packets. -/
def bytesOf (l : List Pkt) : Nat := l.foldl (fun n p => n + p.len) 0

/-- Every packet of a VOQ, in queue order (R246). -/
def voqAll (q : Voq) : List Pkt := q.head ++ q.seg ++ q.backlog ++ q.tail

/-- Depth of a VOQ (R240). -/
def depth (q : Voq) : Nat := bytesOf (voqAll q)

/-- Bytes on die: head part, backlog and tail part. -/
def onDie (q : Voq) : Nat := bytesOf q.head + bytesOf q.backlog + bytesOf q.tail

/-- The destination of a VOQ in an epoch (R228). -/
def destOf (c : Conf) (v : Nat) : Option Dest := aget c.dests (v / 8)

/-- The VOQ profile number in force: that of its destination, or of the last epoch that had it (R231). -/
def voqProfileNo (v : Nat) (s : State) : Nat :=
  match destOf s.cfg v with
  | some d => d.profiles.getD (v % 8) 0
  | none => (voq v s).lastProfile

/-- The settings of the VOQ profile in force: those of the last epoch that had the destination, once it is freed (R231). -/
def voqProf (v : Nat) (s : State) : VoqProfile :=
  match destOf s.cfg v, (voq v s).lastSettings with
  | none, some p => p
  | _, _ => voqProfileOf s.cfg (voqProfileNo v s)

def lossless (p : VoqProfile) : Bool := bit p.flags 0 == 1
def curveMode (p : VoqProfile) : Nat := bits p.flags 2 1
def noSpill (p : VoqProfile) : Bool := bit p.flags 3 == 1

/-- HBM pages of a segment that runs from a first unread byte to an end (R247). -/
def pagesOf (from' to' : Nat) : Nat := if to' ≤ from' then 0 else (to' - 1) / 8192 - from' / 8192 + 1

/-- Pages of one stack (R251, R429): a quarter of the part's. -/
def stackPages (s : State) : Nat := if s.glb.form = 0 then 2097152 else 3145728

/-- Stacks that are READY (Table 12-8). -/
def readyStacks (s : State) : List Nat := (List.range 4).filter (fun k => (s.mem.hbmStacks.getD k (0, 0)).1 == 2)

/-- A page may be allocated: its stack is READY and it is not retired (R433, R435). -/
def pageUsable (p : Nat) (s : State) : Bool := (readyStacks s).contains (p / stackPages s) && !ahas s.mem.retired p

/-- Pages of the READY stacks, less the retired ones (R430). -/
def hbmPages (s : State) : Nat :=
  if s.qdm.hbmReady then (readyStacks s).length * stackPages s -
    (akeys s.mem.retired).countP (fun p => (readyStacks s).contains (p / stackPages s)) else 0

/-- Every page that a segment holds. -/
def pagesHeld (s : State) : List Nat := (avals s.qdm.voqs).flatMap (·.pages)

/-- Free HBM pages. -/
def hbmFree (s : State) : Nat := hbmPages s - (pagesHeld s).countP (fun p => pageUsable p s)

/-- Page number `j` in turn of the READY hbmStacks. -/
def readyPage (j : Nat) (s : State) : Nat :=
  let n := stackPages s
  let i := j % ((readyStacks s).length * n)
  (readyStacks s).getD (i / n) 0 * n + i % n

/-- The free page that a segment takes next: which one is internal to the part (log 15). -/
def pickPage (s : State) : Option Nat :=
  if hbmFree s = 0 then none
  else
    let held := pagesHeld s
    (firstFrom (fun j => pageUsable (readyPage j s) s && !held.contains (readyPage j s)) (held.length + s.mem.retired.length + 1)
      (Config.hbmPage s.fresh)).map (fun j => readyPage j s)

/-- HBM is at its warning level, and full (R251). -/
def hbmWarning (s : State) : Bool := s.qdm.hbmReady && hbmFree s * 16 < hbmPages s
def hbmIsFull (s : State) : Bool := s.qdm.hbmReady && hbmFree s == 0

/-- Report the conditions of R251 that changed. -/
def reportHbm (s : State) : State :=
  let s1 := if hbmWarning s = s.qdm.hbmWarn then s
    else raiseEvent Ev.hbmWarn (b2n (hbmWarning s)) (hbmFree s) 0 { s with qdm := { s.qdm with hbmWarn := hbmWarning s } }
  if hbmIsFull s1 = s1.qdm.hbmFull then s1
  else raiseEvent Ev.hbmFull (b2n (hbmIsFull s1)) (hbmFree s1) 0 { s1 with qdm := { s1.qdm with hbmFull := hbmIsFull s1 } }

/-- Move a VOQ's segment start: the pages before it are given back (R249); a segment read to its end gives back all. -/
def setSegment (v start stop : Nat) (s : State) : State :=
  let a := if stop ≤ start then 0 else start
  let b := if stop ≤ start then 0 else stop
  reportHbm (updVoq v (fun q => { q with segStart := a, segEnd := b, pages := q.pages.drop (q.pages.length - pagesOf a b) }) s)

/-- The segment takes one more page (R247). -/
def addPage (v p : Nat) (s : State) : State := drawn (updVoq v (fun q => { q with pages := q.pages ++ [p] }) s)

/-- The effective limit of a VOQ (R241). -/
def effectiveLimit (v : Nat) (s : State) : Nat :=
  let p := voqProf v s
  if noSpill p || 2 ≤ s.pwr.level || !s.qdm.spillEnabled then min p.tailLimit p.ondieLimit else p.tailLimit

/-- VOQs in SPILLED. -/
def spilledCount (s : State) : Nat := (avals s.qdm.voqs).countP (·.spilled)

/-- Spill is allowed for a VOQ (R245). -/
def spillAllowed (v : Nat) (s : State) : Bool :=
  !noSpill (voqProf v s) && s.pwr.level < 2 && s.qdm.spillEnabled && !hbmWarning s && spilledCount s < 131072

/-- The spill threshold (R245, Table 07-4). -/
def spillThreshold (v : Nat) (s : State) : Nat :=
  if anyLevel 1 s then (voqProf v s).spillLow else (voqProf v s).spillHigh

/-- Split a queue at the packets that lie wholly beyond the first `keep` bytes (R246). -/
def splitKeep (keep : Nat) : List Pkt → List Pkt × List Pkt
  | [] => ([], [])
  | p :: t => if keep = 0 then ([], p :: t) else
      let r := splitKeep (keep - p.len) t
      (p :: r.1, r.2)

/-- A VOQ enters SPILLED (R246). -/
def enterSpill (v : Nat) (s : State) : State :=
  let r := splitKeep (voqProf v s).headKeep (voq v s).head
  tally (ctrId 19 v 3) (updVoq v (fun q => { q with head := r.1, backlog := r.2, spilled := true, written := 0, segStart := 0, segEnd := 0 }) s)

/-- A VOQ whose segment, backlog and tail part are all empty returns to ON_DIE (R249). -/
def checkUnspill (v : Nat) (s : State) : State :=
  let q := voq v s
  if q.spilled && q.seg.isEmpty && q.backlog.isEmpty && q.tail.isEmpty then
    tally (ctrId 19 v 4) (updVoq v (fun q => { q with spilled := false, written := 0 }) (setSegment v 0 0 s))
  else s

/-- At level 3 every VOQ beyond its HEAD_KEEP enters spill where it may (Table 07-4). -/
def spillAtLevel3 (s : State) : State :=
  if anyLevel 3 s then
    (akeys s.qdm.voqs).foldl (fun s v =>
      if !(voq v s).spilled && (voqProf v s).headKeep < onDie (voq v s) && spillAllowed v s then enterSpill v s else s) s
  else s

/-- Index of a discard cause in class 19 (Table 16-1). -/
def voqDropIndex (cause : Nat) : Option Nat :=
  if cause == St.noDest then some 5 else if cause == St.unreachable then some 6 else if cause == St.portDown then some 7
  else if cause == St.tailLimit then some 8 else if cause == St.curveDrop then some 9 else if cause == St.spillFull then some 10
  else if cause == St.age then some 11 else if cause == St.bufExhaust then some 12 else if cause == St.hbmError then some 13
  else if cause == St.bufError then some 14 else none

/-- Count a discard that concerns VOQ `v` (R240). -/
def voqDrop (v cause : Nat) (s : State) : State :=
  let s1 := dropCause cause s
  match voqDropIndex cause with
  | some i => tally (ctrId 19 v i) s1
  | none => s1

/-- A packet is older than the maximum age of an epoch (R54). -/
def tooOld (ts : Nat) (s : State) : Bool := ts + s.cfg.maxAge * 1000000 * tuPerNs < s.tempo.now

/-- Spill backlog of the package in bytes (R250). -/
def spillBacklog (s : State) : Nat := (avals s.qdm.voqs).foldl (fun n q => n + bytesOf q.backlog - q.written) 0

/-! ### Buffers taken and given back (R236 to R238) -/

/-- Report the warning levels that changed (EV_BUF_WARN, Table 07-15); at level 3 queues enter spill without waiting for an arrival (R245). -/
def reportLevels (s : State) : State :=
  spillAtLevel3 ((poolIds s).foldl (fun s p =>
    let l := warnLevel p s
    if (pool p s).level = l then s
    else raiseEvent Ev.bufWarn p l 0
      { s with qdm := { s.qdm with pools := s.qdm.pools.modify p (fun x => { x with level := l }) } }) s)

/-- Take a buffer for a packet: the number of the stored copy, or none (R237). A fallback is counted at the pool first asked. -/
def alloc (bytes : List Byte) (consumer refs : Nat) (s : State) : Option (Nat × State) :=
  match servingPool (storedLen bytes) consumer s with
  | none => none
  | some p =>
    let n := s.qdm.nextStore
    let s1 := if p = fitPool (storedLen bytes) s then s else tally (ctrId 21 (fitPool (storedLen bytes) s) 1) s
    let s2 := setUsed p consumer (· + 1)
      { s1 with qdm := { s1.qdm with nextStore := n + 1, stored := aset s1.qdm.stored n { pool := p, consumer := consumer, refs := refs } } }
    some (n, reportLevels s2)

/-- One reference to a stored packet ends; the buffer returns to its pool with the last (R238). -/
def unref (store : Option Nat) (s : State) : State :=
  match store with
  | none => s
  | some n =>
    match aget s.qdm.stored n with
    | none => s
    | some x =>
      if 1 < x.refs then { s with qdm := { s.qdm with stored := aset s.qdm.stored n { x with refs := x.refs - 1 } } }
      else reportLevels (setUsed x.pool x.consumer (· - 1) { s with qdm := { s.qdm with stored := adel s.qdm.stored n } })

/-- Set the references of a stored packet (R254, R258); none left frees it. -/
def setRefs (n refs : Nat) (s : State) : State :=
  match aget s.qdm.stored n with
  | none => s
  | some x =>
    if refs = 0 then unref (some n) { s with qdm := { s.qdm with stored := aset s.qdm.stored n { x with refs := 1 } } }
    else { s with qdm := { s.qdm with stored := aset s.qdm.stored n { x with refs := refs } } }

/-- A discard with cause BUF_EXHAUST after the wait of R237. -/
def exhausted (bytes : List Byte) (consumer : Nat) (s : State) : State :=
  let p := fitPool (storedLen bytes) s
  let s1 := dropCause St.bufExhaust (tally (ctrId 21 p 0) s)
  let sec := secOf s.tempo.now
  if s.qdm.exhaustSec = some sec then s1
  else raiseEvent Ev.bufExhaust p consumer 0 { s1 with qdm := { s1.qdm with exhaustSec := some sec } }

/-! ### HBM (R436) -/

/-- Stacks of a state, as bits. -/
def stackBits (st : Nat) (s : State) : Nat :=
  (List.range 4).foldl (fun n k => n + b2n ((s.mem.hbmStacks.getD k (0, 0)).1 == st) * 2 ^ k) 0

/-- Power the stacks down: HBM_READY is 0 from here (R436). -/
def hbmPowerDown (s : State) : State :=
  let down := stackBits 1 s ||| stackBits 2 s
  if down = 0 then s
  else
    let s1 := { s with
      mem := { s.mem with
        hbmStacks := s.mem.hbmStacks.map (fun k => if k.1 = 1 || k.1 = 2 then (3, 0) else k),
        powerDowns := (List.range 4).map (fun k => s.mem.powerDowns.getD k 0 + bit down k) },
      qdm := { s.qdm with hbmReady := false, spillEnabled := false } }
    raiseEvent Ev.hbmPower down 1 0 (reportHbm s1)

/-- At S2 the stacks power down once every segment is empty (R252, R436). -/
def checkHbmIdle (s : State) : State :=
  if 2 ≤ s.pwr.level && s.qdm.hbmReady && (avals s.qdm.voqs).all (fun q => q.segEnd ≤ q.segStart) then hbmPowerDown s else s

end Sys2Proof.Machine
end

