-- ==== Sys2Proof/Machine/Packets.lean ====
section
/-! DEFINITION. The end of a packet: discard with its cause, and the completion of an injected frame (R263, R365). -/

namespace Sys2Proof.Machine
open Sys2Proof

/-- Write the completion of an injected frame that asks for one (R365). -/
def injectDone (i : InjectRef) (status : Nat) (ts : Option Nat) (lost : Bool) (port : Nat) (s : State) : State :=
  if i.notify || i.capture then
    if stands i.cq s then postCompletion i.cq.ring (injectBytes i.tag i.index status ts lost i.seqTag port) s else s
  else s

/-- A packet ends with a status: its buffer reference ends, and its completion is written when it has one. -/
def endPkt (p : Pkt) (status port : Nat) (s : State) : State :=
  let s1 := unref p.store s
  match p.inject with
  | some i => injectDone i status none false port s1
  | none => s1

/-- Discard a packet with a cause, counted in drop.cause (R263). -/
def discard (cause : Nat) (p : Pkt) (s : State) : State := endPkt p cause 0 (dropCause cause s)

/-- Discard a packet of VOQ `v`, counted there too (R240). -/
def discardVoq (v cause : Nat) (p : Pkt) (s : State) : State := endPkt p cause 0 (voqDrop v cause s)

/-- Discard a packet of leaf queue `l` bound for port or client `m`: `idx` counts it in class 20. -/
def discardLeaf (l m idx cause : Nat) (p : Pkt) (s : State) : State :=
  endPkt p cause m (dropCause cause (tally (ctrId 20 l idx) s))

end Sys2Proof.Machine
end

