-- ==== Sys2Proof/Machine/Parse.lean ====
section
/-! DEFINITION. Parse and rule commands (chapter 05, Table 05-12): layout, profiles, selection entries, class maps, rule tables, rules, exceptions, TCAM status. -/

namespace Sys2Proof.Machine
open Sys2Proof

/-- Some live or staged set of values has a property. -/
def liveOrStaged (f : Conf → Bool) (s : State) : Bool := (s.cfg :: sealedConfs s ++ [nextConf s]).any f

/-- A configuration command that stages one change. -/
def staged (resp : List Byte) (ch : Change) (s : State) : Verdict := .done St.ok resp (stage 1 ch s)

/-! ### Layout, profiles, selection -/

/-- `parse.select.layout` (R149). -/
def parseSelectLayout (h : HeldCmd) (s : State) : Verdict :=
  let offs := (List.range 18).map (fun k => par h k 1)
  if offs.any (fun o => 63 < o) then .refuse St.invalidParam else staged [] (.layout offs) s

def specParseSelectLayout : CmdSpec := ⟨18, .config, parseSelectLayout⟩
def execParseSelectLayout (c : Cmd) (s : State) : Res := runCmd 0x0401 specParseSelectLayout c s

/-- LOOKUP_FIELD names fields that are not VALID or have the wrong width (R153). -/
def lookupFieldBad (p : List Byte) : Bool :=
  let f := pLookupField p
  match pLookupKind p with
  | 0 => false
  | 1 => !(fieldValid p f && fieldWidth p f == 32)
  | 2 => (List.range 4).any (fun k => !(fieldValid p (f + k) && fieldWidth p (f + k) == 32))
  | _ => !(fieldValid p f && fieldWidth p f == 20)

/-- The refusals of `profile.write` with INVALID_PARAM (R153). -/
def profileMalformed (p : List Byte) : Bool :=
  511 < rd p 0 2 || 1 < pDisposition p || pMinLen p < 14 || 256 < pMinLen p || 3 < pLookupKind p ||
  (List.range 32).any (fun n => bits (descOf p n) 14 0 != 0 || (fieldValid p n && 2048 < fieldStart p n + fieldWidth p n)) ||
  [pIngKey p, pEgrKey p, pHash p, pFlow p].any (fun m => (maskFields m).any (fun n => !fieldValid p n)) ||
  (pClassField p != 0xFF && !fieldValid p (pClassField p)) || (pTtlField p != 0xFF && !fieldValid p (pTtlField p)) ||
  lookupFieldBad p || (pChecks p % 4 != 0 && pL3 p == 0xFF) || (pDisposition p == 1 && pReason p < 64) ||
  bit (pClass p) 3 == 1 || 4 ≤ pChecks p || rd p 19 1 != 0 || !allZero (slice p 36 28)

/-- Rule tables of one number, live and staged. -/
def tablesNamed (dir t : Nat) (s : State) : List RuleTable :=
  (s.cfg :: sealedConfs s ++ [nextConf s]).filterMap (fun c => aget c.ruleTables (tableKey dir t))

/-- `profile.write` (R152, R153, R156, R214). -/
def profileWrite (h : HeldCmd) (s : State) : Verdict :=
  let p := slice (pars h) 0 192
  let named := fun dir t => t != 0xFF && (tablesNamed dir t s).isEmpty
  let wide := fun dir t m => t != 0xFF && (tablesNamed dir t s).any (fun x => tableBits x.width < 24 + keyBits p m)
  if profileMalformed p then .refuse St.invalidParam
  else if named 0 (pIngTable p) || named 1 (pEgrTable p) then .refuse St.noSuchTable
  else if wide 0 (pIngTable p) (pIngKey p) || wide 1 (pEgrTable p) (pEgrKey p) || 384 < keyBits p (pFlow p) then .refuse St.keyTooWide
  else staged [] (.profile (rd p 0 2) (some p)) s

def specProfileWrite : CmdSpec := ⟨192, .config, profileWrite⟩
def execProfileWrite (c : Cmd) (s : State) : Res := runCmd 0x0402 specProfileWrite c s

/-- `profile.delete` (R152, R181). -/
def profileDelete (h : HeldCmd) (s : State) : Verdict :=
  let id := par h 0 2
  if 511 < id || !parZero h 2 2 then .refuse St.invalidParam
  else if !liveOrStaged (fun c => ahas c.profiles id) s then .refuse St.noSuchProfile
  else if liveOrStaged (fun c => (avals c.selects).any (fun e => e.profile == id)) s then .refuse St.profileInUse
  else staged [] (.profile id none) s

def specProfileDelete : CmdSpec := ⟨4, .config, profileDelete⟩
def execProfileDelete (c : Cmd) (s : State) : Res := runCmd 0x0403 specProfileDelete c s

/-- An identifier that Teruo chooses: the first free one from where it starts its search (R558, log 13). -/
def pickId (cap : Nat) (free : Nat → Bool) (s : State) : Option Nat :=
  (firstFrom (fun k => free (k % cap)) cap (Config.freeId s.fresh % cap)).map (· % cap)

/-! ### Placement in a TCAM (R169 to R171) -/

/-- Retired entries whose 10 µs have not passed. -/
def retiredNow {α : Type} (l : List (Nat × α × Nat)) (s : State) : List (Nat × α) :=
  (l.filter (fun e => decide (s.elapsed < e.2.2))).map (fun e => (e.1, e.2.1))

/-- The highest number below a bound that satisfies a test. -/
def lastBelow (p : Nat → Bool) : Nat → Option Nat
  | 0 => none
  | n + 1 => if p n then some n else lastBelow p n

/-- Where a new entry goes between the entries of its table that come before and after it in the next epoch (key and slot, slots
rising): its slot, and the entries that move with their new slots (R170). `n`: slots; `hole`: HOLE_SPACING; `g`: Teruo's choice. A
table that grows leaves a slot free after HOLE_SPACING − 1 rules; without a free slot in between, every entry up to the nearest free
slot moves by one place, in the direction that needs fewer moves. -/
def tcamPlace (before after : List (Nat × Nat)) (free : Nat → Bool) (n hole g : Nat) : Option (Nat × List (Nat × Nat)) :=
  let lo := (before.getLast?.map (fun e => e.2 + 1)).getD 0
  let hi := (after.head?.map (·.2)).getD n
  let closes := 1 < hole && after.isEmpty && hole ≤ before.length + 1 &&
    (before.drop (before.length + 1 - hole)).head?.any (fun e => e.2 + hole == lo + 1)
  let start := lo + b2n closes + g % (hi - lo)
  let slot := fun k => lo + (k - lo) % (hi - lo)
  match firstFrom (fun k => free (slot k)) (hi - lo) start with
  | some k => some (slot k, [])
  | none =>
    let up := (firstFrom free (n - hi) hi).map (fun u =>
      let l := after.filter (fun e => decide (e.2 < u))
      (hi, (l.map (·.1)).zip ((l.map (·.2)).drop 1 ++ [u])))
    let down := (lastBelow free lo).map (fun d =>
      let l := before.filter (fun e => decide (d < e.2))
      (lo - 1, (l.map (·.1)).zip (d :: (l.map (·.2)).dropLast)))
    match up, down with
    | some a, some b => some (if a.2.length ≤ b.2.length then a else b)
    | a, b => a.or b

/-- A slot of `size` entries from index `base` on that meets none of the entries taken (index, size). -/
def slotFree (taken : List (Nat × Nat)) (base size k : Nat) : Bool :=
  taken.all (fun e => decide (e.1 + e.2 ≤ base + k * size) || decide (base + (k + 1) * size ≤ e.1))

/-- Insert into a list ordered by a relation. -/
def insertBy {α : Type} (lt : α → α → Bool) (x : α) : List α → List α
  | [] => [x]
  | y :: t => if lt x y then x :: y :: t else y :: insertBy lt x t

/-- A list put in order, equal elements in their order of appearance. -/
def sortBy {α : Type} (lt : α → α → Bool) (l : List α) : List α := l.foldl (fun a x => insertBy lt x a) []

/-- One entry wins against another of its table by PRIORITY and insertion order (R150, R169). -/
def selectBefore (a b : SelEntry) : Bool := a.prio < b.prio || (a.prio == b.prio && a.order < b.order)
def ruleBefore (a b : Rule) : Bool := a.prio < b.prio || (a.prio == b.prio && a.order < b.order)

/-! ### Selection entries -/

/-- Selection entries that are not FREE, with the place of each (Table 05-10). -/
def selectsTaken (s : State) : List (Nat × SelEntry) := (heldConfs s).flatMap (·.selects) ++ retiredNow s.fwd.retiredSel s

/-- A selection entry's ENTRY_ID is held (R558). -/
def selectHeld (s : State) (id : Nat) : Bool := (selectsTaken s).any (fun e => e.1 == id)

/-- Indices of the selection partition that are not FREE. -/
def selectIndices (s : State) : List Nat := distinct ((selectsTaken s).map (fun e => e.2.index))

/-- A change of a selection entry. -/
def isSelect : Change → Bool
  | .select _ _ => true
  | _ => false

/-- Copies of moved selection entries that insertions hold. -/
def selectCopies (s : State) : Nat := (s.staged.filter (fun x => isSelect x.change)).foldl (fun n x => n + x.moves.length) 0

/-- Where a new selection entry goes, and the entries that move for it (R170): the partition has the default hole spacing of 16. -/
def selectPlace (e : SelEntry) (s : State) : Option (Nat × List (Nat × Nat)) :=
  let own := sortBy (fun a b => selectBefore a.2 b.2) (nextConf s).selects
  let places := fun (l : List (Nat × SelEntry)) => l.map (fun x => (x.1, x.2.index))
  tcamPlace (places (own.filter (fun x => selectBefore x.2 e))) (places (own.filter (fun x => !selectBefore x.2 e)))
    (slotFree ((selectIndices s).map (fun i => (i, 1))) 0 1) 2048 16 (Config.tcamIndex s.fresh)

/-- `profile.select.add` (R150, R151, R170). -/
def profileSelectAdd (h : HeldCmd) (s : State) : Verdict :=
  let key := beVal (slice (pars h) 8 20)
  let mask := beVal (slice (pars h) 28 20)
  if 511 < par h 4 2 || !parZero h 6 2 || key ||| mask != mask || bits key 148 144 != 0 then .refuse St.invalidParam
  else if !liveOrStaged (fun c => ahas c.profiles (par h 4 2)) s then .refuse St.noSuchProfile
  else
    let e : SelEntry := { prio := par h 0 4, profile := par h 4 2, key := key, mask := mask, order := s.nextOrder, index := 0 }
    match pickId 2048 (fun k => !selectHeld s k) s, selectPlace e s with
    | some id, some (index, moves) =>
      if 2048 < (selectIndices s).length + selectCopies s + moves.length + 1 then .refuse St.tcamFull
      else
        let s1 := { drawn s with nextOrder := s.nextOrder + 1 }
        .done St.ok (le 4 id)
          { s1 with staged := s1.staged ++ [{ change := .select id (some { e with index := index }), units := 1, sealedBy := none, moves := moves }] }
    | _, _ => .refuse St.tcamFull

def specProfileSelectAdd : CmdSpec := ⟨48, .config, profileSelectAdd⟩
def execProfileSelectAdd (c : Cmd) (s : State) : Res := runCmd 0x0404 specProfileSelectAdd c s

/-- `profile.select.delete` (R150, R181). -/
def profileSelectDelete (h : HeldCmd) (s : State) : Verdict :=
  if !liveOrStaged (fun c => ahas c.selects (par h 0 4)) s then .refuse St.notFound else staged [] (.select (par h 0 4) none) s

def specProfileSelectDelete : CmdSpec := ⟨4, .config, profileSelectDelete⟩
def execProfileSelectDelete (c : Cmd) (s : State) : Res := runCmd 0x0405 specProfileSelectDelete c s

/-- `parse.class_map.set` (R157). -/
def parseClassMapSet (h : HeldCmd) (s : State) : Verdict :=
  let l := (List.range 64).map (fun k => par h (1 + k) 1)
  if 15 < par h 0 1 || l.any (fun c => 7 < c) then .refuse St.invalidParam else staged [] (.classMap (par h 0 1) l) s

def specParseClassMapSet : CmdSpec := ⟨65, .config, parseClassMapSet⟩
def execParseClassMapSet (c : Cmd) (s : State) : Res := runCmd 0x0406 specParseClassMapSet c s

/-! ### Rule tables and rules -/

/-- A profile names a rule table. -/
def namesTable (dir t : Nat) (p : List Byte) : Bool := (if dir = 0 then pIngTable p else pEgrTable p) == t

/-- Some live or staged profile names a rule table (R156). -/
def tableNamed (dir t : Nat) (s : State) : Bool := liveOrStaged (fun c => (avals c.profiles).any (namesTable dir t)) s

/-- A table holds a rule, live or staged. -/
def tableHoldsRule (dir t : Nat) (s : State) : Bool :=
  liveOrStaged (fun c => c.rules.any (fun r => r.1 / 131072 == dir && r.2.table == t)) s

/-- An action record that R176 or R212 refuses, for a table. -/
def actionRefused (dir t : Nat) (a : List Byte) (s : State) : Option Nat :=
  let profiles := (s.cfg :: sealedConfs s ++ [nextConf s]).flatMap (fun c => (avals c.profiles).filter (namesTable dir t))
  if actionMalformed a || !popDefined profiles (aPop a) then some St.invalidParam
  else if aFlow a && !ahas s.fwd.flowTables (aFlowTable a) then some St.noSuchTable
  else none

/-- `rule.table.create` (R166). -/
def ruleTableCreate (h : HeldCmd) (s : State) : Verdict :=
  let dir := par h 0 1
  let t := par h 1 1
  let w := par h 2 1
  let hole := if par h 3 1 = 0 then 16 else par h 3 1
  let dflt := slice (pars h) 4 32
  if 1 < dir || 254 < t || 2 < w || !([1, 4, 8, 16, 32, 64].contains hole) then .refuse St.invalidParam
  else
    let widthChange := (tablesNamed dir t s).any (fun x => x.width != w)
    match actionRefused dir t dflt s with
    | some st => .refuse st
    | none =>
      if widthChange && (tableHoldsRule dir t s || tableNamed dir t s) then .refuse St.tableInUse
      else staged [] (.ruleTable (tableKey dir t) (some { width := w, hole := hole, dflt := dflt })) s

def specRuleTableCreate : CmdSpec := ⟨36, .config, ruleTableCreate⟩
def execRuleTableCreate (c : Cmd) (s : State) : Res := runCmd 0x0407 specRuleTableCreate c s

/-- `rule.table.delete` (R166, R181). -/
def ruleTableDelete (h : HeldCmd) (s : State) : Verdict :=
  let dir := par h 0 1
  let t := par h 1 1
  if 1 < dir || 254 < t || !parZero h 2 2 then .refuse St.invalidParam
  else if (tablesNamed dir t s).isEmpty then .refuse St.noSuchTable
  else if tableHoldsRule dir t s || tableNamed dir t s then .refuse St.tableInUse
  else staged [] (.ruleTable (tableKey dir t) none) s

def specRuleTableDelete : CmdSpec := ⟨4, .config, ruleTableDelete⟩
def execRuleTableDelete (c : Cmd) (s : State) : Res := runCmd 0x0408 specRuleTableDelete c s

/-- Rules of a direction that are not FREE, one for each set of values and place that holds it (Table 05-10). -/
def rulesTaken (dir : Nat) (s : State) : List (Nat × Rule) :=
  ((heldConfs s).flatMap (·.rules) ++ retiredNow s.fwd.retired s).filter (fun r => r.1 / 131072 == dir)

/-- A rule's entries are not FREE. -/
def ruleHeld (s : State) (k : Nat) : Bool := (rulesTaken (k / 131072) s).any (fun r => r.1 == k)

/-- A rule's record, in the latest of the sets of values that hold it. -/
def ruleRecord (s : State) (k : Nat) : Option Rule :=
  (((retiredNow s.fwd.retired s ++ (heldConfs s).flatMap (·.rules)).filter (fun r => r.1 == k)).getLast?).map (·.2)

/-- TCAM entries that a rule of a table takes (R166). -/
def ruleSize (dir t : Nat) (s : State) : Nat := 2 ^ (((tablesNamed dir t s).map (·.width)).headD 0)

/-- Entries of a direction that are not FREE: index and size. -/
def placesTaken (dir : Nat) (s : State) : List (Nat × Nat) :=
  distinct ((rulesTaken dir s).map (fun r => (r.2.index, ruleSize dir r.2.table s)))

/-- A change of a rule of a direction, of one table where `t` names one. -/
def isRule (dir : Nat) (t : Option Nat) (s : State) : Change → Bool
  | .rule k _ => k / 131072 == dir && t.all (fun t => (ruleRecord s k).any (fun r => r.table == t))
  | _ => false

/-- Entries that the copies of moved rules hold (R170). -/
def ruleCopies (dir : Nat) (t : Option Nat) (s : State) : Nat :=
  (s.staged.filter (fun x => isRule dir t s x.change)).foldl (fun n x =>
    x.moves.foldl (fun n m => n + ruleSize dir (((ruleRecord s m.1).map (·.table)).getD 0) s) n) 0

/-- Entries that classification rules of a direction may use (R148). -/
def ruleCapacity (dir : Nat) : Nat := if dir = 0 then 129024 else 65536

/-- Entries of a direction that its rules hold. -/
def entriesUsed (dir : Nat) (s : State) : Nat := (placesTaken dir s).foldl (fun n e => n + e.2) 0

/-- RULE_ID values of a direction (R558). -/
def ruleIds (dir : Nat) : Nat := if dir = 0 then 131072 else 65536

/-- Compared part of a key or mask: its first W bits as a number. -/
def keyNat (width : Nat) (b : List Byte) : Nat := beVal (slice b 0 (20 * 2 ^ width))

/-- Where a new rule of a table of a direction goes, the first of its entries, and the rules that move for it with theirs (R166, R170): the
selection partition takes the first 2,048 entries of the ingress TCAM (R148). -/
def rulePlace (dir : Nat) (tb : RuleTable) (r : Rule) (s : State) : Option (Nat × List (Nat × Nat)) :=
  let own := sortBy (fun a b => ruleBefore a.2 b.2) ((nextConf s).rules.filter (fun q => q.1 / 131072 == dir && q.2.table == r.table))
  let size := 2 ^ tb.width
  let base := if dir = 0 then 2048 else 0
  let places := fun (l : List (Nat × Rule)) => l.map (fun x => (x.1, (x.2.index - base) / size))
  (tcamPlace (places (own.filter (fun x => ruleBefore x.2 r))) (places (own.filter (fun x => !ruleBefore x.2 r)))
    (slotFree (placesTaken dir s) base size) (ruleCapacity dir / size) tb.hole (Config.tcamIndex s.fresh)).map
      (fun p => (base + p.1 * size, p.2.map (fun m => (m.1, base + m.2 * size))))

/-- `rule.add` (R167, R168, R170). -/
def ruleAdd (h : HeldCmd) (s : State) : Verdict :=
  let dir := par h 0 1
  let t := par h 1 1
  let key := slice (pars h) 8 80
  let mask := slice (pars h) 88 80
  let act := slice (pars h) 168 32
  if 1 < dir || 254 < t || !parZero h 2 2 || beVal key ||| beVal mask != beVal mask || rd key 0 1 != t || rd mask 0 1 != 0xFF ||
      actionMalformed act then .refuse St.invalidParam
  else match aget (nextConf s).ruleTables (tableKey dir t) with
    | none => .refuse St.noSuchTable
    | some tb =>
      if !allZero (key.drop (20 * 2 ^ tb.width)) || !allZero (mask.drop (20 * 2 ^ tb.width)) then .refuse St.invalidParam
      else match actionRefused dir t act s with
        | some st => .refuse st
        | none =>
          let r : Rule := { table := t, prio := par h 4 4, key := key, mask := mask, action := act, order := s.nextOrder, index := 0 }
          match pickId (ruleIds dir) (fun id => !ruleHeld s (ruleKey dir id)) s, rulePlace dir tb r s with
          | some id, some (index, moves) =>
            if ruleCapacity dir < entriesUsed dir s + ruleCopies dir none s + (moves.length + 1) * 2 ^ tb.width then .refuse St.tcamFull
            else
              let s1 := { drawn s with nextOrder := s.nextOrder + 1 }
              .done St.ok (le 4 id)
                { s1 with staged := s1.staged ++ [{ change := .rule (ruleKey dir id) (some { r with index := index }), units := 1,
                                                    sealedBy := none, moves := moves }] }
          | _, _ => .refuse St.tcamFull

def specRuleAdd : CmdSpec := ⟨200, .config, ruleAdd⟩
def execRuleAdd (c : Cmd) (s : State) : Res := runCmd 0x0409 specRuleAdd c s

/-- DIRECTION and RULE_ID of a command that names a rule. -/
def ruleNamed (h : HeldCmd) : Nat := ruleKey (par h 0 1) (par h 4 4)

/-- DIRECTION, its reserved bytes and RULE_ID are in range. -/
def ruleNameBad (h : HeldCmd) : Bool := 1 < par h 0 1 || !parZero h 1 3

/-- A rule of the next epoch that a command names. -/
def ruleNext (h : HeldCmd) (s : State) : Option Rule :=
  if par h 4 4 < ruleIds (par h 0 1) then aget (nextConf s).rules (ruleNamed h) else none

/-- `rule.delete` (R167, R181). -/
def ruleDelete (h : HeldCmd) (s : State) : Verdict :=
  if ruleNameBad h then .refuse St.invalidParam
  else match ruleNext h s with
    | none => .refuse St.notFound
    | some _ => staged [] (.rule (ruleNamed h) none) s

def specRuleDelete : CmdSpec := ⟨8, .config, ruleDelete⟩
def execRuleDelete (c : Cmd) (s : State) : Res := runCmd 0x040A specRuleDelete c s

/-- `rule.modify` (R167, R181). -/
def ruleModify (h : HeldCmd) (s : State) : Verdict :=
  let act := slice (pars h) 8 32
  if ruleNameBad h || actionMalformed act then .refuse St.invalidParam
  else match ruleNext h s with
    | none => .refuse St.notFound
    | some r => match actionRefused (par h 0 1) r.table act s with
      | some st => .refuse st
      | none => staged [] (.ruleAction (ruleNamed h) act) s

def specRuleModify : CmdSpec := ⟨40, .config, ruleModify⟩
def execRuleModify (c : Cmd) (s : State) : Res := runCmd 0x040B specRuleModify c s

/-- Some key matches both rules. -/
def overlap (a b : Rule) : Bool := ternary (beVal a.key) (beVal a.mask &&& beVal b.mask) (beVal b.key)

/-- The rules that are live or staged, each once. -/
def standingRules (s : State) : List (Nat × Rule) :=
  (distinct ((standing s).flatMap (fun c => akeys c.rules))).filterMap (fun k =>
    (((standing s).filterMap (fun c => aget c.rules k)).getLast?).map (fun r => (k, r)))

/-- The rules, live or staged, that overlap a rule, in search order, with their keys (R169, R181). -/
def overlapsOf (k : Nat) (r : Rule) (s : State) : List (Nat × Rule) :=
  sortBy (fun a b => ruleBefore a.2 b.2)
    ((standingRules s).filter (fun q => q.1 != k && q.1 / 131072 == k / 131072 && q.2.table == r.table && overlap r q.2))

/-- `rule.overlaps` (R169, R181). -/
def ruleOverlaps (h : HeldCmd) (s : State) : Verdict :=
  if ruleNameBad h then .refuse St.invalidParam
  else match (standingRules s).find? (fun q => decide (par h 4 4 < ruleIds (par h 0 1)) && q.1 == ruleNamed h) with
    | none => .refuse St.notFound
    | some (_, r) =>
      let all := overlapsOf (ruleNamed h) r s
      let part := (all.drop (par h 8 4)).take 256
      .done St.ok (le 4 all.length ++ zeros 4 ++
        part.flatMap (fun q => le 4 (q.1 % 131072) ++ le 4 q.2.prio ++ le 1 (b2n (ruleBefore q.2 r)) ++ zeros 3)) s

def specRuleOverlaps : CmdSpec := ⟨12, .query, ruleOverlaps⟩
def execRuleOverlaps (c : Cmd) (s : State) : Res := runCmd 0x040C specRuleOverlaps c s

/-- STATE of Table 05-17. -/
def ruleState (s : State) (k : Nat) : Nat :=
  if ahas s.cfg.rules k then
    if !ahas (nextConf s).rules k then 3
    else if s.commits.any (fun c => match c.retained with
      | some o => !ahas o.rules k
      | none => false) then 1
    else 2
  else if ahas (nextConf s).rules k || (sealedConfs s).any (fun c => ahas c.rules k) then 0
  else 4

/-- `rule.query` (R167, Table 05-17). -/
def ruleQuery (h : HeldCmd) (s : State) : Verdict :=
  let k := ruleNamed h
  if ruleNameBad h then .refuse St.invalidParam
  else if !(par h 4 4 < ruleIds (par h 0 1) && ruleHeld s k) then .refuse St.notFound
  else match ruleRecord s k with
    | none => .refuse St.notFound
    | some r =>
      let width := ((tablesNamed (par h 0 1) r.table s).map (·.width)).headD 0
      let now := (aget s.cfg.rules k).map (·.action)
      let next := (aget (nextConf s).rules k).map (·.action)
      let index := ((aget s.cfg.rules k).map (·.index)).getD r.index
      let free := le 32 (unstatedAt 1 s)
      .done St.ok (le 1 r.table ++ le 1 (ruleState s k) ++ le 1 width ++ zeros 1 ++ le 4 r.prio ++ le 4 index ++ zeros 4 ++
        fit 80 r.key ++ fit 80 r.mask ++ fit 32 (now.getD free) ++ fit 32 (next.getD free) ++
        le 8 (ctr (ctrId 14 k 0) s) ++ le 8 (ctr (ctrId 14 k 1) s)) (drawn s)

def specRuleQuery : CmdSpec := ⟨8, .query, ruleQuery⟩
def execRuleQuery (c : Cmd) (s : State) : Res := runCmd 0x040D specRuleQuery c s

/-! ### Exceptions and TCAM status -/

/-- `exception.config` (R159). -/
def exceptionConfig (h : HeldCmd) (s : State) : Verdict :=
  let t := par h 4 2
  if !parZero h 1 1 || 4095 < par h 2 2 || (t != 0 && (t < 64 || 512 < t || t % 64 != 0)) || par h 6 2 == 0 ||
      200000000 < par h 8 4 then .refuse St.invalidParam
  else staged [] (.exception (par h 0 1) { queue := par h 2 2, truncate := t, burst := par h 6 2, rate := par h 8 4 }) s

def specExceptionConfig : CmdSpec := ⟨12, .config, exceptionConfig⟩
def execExceptionConfig (c : Cmd) (s : State) : Res := runCmd 0x040E specExceptionConfig c s

/-- Key of the false-hit count of the selection partition. -/
def selectFalseHits : Nat := 512

/-- A 16-byte table record of `tcam.status`. -/
def tcamRecord (tbl width hole used staged hits : Nat) : List Byte :=
  le 1 tbl ++ le 1 width ++ le 1 hole ++ zeros 1 ++ le 4 used ++ le 4 staged ++ le 4 hits

/-- Entries in use, and those that only staged values hold with the copies of moves: of indices in use, of all, and of the copies. -/
def usedStaged (used all copies size : Nat) : Nat × Nat := (used * size, (all - used) * size + copies)

/-- Entries of a table in use and staged. -/
def tableEntries (dir t : Nat) (s : State) : Nat × Nat :=
  let places := fun (l : List (Nat × Rule)) =>
    (distinct ((l.filter (fun r => r.1 / 131072 == dir && r.2.table == t)).map (fun r => r.2.index))).length
  let now := (s.commits.filterMap (·.retained) ++ [s.cfg]).flatMap (·.rules) ++ retiredNow s.fwd.retired s
  usedStaged (places now) (places (rulesTaken dir s)) (ruleCopies dir (some t) s) (ruleSize dir t s)

/-- Entries of the selection partition in use and staged. -/
def selectEntries (s : State) : Nat × Nat :=
  let now := (s.commits.filterMap (·.retained) ++ [s.cfg]).flatMap (·.selects) ++ retiredNow s.fwd.retiredSel s
  usedStaged (distinct (now.map (fun e => e.2.index))).length (selectIndices s).length (selectCopies s) 1

/-- `tcam.status` (R170, R181): the totals cover the whole TCAM of the direction, the selection partition included. -/
def tcamStatus (h : HeldCmd) (s : State) : Verdict :=
  let dir := par h 0 1
  if 1 < dir || !parZero h 1 3 then .refuse St.invalidParam
  else
    let tables := distinct ((standing s).flatMap (fun c => (c.ruleTables.filter (fun t => t.1 / 256 == dir)).map (fun t => t.1 % 256)))
    let record := fun t width hole (e : Nat × Nat) key =>
      (tcamRecord t width hole e.1 e.2 (agetD s.fwd.falseHits key 0), e, agetD s.fwd.falseHits key 0)
    let recs := (if dir = 0 then [record 0xFF 0 16 (selectEntries s) selectFalseHits] else []) ++
      (sortBy (fun a b => decide (a < b)) tables).map (fun t =>
        let tb := (tablesNamed dir t s).getLastD { width := 0, hole := 0, dflt := [] }
        record t tb.width tb.hole (tableEntries dir t s) (tableKey dir t))
    let used := recs.foldl (fun n r => n + r.2.1.1) 0
    let stg := recs.foldl (fun n r => n + r.2.1.2) 0
    let cap := if dir = 0 then 131072 else 65536
    .done St.ok (le 4 used ++ le 4 stg ++ le 4 (cap - used - stg) ++ le 4 recs.length ++ le 8 (recs.foldl (fun n r => n + r.2.2) 0) ++
      recs.flatMap (fun r => r.1)) s

def specTcamStatus : CmdSpec := ⟨4, .query, tcamStatus⟩
def execTcamStatus (c : Cmd) (s : State) : Res := runCmd 0x040F specTcamStatus c s

end Sys2Proof.Machine
end

