-- ==== Sys2Proof/Machine/QueueCmds.lean ====
section
/-! DEFINITION. Queue and buffer commands (Table 07-12). -/

namespace Sys2Proof.Machine
open Sys2Proof

/-- A destination's fields (Table 07-1). -/
def destParam (h : HeldCmd) : Dest :=
  { kind := par h 2 1, endpoint := par h 4 2, epList := par h 6 2, localPort := par h 8 1, leafBase := par h 12 4,
    pealList := par h 16 4, profiles := (List.range 8).map (fun c => par h (20 + c) 1) }

/-- The port or client that a leaf queue of an epoch belongs to. -/
def leafPortIn (c : Conf) (l : Nat) : Option Nat :=
  match aget c.leaves l with
  | none => none
  | some n => match aget c.aggregates n.parent with
    | none => none
    | some a => (aget c.channels a.parent).map (·.parent)

/-- A UNICAST destination at this package's endpoint. -/
def destLocal (d : Dest) (s : State) : Bool := d.kind == 0 && d.endpoint == s.fab.endpoint

/-- The form checks of `voq.dest.set` (R230). -/
def destBad (h : HeldCmd) (s : State) : Bool :=
  let d := destParam h
  2 < d.kind || !parZero h 3 1 || !parZero h 9 3 || 4095 < d.endpoint || 4095 < d.epList || 131071 < d.leafBase ||
  65535 < d.pealList || (d.kind == 1 && d.endpoint != 0) || (d.kind != 1 && (d.epList != 0 || d.pealList != 0)) ||
  (if destLocal d s then
     (mac? d.localPort s).isNone || (mac? d.localPort s).any (fun m => m.cfg.flexePhy) ||
     (List.range 8).any (fun c => leafPortIn (nextConf s) (d.leafBase + c) != some d.localPort)
   else d.localPort != 0 || d.leafBase != 0)

/-- `voq.dest.set` (R229, R230). -/
def voqDestSet (h : HeldCmd) (s : State) : Verdict :=
  let d := destParam h
  let id := par h 0 2
  if destBad h s then .refuse St.invalidParam
  else if d.kind == 1 && !(ahas (nextConf s).epLists d.epList && ahas (nextConf s).pealLists d.pealList) then .refuse St.noSuchId
  else match (List.range 8).filterMap (fun c => setRefused 3 (8 * id + c) s) with
    | _ :: _ => .refuse St.idQuarantined
    | [] => staged [] (.dest id (some d)) s

def specVoqDestSet : CmdSpec := ⟨28, .config, voqDestSet⟩
def execVoqDestSet (c : Cmd) (s : State) : Res := runCmd 0x0601 specVoqDestSet c s

/-- `voq.dest.delete` (R231, R266). -/
def voqDestDelete (h : HeldCmd) (s : State) : Verdict :=
  if !parZero h 2 2 then .refuse St.invalidParam
  else if !ahas (nextConf s).dests (par h 0 2) then .refuse St.notFound
  else staged [] (.dest (par h 0 2) none) s

def specVoqDestDelete : CmdSpec := ⟨4, .config, voqDestDelete⟩
def execVoqDestDelete (c : Cmd) (s : State) : Res := runCmd 0x0602 specVoqDestDelete c s

/-- Every neighbour pair of a list satisfies a relation. -/
def chain (r : Nat → Nat → Bool) : List Nat → Bool
  | a :: b :: t => r a b && chain r (b :: t)
  | _ => true

/-- `voq.profile.set` (R239). -/
def voqProfileSet (h : HeldCmd) (s : State) : Verdict :=
  let lims := [par h 20 4, par h 16 4, par h 12 4, par h 8 4, par h 4 4]
  let curve := (List.range 4).map (fun k => (par h (24 + 8 * k) 4, par h (28 + 8 * k) 4))
  if 15 < par h 1 1 || !parZero h 2 2 || lims.any (fun x => x % 256 != 0) || 262144 < par h 20 4 || !chain (fun a b => a ≤ b) lims ||
      !chain (fun a b => a ≤ b) (curve.map (·.1)) || !chain (fun a b => a ≤ b) (curve.map (·.2)) ||
      curve.any (fun p => par h 4 4 < p.1 || 65536 < p.2) then .refuse St.invalidParam
  else staged [] (.voqProfile (par h 0 1) { flags := par h 1 1, tailLimit := par h 4 4, ondieLimit := par h 8 4, spillHigh := par h 12 4,
                                            spillLow := par h 16 4, headKeep := par h 20 4, curve := curve }) s

def specVoqProfileSet : CmdSpec := ⟨56, .config, voqProfileSet⟩
def execVoqProfileSet (c : Cmd) (s : State) : Res := runCmd 0x0603 specVoqProfileSet c s

/-- No number appears twice. -/
def noRepeat : List Nat → Bool
  | [] => true
  | a :: t => !t.contains a && noRepeat t

/-- `voq.eplist.set` (R255). -/
def voqEplistSet (h : HeldCmd) (s : State) : Verdict :=
  let n := par h 2 2
  let l := (List.range n).map (fun k => par h (4 + 2 * k) 2)
  let ds := l.map (fun d => aget (nextConf s).dests d)
  if 4095 < par h 0 2 || n < 1 || 64 < n || h.paramLen < 4 + 2 * n || ds.any (fun d => !d.any (fun d => d.kind == 2)) ||
      !noRepeat (ds.filterMap (fun d => d.map (·.endpoint))) then .refuse St.invalidParam
  else staged [] (.epList (par h 0 2) l) s

def specVoqEplistSet : CmdSpec := ⟨4, .config, voqEplistSet⟩
def execVoqEplistSet (c : Cmd) (s : State) : Res := runCmd 0x0604 specVoqEplistSet c s

/-- `peal.list.set` (R257). -/
def pealListSet (h : HeldCmd) (s : State) : Verdict :=
  let n := par h 2 2
  let id := par h 0 2
  let l := (List.range n).map (fun k => par h (8 + 8 * k) 8)
  let ch := Change.pealList id (some l)
  if 256 < n || !parZero h 4 4 || h.paramLen < 8 + 8 * n ||
      l.any (fun t => bits t 62 51 != 0 || bits t 31 17 != 0 ||
        !ahas (nextConf s).leaves (bits t 16 0)) then .refuse St.invalidParam
  else if l.any (fun t => bit t 63 == 1 && !idNext 2 (bits t 50 32) s) then .refuse St.noSuchId
  else match setRefused 5 id s with
    | some _ => .refuse St.idQuarantined
    | none =>
      if targetCapacity < targetsUsed s + targetsStaged (batchesWith ch s) then .refuse St.pealFull else staged [] ch s

def specPealListSet : CmdSpec := ⟨8, .config, pealListSet⟩
def execPealListSet (c : Cmd) (s : State) : Res := runCmd 0x0605 specPealListSet c s

/-- `peal.list.delete` (R257, R266). -/
def pealListDelete (h : HeldCmd) (s : State) : Verdict :=
  let id := par h 0 2
  if !parZero h 2 2 then .refuse St.invalidParam
  else if !ahas (nextConf s).pealLists id then .refuse St.notFound
  else if (avals (nextConf s).dests).any (fun d => d.kind == 1 && d.pealList == id) then .refuse St.idInUse
  else staged [] (.pealList id none) s

def specPealListDelete : CmdSpec := ⟨4, .config, pealListDelete⟩
def execPealListDelete (c : Cmd) (s : State) : Res := runCmd 0x0606 specPealListDelete c s

/-- A change of a pool's settings. -/
def isPool : Change → Bool
  | .pool _ _ => true
  | _ => false

/-- A port or client that passes traffic or holds it: UP, HOLD, HOLD_DEBOUNCE. -/
def linkHolds (m : Mac) : Bool := m.link == .up || m.link == .hold || m.link == .holdDebounce

/-- `buf.pool.layout` (R234). -/
def bufPoolLayout (h : HeldCmd) (s : State) : Verdict :=
  let n := par h 0 1
  let ps := (List.range n).map (fun k => (par h (4 + 8 * k) 4, par h (8 + 8 * k) 4))
  let sizes := ps.map (·.1)
  if n < 1 || 7 < n || !parZero h 1 3 || h.paramLen < 4 + 8 * n || !chain (fun a b => a < b) sizes ||
      sizes.any (fun z => z % 256 != 0 || z < 256 || 16384 < z) || sizes.getLast? != some 16384 ||
      ps.any (fun p => p.2 % 128 != 0 || p.2 < 128) || 134217728 < ps.foldl (fun a p => a + p.1 * p.2) 0 then .refuse St.invalidParam
  else if !s.qdm.stored.isEmpty || (avals s.macs).any linkHolds then .refuse St.bufBusy
  else
    let plain := fun (c : Conf) => { c with pools := [] }
    let levels := s.qdm.pools.map (·.level)
    .done St.ok [] (reportLevels
      { s with qdm := { s.qdm with pools := (List.range n).map (fun k =>
                 { State.resetPool (ps.getD k (0, 0)).1 (ps.getD k (0, 0)).2 with level := levels.getD k 0 }) },
               cfg := plain s.cfg,
               staged := s.staged.filter (fun x => !isPool x.change),
               commits := s.commits.map (fun c => { c with retained := c.retained.map plain }) })

def specBufPoolLayout : CmdSpec := ⟨4, .effect, bufPoolLayout⟩
def execBufPoolLayout (c : Cmd) (s : State) : Res := runCmd 0x0607 specBufPoolLayout c s

/-- `buf.pool.config` (R235). -/
def bufPoolConfig (h : HeldCmd) (s : State) : Verdict :=
  let c : PoolCfg := { warn1 := par h 4 4, warn2 := par h 8 4, warn3 := par h 12 4, resLg := par h 16 4, resEgress := par h 20 4,
                       resHost := par h 24 4 }
  if s.qdm.pools.length ≤ par h 0 1 || !parZero h 1 3 || !(c.warn2 < c.warn1 && c.warn3 < c.warn2 && 0 < c.warn3) ||
      (pool (par h 0 1) s).count / 2 < 8 * c.resLg + c.resEgress + c.resHost then .refuse St.invalidParam
  else staged [] (.pool (par h 0 1) c) s

def specBufPoolConfig : CmdSpec := ⟨28, .config, bufPoolConfig⟩
def execBufPoolConfig (c : Cmd) (s : State) : Res := runCmd 0x0608 specBufPoolConfig c s

/-- `sampler.config` (R259). -/
def samplerConfig (h : HeldCmd) (s : State) : Verdict :=
  let t := par h 8 2
  let r := par h 3 1
  if 4095 < par h 0 2 || 1 < par h 2 1 || (r != 24 && r < 64) || par h 4 4 < 1 || 16777216 < par h 4 4 || t < 64 || 512 < t ||
      t % 64 != 0 || !parZero h 10 2 then .refuse St.invalidParam
  else staged [] (.sampler (par h 0 2) { mode := par h 2 1, reason := r, n := par h 4 4, truncate := t }) s

def specSamplerConfig : CmdSpec := ⟨12, .config, samplerConfig⟩
def execSamplerConfig (c : Cmd) (s : State) : Res := runCmd 0x0609 specSamplerConfig c s

/-- `punt.queue.config` (R262). -/
def puntQueueConfig (h : HeldCmd) (s : State) : Verdict :=
  let t := par h 4 4
  if 4095 < par h 0 2 || !parZero h 2 2 || t % 256 != 0 || t < 65536 || 67108864 < t then .refuse St.invalidParam
  else staged [] (.puntLimit (par h 0 2) t) s

def specPuntQueueConfig : CmdSpec := ⟨8, .config, puntQueueConfig⟩
def execPuntQueueConfig (c : Cmd) (s : State) : Res := runCmd 0x060A specPuntQueueConfig c s

/-- `voq.query` (R265, Table 07-13). -/
def voqQuery (h : HeldCmd) (s : State) : Verdict :=
  let v := par h 0 4
  if 524288 ≤ v then .refuse St.invalidParam
  else
    let q := voq v s
    let st := if (destOf s.cfg v).isNone then 0 else if q.spilled then 2 else 1
    let ts := ((voqAll q).head?.map (·.ts)).getD 0
    .done St.ok (le 1 st ++ le 1 (voqProfileNo v s) ++ zeros 2 ++ le 4 (voqAll q).length ++ le 8 (onDie q) ++
      le 8 (q.segEnd - q.segStart) ++ le 4 (nsOf ts) ++ le 4 (secOf ts)) s

def specVoqQuery : CmdSpec := ⟨4, .query, voqQuery⟩
def execVoqQuery (c : Cmd) (s : State) : Res := runCmd 0x060B specVoqQuery c s

/-- QDM_STATUS (Table 07-14). -/
def qdmStatus (s : State) : Nat :=
  s.qdm.pools.length + b2n s.qdm.spillEnabled * 2 ^ 8 + b2n (hbmWarning s) * 2 ^ 9 + b2n (hbmIsFull s) * 2 ^ 10 + b2n s.qdm.hbmReady * 2 ^ 11

/-- The four registers of a pool; zero beyond the layout in force. -/
def poolWords (p : Nat) (s : State) : List Nat :=
  if p < s.qdm.pools.length then [(pool p s).size, (pool p s).count, sharedFree p s, warnLevel p s] else [0, 0, 0, 0]

/-- `buf.status` (R265, Table 07-16). -/
def bufStatus (_ : HeldCmd) (s : State) : Verdict :=
  .done St.ok (le 4 (qdmStatus s) ++ le 4 (spilledCount s) ++ le 4 (hbmFree s) ++ le 4 (hbmPages s) ++
    le 4 (spillBacklog s / 256) ++ zeros 4 ++ (List.range 7).flatMap (fun p => (poolWords p s).flatMap (le 4))) s

def specBufStatus : CmdSpec := ⟨0, .query, bufStatus⟩
def execBufStatus (c : Cmd) (s : State) : Res := runCmd 0x060C specBufStatus c s

end Sys2Proof.Machine
end

