-- ==== Sys2Proof/Machine/Gates.lean ====
section
/-! DEFINITION. Ports as the schedulers see them, and the time gates (R94 to R96, R279 to R286). Instants are Tempo in units of 10⁻¹² ns. -/

namespace Sys2Proof.Machine
open Sys2Proof

/-- The transmit queue of a class (R95). -/
def txqOf (m : Mac) (cls : Nat) : Nat := bits m.cfg.classToTxq (2 * cls + 1) (2 * cls)

/-- A TXQ's frames. -/
def txq (m : Mac) (q : Nat) : List TxFrame := agetD m.txq q []

/-- A TXQ that holds two frames is full (R95). -/
def txqFull (m : Mac) (q : Nat) : Bool := 2 ≤ (txq m q).length

/-- The partner has paused the port, or a priority, at an elapsed instant (R94). -/
def pausedAt (m : Mac) (cls e : Nat) : Bool :=
  (match m.pausedUntil with
   | some t => e < t
   | none => false) || e < agetD m.pfcPausedUntil cls 0

/-- Time of `n` bytes at a port's speed, in Tempo units. -/
def lineTime (m : Mac) (n : Nat) : Nat := n * 8 * tuPerNs / m.gbps

/-- The gate run of a port or client; without one all gates are open (R279). -/
def gateRun (mac : Nat) (s : State) : GateRun :=
  agetD s.sched.gates mac { list := none, startedAt := 0, gates := 0xFF, pending := none }

/-- Position of an instant in a list's cycle (R282), in Tempo units. -/
def cyclePos (l : GateList) (t : Nat) : Nat :=
  let c := l.cycle * tuPerNs
  (((t : Int) - ((l.base * tuPerNs : Nat) : Int)) % (c : Int)).toNat

/-- GATES of the entry at a position, and the time left in it. -/
def entryAt : List (Nat × Nat) → Nat → Nat × Nat
  | [], _ => (0xFF, tuPerNs)
  | e :: t, p => if p < e.1 * tuPerNs then (e.2, e.1 * tuPerNs - p) else entryAt t (p - e.1 * tuPerNs)

/-- Gates of a list, `none` all open, and the time left. -/
def listGates (l : Option GateList) (t : Nat) : Nat × Nat :=
  match l with
  | none => (0xFF, 1000000000 * tuPerNs)
  | some l => entryAt l.entries (cyclePos l t)

/-- Gates open at an instant, and the time for which they stay so at least: a pending change acts from its start (R285). -/
def gatesAt (g : GateRun) (t : Nat) : Nat × Nat :=
  let now := if g.list.isSome && t < g.startedAt * tuPerNs then (g.gates, g.startedAt * tuPerNs - t) else listGates g.list t
  match g.pending with
  | none => now
  | some (p, l) => if t < p * tuPerNs then (now.1, min now.2 (p * tuPerNs - t)) else listGates l t

/-- Gate `k` is open from an instant for a span: `closed` counts the end of the span in (R283), otherwise not (R284). -/
def openFor (closed : Bool) (g : GateRun) (k : Nat) : Nat → Nat → Nat → Bool
  | 0, _, _ => true
  | fuel + 1, t, len =>
    let (bits, left) := gatesAt g t
    if bit bits k != 1 then false
    else if left < len || (closed && left = len) then openFor closed g k fuel (t + left) (len - left)
    else true

/-- Entries that a span of `len` Tempo units may cross: each lasts 100 ns at least. -/
def spanFuel (len : Nat) : Nat := len / (100 * tuPerNs) + 3

/-- Guard band of a gate in ns: its value, or the time of MAX_FRAME + 20 bytes at the port speed, rounded up (Table 08-3). -/
def guardOf (l : GateList) (k : Nat) (m : Option Mac) : Nat :=
  let g := l.guards.getD k 0
  if g = 0 then (m.map (fun m => (lineTime m (m.cfg.maxFrame + 20) + tuPerNs - 1) / tuPerNs)).getD 0 else g

/-- Gate `k` is open for selection at an instant (R283). -/
def openForSelection (mac k t : Nat) (s : State) : Bool :=
  let g := gateRun mac s
  match g.list with
  | none => true
  | some l =>
    let span := guardOf l k (mac? mac s) * tuPerNs
    openFor true g k (spanFuel span) (t + l.lead * tuPerNs) span

/-- The MAC may start a frame of `len` bytes of gate `k` now (R284). -/
def openForStart (mac k len : Nat) (m : Mac) (s : State) : Bool :=
  let g := gateRun mac s
  let span := lineTime m (len + 20)
  openFor false g k (spanFuel span) s.tempo.now span

/-- First cycle start of a list at or after an instant in ns; BASE when it lies later (R285). -/
def cycleStart (l : GateList) (t : Nat) : Nat :=
  if t ≤ l.base then l.base else l.base + (t - l.base + l.cycle - 1) / l.cycle * l.cycle

end Sys2Proof.Machine
end

