-- ==== Sys2Proof/Machine/Sched.lean ====
section
/-! DEFINITION. The egress hierarchy (R269 to R278): nodes, shapers, eligibility, the choice of a leaf queue, and enqueue. -/

namespace Sys2Proof.Machine
open Sys2Proof

/-- Lane group of a port or client: a client's is that of its group's PHYs (R16, R118). -/
def macGroup (m : Nat) (s : State) : Nat :=
  if m < 128 then m / 10
  else match aget s.flexe.clients (m - 128) with
    | none => 0
    | some c => match aget s.flexe.groups c.group with
      | none => 0
      | some g => ((g.phys.head?.map (·.1)).getD 0) / 10

/-- A leaf queue's node: in the epoch in force, or deleted and served until its release (R272). -/
def leafNode (l : Nat) (s : State) : Option SchedNode :=
  match aget s.cfg.leaves l with
  | some n => some n
  | none => aget s.sched.leaving l

/-- Leaf queues that exist now. -/
def leafIds (s : State) : List Nat := akeys s.cfg.leaves ++ (akeys s.sched.leaving).filter (fun l => !ahas s.cfg.leaves l)

/-- Aggregate, channel and port or client of a leaf queue. -/
def leafPath (l : Nat) (s : State) : Option (Nat × Nat × Nat) :=
  match leafNode l s with
  | none => none
  | some n => match aget s.cfg.aggregates n.parent with
    | none => none
    | some a => (aget s.cfg.channels a.parent).map (fun c => (n.parent, a.parent, c.parent))

/-- The port or client of a leaf queue. -/
def leafMac (l : Nat) (s : State) : Option Nat := (leafPath l s).map (·.2.2)

/-- A leaf queue's packets, oldest first. -/
def leafQueue (l : Nat) (s : State) : List Pkt := agetD s.sched.queues l []

/-- Depth of a leaf queue (R291). -/
def leafDepth (l : Nat) (s : State) : Nat := bytesOf (leafQueue l s)

/-- Set a leaf queue's packets. -/
def setLeaf (l : Nat) (q : List Pkt) (s : State) : State :=
  { s with sched := { s.sched with queues := if q.isEmpty then adel s.sched.queues l else aset s.sched.queues l q } }

/-- Children of a node: level 0 a port node's channels, 1 a channel's aggregates, 2 an aggregate's leaf queues. -/
def childrenOf (level n : Nat) (s : State) : List Nat :=
  match level with
  | 0 => akeys (s.cfg.channels.filter (fun c => c.2.parent == n))
  | 1 => akeys (s.cfg.aggregates.filter (fun a => a.2.parent == n))
  | _ => (leafIds s).filter (fun l => (leafNode l s).any (fun x => x.parent == n))

/-- A node of levels 1 to 3. -/
def nodeOf (level n : Nat) (s : State) : Option SchedNode :=
  match level with
  | 1 => aget s.cfg.channels n
  | 2 => aget s.cfg.aggregates n
  | _ => leafNode n s

/-- The effective rate of a port node in kb/s: its RATE, or the port speed or client size (R278, R290). -/
def effectiveRate (m : Nat) (s : State) : Nat :=
  let r := (portSchedOf s.cfg m).rate
  if r = 0 then ((mac? m s).map (·.gbps)).getD 0 * 1000000 else r

/-- RATE, BURST and OVERHEAD of a node's shaper: a port node with RATE 0 is shaped to the port speed (R278). -/
def shaperCfg (level n : Nat) (s : State) : Nat × Nat × Int :=
  if level = 0 then (effectiveRate n s, (portSchedOf s.cfg n).burst, (portSchedOf s.cfg n).overhead)
  else match nodeOf level n s with
    | some x => (x.rate, x.burst, x.overhead)
    | none => (0, 0, 0)

/-- Units of a shaper's credit in a byte. -/
def creditUnit : Nat := 8000000

/-- A node's shaper; a new node starts with credit 0. -/
def shaper (level n : Nat) (s : State) : Shaper :=
  let t := match level with
    | 0 => s.sched.ports
    | 1 => s.sched.channels
    | 2 => s.sched.aggregates
    | _ => s.sched.leaves
  agetD t n { credit := 0, at' := s.elapsed, deficit := 0 }

/-- Set a node's shaper. -/
def setShaper (level n : Nat) (x : Shaper) (s : State) : State :=
  match level with
  | 0 => { s with sched := { s.sched with ports := aset s.sched.ports n x } }
  | 1 => { s with sched := { s.sched with channels := aset s.sched.channels n x } }
  | 2 => { s with sched := { s.sched with aggregates := aset s.sched.aggregates n x } }
  | _ => { s with sched := { s.sched with leaves := aset s.sched.leaves n x } }

/-- A node holds a packet: some leaf queue beneath it does. -/
def holdsPacket (level n : Nat) (s : State) : Bool :=
  if level = 3 then !(leafQueue n s).isEmpty
  else s.sched.queues.any (fun q => (leafPath q.1 s).any (fun p =>
    match level with
    | 0 => p.2.2 == n
    | 1 => p.2.1 == n
    | _ => p.1 == n))

/-- A port or client in UP. -/
def macUp (m : Nat) (s : State) : Bool := (mac? m s).any (fun x => x.link == .up)

/-- Tempo at an elapsed instant that has passed, at the nominal rate. -/
def tempoAtElapsed (e : Nat) (s : State) : Nat := s.tempo.now - (s.elapsed - e) * tuPerNs

/-- A leaf queue is frozen at an elapsed instant: its gate is closed for selection, its class paused, or its port not in UP (R276). -/
def frozenAt (l m e : Nat) (s : State) : Bool :=
  match leafNode l s, mac? m s with
  | some n, some x => x.link != .up || pausedAt x n.cls e || !openForSelection m n.gate (tempoAtElapsed e s) s
  | _, _ => true

/-- Nothing but the link state can freeze the leaf queues of a port: no gate list, no pause. -/
def neverFrozen (m : Nat) (s : State) : Bool :=
  (gateRun m s).list.isNone && (mac? m s).any (fun x => x.pausedUntil.isNone && x.pfcPausedUntil.isEmpty)

/-- The ns since a leaf queue's shaper was last updated in which it was not frozen. -/
def thawedNs (l frm : Nat) (s : State) : Nat :=
  match leafMac l s with
  | none => 0
  | some m =>
    if neverFrozen m s then (if macUp m s then s.elapsed - frm else 0)
    else (List.range (s.elapsed - frm)).countP (fun k => !frozenAt l m (frm + k) s)

/-- A shaper's credit after `ns` of RATE `rate` (R276, rules 1 and 3). -/
def risen (holds : Bool) (rate burst ns : Nat) (c : Int) : Int :=
  let up := c + ((rate * ns : Nat) : Int)
  if holds then (if c < ((burst * creditUnit : Nat) : Int) then min up ((burst * creditUnit : Nat) : Int) else c)
  else if 0 < c then 0 else min up 0

/-- A leaf queue is frozen now. -/
def frozenNow (l : Nat) (s : State) : Bool :=
  match leafMac l s with
  | none => true
  | some m => frozenAt l m s.elapsed s

/-- Bring a node's shaper up to now. -/
def settle (level n : Nat) (s : State) : State :=
  let x := shaper level n s
  let (rate, burst, _) := shaperCfg level n s
  let ns := if level = 3 then thawedNs n x.at' s else s.elapsed - x.at'
  let c := if rate = 0 then x.credit
    else if level = 3 && ns = 0 && (holdsPacket level n s || frozenNow n s) then x.credit
    else risen (holdsPacket level n s) rate burst ns x.credit
  setShaper level n { x with credit := c, at' := s.elapsed } s

/-- Bring every node on a leaf queue's path up to now. -/
def settlePath (l : Nat) (s : State) : State :=
  match leafPath l s with
  | none => s
  | some (a, c, m) => settle 0 m (settle 1 c (settle 2 a (settle 3 l s)))

/-- Bring every leaf queue of a port or client up to now: its pause, gates or link are about to change. -/
def settleMac (m : Nat) (s : State) : State :=
  ((leafIds s).filter (fun l => leafMac l s == some m)).foldl (fun s l => settlePath l s) s

/-! ### Eligibility (R273) -/

/-- The shaper lets its node be selected. -/
def creditOk (level n : Nat) (s : State) : Bool :=
  (shaperCfg level n s).1 == 0 || 0 ≤ (shaper level n (settle level n s)).credit

/-- The conditions of R273 for a leaf queue, in the order listed. -/
def leafConditions (l : Nat) (s : State) : List Bool :=
  match leafNode l s, leafMac l s with
  | some n, some m =>
    let x := mac? m s
    [!(leafQueue l s).isEmpty, creditOk 3 l s, openForSelection m n.gate (qdNow s) s,
     !(x.any (fun x => txqFull x (txqOf x n.cls))), !(x.any (fun x => pausedAt x n.cls s.elapsed)), macUp m s]
  | _, _ => List.replicate 6 false

/-- A leaf queue, an aggregate, a channel and a port node are eligible. -/
def leafEligible (l : Nat) (s : State) : Bool := (leafConditions l s).all id
def aggregateEligible (a : Nat) (s : State) : Bool := creditOk 2 a s && (childrenOf 2 a s).any (fun l => leafEligible l s)
def channelEligible (c : Nat) (s : State) : Bool := creditOk 1 c s && (childrenOf 1 c s).any (fun a => aggregateEligible a s)
def portEligible (m : Nat) (s : State) : Bool :=
  macUp m s && !standbyPort m s && creditOk 0 m s && (childrenOf 0 m s).any (fun c => channelEligible c s)

/-- A node of a level is eligible. -/
def eligible (level n : Nat) (s : State) : Bool :=
  match level with
  | 0 => portEligible n s
  | 1 => channelEligible n s
  | 2 => aggregateEligible n s
  | _ => leafEligible n s

/-! ### Choice (R274, R275) -/

/-- Children of the highest PRIORITY among those given. -/
def topPriority (level : Nat) (l : List Nat) (s : State) : List Nat :=
  let pr := fun n => ((nodeOf level n s).map (·.prio)).getD 0
  let top := l.foldl (fun t n => max t (pr n)) 0
  l.filter (fun n => pr n == top)

/-- Quantum of a child: WEIGHT × 128 bytes. -/
def quantum (level n : Nat) (s : State) : Nat := ((nodeOf level n s).map (·.weight)).getD 1 * 128

/-- Rounds until a child of deficit `d` and quantum `q` may send. -/
def roundsFor (d : Int) (q : Nat) : Nat := if 0 < d then 0 else ((1 - d).toNat + q - 1) / q

/-- Serve children by deficit round-robin: rounds are added until one has a positive deficit, the first of which is taken. -/
def pickChild (level : Nat) (l : List Nat) (s : State) : Option (Nat × State) :=
  let d := fun n => (shaper level n s).deficit
  let r := (l.map (fun n => roundsFor (d n) (quantum level n s))).foldl min (2 ^ 64)
  let s1 := l.foldl (fun s n => setShaper level n { shaper level n s with deficit := d n + ((r * quantum level n s : Nat) : Int) } s) s
  ((l.find? (fun n => 0 < (shaper level n s1).deficit))).map (fun n => (n, s1))

/-- Descend from a node of `level` to an eligible leaf queue (R274). -/
def descend : Nat → Nat → Nat → State → Option (Nat × State)
  | 0, _, n, s => some (n, s)
  | fuel + 1, level, n, s =>
    let kids := (childrenOf level n s).filter (fun k => eligible (level + 1) k s)
    match pickChild (level + 1) (topPriority (level + 1) kids s) s with
    | none => none
    | some (k, s1) => descend fuel (level + 1) k s1

/-- Credits of a weighted round-robin whose turns cost `cost`: the member that takes the turn, and the credits after it. -/
def wrr (cost : Nat) (l : List (Nat × Nat)) (credits : Assoc Nat) : Option (Nat × Assoc Nat) :=
  let c := fun n => agetD credits n 0
  let r := (l.map (fun p => (cost - c p.1 + p.2 - 1) / max p.2 1)).foldl min (2 ^ 64)
  let credits1 := l.foldl (fun a p => aset a p.1 (c p.1 + r * max p.2 1)) credits
  ((l.find? (fun p => cost ≤ agetD credits1 p.1 0))).map (fun p => (p.1, aset credits1 p.1 (agetD credits1 p.1 0 - cost)))

/-- Charge a selection of `len` bytes to the nodes of its path and their deficits (R274, R276). -/
def charge (l len : Nat) (s : State) : State :=
  let pay := fun level n s =>
    let x := shaper level n s
    let (rate, _, ov) := shaperCfg level n s
    setShaper level n { x with credit := if rate = 0 then x.credit else x.credit - ((len : Int) + ov) * (creditUnit : Int),
                               deficit := if level = 0 then x.deficit else x.deficit - (len : Int) } s
  match leafPath l s with
  | none => s
  | some (a, c, m) => pay 0 m (pay 1 c (pay 2 a (pay 3 l s)))

/-- Drop the head packets of a leaf queue that are over age, charged to nothing (R275, R264). -/
def dropAged (l m : Nat) : List Pkt → State → State
  | [], s => s
  | p :: t, s => if tooOld p.ts s then dropAged l m t (discardLeaf l m 2 St.age p (setLeaf l t s)) else s

/-- One selection in a lane group (R274, R275): the leaf queue and packet, or none. -/
def selectOnce : Nat → Nat → State → Option (Nat × Nat × Pkt) × State
  | 0, _, s => (none, s)
  | fuel + 1, g, s =>
    let ports := (akeys s.macs).filter (fun m => macGroup m s == g && portEligible m s)
    match wrr 1000000 (ports.map (fun m => (m, effectiveRate m s))) s.sched.served with
    | none => (none, s)
    | some (m, served) =>
      match descend 3 0 m { s with sched := { s.sched with served := served } } with
      | none => (none, s)
      | some (l, s1) =>
        let s2 := settlePath l s1
        let s3 := dropAged l m (leafQueue l s2) s2
        match leafQueue l s3 with
        | [] => selectOnce fuel g s3
        | p :: t => (some (l, m, p), charge l p.len (setLeaf l t s3))

/-- A selection: the packet goes to the bridge for its egress pass (R272, R274). -/
def execSchedulerSelection (group : Nat) (s : State) : Res :=
  .next (match selectOnce (s.sched.queues.length + 1) group s with
    | (none, s1) => s1
    | (some (l, m, p), s1) => { s1 with bridge := { s1.bridge with toFd := s1.bridge.toFd ++ [.toEgress m l p] } })

/-! ### Enqueue and flush (R107, R108) -/

/-- A port or client on which a packet is discarded with PORT_DOWN: ADMIN_DOWN, DORMANT, or flushed and not re-announced. -/
def macDown (m : Nat) (s : State) : Bool :=
  match mac? m s with
  | none => true
  | some x => x.link == .adminDown || x.link == .dormant || !x.announced

/-- Enqueue a packet on a leaf queue: counted there, or discarded when its port is down (R256, R263, R363). -/
def enqueueLeaf (l : Nat) (p : Pkt) (s : State) : State :=
  match leafMac l s with
  | none => discardLeaf l 0 3 St.portDown p s
  | some m =>
    if macDown m s then tally (portCtr m 0x178) (discardLeaf l m 3 St.portDown p s)
    else
      let s1 := settlePath l s
      setLeaf l (leafQueue l s1 ++ [p]) (bump (ctrId 20 l 1) p.len (tally (ctrId 20 l 0) s1))

/-- Discard what a port's TXQs hold, counted in port.tx.flush. -/
def flushTxq (m : Nat) (s : State) : Nat × State :=
  match mac? m s with
  | none => (0, s)
  | some x =>
    let fs := (avals x.txq).flatMap id
    (fs.length, fs.foldl (fun s f => tally (portCtr m 0x178) (endPkt f.pkt St.portDown m (dropCause St.portDown s)))
      (updMac m (fun x => { x with txq := [] }) s))

/-- Discard what a port's leaf queues hold, counted in port.tx.flush. -/
def flushLeaves (m : Nat) (s : State) : Nat × State :=
  ((akeys s.sched.queues).filter (fun l => leafMac l s == some m)).foldl (fun a l =>
    let ps := leafQueue l a.2
    (a.1 + ps.length,
     ps.foldl (fun s p => tally (portCtr m 0x178) (discardLeaf l m 3 St.portDown p s)) (setLeaf l [] (settlePath l a.2)))) (0, s)

end Sys2Proof.Machine
end

