-- ==== Sys2Proof/Machine/SchedCmds.lean ====
section
/-! DEFINITION. Scheduling and policer commands (Table 08-8), and policer buckets (R295). -/

namespace Sys2Proof.Machine
open Sys2Proof

/-- A port with a MAC, or a client (R281). -/
def hasMac (m : Nat) (s : State) : Bool := (mac? m s).any (fun x => !x.cfg.flexePhy)

/-- RATE of a shaper: 0, or 8 to 4,000,000,000 kb/s (R277). -/
def rateOk (r : Nat) : Bool := r == 0 || (8 ≤ r && r ≤ 4000000000)

/-- OVERHEAD from −64 to +64. -/
def overheadOk (b : Nat) : Bool := -64 ≤ signed 8 b && signed 8 b ≤ 64

/-- `sched.port.config` (R278). -/
def schedPortConfig (h : HeldCmd) (s : State) : Verdict :=
  let m := par h 0 2
  if !hasMac m s || !parZero h 2 2 || !rateOk (par h 4 4) || 16777215 < par h 8 4 || !overheadOk (par h 12 1) || !parZero h 13 3 then
    .refuse St.invalidParam
  else staged [] (.portSched m { rate := par h 4 4, burst := par h 8 4, overhead := signed 8 (par h 12 1) }) s

def specSchedPortConfig : CmdSpec := ⟨16, .config, schedPortConfig⟩
def execSchedPortConfig (c : Cmd) (s : State) : Res := runCmd 0x0701 specSchedPortConfig c s

/-- A node's settings from `sched.node.set` (Table 08-2), zeros replaced by the defaults (R270). -/
def nodeParam (h : HeldCmd) : SchedNode :=
  let leaf := par h 0 1 == 3
  { prio := par h 1 1, weight := par h 2 2, parent := par h 8 4, cls := par h 12 1,
    gate := if leaf && par h 13 1 == 0 then par h 12 1 else par h 13 1,
    overhead := if par h 14 1 = 0 then 20 else signed 8 (par h 14 1), rate := par h 16 4, burst := par h 20 4,
    grantStop := if leaf && par h 24 4 == 0 then 262144 else par h 24 4 }

/-- Nodes of a level (Table 08-1). -/
def nodeCount : Nat → Nat
  | 1 => 2048
  | 2 => 16384
  | _ => 131072

/-- A node of levels 1 to 3 in an epoch. -/
def nodeIn (c : Conf) (level n : Nat) : Option SchedNode :=
  match level with
  | 1 => aget c.channels n
  | 2 => aget c.aggregates n
  | _ => aget c.leaves n

/-- The port or client above a node of an epoch; a leaf queue served until its release keeps its own. -/
def nodePortIn (c : Conf) (level parent : Nat) : Option Nat :=
  match level with
  | 1 => some parent
  | 2 => (aget c.channels parent).map (·.parent)
  | _ => match aget c.aggregates parent with
    | none => none
    | some a => (aget c.channels a.parent).map (·.parent)

/-- A port or client as DEST of Table 05-5 encodes it. -/
def destEncoded (m : Nat) : Bool := m < 80 || (128 ≤ m && m < 256)

/-- PARENT is out of range for its LEVEL (Table 08-2). -/
def parentBad (level p : Nat) : Bool :=
  match level with
  | 1 => !destEncoded p
  | _ => nodeCount (level - 1) ≤ p

/-- The form checks of `sched.node.set` (R271). -/
def nodeBad (h : HeldCmd) : Bool :=
  let level := par h 0 1
  parentBad level (par h 8 4) ||
  level < 1 || 3 < level || 7 < par h 1 1 || par h 2 2 < 1 || 4095 < par h 2 2 || nodeCount level ≤ par h 4 4 ||
  7 < par h 12 1 || 7 < par h 13 1 || !overheadOk (par h 14 1) || !parZero h 15 1 || !rateOk (par h 16 4) || 16777215 < par h 20 4 ||
  !parZero h 28 4 ||
  (if level == 3 then par h 24 4 != 0 && (par h 24 4 % 256 != 0 || par h 24 4 < 4096 || 16777216 < par h 24 4)
   else par h 12 1 != 0 || par h 13 1 != 0 || par h 24 4 != 0)

/-- A node's parent exists in the next epoch. -/
def parentNext (level p : Nat) (s : State) : Bool :=
  match level with
  | 1 => hasMac p s
  | 2 => ahas (nextConf s).channels p
  | _ => ahas (nextConf s).aggregates p

/-- The change that sets or removes a node. -/
def nodeChange (level n : Nat) (x : Option SchedNode) : Change :=
  match level with
  | 1 => .channel n x
  | 2 => .aggregate n x
  | _ => .leaf n x

/-- `sched.node.set` (R270, R271). -/
def schedNodeSet (h : HeldCmd) (s : State) : Verdict :=
  let level := par h 0 1
  let n := par h 4 4
  let x := nodeParam h
  let next := nextConf s
  let moved := (nodeIn next level n).any (fun o => nodePortIn next level o.parent != nodePortIn next level x.parent)
  if nodeBad h then .refuse St.invalidParam
  else if !parentNext level x.parent s then .refuse St.noSuchId
  else if moved then .refuse St.invalidParam
  else if level == 3 && (setRefused 4 n s).isSome then .refuse St.idQuarantined
  else staged [] (nodeChange level n (some x)) s

def specSchedNodeSet : CmdSpec := ⟨32, .config, schedNodeSet⟩
def execSchedNodeSet (c : Cmd) (s : State) : Res := runCmd 0x0702 specSchedNodeSet c s

/-- Leaf queues that the next epoch lacks and an epoch before it has, with their node there: their commit quarantines them (R55). -/
def leavesFreed (s : State) : Assoc SchedNode :=
  let next := nextConf s
  ((s.cfg :: sealedConfs s).foldl (fun t c => c.leaves.foldl (fun t l => aset t l.1 l.2) t) []).filter (fun l => !ahas next.leaves l.1)

/-- A channel or aggregate has a child in the next epoch, a quarantined leaf queue counted until its release (R272). -/
def hasChild (level n : Nat) (s : State) : Bool :=
  match level with
  | 1 => (avals (nextConf s).aggregates).any (fun a => a.parent == n)
  | _ => (avals (nextConf s).leaves ++ avals s.sched.leaving ++ avals (leavesFreed s)).any (fun l => l.parent == n)

/-- A leaf queue is named by a destination's leaf range or a Peal target list of the next epoch (R272). -/
def leafNamed (l : Nat) (s : State) : Bool :=
  (avals (nextConf s).dests).any (fun d => destLocal d s && d.leafBase ≤ l && l < d.leafBase + 8) ||
  (avals (nextConf s).pealLists).any (fun ts => ts.any (fun t => bits t 16 0 == l))

/-- `sched.node.delete` (R272). -/
def schedNodeDelete (h : HeldCmd) (s : State) : Verdict :=
  let level := par h 0 1
  let n := par h 4 4
  if level < 1 || 3 < level || !parZero h 1 3 || nodeCount level ≤ n then .refuse St.invalidParam
  else if (nodeIn (nextConf s) level n).isNone then .refuse St.notFound
  else if level < 3 && hasChild level n s then .refuse St.nodeInUse
  else if level == 3 && leafNamed n s then .refuse St.idInUse
  else staged [] (nodeChange level n none) s

def specSchedNodeDelete : CmdSpec := ⟨8, .config, schedNodeDelete⟩
def execSchedNodeDelete (c : Cmd) (s : State) : Res := runCmd 0x0703 specSchedNodeDelete c s

/-- `gate.list.set` (R280, R281); a LEAD or GUARD written as zero takes its default (Table 08-3; log 34). -/
def gateListSet (h : HeldCmd) (s : State) : Verdict :=
  let m := par h 0 2
  let n := par h 2 2
  let guards := (List.range 8).map (fun k => par h (24 + 4 * k) 4)
  if n < 1 || 256 < n || par h 4 4 < 10000 || 1000000000 < par h 4 4 || 281474976710656 ≤ par h 8 8 || 999999999 < par h 16 4 ||
      100000 < par h 20 4 || guards.any (fun g => 1000000 < g) || !hasMac m s then .refuse St.invalidParam
  else match h.data with
    | none => .refuse St.dmaError
    | some b =>
      let es := (List.range n).map (fun k => (rd b (8 * k) 4, rd b (8 * k + 4) 1))
      if (List.range n).any (fun k => rd b (8 * k + 5) 3 != 0) || es.any (fun e => e.1 < 100) ||
          es.foldl (fun a e => a + e.1) 0 != par h 4 4 then .refuse St.invalidParam
      else staged [] (.gateList m (some { cycle := par h 4 4, base := par h 8 8 * 1000000000 + par h 16 4,
                                          lead := if par h 20 4 = 0 then 1000 else par h 20 4, guards := guards, entries := es })) s

def specGateListSet : CmdSpec := ⟨64, .config, gateListSet⟩
def execGateListSet (c : Cmd) (s : State) : Res := runCmd 0x0706 specGateListSet c s

/-- `gate.list.clear` (R281). -/
def gateListClear (h : HeldCmd) (s : State) : Verdict :=
  let m := par h 0 2
  if !parZero h 2 2 || !destEncoded m then .refuse St.invalidParam
  else if !liveOrStaged (fun c => ahas c.gateLists m) s then .refuse St.notFound
  else staged [] (.gateList m none) s

def specGateListClear : CmdSpec := ⟨4, .config, gateListClear⟩
def execGateListClear (c : Cmd) (s : State) : Res := runCmd 0x0707 specGateListClear c s

/-- `credit.config` (R292). -/
def creditConfig (h : HeldCmd) (s : State) : Verdict :=
  let b := if par h 0 4 = 0 then 4096 else par h 0 4
  let r := if par h 4 2 = 0 then 1056 else par h 4 2
  if b % 256 != 0 || b < 256 || 65536 < b || r < 1024 || 1280 < r || !parZero h 6 2 then .refuse St.invalidParam
  else staged [] (.credit b r) s

def specCreditConfig : CmdSpec := ⟨8, .config, creditConfig⟩
def execCreditConfig (c : Cmd) (s : State) : Res := runCmd 0x0708 specCreditConfig c s

/-- `credit.peal.set` (R293). -/
def creditPealSet (h : HeldCmd) (s : State) : Verdict :=
  let d := par h 0 2
  let rates := (List.range 8).map (fun k => par h (4 + 4 * k) 4)
  if !parZero h 2 2 || !(aget (nextConf s).dests d).any (fun x => x.kind == 2 && x.endpoint == s.fab.endpoint) then .refuse St.invalidParam
  else staged [] (.creditPeal d rates) s

def specCreditPealSet : CmdSpec := ⟨36, .config, creditPealSet⟩
def execCreditPealSet (c : Cmd) (s : State) : Res := runCmd 0x0709 specCreditPealSet c s

/-! ### Policers (R294 to R297) -/

def policerEnabled (p : PolicerCfg) : Bool := bit p.flags 0 == 1
def policerPackets (p : PolicerCfg) : Bool := bit p.flags 1 == 1

/-- Bucket units of one byte or one packet: RATE adds RATE units a nanosecond. -/
def policerUnit (p : PolicerCfg) : Nat := if policerPackets p then 1000000000 else creditUnit

/-- A policer's bucket as it stands now (R295). -/
def policerNow (n : Nat) (s : State) : Bucket :=
  let p := policerOf s.cfg n
  fillBucket (aget s.fwd.policers n) (p.burst * policerUnit p) p.rate s.elapsed

/-- Offer a packet of `len` bytes to a policer: whether it conforms (R295, R297). -/
def police (n len : Nat) (s : State) : Bool × State :=
  let p := policerOf s.cfg n
  let pass := fun (s : State) => (true, bump (ctrId 26 n 1) len (tally (ctrId 26 n 0) s))
  if !policerEnabled p then pass s
  else
    let b := policerNow n s
    let cost := if policerPackets p then policerUnit p else (((len : Int) + p.overhead).toNat) * policerUnit p
    if cost ≤ b.level then
      pass { s with fwd := { s.fwd with policers := aset s.fwd.policers n { b with level := b.level - cost } } }
    else
      (false, bump (ctrId 26 n 3) len (tally (ctrId 26 n 2)
        { s with fwd := { s.fwd with policers := aset s.fwd.policers n b } }))

/-- `policer.config` (R294). -/
def policerConfig (h : HeldCmd) (s : State) : Verdict :=
  let packets := bit (par h 4 1) 1 == 1
  let burst := if par h 12 4 = 0 then (if packets then 1 else 64) else par h 12 4
  if 524288 ≤ par h 0 4 || 3 < par h 4 1 || !overheadOk (par h 5 1) || !parZero h 6 2 ||
      (if packets then 2000000000 else 4000000000) < par h 8 4 || 16777215 < burst || (!packets && burst < 64) then .refuse St.invalidParam
  else staged [] (.policer (par h 0 4) { flags := par h 4 1, overhead := signed 8 (par h 5 1), rate := par h 8 4, burst := burst }) s

def specPolicerConfig : CmdSpec := ⟨16, .config, policerConfig⟩
def execPolicerConfig (c : Cmd) (s : State) : Res := runCmd 0x070A specPolicerConfig c s

/-! ### Queries -/

/-- ELIGIBLE of Table 08-11. -/
def eligibleBits (level n : Nat) (s : State) : Nat :=
  let b := fun k (x : Bool) => b2n x * 2 ^ k
  if level = 3 then
    let c := leafConditions n s
    (List.range 6).foldl (fun a k => a + b k (c.getD k false)) 0 + b 31 (leafEligible n s)
  else
    let kids := (childrenOf level n s).any (fun k => eligible (level + 1) k s)
    let m := if level = 0 then some n else nodePortIn s.cfg level (((nodeOf level n s).map (·.parent)).getD 0)
    b 0 kids + b 1 (creditOk level n s) + b 5 (m.any (fun m => macUp m s)) + b 31 (eligible level n s)

/-- SETTINGS of Table 08-11. -/
def nodeSettings (level n : Nat) (x : SchedNode) : List Byte :=
  le 1 level ++ le 1 x.prio ++ le 2 x.weight ++ le 4 n ++ le 4 x.parent ++ le 1 x.cls ++ le 1 x.gate ++ le 1 (unsignedOf 8 x.overhead) ++
  zeros 1 ++ le 4 x.rate ++ le 4 x.burst ++ le 4 x.grantStop ++ zeros 4

/-- A node as the port knows it: in force, served until release, or in the next epoch. -/
def nodeKnown (level n : Nat) (s : State) : Option SchedNode :=
  if level = 0 then
    if hasMac n s then
      let p := portSchedOf s.cfg n
      some { prio := 0, weight := 0, parent := 0, cls := 0, gate := 0, overhead := p.overhead, rate := p.rate, burst := p.burst, grantStop := 0 }
    else none
  else match nodeOf level n s with
    | some x => some x
    | none => nodeIn (nextConf s) level n

/-- Shaper credit in bytes, rounded down. -/
def creditBytesOf (level n : Nat) (s : State) : Int := (shaper level n (settle level n s)).credit / (creditUnit : Int)

/-- `sched.query` (R298, Table 08-11). -/
def schedQuery (h : HeldCmd) (s : State) : Verdict :=
  let level := par h 0 1
  let n := par h 4 4
  if 3 < level || !parZero h 1 3 || (if level = 0 then !destEncoded n else decide (nodeCount level ≤ n)) then .refuse St.invalidParam
  else match nodeKnown level n s with
    | none => .refuse St.notFound
    | some x =>
      let q := if level = 3 then leafQueue n s else []
      let ts := (q.head?.map (·.ts)).getD 0
      .done St.ok (nodeSettings level n x ++ le 4 (if level = 0 then effectiveRate n s else 0) ++ le 4 (eligibleBits level n s) ++
        le 8 (unsignedOf 64 (creditBytesOf level n s)) ++ le 1 (if level = 3 then idState 4 n s else 0) ++ zeros 3 ++ le 4 q.length ++
        le 8 (bytesOf q) ++ le 4 (nsOf ts) ++ le 4 (secOf ts)) s

def specSchedQuery : CmdSpec := ⟨8, .query, schedQuery⟩
def execSchedQuery (c : Cmd) (s : State) : Res := runCmd 0x070B specSchedQuery c s

/-- `policer.query` (R297, Table 08-10). -/
def policerQuery (h : HeldCmd) (s : State) : Verdict :=
  let n := par h 0 4
  let p := policerOf s.cfg n
  if 524288 ≤ n then .refuse St.invalidParam
  else .done St.ok (le 4 n ++ le 1 p.flags ++ le 1 (unsignedOf 8 p.overhead) ++ zeros 2 ++ le 4 p.rate ++ le 4 p.burst ++
    le 8 ((policerNow n s).level * 256 / policerUnit p) ++ (List.range 4).flatMap (fun k => le 8 (ctr (ctrId 26 n k) s))) s

def specPolicerQuery : CmdSpec := ⟨4, .query, policerQuery⟩
def execPolicerQuery (c : Cmd) (s : State) : Res := runCmd 0x070C specPolicerQuery c s

end Sys2Proof.Machine
end

