-- ==== Sys2Proof/Machine/Switch.lean ====
section
/-! DEFINITION. A change of epoch (R48 to R58, R163, R171, R231, R260, R272, R276, R285, R295): what the switch at a downbeat does to the state that hangs on the configuration. -/

namespace Sys2Proof.Machine
open Sys2Proof

/-- Keys whose entries differ between two tables. -/
def changedKeys {α : Type} [DecidableEq α] (a b : Assoc α) : List Nat :=
  (distinct (akeys a ++ akeys b)).filter (fun k => decide (aget a k ≠ aget b k))

/-- Keys of the first table that the second lacks. -/
def goneKeys {α : Type} (a b : Assoc α) : List Nat := (akeys a).filter (fun k => !ahas b k)

/-! ### Before the switch: state brought up to now under the old values -/

/-- Limiters whose reason changes keep their tokens (R160). -/
def settleLimiters (new : Conf) (s : State) : State :=
  (changedKeys s.cfg.exceptions new.exceptions).foldl (fun s r =>
    let b := limiterNow r s
    { s with fwd := { s.fwd with limiters := aset s.fwd.limiters r { b with level := min b.level ((excOf new r).burst * oneToken) } } }) s

/-- A policer's bucket after a change: filled when it is enabled, otherwise its value, capped (R295). -/
def policerAfter (old new : PolicerCfg) (b : Bucket) : Bucket :=
  let top := new.burst * policerUnit new
  if !policerEnabled old && policerEnabled new then { b with level := top }
  else { b with level := min top (b.level * policerUnit new / policerUnit old) }

/-- Policers that change (R295). -/
def settlePolicers (new : Conf) (s : State) : State :=
  (changedKeys s.cfg.policers new.policers).foldl (fun s n =>
    let b := policerAfter (policerOf s.cfg n) (policerOf new n) (policerNow n s)
    { s with fwd := { s.fwd with policers := aset s.fwd.policers n b } }) s

/-- A sampler's countdown; it is N where nothing has touched it (R260). -/
def samplerNow (n : Nat) (s : State) : Nat := agetD s.fwd.samplers n (samplerOf s.cfg n).n

/-- Samplers that change: N after a change of MODE, otherwise the smaller of the countdown and the new N (R260). -/
def settleSamplers (new : Conf) (s : State) : State :=
  (changedKeys s.cfg.samplers new.samplers).foldl (fun s k =>
    let o := samplerOf s.cfg k
    let n := samplerOf new k
    let c := if o.mode != n.mode then n.n else if o.n = n.n then samplerNow k s else min (samplerNow k s) n.n
    { s with fwd := { s.fwd with samplers := aset s.fwd.samplers k c } }) s

/-- Shapers of a level whose settings change. -/
def shapersChanged (level : Nat) (new : Conf) (s : State) : List Nat :=
  match level with
  | 0 => changedKeys s.cfg.portScheds new.portScheds
  | 1 => changedKeys s.cfg.channels new.channels
  | 2 => changedKeys s.cfg.aggregates new.aggregates
  | _ => changedKeys s.cfg.leaves new.leaves

/-- Bring up to now every shaper that has moved: each rises under its old settings until here. -/
def settleShapers (s : State) : State :=
  let all := fun (level : Nat) (t : Assoc Shaper) (s : State) => (akeys t).foldl (fun s n => settle level n s) s
  all 3 s.sched.leaves (all 2 s.sched.aggregates (all 1 s.sched.channels (all 0 s.sched.ports s)))

/-- BURST of a node in an epoch; a node that is absent has none. -/
def burstIn (level n : Nat) (c : Conf) : Option Nat :=
  match level with
  | 0 => some (portSchedOf c n).burst
  | 1 => (aget c.channels n).map (·.burst)
  | 2 => (aget c.aggregates n).map (·.burst)
  | _ => (aget c.leaves n).map (·.burst)

/-- Changed shapers hold at most the new BURST (R276). -/
def capShapers (level : Nat) (l : List Nat) (s : State) : State :=
  l.foldl (fun s n => match burstIn level n s.cfg with
    | some b => setShaper level n { shaper level n s with credit := min (shaper level n s).credit ((b * creditUnit : Nat) : Int) } s
    | none => s) s

/-- Nodes that cease to exist lose their shapers; a freed leaf queue keeps its own until its release (R272). -/
def dropShapers (old new : Conf) (s : State) : State :=
  { s with sched := { s.sched with
      channels := (goneKeys old.channels new.channels).foldl adel s.sched.channels,
      aggregates := (goneKeys old.aggregates new.aggregates).foldl adel s.sched.aggregates } }

/-! ### Identifiers -/

/-- Identifiers of a kind of Table 06-15 that an epoch allocates. -/
def idsOf (kind : Nat) (c : Conf) : List Nat :=
  match kind with
  | 0 => akeys c.nextHops
  | 1 => akeys c.ecmp
  | 2 => akeys c.templates
  | 3 => (akeys c.dests).flatMap (fun d => (List.range 8).map (fun k => 8 * d + k))
  | 4 => akeys c.leaves
  | _ => akeys c.pealLists

/-- Quarantine marks after a switch: identifiers that vanish are marked, identifiers that are live lose their mark (R55, R58). -/
def remark (old new : Conf) (d : Nat) (s : State) : State :=
  (List.range 6).foldl (fun s kind =>
    let live := idsOf kind new
    let q1 := s.quar.filter (fun m => !(m.1 / 1048576 == kind && live.contains (m.1 % 1048576)))
    let q2 := ((idsOf kind old).filter (fun id => !live.contains id)).foldl (fun q id =>
      aset q (quarKey kind id)
        { freedBy := d, freedAt := s.elapsed, age := new.maxAge, postponed := 0,
          hop := if kind = 0 then aget old.nextHops id else none,
          template := if kind = 2 then aget old.templates id else none,
          peal := if kind = 5 then aget old.pealLists id else none,
          slots := if kind = 1 then ((aget old.ecmp id).getD []).length else 0 }) q1
    { s with quar := q2 }) s

/-- Every mark counts the largest maximum age since it was set (R55). -/
def raiseAges (age : Nat) (s : State) : State :=
  { s with quar := s.quar.map (fun m => (m.1, { m.2 with age := max m.2.age age })) }

/-- Leaf queues that a release still has to free stay attached (R272). -/
def leaveLeaves (old new : Conf) (s : State) : State :=
  let kept := s.sched.leaving.filter (fun p => !ahas new.leaves p.1)
  { s with sched := { s.sched with
      leaving := (goneKeys old.leaves new.leaves).foldl (fun t l =>
        match aget old.leaves l with
        | some n => aset t l n
        | none => t) kept } }

/-- VOQs of removed destinations keep the settings of their profile in the last epoch that had them (R231). -/
def keepProfiles (old new : Conf) (s : State) : State :=
  (goneKeys old.dests new.dests).foldl (fun s d =>
    (List.range 8).foldl (fun s k =>
      updVoq (8 * d + k) (fun q => { q with
        lastProfile := ((aget old.dests d).map (fun x => x.profiles.getD k 0)).getD 0,
        lastSettings := (aget old.dests d).map (fun x => voqProfileOf old (x.profiles.getD k 0)),
        lastEndpoint := ((aget old.dests d).map (·.endpoint)).getD 0 }) s) s) s

/-! ### Gates, grid, Muffle, TCAM -/

/-- A change of a port's list waits for its start S (R285): `t` is the downbeat's instant. -/
def pendGate (new : Conf) (t mac : Nat) (s : State) : State :=
  let run := gateRun mac s
  let pend := match aget new.gateLists mac, run.list with
    | some l, _ => some (cycleStart l t, some l)
    | none, some old => some (cycleStart old t, none)
    | none, none => none
  { s with sched := { s.sched with gates := aset s.sched.gates mac { run with pending := pend } } }

/-- A new period makes the downbeat the anchor (R44). The model's choice (log 54): a period equal to the one in force is not new, and at the
return of a reverted commit the downbeat of the return is the anchor of the period restored. -/
def anchorGrid (old new : Conf) (d t : Nat) (s : State) : State :=
  if old.grid = new.grid then s else { s with tempo := { s.tempo with anchor := d, anchorAt := t } }

/-- The parse configuration changes, so that every ingress pipeline Muffles (R163). -/
def parseChanged (old new : Conf) : Bool :=
  decide (old.layout ≠ new.layout ∨ old.profiles ≠ new.profiles ∨ old.selects ≠ new.selects ∨ old.classMaps ≠ new.classMaps)

/-- Begin the Muffle (R163, R164). -/
def muffle (s : State) : State :=
  tally (ctrId 12 0 0) { s with fwd := { s.fwd with muffled := 255, muffledAt := s.elapsed } }

/-- Entries of a table whose place the new values no longer hold, or hold for something else. -/
def left {α : Type} (place : α → Nat) (old new : Assoc α) : List (Nat × α) :=
  old.filter (fun e => !((aget new e.1).any (fun n => place n == place e.2)))

/-- The marks of entries that stay at their place. -/
def staying {α : Type} (place : α → Nat) (old new : Assoc α) (marks : Assoc Unit) : Assoc Unit :=
  marks.filter (fun m => ahas new m.1 && !((left place old new).any (fun e => e.1 == m.1)))

/-- Entries no longer in force are RETIRED for 10 µs at least, unless a return frees them; one that is live again is not (R171). -/
def retire {α : Type} (place : α → Nat) (back : Bool) (old new : Assoc α) (e : Nat) (l : List (Nat × α × Nat)) : List (Nat × α × Nat) :=
  l.filter (fun r => !((aget new r.1).any (fun n => place n == place r.2.1)) && decide (e < r.2.2)) ++
    (if back then [] else (left place old new).map (fun r => (r.1, r.2, e + 10000)))

/-- The TCAM entries at a switch; `back`: the return of a reverted commit, whose NEW entries are FREE at once (Table 05-10). -/
def retireEntries (back : Bool) (old new : Conf) (s : State) : State :=
  { s with fwd := { s.fwd with
      retired := retire (·.index) back old.rules new.rules s.elapsed s.fwd.retired,
      retiredSel := retire (·.index) back old.selects new.selects s.elapsed s.fwd.retiredSel,
      removed := staying (·.index) old.rules new.rules s.fwd.removed,
      removedSel := staying (·.index) old.selects new.selects s.fwd.removedSel,
      missing := staying (·.index) old.rules new.rules s.fwd.missing,
      missingSel := staying (·.index) old.selects new.selects s.fwd.missingSel } }

/-! ### The switch -/

/-- Put a configuration in force at downbeat `d`, whose instant is `t` ns: the next pass, admission, enqueue and selection use it (R48 to
R50); `back`: it is the return of a reverted commit. -/
def switchTo (back : Bool) (new : Conf) (d t : Nat) (s : State) : State :=
  let old := s.cfg
  let s1 := settleShapers (settleSamplers new (settlePolicers new (settleLimiters new s)))
  let changed := (List.range 4).map (fun level => shapersChanged level new s1)
  let s2 := keepProfiles old new (leaveLeaves old new s1)
  let s3 := { s2 with cfg := new }
  let s4 := (List.range 4).foldl (fun s level => capShapers level (changed.getD level []) s) s3
  let s5 := retireEntries back old new (anchorGrid old new d t (raiseAges new.maxAge (remark old new d (dropShapers old new s4))))
  let s6 := (changedKeys old.gateLists new.gateLists).foldl (fun s m => pendGate new t m s) s5
  let s7 := if parseChanged old new then muffle s6 else s6
  reportLevels s7

/-- Free one quarantined identifier: a VOQ's and a leaf queue's remaining packets are discarded with cause AGE (R231, R272). -/
def releaseId (key : Nat) (s : State) : State :=
  let kind := key / 1048576
  let id := key % 1048576
  let s1 := { s with quar := adel s.quar key }
  if kind = 3 then
    let q := voq id s1
    let s2 := setSegment id 0 0 s1
    let s3 := if q.spilled then tally (ctrId 19 id 4) s2 else s2
    checkHbmIdle ((voqAll q).foldl (fun s p => discardVoq id St.age p s) { s3 with qdm := { s3.qdm with voqs := adel s3.qdm.voqs id } })
  else if kind = 4 then
    let ps := leafQueue id s1
    let mac := (leafMac id s1).getD 0
    let s2 := ps.foldl (fun s p => discardLeaf id mac 2 St.age p s) s1
    let s3 := { s2 with sched := { s2.sched with
                  leaving := adel s2.sched.leaving id, leaves := adel s2.sched.leaves id, queues := adel s2.sched.queues id } }
    if ps.isEmpty then s3 else raiseEvent Ev.leafReleased 0 id ps.length s3
  else s1

/-- At a downbeat every mark whose time has come ends (R55). -/
def releaseQuarantine (s : State) : State :=
  (s.quar.filter (fun m => quarEnd m.2 ≤ s.elapsed)).foldl (fun s m => releaseId m.1 s) s

/-- `MUFFLE_END`: the new parse configuration is in force; the longest hold is recorded (R163, R164). -/
def execMuffleEnd (s : State) : Res :=
  .next (if s.fwd.muffled = 0 then s
    else raiseMax (ctrId 12 0 1) (s.elapsed - s.fwd.muffledAt) { s with fwd := { s.fwd with muffled := 0 } })

end Sys2Proof.Machine
end

