-- ==== Sys2Proof/Machine/FabricBase.lean ====
section
/-! DEFINITION. Fabric units, lanes and spraying (R302 to R313, R319, R322 to R324, R329, Tables 09-4 to 09-12). -/

namespace Sys2Proof.Machine
open Sys2Proof

/-! ### Units -/

/-- A header from its bits 127:16, with HCRC (R308). -/
def header (v : Nat) : List Byte :=
  let b := be 14 v
  b ++ be 2 (crc16 b)

/-- Bits of a unit's header. -/
def hdr (u : List Byte) (hi lo : Nat) : Nat := bits (rdBe u 0 16) hi lo

/-- A field at its place in a header without HCRC. -/
def at' (v lo : Nat) : Nat := v * 2 ^ (lo - 16)

/-- Defined TYPE, and PLEN of a CELL (Table 09-4, R308). -/
def typeDefined (u : List Byte) : Bool :=
  let t := hdr u 127 124
  (t ≤ 4 && !(t == 1 && 13 < hdr u 119 116)) || (8 ≤ t && t ≤ 10)

/-- A header that checks (R306). -/
def headerGood (u : List Byte) : Bool := 16 ≤ u.length && rdBe u 14 2 == crc16 (u.take 14) && typeDefined u

/-- REQUEST (Table 09-8). -/
def requestUnit (cls dst src dest need : Nat) : List Byte :=
  header (at' 2 124 + at' cls 120 + at' dst 100 + at' src 88 + at' dest 72 + at' need 48)

/-- GRANT (Table 09-9); `cause` 0: a grant, otherwise DENY. -/
def grantUnit (cls units dst src dest cause : Nat) : List Byte :=
  header (at' 3 124 + at' (b2n (cause != 0)) 123 + at' cls 120 + at' units 112 + at' dst 100 + at' src 88 + at' dest 72 + at' cause 68)

/-- ANNOUNCE (Table 09-10). -/
def announceUnit (bcast up : Bool) (dst src dest gen : Nat) : List Byte :=
  header (at' 4 124 + at' (b2n bcast) 123 + at' (b2n up) 122 + at' dst 100 + at' src 88 + at' dest 72 + at' gen 56)

/-- FC (R313). -/
def fcUnit (xoff : Bool) : List Byte := header (at' 10 124 + at' (b2n xoff) 123)

/-- One CELL (Table 09-5). -/
def cellUnit (first last dual planeB : Bool) (pad dst src dest cls seq : Nat) (payload : List Byte) : List Byte :=
  header (at' 1 124 + at' (b2n first) 123 + at' (b2n last) 122 + at' (b2n dual) 121 + at' (b2n planeB) 120 +
    at' (payload.length / 16 - 3) 116 + at' pad 112 + at' dst 100 + at' src 88 + at' dest 72 + at' cls 69 + at' seq 48 +
    at' (crc32c payload) 16) ++ payload

/-! ### Lanes -/

/-- A lane on which nothing has happened: DISABLED. -/
def idleLane : FabLane :=
  { state := .disabled, xoffRx := false, xoffTx := false, miswire := false, peerKind := 0, peerEndpoint := 0, peerLane := 0,
    peerElement := 0, failures := 0, confirms := 0, consistentSince := none, lastLink := 0, chunks := [], waiting := 0,
    cellRun := 0, search := none }

/-- A fabric lane. -/
def fabLane (n : Nat) (s : State) : FabLane := agetD s.fab.lanes n idleLane

/-- Change a fabric lane. -/
def updLane (n : Nat) (f : FabLane → FabLane) (s : State) : State :=
  { s with fab := { s.fab with lanes := aset s.fab.lanes n (f (fabLane n s)) } }

/-- The plane of a lane: PLANE_B in ELEMENT mode, the last eight lanes of a slot in MESH mode (R300, R332). -/
def lanePlane (n : Nat) (s : State) : Nat := if s.fab.mode = 2 then b2n (8 ≤ n % 16) else bit s.fab.planeB n

/-- Lanes in UP. -/
def upLanes (s : State) : List Nat := (akeys s.fab.lanes).filter (fun n => (fabLane n s).state == .up)

/-- Endpoints that a lane reaches (R319): its map's fresh chunks, or in MESH mode the endpoint of its LINK. -/
def laneReaches (n : Nat) (s : State) : List Nat :=
  let l := fabLane n s
  if l.state != .up then []
  else if s.fab.mode = 2 then [l.peerEndpoint]
  else (l.chunks.filter (fun c => s.elapsed < c.2.2 + 3000000)).flatMap (fun c =>
    ((List.range 64).filter (fun k => bit c.2.1 k == 1)).map (fun k => 64 * c.1 + k))

/-- UP lanes that reach an endpoint. -/
def lanesTo (ep : Nat) (s : State) : List Nat := (upLanes s).filter (fun n => (laneReaches n s).contains ep)

/-- An endpoint is reachable: the own one, or through some lane (R302, R319). -/
def reaches (ep : Nat) (s : State) : Bool := ep == s.fab.endpoint || !(lanesTo ep s).isEmpty

/-- An endpoint is reachable in a plane. -/
def reachesIn (ep plane : Nat) (s : State) : Bool := (lanesTo ep s).any (fun n => lanePlane n s == plane)

/-- Bytes that wait on a lane, from the instant at which they have gone. -/
def laneBacklog (n : Nat) (s : State) : Nat := (fabLane n s).waiting - 25 * s.elapsed

/-- The lane of fewest waiting bytes; a tie goes to the lane that follows the one chosen last (R323). -/
def pickLane (l : List Nat) (s : State) : Option Nat :=
  let low := (l.map (fun n => laneBacklog n s)).foldl min (2 ^ 64)
  let ties := l.filter (fun n => laneBacklog n s == low)
  match ties.find? (fun n => s.fab.lastLane < n) with
  | some n => some n
  | none => ties.head?

/-- An IDLE unit (Table 09-4). -/
def idleUnit : List Byte := header 0

/-- Put a unit on a lane (R304): units follow one another without gaps, IDLE units fill what lies between, and one stands between two
cells and a third where no other unit does. -/
def putUnit (n : Nat) (u : List Byte) (s : State) : State :=
  let l := fabLane n s
  let idle := (25 * s.elapsed - l.waiting + 15) / 16
  let cell := hdr u 127 124 == 1
  let run := if 0 < idle then 0 else l.cellRun
  let s1 := if 0 < idle then emit (.fabricIdle n idle) s else s
  let between := cell && run == 2
  let s2 := if between then emit (.fabric n idleUnit) s1 else s1
  emit (.fabric n u) (updLane n (fun l => { l with
    waiting := max l.waiting (25 * s.elapsed) + u.length + (if between then 16 else 0),
    cellRun := if !cell then 0 else if between then 1 else run + 1 }) s2)

/-- Send a cell or an end-to-end message on the lane chosen for it (R323). -/
def sendOn (n : Nat) (u : List Byte) (s : State) : State :=
  let s1 := putUnit n u s
  { s1 with fab := { s1.fab with lastLane := n } }

/-- Send an end-to-end control message: to the loop, or on a lane that reaches its endpoint; none reaches it: it is not sent (R323, R334). -/
def sendControl (ep : Nat) (u : List Byte) (s : State) : State :=
  if ep = s.fab.endpoint then { s with fab := { s.fab with loop := s.fab.loop ++ [u] } }
  else match pickLane (lanesTo ep s) s with
    | some n => sendOn n u s
    | none => s

/-- Send LINK on a lane (R313). -/
def sendLink (n : Nat) (s : State) : State :=
  let l := fabLane n s
  if l.state == .disabled then s
  else
    let ready := (l.state == .check || l.state == .up) && !s.prot.hold
    putUnit n (header (at' 8 124 + at' (b2n ready) 122 + at' (lanePlane n s) 121 + at' n 113 + at' (b2n (s.fab.mode == 2)) 112 +
      at' s.fab.endpoint 100 + at' s.fab.systemId 52)) s

/-- Send FC on a lane (R313, R328). -/
def sendFc (n : Nat) (xoff : Bool) (s : State) : State :=
  putUnit n (fcUnit xoff) (updLane n (fun l => { l with xoffTx := xoff }) s)

/-! ### Cells (R310, R322, R329) -/

/-- Payload lengths of fabric data of `n` bytes (R310). -/
def payloadLens (n : Nat) : List Nat :=
  let full := n / 256
  let r := n % 256
  let q := (r + 15) / 16 * 16
  if r = 0 then List.replicate full 256
  else if 48 ≤ q || full = 0 then List.replicate full 256 ++ [max q 48]
  else List.replicate (full - 1) 256 ++ [256 - (48 - q), 48]

/-- A byte string cut into pieces of given lengths, the last filled with zeros. -/
def cutInto : List Nat → List Byte → List (List Byte)
  | [], _ => []
  | n :: t, b => fit n b :: cutInto t (b.drop n)

/-- The packet header of Table 09-6 and, when needed, the edit extension of Table 09-7. -/
def fabricHead (p : Pkt) : List Byte :=
  let ext := p.pop != 0 || p.decTtl || !p.writes.isEmpty
  let ns := secOf p.ts * 1000000000 + nsOf p.ts
  let h := be 12 (b2n ext * 2 ^ 95 + b2n p.ecn * 2 ^ 94 + p.profile % 512 * 2 ^ 85 + p.encap.getD 0 % 524288 * 2 ^ 66 +
    p.nh.getD 0 % 1048576 * 2 ^ 46 + ns % 2 ^ 31 * 32768 + fracOf p.ts / 2)
  let w := fun k => p.writes.getD k (0, 0)
  if ext then
    h ++ be 1 (p.pop * 64 + b2n p.decTtl * 32 + p.writes.length * 8) ++ be 1 (w 0).1 ++ be 1 (w 1).1 ++ zeros 1 ++
      be 4 (w 0).2 ++ be 4 (w 1).2 ++ zeros 4
  else h

/-- The cells' payloads of a packet. -/
def payloadsOf (p : Pkt) : List (List Byte) :=
  let d := fabricHead p ++ p.bytes
  cutInto (payloadLens d.length) d

/-- PAD of a packet (R310). -/
def padOf (p : Pkt) : Nat :=
  let n := (fabricHead p ++ p.bytes).length
  (payloadLens n).foldl (· + ·) 0 - n

/-- Next SEQ of a stream sent. -/
def nextSeq (key : Nat) (s : State) : Nat := agetD s.fab.txSeq key 0

/-- Send one cell copy in a plane (`none`: any), lanes under XOFF left out unless nothing else is left (R323). -/
def sprayCell (ep : Nat) (plane : Option Nat) (u : List Byte) (s : State) : State :=
  let reach := (lanesTo ep s).filter (fun n => plane.all (fun p => lanePlane n s == p))
  let free := reach.filter (fun n => !(fabLane n s).xoffRx)
  match pickLane (if free.isEmpty then reach else free) s with
  | some n => sendOn n u (tally (laneCtr n 0x100) s)
  | none => s

/-- Send one cell of a packet: one copy, or one in each plane for a dual-path class (R329). -/
def sendCell (ep dest cls : Nat) (dual first last : Bool) (pad : Nat) (payload : List Byte) (s : State) : State :=
  let key := ep * 2 + b2n dual
  let seq := nextSeq key s
  let unit := fun b => cellUnit first last dual b pad ep s.fab.endpoint dest cls seq payload
  let s1 := { s with fab := { s.fab with txSeq := aset s.fab.txSeq key ((seq + 1) % 2097152) } }
  if ep = s.fab.endpoint then { s1 with fab := { s1.fab with loop := s1.fab.loop ++ [unit false] } }
  else if !dual then sprayCell ep none (unit false) s1
  else if reachesIn ep 0 s1 && reachesIn ep 1 s1 then sprayCell ep (some 1) (unit true) (sprayCell ep (some 0) (unit false) s1)
  else tally (fabCtr 0x120) (sprayCell ep none (unit (reachesIn ep 1 s1)) s1)

/-- Send a packet's cells in consecutive SEQ (R310, R322). -/
def sendCells (ep : Nat) (p : Pkt) (dual : Bool) (s0 : State) : State :=
  let ps := payloadsOf p
  let s := match p.peal with
    | some l => if ep = s0.fab.endpoint then
        { s0 with fab := { s0.fab with loopPeal := aset s0.fab.loopPeal ((ep * 2 + b2n dual) * 2097152 + nextSeq (ep * 2 + b2n dual) s0) l } }
      else s0
    | none => s0
  (List.range ps.length).foldl (fun s k =>
    let last := k + 1 == ps.length
    sendCell ep p.dest p.cls dual (k == 0) last (if last then padOf p else 0) (ps.getD k []) s) s

/-- A lane under XOFF may start no cell (R323): the packet waits when every lane of some copy's plane is under XOFF. -/
def canSpray (ep : Nat) (dual : Bool) (s : State) : Bool :=
  let free := fun (plane : Option Nat) => (lanesTo ep s).any (fun n => plane.all (fun p => lanePlane n s == p) && !(fabLane n s).xoffRx)
  ep == s.fab.endpoint ||
  (if dual && reachesIn ep 0 s && reachesIn ep 1 s then free (some 0) && free (some 1) else free none)

/-! ### The reorder store (R328) -/

/-- XOFF above 65 % of the store, its end below 55 %. -/
def reorderFc (s : State) : State :=
  if !s.fab.xoffSent && 65 * 8388608 < 100 * s.fab.reorderFill then
    (upLanes s).foldl (fun s n => sendFc n true s) { s with fab := { s.fab with xoffSent := true } }
  else if s.fab.xoffSent && 100 * s.fab.reorderFill < 55 * 8388608 then
    (upLanes s).foldl (fun s n => sendFc n false s) { s with fab := { s.fab with xoffSent := false } }
  else s

end Sys2Proof.Machine
end

