-- ==== Sys2Proof/Machine/Credit.lean ====
section
/-! DEFINITION. Credit (R289 to R293, R314 to R318, R321): requests, grants and denials at the source and at the destination. -/

namespace Sys2Proof.Machine
open Sys2Proof

/-! ### At the source -/

/-- The endpoint that holds a VOQ's destination: of its epoch, or of the last epoch that had it (R229, R231). -/
def voqEndpoint (v : Nat) (s : State) : Nat :=
  match destOf s.cfg v with
  | some d => d.endpoint
  | none => (voq v s).lastEndpoint

/-- A VOQ exists: configured, or freed and not yet released (R228, R231). -/
def voqExists (v : Nat) (s : State) : Bool := (destOf s.cfg v).isSome || quarantined 3 v s

/-- NEED of R315. -/
def needOf (q : Voq) : Nat := if 0 < depth q then ((depth q : Int) - q.credit).toNat else 0

/-- The maximum age in ns. -/
def maxAgeNs (s : State) : Nat := s.cfg.maxAge * 1000000

/-- A VOQ is age-drained (R321): its endpoint has been unreachable, or its DEST withdrawn, for the maximum age. -/
def ageDrained (v : Nat) (s : State) : Bool :=
  let ep := voqEndpoint v s
  (!reaches ep s && agetD s.fab.unreachable ep 0 + maxAgeNs s ≤ s.elapsed) ||
  (match aget s.fab.withdrawn (v / 8) with
   | some w => w.1 + maxAgeNs s ≤ s.elapsed
   | none => false)

/-- Requests of the VOQ are stopped: its endpoint unreachable, a DENY with NO_DEST within 10 ms, or age-drained (R315, R317, R321). -/
def mayRequest (v : Nat) (s : State) : Bool :=
  reaches (voqEndpoint v s) s && !(voq v s).denyUntil.any (fun t => s.elapsed < t) && !ageDrained v s

/-- Send a REQUEST with the VOQ's NEED; ASKED becomes what it says (R315, Table 09-8). -/
def sendRequest (v : Nat) (s : State) : State :=
  let units := min ((needOf (voq v s) + 255) / 256) 0xFFFFFF
  let ep := voqEndpoint v s
  sendControl ep (requestUnit (v % 8) ep s.fab.endpoint (v / 8) units)
    (updVoq v (fun q => { q with asked := ((units * 256 : Nat) : Int), lastReq := some s.elapsed }) s)

/-- Send a REQUEST when R315 asks for one at once. -/
def askIf (v : Nat) (s : State) : State :=
  let q := voq v s
  let need := needOf q
  if mayRequest v s &&
      ((0 < need && q.asked ≤ 0) || (65536 : Int) ≤ (need : Int) - q.asked || (need == 0 && 0 < q.asked)) then sendRequest v s
  else s

/-- An empty VOQ holds no positive credit; what it drops is counted (R314). -/
def settleCredit (v : Nat) (s : State) : State :=
  let q := voq v s
  if depth q = 0 && 0 < q.credit then bump (fabCtr 0x140) q.credit.toNat (updVoq v (fun q => { q with credit := 0 }) s)
  else s

/-- A VOQ's depth or credit has changed: credit of an empty queue is dropped, and a REQUEST may be due. -/
def voqMoved (v : Nat) (s : State) : State := askIf v (settleCredit v s)

/-- Add the credit of a GRANT (R314, R315). -/
def addCredit (v n : Nat) (s : State) : State :=
  let s1 := updVoq v (fun q => { q with credit := q.credit + (n : Int), asked := q.asked - (n : Int), lastGrant := some s.elapsed }) s
  let excess := (voq v s1).credit - 131072
  let s2 := if 0 < depth (voq v s1) && 0 < excess then
      bump (fabCtr 0x148) excess.toNat (updVoq v (fun q => { q with credit := 131072 }) s1)
    else s1
  voqMoved v s2

/-- DEST is withdrawn, or its withdrawal is refreshed (R320). -/
def withdrawDest (d : Nat) (s : State) : State :=
  let since := ((aget s.fab.withdrawn d).map (·.1)).getD s.elapsed
  { s with fab := { s.fab with withdrawn := aset s.fab.withdrawn d (since, s.elapsed) } }

/-- A GRANT, or a DENY, arrives at the source (R314, R317, R318). -/
def onGrant (u : List Byte) (s : State) : State :=
  let v := hdr u 87 72 * 8 + hdr u 122 120
  let n := if hdr u 119 112 = 0 then 65536 else hdr u 119 112 * 256
  if hdr u 111 100 != s.fab.endpoint then s
  else if hdr u 123 123 = 1 then
    if !voqExists v s then s
    else if hdr u 71 68 = 2 then withdrawDest (v / 8) s
    else if hdr u 71 68 = 1 then
      raiseEvent Ev.fabricDestMismatch (hdr u 99 88) (v / 8) 0 (updVoq v (fun q => { q with denyUntil := some (s.elapsed + 10000000) }) s)
    else s
  else if voqExists v s then addCredit v n s
  else bump (fabCtr 0x140) n s

/-- The hold-off of a DENY with NO_DEST ends (R317). -/
def execDenyHoldoffEnd (v : Nat) (s : State) : Res :=
  .next (match (voq v s).denyUntil with
    | none => s
    | some t =>
      let s1 := advanceTo t s
      askIf v (updVoq v (fun q => { q with denyUntil := none }) s1))

/-- The re-request of R315: 10 ms since the later of the last REQUEST and the last GRANT. -/
def execRerequest (v : Nat) (s : State) : Res :=
  let q := voq v s
  let last := max (q.lastReq.getD 0) (q.lastGrant.getD 0)
  .next (if needOf q = 0 || !reaches (voqEndpoint v s) s then s
    else
      let s1 := advanceTo (last + 10000000) s
      if mayRequest v s1 then tally (fabCtr 0x130) (sendRequest v s1) else s1)

/-! ### At the destination -/

/-- The destination is held at this endpoint (R289). -/
def heldHere (d : Nat) (s : State) : Option Dest :=
  match aget s.cfg.dests d with
  | some x => if (x.kind == 0 || x.kind == 2) && x.endpoint == s.fab.endpoint then some x else none
  | none => none

/-- Key of a requesting source in the request store (R316). -/
def reqKey (d cls ep : Nat) : Nat := (d * 8 + cls) * 4096 + ep

/-- Set what a source wants; a value of zero or below wants nothing. -/
def setWanted (key : Nat) (n : Int) (s : State) : State :=
  { s with fab := { s.fab with requests := if 0 < n then aset s.fab.requests key n else adel s.fab.requests key } }

/-- Refuse a REQUEST (R317). -/
def sendDeny (cls src d cause : Nat) (s : State) : State :=
  sendControl src (grantUnit cls 0 src s.fab.endpoint d cause) s

/-- A REQUEST arrives at the destination (R316, R317). -/
def onRequest (u : List Byte) (s : State) : State :=
  let cls := hdr u 122 120
  let src := hdr u 99 88
  let d := hdr u 87 72
  let n := hdr u 71 48 * 256
  if hdr u 111 100 != s.fab.endpoint then s
  else match heldHere d s with
    | none => sendDeny cls src d 1 s
    | some x =>
      if x.kind = 0 && !(mac? x.localPort s).any (·.announced) then sendDeny cls src d 2 s
      else if 0 < n && !ahas s.fab.requests (reqKey d cls src) && 2097152 ≤ s.fab.requests.length then tally (fabCtr 0x138) s
      else setWanted (reqKey d cls src) (n : Int) s

/-- Source endpoints that want credit of a destination and class, rising. -/
def wanting (d cls : Nat) (s : State) : List Nat :=
  (akeys s.fab.requests).filterMap (fun k => if k / 4096 = d * 8 + cls then some (k % 4096) else none)

/-- The next source in round-robin (R290). -/
def nextSource (d cls : Nat) (s : State) : Option Nat :=
  let l := wanting d cls s
  match aget s.fab.lastGranted (d * 8 + cls) with
  | some p => match l.find? (fun e => p < e) with
    | some e => some e
    | none => l.head?
  | none => l.head?

/-- Conditions that stop every grant of the package (R291, R328, R470). -/
def grantsStopped (s : State) : Bool :=
  (poolIds s).any (fun p => 2 ≤ warnLevel p s && (poolCfg p s).resEgress < (pool p s).used.getD consumerEgress 0) || 4194304 < s.fab.reorderFill || s.prot.hold

/-- The rate of a grant turn's bucket in its units: kb/s × RATIO (R290). -/
def grantUnitCost (s : State) : Nat := s.cfg.creditBytes * creditUnit * 1024

/-- Take one grant from a rate bucket that holds one grant at most. -/
def takeTokens (key rate : Nat) (s : State) : Option State :=
  let cost := grantUnitCost s
  let b := fillBucket (aget s.sched.grantTokens key) cost rate s.elapsed
  if cost ≤ b.level then
    some { s with sched := { s.sched with grantTokens := aset s.sched.grantTokens key { b with level := b.level - cost } } }
  else none

/-- Send one GRANT of CREDIT_BYTES for a destination and class (R289, R316). -/
def issueGrant (d cls : Nat) (s : State) : State :=
  match nextSource d cls s with
  | none => s
  | some ep =>
    let left := agetD s.fab.requests (reqKey d cls ep) 0 - (s.cfg.creditBytes : Int)
    let s1 := setWanted (reqKey d cls ep) left { s with fab := { s.fab with lastGranted := aset s.fab.lastGranted (d * 8 + cls) ep } }
    sendControl ep (grantUnit cls (s.cfg.creditBytes / 256 % 256) ep s.fab.endpoint d 0) s1

/-- Destination and class of each leaf queue that port or client `x` may grant now (R290, R291). -/
def grantable (x : Nat) (s : State) : List (Nat × Nat × Nat) :=
  (s.cfg.dests.filter (fun p => p.2.kind == 0 && p.2.endpoint == s.fab.endpoint && p.2.localPort == x)).flatMap (fun p =>
    (List.range 8).filterMap (fun c =>
      let l := p.2.leafBase + c
      let ok := match leafNode l s, mac? x s with
        | some n, some m => !pausedAt m c s.elapsed && leafDepth l s < n.grantStop
        | _, _ => false
      if ok && !(wanting p.1 c s).isEmpty then some (l, p.1, c) else none))

/-- One grant for a port or client: its leaf queue by PRIORITY and WEIGHT, charged CREDIT_BYTES (R290). -/
def grantPort (x : Nat) (s : State) : State :=
  let l := grantable x s
  if grantsStopped s || !(mac? x s).any (fun m => m.link == .up && m.announced) then s
  else match pickChild 3 (topPriority 3 (distinct (l.map (·.1))) s) s with
    | none => s
    | some (leaf, s1) =>
      match l.find? (fun p => p.1 == leaf), takeTokens x (effectiveRate x s * s.cfg.creditRatio) s1 with
      | some (_, d, c), some s2 =>
        issueGrant d c (setShaper 3 leaf { shaper 3 leaf s2 with
          deficit := (shaper 3 leaf s2).deficit - (s.cfg.creditBytes : Int) } s2)
      | _, _ => s

/-- One grant for a PEAL_RX destination and class, at its rate (R293). -/
def grantPeal (d cls : Nat) (s : State) : State :=
  match heldHere d s with
  | some x =>
    let rate := (creditPealOf s.cfg d).getD cls 0
    if x.kind != 2 || grantsStopped s || rate = 0 || (wanting d cls s).isEmpty then s
    else match takeTokens (256 + d * 8 + cls) (rate * 1024) s with
      | some s1 => issueGrant d cls s1
      | none => s
  | none => s

/-- `GRANT_ISSUE`: a turn of the egress credit scheduler (R290, R293). -/
def execGrantIssue (turn : GrantTurn) (s : State) : Res :=
  .next (match turn with
    | .port x => grantPort x s
    | .peal d c => grantPeal d c s)

end Sys2Proof.Machine
end

