-- ==== Sys2Proof/Machine/Reach.lean ====
section
/-! DEFINITION. Fabric lanes and reachability (R300 to R307, R313, R319, R320, R324, R333, R336, R337, R477): lane states, LINK, REACH, FC, ANNOUNCE, and the fabric commands. -/

namespace Sys2Proof.Machine
open Sys2Proof

/-! ### Reachability (R319, R320, R329) -/

/-- Endpoints reachable now. -/
def reachableNow (s : State) : List Nat := distinct (s.fab.endpoint :: (upLanes s).flatMap (fun n => laneReaches n s))

/-- Discard the reorder state of the streams from an endpoint: the next cell accepted sets SEQ again (R302, R477). -/
def dropStreams (ep : Nat) (s : State) : State :=
  let gone := [ep * 2, ep * 2 + 1].filterMap (fun k => aget s.fab.streams k)
  let bytes := gone.foldl (fun n (x : Stream) => n + (avals x.cells).foldl (fun n c => n + c.payload.length) 0) 0
  reorderFc { s with fab := { s.fab with
    streams := adel (adel s.fab.streams (ep * 2)) (ep * 2 + 1), reorderFill := s.fab.reorderFill - bytes } }

/-- VOQs whose destination lies at an endpoint. -/
def voqsAt (ep : Nat) (s : State) : List Nat := (akeys s.qdm.voqs).filter (fun v => voqEndpoint v s == ep)

/-- An endpoint becomes unreachable (R320, R477). -/
def endpointLost (ep : Nat) (s : State) : State :=
  raiseEvent Ev.fabricUnreachable ep 0 0 (dropStreams ep
    { s with fab := { s.fab with reachable := adel s.fab.reachable ep, unreachable := aset s.fab.unreachable ep s.elapsed } })

/-- An endpoint becomes reachable: its VOQs with a need ask at once, and one whose need has gone takes its REQUEST back (R315, R320). -/
def endpointGained (ep : Nat) (s : State) : State :=
  let s1 := raiseEvent Ev.fabricReachable ep 0 0
    { s with fab := { s.fab with reachable := aset s.fab.reachable ep (), unreachable := adel s.fab.unreachable ep } }
  (voqsAt ep s1).foldl (fun s v => if 0 < needOf (voq v s) && mayRequest v s then sendRequest v s else askIf v s) s1

/-- Endpoints reachable in one plane only (R329). -/
def onePlane (s : State) : List Nat :=
  (reachableNow s).filter (fun ep => ep != s.fab.endpoint && (reachesIn ep 0 s != reachesIn ep 1 s))

/-- Look at reachability again after a change: events, re-requests, exposed endpoints. -/
def lookReach (s : State) : State :=
  let now := reachableNow s
  let s1 := ((akeys s.fab.reachable).filter (fun e => !now.contains e)).foldl (fun s e => endpointLost e s) s
  let s2 := (now.filter (fun e => !ahas s.fab.reachable e)).foldl (fun s e => endpointGained e s) s1
  let one := onePlane s2
  let s3 := (one.filter (fun e => !ahas s2.fab.exposed e)).foldl (fun s e =>
    raiseEvent Ev.fabricDualExposed e (b2n (reachesIn e 1 s)) 0 s) s2
  { s3 with fab := { s3.fab with exposed := one.foldl (fun t e => aset t e ()) [] } }

/-! ### Lane states (Table 09-3) -/

/-- Peer of a lane as events carry it. -/
def lanePeer (n : Nat) (s : State) : Nat × Nat :=
  let l := fabLane n s
  (l.peerKind * 2147483648 + (if l.peerKind = 1 then l.peerElement else l.peerEndpoint), l.peerLane)

/-- A lane leaves UP: unusable, counted, reported; XOFF ends (R307, R324). -/
def leftUp (n : Nat) (s : State) : State :=
  let p := lanePeer n s
  lookReach (raiseEvent Ev.fabricLaneDown n p.1 p.2 (tally (laneCtr n 0x130) (updLane n (fun l => { l with xoffRx := false, xoffTx := false }) s)))

/-- Move a lane to a state. -/
def moveLane (n : Nat) (st : LaneState) (s : State) : State :=
  let was := (fabLane n s).state
  let s1 := updLane n (fun l => { l with state := st, failures := 0, confirms := 0, search := none, consistentSince := none }) s
  let slot := n / 16
  let alone := !(upLanes s1).any (fun m => m / 16 == slot)
  let s1 := if was == .up && st != .up && alone then
      { s1 with fab := { s1.fab with slotPeer := adel s1.fab.slotPeer slot } } else s1
  let s1 := if was == .disabled then updLane n (fun l => { l with waiting := 25 * s.elapsed }) s1 else s1
  let s2 := if was == .up && st != .up then leftUp n s1 else s1
  let ready := fun (x : LaneState) => x == .check || x == .up
  if st != .disabled && (ready was != ready st || was == .down) then sendLink n s2 else s2

/-- The fifth consecutive failure returns a lane to HUNT, an earlier one starts the search over the next 34 blocks; in HUNT the candidate
is rejected (R306, R307). -/
def headerFailure (n : Nat) (s : State) : State :=
  let s1 := tally (laneCtr n 0x110) s
  let l := fabLane n s1
  if l.state == .check || l.state == .up then
    if 5 ≤ l.failures + 1 then moveLane n .hunt s1
    else updLane n (fun l => { l with failures := l.failures + 1, search := some 34 }) s1
  else updLane n (fun l => { l with confirms := 0 }) s

/-- A header that does not check: at an expected position it is a failure; in the search after one it is a block boundary passed over,
and the last of the 34 is a further failure (R306). -/
def headerMissed (n : Nat) (s : State) : State :=
  match (fabLane n s).search with
  | some k => if k ≤ 1 then headerFailure n s else updLane n (fun l => { l with search := some (k - 1) }) s
  | none => headerFailure n s

/-- A header that checks in HUNT: the candidate, its first confirmation, or the second, which takes the lane to CHECK; protection may
hold it back (R306, R470). -/
def headerInHunt (n : Nat) (s : State) : State :=
  if 2 ≤ (fabLane n s).confirms && !s.prot.hold then moveLane n .check s
  else updLane n (fun l => { l with confirms := min 2 (l.confirms + 1) }) s

/-- A unit arrives on a lane, or on the internal loop as lane 112 (R17, R306): whether it is one of the row's TYPE to act on. A unit of
another TYPE, IDLE among them, only shows a header that checks. -/
def unitArrives (n typ : Nat) (u : List Byte) (s : State) : Bool × State :=
  if n = 112 then
    if s.fab.loop.contains u && hdr u 127 124 = typ then (true, { s with fab := { s.fab with loop := s.fab.loop.erase u } }) else (false, s)
  else
    let st := (fabLane n s).state
    let good := headerGood u
    if st == .hunt then (false, if good then headerInHunt n s else headerFailure n s)
    else if !(st == .check || st == .up) then (false, s)
    else if !good then (false, headerMissed n s)
    else (hdr u 127 124 == typ && (st == .up || 8 ≤ typ), updLane n (fun l => { l with failures := 0, search := none }) s)

/-- A row that carries one unit. -/
def onUnit (n typ : Nat) (u : List Byte) (act : List Byte → State → State) (s : State) : Res :=
  let (ok, s1) := unitArrives n typ u s
  .next (if ok then act u s1 else s1)

def execRequest (lane : Nat) (unit : List Byte) (s : State) : Res := onUnit lane 2 unit onRequest s
def execGrant (lane : Nat) (unit : List Byte) (s : State) : Res := onUnit lane 3 unit onGrant s
def execDeny (lane : Nat) (unit : List Byte) (s : State) : Res := onUnit lane 3 unit onGrant s

/-- `UNIT_HEADER_FAILURE` (R306). -/
def execUnitHeaderFailure (lane : Nat) (s : State) : Res := .next (headerFailure lane s)

/-- `FABRIC_LANE_ALIGNED`: PCS aligned and FEC locked. -/
def execFabricLaneAligned (lane : Nat) (s : State) : Res :=
  .next (if (fabLane lane s).state == .down then moveLane lane .hunt s else s)

/-- `SECOND_CONFIRMATION`: delineation is done; a lane held by protection stays in HUNT (R306, R470). -/
def execSecondConfirmation (lane : Nat) (s : State) : Res :=
  .next (if (fabLane lane s).state == .hunt && !s.prot.hold then moveLane lane .check s else s)

/-- `FABRIC_LANE_LOSS`: alignment or lock lost. -/
def execFabricLaneLoss (lane : Nat) (s : State) : Res :=
  let st := (fabLane lane s).state
  .next (if st == .hunt || st == .check || st == .up then moveLane lane .down s else s)

/-- The peer that a lane's LINK names is the one its mesh slot has (R333). -/
def slotAgrees (n ep : Nat) (s : State) : Bool := s.fab.mode != 2 || (aget s.fab.slotPeer (n / 16)).all (fun p => p == ep)

/-- A lane comes UP; the first of a mesh slot gives the slot its peer (R333). -/
def laneUp (n : Nat) (s : State) : State :=
  let named := s.fab.mode == 2 && !ahas s.fab.slotPeer (n / 16)
  let s0 := moveLane n .up (if named then
    { s with fab := { s.fab with slotPeer := aset s.fab.slotPeer (n / 16) (fabLane n s).peerEndpoint } } else s)
  let s1 := if s0.fab.xoffSent then sendFc n true s0 else s0
  let p := lanePeer n s1
  lookReach (raiseEvent Ev.fabricLaneUp n p.1 p.2 s1)

/-- A LINK is consistent (R313, R333). -/
def linkConsistent (n : Nat) (u : List Byte) (s : State) : Bool :=
  let ep := hdr u 111 100
  hdr u 83 52 == s.fab.systemId && hdr u 121 121 == lanePlane n s &&
  (if s.fab.mode = 1 then hdr u 123 123 == 1
   else hdr u 123 123 == 0 && hdr u 112 112 == 1 && ep != s.fab.endpoint && slotAgrees n ep s)

/-- LINK arrives (Table 09-3). -/
def onLink (n : Nat) (u : List Byte) (s : State) : State :=
  let ok := linkConsistent n u s
  let ready := hdr u 122 122 == 1
  let was := fabLane n s
  let s1 := updLane n (fun l => { l with
    peerKind := hdr u 123 123, peerEndpoint := hdr u 111 100, peerLane := hdr u 120 113, peerElement := hdr u 99 84, lastLink := s.elapsed }) s
  if !ok then
    let s2 := updLane n (fun l => { l with miswire := true, consistentSince := none }) s1
    let s3 := if was.miswire then s2
      else raiseEvent Ev.fabricMiswire n (hdr u 83 52) (hdr u 111 100 + hdr u 121 121 * 65536) s2
    if was.state == .up then moveLane n .check s3 else s3
  else if was.state == .up then (if ready then s1 else moveLane n .check s1)
  else if !ready then updLane n (fun l => { l with consistentSince := none }) s1
  else match was.consistentSince with
    | none => updLane n (fun l => { l with consistentSince := some s.elapsed }) s1
    | some t => if t + 1000000 ≤ s.elapsed then laneUp n s1 else s1

def execLink (lane : Nat) (unit : List Byte) (s : State) : Res :=
  if lane = 112 then .next s else onUnit lane 8 unit (onLink lane) s

/-- `LINK_SEND`: every 50 µs (R313). -/
def execLinkSend (lane : Nat) (s : State) : Res := .next (sendLink lane s)

/-- `FABRIC_LANE_CONFIRMED`: LINK has been consistent with READY 1 for 1 ms. -/
def execFabricLaneConfirmed (lane : Nat) (s : State) : Res :=
  let l := fabLane lane s
  .next (match l.consistentSince with
    | some t => if l.state == .check && slotAgrees lane l.peerEndpoint s then laneUp lane (advanceTo (t + 1000000) s) else s
    | none => s)

/-- `LINK_SILENCE`: no valid LINK for 200 µs takes a lane out of UP. -/
def execLinkSilence (lane : Nat) (s : State) : Res :=
  let l := fabLane lane s
  .next (if l.state == .up then moveLane lane .check (advanceTo (l.lastLink + 200000) s) else s)

/-- REACH: a chunk of a lane's map; ignored outside ELEMENT mode (R319, R333). -/
def onReach (n : Nat) (u : List Byte) (s : State) : State :=
  if s.fab.mode != 1 then s
  else
    let m := hdr u 111 48
    let map := (List.range 64).foldl (fun b k => b + bit m (63 - k) * 2 ^ k) 0
    lookReach (updLane n (fun l => { l with chunks := aset l.chunks (hdr u 123 118) (map, s.elapsed) }) s)

def execReach (lane : Nat) (unit : List Byte) (s : State) : Res :=
  if lane = 112 then .next s else onUnit lane 9 unit (onReach lane) s

/-- `REACH_CHUNK_EXPIRY`: a chunk not refreshed within 3 ms reads as zero (R319). -/
def execReachChunkExpiry (lane chunk : Nat) (s : State) : Res :=
  .next (match aget (fabLane lane s).chunks chunk with
    | none => s
    | some c =>
      let s1 := advanceTo (c.2 + 3000000) s
      lookReach (updLane lane (fun l => { l with chunks := adel l.chunks chunk }) s1))

/-- FC: XOFF and its end, in CHECK as in UP (R307, R324). -/
def onFc (n : Nat) (u : List Byte) (s : State) : State :=
  let x := hdr u 123 123 == 1
  let s1 := updLane n (fun l => { l with xoffRx := x }) s
  if x then tally (laneCtr n 0x138) s1 else s1

def execFc (lane : Nat) (unit : List Byte) (s : State) : Res :=
  if lane = 112 then .next s else onUnit lane 10 unit (onFc lane) s

/-! ### ANNOUNCE (R320) -/

/-- Destinations held by a local port or client. -/
def destsOn (m : Nat) (s : State) : List Nat :=
  (s.cfg.dests.filter (fun p => p.2.kind == 0 && p.2.endpoint == s.fab.endpoint && p.2.localPort == m)).map (·.1)

/-- A DEST's withdrawal ends: its VOQs ask where R315 says so. -/
def restoreDest (d : Nat) (s : State) : State :=
  ((List.range 8).filter (fun c => ahas s.qdm.voqs (8 * d + c))).foldl (fun s c => askIf (8 * d + c) s)
    { s with fab := { s.fab with withdrawn := adel s.fab.withdrawn d } }

/-- A DEST is withdrawn, or reachable again, as an ANNOUNCE says. -/
def applyAnnounce (up : Bool) (d : Nat) (s : State) : State := if up then restoreDest d s else withdrawDest d s

/-- ANNOUNCE arrives: applied when its GEN is newer; an unchanged withdrawal is refreshed (R320). -/
def onAnnounce (u : List Byte) (s : State) : State :=
  let src := hdr u 99 88
  let d := hdr u 87 72
  let gen := hdr u 71 56
  let up := hdr u 122 122 == 1
  let key := src * 65536 + d
  let last := aget s.fab.applied key
  let diff := match last with
    | none => 1
    | some g => (gen + 65536 - g) % 65536
  if hdr u 123 123 = 0 && hdr u 111 100 != s.fab.endpoint then s
  else if 0 < diff && diff < 32768 then applyAnnounce up d { s with fab := { s.fab with applied := aset s.fab.applied key gen } }
  else if diff = 0 && !up && ahas s.fab.withdrawn d then withdrawDest d s
  else s

def execAnnounce (lane : Nat) (unit : List Byte) (s : State) : Res := onUnit lane 4 unit onAnnounce s

/-- Mesh peers that an ANNOUNCE is copied to. -/
def meshPeers (s : State) : List Nat := distinct ((upLanes s).flatMap (fun n => laneReaches n s))

/-- Messages that an ANNOUNCE makes on the lanes. -/
def announceCount (s : State) : Nat := if s.fab.mode = 2 then (meshPeers s).length else 1

/-- Send an ANNOUNCE: broadcast to the elements, or a copy to each mesh peer; the package's own copy takes the internal loop (R17, R320). -/
def sendAnnounce (up : Bool) (d : Nat) (s : State) : State :=
  let gen := agetD s.fab.gen d 0
  let own := s.fab.endpoint
  let s1 := if s.fab.mode = 1 then
      match pickLane (upLanes s) s with
      | some n => sendOn n (announceUnit true up 0 own d gen) s
      | none => s
    else (meshPeers s).foldl (fun s e => sendControl e (announceUnit false up e own d gen) s) s
  { s1 with fab := { s1.fab with loop := s1.fab.loop ++ [announceUnit (s.fab.mode == 1) up (if s.fab.mode = 1 then 0 else own) own d gen] } }

/-- Send what is due for a DEST, within 100,000 messages a second; three times at 100 µs, then every 10 ms while withdrawn (R320). -/
def announceDue (d : Nat) (s : State) : State :=
  match aget s.fab.announcing d with
  | none => s
  | some a =>
    let sec := s.elapsed / 1000000000
    let n := if s.fab.annSecond = sec then s.fab.annCount else 0
    if 100000 < n + announceCount s then s
    else
      let left := a.left - 1
      let s1 := sendAnnounce a.up d { s with fab := { s.fab with annSecond := sec, annCount := n + announceCount s } }
      let table := s1.fab.announcing
      let table1 := if a.up && left = 0 then adel table d
        else aset table d { a with left := left, due := s.elapsed + (if left = 0 then 10000000 else 100000) }
      { s1 with fab := { s1.fab with announcing := table1 } }

/-- The state of a DEST changes: GEN counts it, and it is announced (R320). -/
def announceChange (up : Bool) (d : Nat) (s : State) : State :=
  announceDue d { s with fab := { s.fab with
    gen := aset s.fab.gen d ((agetD s.fab.gen d 0 + 1) % 65536),
    announcing := aset s.fab.announcing d { up := up, left := 3, due := s.elapsed } } }

/-- Announce every DEST of a port or client. -/
def announcePort (up : Bool) (m : Nat) (s : State) : State := (destsOn m s).foldl (fun s d => announceChange up d s) s

/-- `ANNOUNCE_REPEAT`: a repeat comes due; a DEST that has left the package, or moved off its withdrawn port, is announced no more. -/
def execAnnounceRepeat (dest : Nat) (s : State) : Res :=
  .next (match aget s.fab.announcing dest with
    | none => s
    | some a =>
      let s1 := advanceTo a.due s
      let back := (heldHere dest s1).any (fun x => !a.up && (mac? x.localPort s1).any (·.announced))
      if (heldHere dest s1).isSome && !back then announceDue dest s1
      else { s1 with fab := { s1.fab with announcing := adel s1.fab.announcing dest } })

/-- `WITHDRAWAL_LAPSE`: no refresh for 35 ms (R320). -/
def execWithdrawalLapse (dest : Nat) (s : State) : Res :=
  .next (match aget s.fab.withdrawn dest with
    | none => s
    | some w =>
      let s1 := advanceTo (w.2 + 35000000) s
      restoreDest dest s1)

/-! ### Commands (Table 09-1, R301, R302, R337) -/

/-- A lane's place under the settings: enabled, MODE not OFF, and the data plane not stopped (Table 15-10). -/
def laneOn (n : Nat) (s : State) : Bool := s.fab.mode != 0 && bit s.fab.laneEnable n == 1 && !halted s

/-- Bring every lane to the settings: a lane that is disabled or changes plane passes through DISABLED. -/
def applyLanes (oldB : Nat) (modeChanged : Bool) (s : State) : State :=
  (List.range 112).foldl (fun s n =>
    let l := fabLane n s
    let moved := s.fab.mode = 1 && bit oldB n != bit s.fab.planeB n
    let off := fun (s : State) => if l.state == .disabled then s else
      updLane n (fun _ => idleLane) (moveLane n .disabled s)
    if !laneOn n s then off s
    else if l.state == .disabled || moved || modeChanged then moveLane n .down (off s)
    else s) s

/-- A new ENDPOINT (R302). -/
def changeEndpoint (s : State) : State :=
  let s1 := { s with fab := { s.fab with requests := [], streams := [], reorderFill := 0, applied := [], txSeq := [], loopPeal := [] } }
  lookReach (reorderFc s1)

def fabricConfig (h : HeldCmd) (s : State) : Verdict :=
  let mode := par h 0 1
  let ep := par h 2 2
  let sys := par h 4 4
  let en := par h 8 14
  let pb := par h 24 14
  if 2 < mode || 4096 ≤ ep || !parZero h 22 2 || !parZero h 38 2 then .refuse St.invalidParam
  else if s.fab.mode != 0 && mode != 0 && (mode != s.fab.mode || ep != s.fab.endpoint || sys != s.fab.systemId) then
    .refuse St.fabricBusy
  else
    let s1 := { s with fab := { s.fab with
      mode := mode, dual := par h 1 1, endpoint := ep, systemId := sys, laneEnable := en, planeB := pb } }
    let s2 := if ep = s.fab.endpoint then s1 else changeEndpoint s1
    .done St.ok [] (lookReach (applyLanes s.fab.planeB (mode != s.fab.mode) s2))

def specFabricConfig : CmdSpec := ⟨40, .effect, fabricConfig⟩
def execFabricConfig (c : Cmd) (s : State) : Res := runCmd 0x0801 specFabricConfig c s

/-- FAB_STATUS (Table 09-14). -/
def fabStatus (s : State) : Nat := s.fab.mode * 2 ^ 30 + s.fab.endpoint * 65536 + (upLanes s).length

/-- State code of a lane. -/
def laneCode : LaneState → Nat
  | .disabled => 0 | .down => 1 | .hunt => 2 | .check => 3 | .up => 4

/-- FAB_LANE_STATUS and FAB_LANE_PEER (Table 09-15). -/
def laneStatus (n : Nat) (s : State) : Nat :=
  let l := fabLane n s
  laneCode l.state * 2 ^ 29 + lanePlane n s * 2 ^ 28 + b2n l.xoffRx * 2 ^ 27 + b2n l.xoffTx * 2 ^ 26 + b2n l.miswire * 2 ^ 25 +
  l.peerEndpoint * 256 + l.peerLane
def lanePeerWord (n : Nat) (s : State) : Nat := (fabLane n s).peerKind * 2 ^ 31 + (fabLane n s).peerElement

def fabricQuery (h : HeldCmd) (s : State) : Verdict :=
  let ep := par h 0 2
  if 4096 ≤ ep || !parZero h 2 2 then .refuse St.invalidParam
  else
    let ls := lanesTo ep s
    let own := ep == s.fab.endpoint
    .done St.ok (le 4 (fabStatus s) ++ le 1 (b2n (reachesIn ep 0 s) + b2n (reachesIn ep 1 s) * 2 + b2n (own || !ls.isEmpty) * 4) ++
      zeros 3 ++ le 14 (ls.foldl (fun m n => m + 2 ^ n) 0) ++ zeros 2) s

def specFabricQuery : CmdSpec := ⟨4, .query, fabricQuery⟩
def execFabricQuery (c : Cmd) (s : State) : Res := runCmd 0x0802 specFabricQuery c s

def fabricLaneQuery (h : HeldCmd) (s : State) : Verdict :=
  let n := par h 0 1
  if 112 ≤ n || !parZero h 1 3 then .refuse St.invalidParam
  else .done St.ok (le 4 (laneStatus n s) ++ le 4 (lanePeerWord n s) ++ zeros 8 ++
    le 512 ((distinct (laneReaches n s)).foldl (fun m e => m + 2 ^ e) 0)) s

def specFabricLaneQuery : CmdSpec := ⟨4, .query, fabricLaneQuery⟩
def execFabricLaneQuery (c : Cmd) (s : State) : Res := runCmd 0x0803 specFabricLaneQuery c s

end Sys2Proof.Machine
end

