-- ==== Sys2Proof/Machine/Receive.lean ====
section
/-! DEFINITION. Receiving a message on a carillon port or on the management bus (R446 to R449, R463): checks, flooding, fragments. -/

namespace Sys2Proof.Machine
open Sys2Proof

/-- Types of a domain (Table 13-2). -/
def typeKnown (domain typ : Nat) : Bool :=
  if domain = 0 then (1 ≤ typ && typ ≤ 5) || (0x10 ≤ typ && typ ≤ 0x17) || (0x20 ≤ typ && typ ≤ 0x21) || (0x30 ≤ typ && typ ≤ 0x31) ||
    (0x40 ≤ typ && typ ≤ 0x44)
  else (1 ≤ typ && typ ≤ 5) || typ = 0x40

/-- A frame that its receiver discards (R448); a boot ROM without readable settings takes any CARILLON_ID (R513). -/
def msgRefused (domain : Nat) (f : List Byte) (s : State) : Bool :=
  let m := msgOf f
  m.version != 1 || m.domain != domain || !typeKnown domain m.typ || f.length < 38 + m.length ||
  !(m.cid == s.crl.cid || (domain == 1 && m.cid == 0xFFFFFFFF) || (s.mgmt.rom && s.crl.cid == 0))

/-- Put a fragment to its message: the whole message once every part is there (R447). -/
def assemble (bus : Bool) (m : Msg) (s : State) : Option Msg × State :=
  if m.fragCount ≤ 1 then (some m, s)
  else
    let same := fun (p : Partial) => p.bus == bus && p.src == m.src && p.msgId == m.msgId
    let p := (s.crl.partials.find? same).getD
      { bus := bus, src := m.src, msgId := m.msgId, typ := m.typ, count := m.fragCount, firstAt := s.elapsed, parts := [] }
    let p1 := { p with parts := aset p.parts m.fragIndex m.payload }
    let rest := s.crl.partials.filter (fun q => !same q)
    if p1.parts.length < p1.count then (none, { s with crl := { s.crl with partials := rest ++ [p1] } })
    else (some { m with payload := (avals p1.parts).flatMap id, fragIndex := 0, fragCount := 1 },
          { s with crl := { s.crl with partials := rest } })

/-- Key of a flooded frame: SRC, MSG_ID and fragment. -/
def seenKey (m : Msg) : Nat := (m.src * 4294967296 + m.msgId) * 256 + m.fragIndex

/-- A flooded type (Table 13-2). -/
def flooded (typ : Nat) : Bool := !([0x01, 0x03, 0x04, 0x30].contains typ)

/-- A frame of a row's TYPE on a carillon port, before its fragments are put together: what it delivers here (R448, R449, R451). A
frame of another type is not the row's. -/
def crlFragment (port typ : Nat) (f : List Byte) (s : State) : Option Msg × State :=
  let m := msgOf f
  if !s.crl.enable || !(crlPort port s).pcs || !fcsGood f || rdBe f 12 2 != 0x88B5 then (none, s)
  else if msgRefused 0 f s then (none, tally (ctrId 8 0 0) s)
  else if m.typ != typ || (crlPort port s).miswire then (none, s)
  else if !flooded typ then (some m, s)
  else
    let now := s.crl.seen.filter (fun p => s.elapsed < p.2 + 100000000)
    if ahas now (seenKey m) then (none, { s with crl := { s.crl with seen := now } })
    else
      let own := (ownPosition s).isSome && m.src == ownSrc s
      let mine := m.dst == 0xFF || (ownPosition s == some m.dst)
      let s1 := { s with crl := { s.crl with seen := aset now (seenKey m) s.elapsed } }
      let s2 := if !own && ownPosition s != some m.dst && crlOpen (1 - port) s1 then emit (.carillon (1 - port) f) s1 else s1
      (if mine && !own then some m else none, s2)

/-- The whole message that a fragment completes. -/
def wholeMsg (bus : Bool) (r : Option Msg × State) : Option Msg × State :=
  match r with
  | (some m, s) => assemble bus m s
  | (none, s) => (none, s)

/-- Receive a message of a row's TYPE on a carillon port. -/
def crlReceive (port typ : Nat) (f : List Byte) (s : State) : Option Msg × State := wholeMsg false (crlFragment port typ f s)

/-- A frame of a row's TYPE on the management bus, addressed to this node or to all (R448, R462, R463). -/
def busFragment (typ : Nat) (f : List Byte) (s : State) : Option Msg × State :=
  let m := msgOf f
  if !s.bus.enable then (none, s)
  else if f.length < 64 || !fcsGood f then (none, tally (ctrId 8 0 8) s)
  else if rdBe f 12 2 != 0x88B5 || !(f.take 6 == busMac (busNode s) || f.take 6 == busMac 0xFF) then (none, s)
  else
    let s1 := tally (ctrId 8 0 5) s
    if msgRefused 1 f s then (none, tally (ctrId 8 0 8) s1)
    else if m.typ != typ || !(m.dst == busNode s || m.dst == 0xFF) then (none, s1)
    else (some m, s1)

/-- Receive a message of a row's TYPE on the management bus. -/
def busReceive (typ : Nat) (f : List Byte) (s : State) : Option Msg × State := wholeMsg true (busFragment typ f s)

/-- The fragments of a message have not all arrived within 100 ms of the first: it is discarded (R447). -/
def execFragmentTimeout (bus : Bool) (src msgId : Nat) (s : State) : Res :=
  .next (match s.crl.partials.find? (fun p => p.bus == bus && p.src == src && p.msgId == msgId) with
    | none => s
    | some p =>
      let s1 := advanceTo (p.firstAt + 100000000) s
      { s1 with crl := { s1.crl with partials := s1.crl.partials.filter (fun q => !(q.bus == bus && q.src == src && q.msgId == msgId)) } })

end Sys2Proof.Machine
end

