-- ==== Sys2Proof/Machine/Commit.lean ====
section
/-! DEFINITION. The commit protocol (R59 to R73, R457, R472): staging sealed, prepared, voted, decided, switched, confirmed or reverted. -/

namespace Sys2Proof.Machine
open Sys2Proof

/-! ### Commits of the package -/

/-- Change an outstanding commit. -/
def updCommit (car : Bool) (seq : Nat) (f : Commit → Commit) (s : State) : State :=
  { s with commits := s.commits.map (fun c => if c.carillon == car && c.seq == seq then f c else c) }

/-- An outstanding commit. -/
def findCommit (car : Bool) (seq : Nat) (s : State) : Option Commit := s.commits.find? (fun c => c.carillon == car && c.seq == seq)

/-- Changes that a commit sealed go back to staging (R65). -/
def restage (c : Commit) (s : State) : State :=
  { s with staged := s.staged.map (fun x => if x.sealedBy == some (c.carillon, c.seq) then { x with sealedBy := none } else x) }

/-- Changes that a commit sealed are gone: taken by its switch, or discarded (R172). -/
def takeSealed (c : Commit) (s : State) : State :=
  { s with staged := s.staged.filter (fun x => x.sealedBy != some (c.carillon, c.seq)) }

/-- The record of a commit's outcome (Table 02-12). -/
def outcomeOf (c : Commit) (outcome status : Nat) : CommitOutcome :=
  { carillon := c.carillon, seq := c.seq, outcome := outcome, status := status, downbeat := c.target, changes := c.changes,
    deferrals := c.deferrals, missing := c.missing }

/-- The last 1,024 outcomes of each scope (R71). -/
def keepOutcome (o : CommitOutcome) (s : State) : State :=
  let same := (o :: s.outcomes.filter (fun (x : CommitOutcome) => x.carillon == o.carillon)).take 1024
  { s with outcomes := same ++ s.outcomes.filter (fun (x : CommitOutcome) => x.carillon != o.carillon) }

/-- A commit is no longer outstanding. -/
def endCommit (c : Commit) (outcome status : Nat) (s : State) : State :=
  keepOutcome (outcomeOf c outcome status)
    { s with commits := s.commits.filter (fun x => !(x.carillon == c.carillon && x.seq == c.seq)) }

/-- The response of `table.commit` (Table 02-7). -/
def commitResponse (c : Commit) : List Byte :=
  le 8 c.target ++ le 4 c.seq ++ le 4 c.changes ++ le 1 c.deferrals ++ le 1 c.missing ++ zeros 2

/-- End the RUNNING `table.commit` of a commit. -/
def answerCommit (c : Commit) (status : Nat) (s : State) : State :=
  finishWaiting (fun w => w == .commit c.carillon c.seq) status (fun _ => commitResponse c) (status == St.ok) c.seq c.target s

/-- Journal the outcome of a commit (R402, KIND 4): 0 confirm, 1 revert, 2 self-revert. -/
def journalOutcome (c : Commit) (op : Nat) (s : State) : State :=
  journal { seq := 0, tempo := 0, source := c.source, kind := 4, op := op, status := 0, tag := 0, origin := c.origin,
            detail0 := c.seq, detail1 := c.target, paramCrc := 0 } s

/-- Journal each table-update ring whose descriptors a commit takes (R402, KIND 1). -/
def journalRings (c : Commit) (s : State) : State :=
  let srcs := (sealedBy c.carillon c.seq s).filterMap (·.src)
  (distinct (srcs.map (fun x => (x.1, x.2.1)))).foldl (fun s r =>
    let mine := srcs.filter (fun x => x.1 == r.1 && x.2.1 == r.2)
    let first := (mine.head?.map (fun x => x.2.2.1)).getD 0
    let last := (mine.getLast?.map (fun x => x.2.2)).getD (0, 0)
    journal { seq := 0, tempo := 0, source := 6 + r.1, kind := 1, op := 0, status := 0, tag := last.2, origin := r.2,
              detail0 := first, detail1 := last.1, paramCrc := 0 } s) s

/-! ### Messages (Table 13-2) -/

/-- A commit message's payload. -/
def commitPayload (c : Commit) (result grid age : Nat) (s : State) : List Byte :=
  be 2 s.crl.term ++ be 1 c.deferrals ++ be 1 result ++ be 4 c.seq ++ be 8 c.target ++ be 4 c.changes ++ be 2 grid ++ be 2 age

/-- A commit involves other packages. -/
def shared (c : Commit) : Bool := c.carillon || c.pair

/-- Where a coordinator's messages go: to all, or to the pair's other member (R458, R472). -/
def commitDst (c : Commit) (s : State) : Nat := if c.carillon then 0xFF else peerPosition s

/-- Where votes and acknowledgements go: to the head, or to the pair's other member. -/
def voterDst (c : Commit) (s : State) : Nat := if c.carillon then 0 else peerPosition s

/-- Send a coordinator's message: 0x10 PREPARE, 0x12 GO, 0x13 DEFER, 0x14 ABORT, 0x16 CONFIRM, 0x17 REVERT. -/
def coordSend (typ : Nat) (c : Commit) (s : State) : State :=
  if shared c then flood typ (commitDst c s) (commitPayload c 0 0 0 s) s else s

/-- The bit of a position in votes and acknowledgements; the peer of a pair counts as bit 1. -/
def voterBit (c : Commit) (src : Nat) : Nat := if c.carillon then 2 ^ src else 2

/-- Give this package's vote: to itself when it coordinates, otherwise as VOTE (R64, R72). -/
def castVote (c : Commit) (s : State) : State :=
  if c.lost then s
  else if c.head then updCommit c.carillon c.seq (fun c => { c with votes := c.votes ||| 1 }) s
  else flood 0x11 (voterDst c s) (commitPayload c 1 0 0 s) s

/-- Positions whose votes and acknowledgements the coordinator needs. -/
def neededVotes (c : Commit) (s : State) : Nat :=
  if c.carillon then (akeys s.crl.members).foldl (fun m p => m ||| 2 ^ p) 1
  else if c.pair then 3 else 1

/-- Positions of the second mask that the first lacks. -/
def lacking (have' need : Nat) : Nat := need - (have' &&& need)

/-! ### Acceptance (R59 to R62) -/

/-- The next carillon sequence number: above every one the package knows. -/
def nextCarillonSeq (s : State) : Nat :=
  let known := (s.commits.filter (·.carillon)).map (·.seq) ++ (s.outcomes.filter (·.carillon)).map (·.seq)
  (known.foldl max s.tempo.cseq + 1) % 4294967296

/-- Targets of the outstanding commits of a scope. -/
def targetsOf (car : Bool) (s : State) : List Nat := (s.commits.filter (fun c => c.carillon == car)).map (·.target)

/-- The target that TARGET 0 selects (R61). -/
def earliestTarget (car : Bool) (s : State) : Nat :=
  let base := s.tempo.lastDownbeat + 3
  match targetsOf car s with
  | [] => base
  | ts => max base (ts.foldl max 0 + (if car then 2 else 1))

/-- The target keeps the spacing of R62. The model's choice (log 55): targets rise strictly across both scopes. -/
def spaced (car : Bool) (t : Nat) (s : State) : Bool :=
  s.commits.all (fun c => c.target < t) && (targetsOf car s).all (fun u => u + (if car then 2 else 1) ≤ t)

/-- Some package of the carillon is diverged as the head sees it (R69). -/
def anyDiverged (s : State) : Bool := s.crl.diverged || s.crl.peersDiverged != 0

/-- The staging of a change is complete: its completion has been written (R60). -/
def stagingDone (x : Staged) (s : State) : Bool :=
  match x.due with
  | .written => true
  | .mirror q => !(s.prot.mirrorHeld.any (fun h => h.1 == q) || s.mgmt.running.any (fun r => r.waits == .mirror q))
  | .record r n => match ring? r s with
    | some y => y.held.isEmpty || decide ((y.partIndex + 4294967296 - n) % 4294967296 < 2147483648)
    | none => true

/-- A change that the next commit holds: its staging is complete, and no commit has sealed it (R60). -/
def sealable (s : State) (x : Staged) : Bool := x.sealedBy.isNone && stagingDone x s

/-- Seal every change whose staging is complete into a commit (R60). -/
def sealInto (car : Bool) (seq : Nat) (s : State) : State :=
  { s with staged := s.staged.map (fun x => if sealable s x then { x with sealedBy := some (car, seq) } else x) }

/-- Register a commit and begin its preparation after that of the commit before it (R64). -/
def addCommit (c : Commit) (s : State) : State :=
  let start := s.commits.foldl (fun t x => max t x.prepEnd) s.elapsed
  let n := (sealedBy c.carillon c.seq s).length
  { s with commits := s.commits ++ [{ c with changes := n, prepStart := start, prepEnd := start + 150000 + 50 * n, lost := s.mgmt.stagingLost }],
           mgmt := { s.mgmt with stagingLost := false } }

/-- A commit as it is accepted. -/
def newCommit (car : Bool) (seq target : Nat) : Commit :=
  { carillon := car, pair := false, seq := seq, target := target, phase := .preparing, head := true, noDefer := false,
    reapply := none, prepStart := 0, prepEnd := 0, votes := 0, acks := 0, nacks := 0, deferrals := 0, missing := 0, changes := 0,
    decided := false, lost := false, retained := none, retainedEpoch := 0, retainedCseq := 0, oldSlots := 0, oldTargets := 0, reverting := false, source := 0, origin := 0 }

/-- A staged change of the grid period or the maximum age (R45). -/
def carillonWide : Change → Bool
  | .grid _ => true
  | .maxAge _ => true
  | _ => false

/-- A request of `table.commit` that is refused INVALID_PARAM (Table 02-9). -/
def commitMalformed (h : HeldCmd) (s : State) : Bool :=
  let flags := par h 8 4
  let car := bit flags 0 == 1
  let re := bit flags 2 == 1
  let t := par h 0 8
  bits flags 31 3 != 0 || (!re && par h 12 4 != 0) || (re && (car || !s.crl.diverged)) ||
  (t != 0 && tempoNs s + 60000000000 < downbeatAt t s) ||
  (!car && isMember s && s.staged.any (fun x => sealable s x && carillonWide x.change))

/-- `table.commit` (R59 to R62). -/
def tableCommit (h : HeldCmd) (s : State) : Verdict :=
  let flags := par h 8 4
  let car := bit flags 0 == 1
  let t := if par h 0 8 = 0 then earliestTarget car s else par h 0 8
  if commitMalformed h s then .refuse St.invalidParam
  else if car && s.crl.role != .head then .refuse St.commitNotHead
  else if !car && standsBy s then .refuse St.protectStandby
  else if car && anyDiverged s then .refuse St.commitDiverged
  else if t < s.tempo.lastDownbeat + 3 then .refuse St.commitTooLate
  else if 4 ≤ s.commits.length || (!car && s.commits.any (·.carillon)) || !spaced car t s then .refuse St.commitBusy
  else
    let seq := if car then nextCarillonSeq s else s.nextPackageSeq
    let s1 := if car then s else { s with nextPackageSeq := (s.nextPackageSeq + 1) % 4294967296 }
    let c := { newCommit car seq t with
      pair := !car && mirrors s, noDefer := bit flags 1 == 1, source := h.source, origin := h.origin,
      reapply := if bit flags 2 == 1 then some (par h 12 4) else none }
    let s2 := addCommit c (sealInto car seq s1)
    let e := sealedConf s2
    let s3 := match findCommit car seq s2 with
      | some c => if shared c then flood 0x10 (commitDst c s2) (commitPayload c 0 e.grid e.maxAge s2) s2 else s2
      | none => s2
    .wait (.commit car seq) [] s3

def specTableCommit : CmdSpec := ⟨16, .effect, tableCommit⟩
def execTableCommit (c : Cmd) (s : State) : Res := runCmd 0x0510 specTableCommit c s

/-- `table.commit.query` (R71, Table 02-12). -/
def tableCommitQuery (h : HeldCmd) (s : State) : Verdict :=
  let seq := par h 0 4
  let car := bit (par h 4 1) 0 == 1
  if bits (par h 4 1) 7 1 != 0 || !parZero h 5 3 then .refuse St.invalidParam
  else
    let o : CommitOutcome := match findCommit car seq s with
      | some c => outcomeOf c (if c.phase == CommitPhase.switched then 3 else if c.decided then 2 else 1) St.ok
      | none => (s.outcomes.find? (fun (o : CommitOutcome) => o.carillon == car && o.seq == seq)).getD
          { carillon := car, seq := 0, outcome := 0, status := 0, downbeat := 0, changes := 0, deferrals := 0, missing := 0 }
    .done St.ok (le 1 o.outcome ++ zeros 1 ++ le 2 o.status ++ le 4 o.seq ++ le 8 o.downbeat ++ le 4 o.changes ++
      le 1 o.deferrals ++ le 1 o.missing ++ zeros 2) s

def specTableCommitQuery : CmdSpec := ⟨8, .query, tableCommitQuery⟩
def execTableCommitQuery (c : Cmd) (s : State) : Res := runCmd 0x0511 specTableCommitQuery c s

/-! ### Ends -/

/-- An undecided commit ends without effect: its changes stay staged, the other packages hear ABORT (R65, R70). -/
def abandonCommit (c : Commit) (status : Nat) (s : State) : State :=
  let s1 := if c.head then coordSend 0x14 c s else s
  answerCommit c status (endCommit c 7 status (restage c s1))

/-- Later carillon commits end with the one they were prepared on (R67). -/
def dropLater (c : Commit) (s : State) : State :=
  (s.commits.filter (fun x => x.carillon == c.carillon && c.target < x.target)).foldl (fun s x =>
    answerCommit x St.commitReverted (endCommit x 7 St.commitReverted (restage x s))) s

/-- Release the retained epoch (R63, step 8). -/
def confirmCommit (c : Commit) (s : State) : State :=
  endCommit c 4 St.ok (journalOutcome c 0 s)

/-- DESTs that a new epoch puts on a port or client that is flushed or was never announced are withdrawn with it (R108, R320). -/
def withdrawNew (old : Conf) (s : State) : State :=
  let same := fun (x y : Dest) => x.kind == y.kind && x.endpoint == y.endpoint && x.localPort == y.localPort
  (s.cfg.dests.filter (fun p => destLocal p.2 s && (mac? p.2.localPort s).any (fun m => !m.announced) &&
    !(aget old.dests p.1).any (same p.2))).foldl (fun s p => announceChange false p.1 s) s

/-- The epoch changes at a downbeat; `back`: a return. -/
def changeEpoch (back : Bool) (new : Conf) (d t : Nat) (s : State) : State := withdrawNew s.cfg (switchTo back new d t s)

/-- A switched package returns to the retained epoch at downbeat `d` (R58, R67). -/
def returnCommit (c : Commit) (d t : Nat) (s : State) : State :=
  let s1 := match c.retained with
    | some old => changeEpoch true old d t s
    | none => s
  let s2 := { s1 with tempo := { s1.tempo with epoch := c.retainedEpoch, cseq := if c.carillon then c.retainedCseq else s1.tempo.cseq } }
  let s3 := dropLater c (endCommit c (if c.reverting then 5 else 6) St.ok (journalOutcome c (if c.reverting then 1 else 2) s2))
  if c.reverting then s3 else raiseEvent Ev.commitSelfRevert 0 c.seq c.target s3

/-! ### What falls at a downbeat `d` of instant `t` -/

/-- A package-scope commit with REAPPLY adopts the head's sequence when it takes effect (R69). -/
def adoptSeq (c : Commit) (s : State) : State :=
  match c.reapply with
  | some q => { s with tempo := { s.tempo with cseq := q }, crl := { s.crl with diverged := false } }
  | none => s

/-- An armed commit switches; a shared one keeps the epoch before and acknowledges (R63, R72). -/
def switchCommit (d t : Nat) (c : Commit) (s : State) : State :=
  let new := applyAll s.cfg (sealedBy c.carillon c.seq s)
  let old := s.cfg
  let rewritten := fun (f : Change → Option (Nat × Option (List Nat))) (g : Conf → Assoc (List Nat)) =>
    (akeys (listsWritten f (sealedBy c.carillon c.seq s))).foldl (fun n k =>
      n + (if ahas (g new) k then ((aget (g old) k).getD []).length else 0)) 0
  let s1 := changeEpoch false new d t (takeSealed c s)
  let s2 := { s1 with tempo := { s1.tempo with epoch := d } }
  if shared c then
    let c1 := { c with phase := .switched, retained := some old, retainedEpoch := s.tempo.epoch, retainedCseq := s.tempo.cseq,
                       oldSlots := rewritten ecmpWritten (·.ecmp), oldTargets := rewritten pealWritten (·.pealLists),
                       acks := if c.head then c.acks ||| 1 else c.acks }
    let s3 := updCommit c.carillon c.seq (fun _ => c1) s2
    let s4 := if c.carillon then { s3 with tempo := { s3.tempo with cseq := c.seq } } else adoptSeq c s3
    if c.head then s4 else flood 0x15 (voterDst c s4) (commitPayload c1 1 0 0 s4) s4
  else
    endCommit c 4 St.ok (adoptSeq c s2)

/-- At D a package that is not armed answers NOT_SWITCHED (R63). -/
def nackCommit (c : Commit) (s : State) : State :=
  if c.head then s else flood 0x15 (voterDst c s) (commitPayload c 0 0 0 s) s

/-- Commits whose target this downbeat is. -/
def switchAll (d t : Nat) (s : State) : State :=
  (s.commits.filter (fun c => c.target == d)).foldl (fun s c =>
    if c.phase == .armed then switchCommit d t c s else if shared c then nackCommit c s else s) s

/-- At D+1 the head confirms or reverts (R63, step 7). -/
def confirmAll (d : Nat) (s : State) : State :=
  (s.commits.filter (fun c => c.head && c.phase == .switched && c.target + 1 == d)).foldl (fun s c =>
    if s.mgmt.restarting then s
    else if lacking c.acks (neededVotes c s) = 0 then
      raiseEvent Ev.commitConfirmed 0 c.seq c.target (confirmCommit c (coordSend 0x16 c s))
    else
      raiseEvent Ev.commitReverted 0 c.seq c.target
        (dropLater c (updCommit c.carillon c.seq (fun c => { c with reverting := true }) (coordSend 0x17 c s)))) s

/-- At D+2 a switched package without CONFIRM returns, and one that never switched gives the commit up (R67). -/
def returnAll (d t : Nat) (s : State) : State :=
  (s.commits.filter (fun c => shared c && c.target + 2 == d)).foldl (fun s c =>
    if c.phase == .switched then returnCommit c d t s
    else if c.head then s else endCommit c 7 St.ok (restage c s)) s

/-- GO (R63, step 3): the coordinator arms, the command ends OK, the rings are journalled. -/
def decideGo (c : Commit) (s : State) : State :=
  let c1 := { c with phase := .armed, decided := true, missing := 0 }
  journalRings c1 (answerCommit c1 St.ok (updCommit c.carillon c.seq (fun _ => c1) (coordSend 0x12 c s)))

/-- DEFER (R65): the target moves by one downbeat, and a prepared package votes at once. -/
def decideDefer (c : Commit) (missing : Nat) (s : State) : State :=
  let c1 := { c with target := c.target + 1, deferrals := c.deferrals + 1, votes := 0, missing := missing }
  let s1 := coordSend 0x13 c1 (updCommit c.carillon c.seq (fun _ => c1) s)
  if c.phase == .prepared then castVote c1 s1 else s1

/-- MISSING: in package scope bit 0 stands for the executing package, and bits 7:1 are zero (Table 02-7). -/
def missingMask (c : Commit) (miss : Nat) : Nat := if c.carillon then miss else miss % 2

/-- The decision of one commit at D−1 (R63, R65, R70, R72, R472). -/
def decide1 (c : Commit) (s : State) : State :=
  let miss := lacking c.votes (neededVotes c s)
  if miss = 0 then decideGo c s
  else if c.pair && miss = 2 then
    decideGo { c with pair := false } (coordSend 0x14 c { s with prot := { s.prot with peerSync := false } })
  else if c.noDefer || 8 ≤ c.deferrals then abandonCommit { c with missing := missingMask c miss } St.commitNotReady s
  else decideDefer c (missingMask c miss) s

/-- The decisions that fall at this downbeat; none is made during a management restart (R33). -/
def decideAll (d : Nat) (s : State) : State :=
  if s.mgmt.restarting then s
  else (s.commits.filter (fun c => c.head && !c.decided && c.target == d + 1)).foldl (fun s c => decide1 c s) s

/-- The votes that fall at D−2 (R63, step 2). -/
def voteAll (d : Nat) (s : State) : State :=
  if s.mgmt.restarting then s
  else (s.commits.filter (fun c => c.phase == .prepared && !c.decided && c.target == d + 2 && c.deferrals == 0)).foldl
    (fun s c => castVote c s) s

/-- A downbeat occurs (R46, R55, R63): returns, switches, confirmations, decisions, votes and releases, in this order. FD changes at its
instant, and QD when its own copy of Tempo reaches it (R31, log 52). -/
def downbeatNow (s : State) : State :=
  let d := nextDownbeat s
  let t := downbeatAt d s
  let s1 := advanceTempo (t * tuPerNs) s
  let s2 := { s1 with tempo := { s1.tempo with
    lastDownbeat := d, skips := s1.tempo.skips.filter (fun i => d + 1 < i.2),
    qdDownbeat := ((t * tuPerNs : Nat) : Int) - s1.tempo.qdOffset } }
  releaseQuarantine (voteAll d (decideAll d (confirmAll d (switchAll d t (returnAll d t s2)))))

/-- `PREPARATION_DONE` (R64): the first commit still in preparation is prepared; it votes when D−2 has passed. -/
def execPreparationDone (s : State) : Res :=
  .next (match s.commits.find? (fun c => c.phase == .preparing) with
    | none => s
    | some c =>
      if s.mgmt.restarting then s
      else
        let s1 := advanceTo c.prepEnd s
        let s2 := updCommit c.carillon c.seq (fun c => { c with phase := .prepared }) s1
        if c.target ≤ s2.tempo.lastDownbeat + 2 then castVote c s2 else s2)

/-! ### The messages -/

/-- Fields of a commit message. -/
def cmTerm (m : Msg) : Nat := rdBe m.payload 0 2
def cmAttempt (m : Msg) : Nat := rdBe m.payload 2 1
def cmResult (m : Msg) : Nat := rdBe m.payload 3 1
def cmSeq (m : Msg) : Nat := rdBe m.payload 4 4
def cmDownbeat (m : Msg) : Nat := rdBe m.payload 8 8
def cmGrid (m : Msg) : Nat := rdBe m.payload 20 2
def cmAge (m : Msg) : Nat := rdBe m.payload 22 2

/-- A commit message arrives: acted on when its TERM is current and Teruo or the commit hardware takes it (R458). -/
def commitMessage (typ port : Nat) (f : List Byte) (act : Msg → State → State) (s : State) : State :=
  match crlReceive port typ f s with
  | (none, s1) => s1
  | (some m, s1) => if cmTerm m = s1.crl.term then act m s1 else s1

/-- The scope of a message: the head's messages are flooded to all and its voters answer position 0; others belong to a pair (R458, R472). -/
def carillonScope (m : Msg) : Bool := m.dst == 0xFF

/-- PREPARE: seal and prepare, with the grid period and maximum age that the commit puts in force (R45, R60, R63). -/
def onPrepare (m : Msg) (s : State) : State :=
  let car := carillonScope m
  if s.mgmt.restarting || (findCommit car (cmSeq m) s).isSome || !(if car then s.crl.role == .follower else standsBy s) then s
  else
    let e := nextConf s
    let wide := (if car && e.grid != cmGrid m then [Change.grid (cmGrid m)] else []) ++
      (if car && e.maxAge != cmAge m then [Change.maxAge (cmAge m)] else [])
    let s1 := wide.foldl (fun s ch => stage 1 ch s) s
    addCommit { newCommit car (cmSeq m) (cmDownbeat m) with
                head := false, pair := !car, deferrals := cmAttempt m, source := 5, origin := m.src } (sealInto car (cmSeq m) s1)

def execPrepare (port : Nat) (msg : List Byte) (s : State) : Res := .next (commitMessage 0x10 port msg onPrepare s)

/-- The coordinator's commit that a voter's message names. -/
def coordinated (m : Msg) (s : State) : Option Commit :=
  s.commits.find? (fun c => c.head && shared c && c.seq == cmSeq m && (c.carillon == (s.crl.role == .head && m.dst == 0) || c.pair))

/-- VOTE: counted when it names the current attempt and arrives before D−1 (R64). -/
def onVote (m : Msg) (s : State) : State :=
  match coordinated m s with
  | some c =>
    if !s.mgmt.restarting && !c.decided && cmAttempt m = c.deferrals && cmResult m = 1 && s.tempo.lastDownbeat + 1 < c.target then
      updCommit c.carillon c.seq (fun c => { c with votes := c.votes ||| voterBit c m.src }) s
    else s
  | none => s

def execVote (port : Nat) (msg : List Byte) (s : State) : Res := .next (commitMessage 0x11 port msg onVote s)

/-- The part's own commit that a coordinator's message names. -/
def followed (m : Msg) (s : State) : Option Commit :=
  s.commits.find? (fun c => !c.head && c.carillon == carillonScope m && c.seq == cmSeq m)

/-- GO: a prepared package arms on one received before D − 50 µs; a second copy changes nothing (R66). -/
def onGo (m : Msg) (s : State) : State :=
  match followed m s with
  | some c =>
    if !s.mgmt.restarting && c.phase == .prepared && c.target = cmDownbeat m &&
        s.tempo.now + 50000 * tuPerNs < downbeatAt c.target s * tuPerNs then
      journalRings c (updCommit c.carillon c.seq (fun c => { c with phase := .armed, decided := true }) s)
    else s
  | none => s

def execGo (port : Nat) (msg : List Byte) (s : State) : Res := .next (commitMessage 0x12 port msg onGo s)

/-- DEFER: the target moves, and a prepared package votes at once (R65). -/
def onDefer (m : Msg) (s : State) : State :=
  match followed m s with
  | some c =>
    if s.mgmt.restarting || c.decided then s
    else
      let c1 := { c with target := cmDownbeat m, deferrals := cmAttempt m }
      let s1 := updCommit c.carillon c.seq (fun _ => c1) s
      if c.phase == .prepared then castVote c1 s1 else s1
  | none => s

def execDefer (port : Nat) (msg : List Byte) (s : State) : Res := .next (commitMessage 0x13 port msg onDefer s)

/-- ABORT: the commit ends without effect, and its changes stay staged (R65); a standby whose vote was missing is out of sync (R472). -/
def onAbort (m : Msg) (s : State) : State :=
  match followed m s with
  | some c =>
    if c.phase == .switched then s
    else
      let s1 := endCommit c 7 St.ok (restage c s)
      if c.pair && 4 ≤ s1.prot.state && s1.prot.state ≤ 5 then
        { s1 with prot := { s1.prot with state := 3, inSync := false, wtrAt := none } }
      else s1
  | none => s

def execAbort (port : Nat) (msg : List Byte) (s : State) : Res := .next (commitMessage 0x14 port msg onAbort s)

/-- ACK: SWITCHED or NOT_SWITCHED of a position, before D+1 (R63, step 6). -/
def onAck (m : Msg) (s : State) : State :=
  match coordinated m s with
  | some c =>
    if c.phase == .switched && s.tempo.lastDownbeat ≤ c.target then
      updCommit c.carillon c.seq (fun c =>
        if cmResult m = 1 then { c with acks := c.acks ||| voterBit c m.src } else { c with nacks := c.nacks ||| voterBit c m.src }) s
    else s
  | none => s

def execAck (port : Nat) (msg : List Byte) (s : State) : Res := .next (commitMessage 0x15 port msg onAck s)

/-- CONFIRM and REVERT count until D+2 − 50 µs (R67). -/
def inTime (c : Commit) (s : State) : Bool := s.tempo.now + 50000 * tuPerNs < downbeatAt (c.target + 2) s * tuPerNs

/-- CONFIRM: the retained epoch is released (R63, step 8). -/
def onConfirm (m : Msg) (s : State) : State :=
  match followed m s with
  | some c => if c.phase == .switched && inTime c s then confirmCommit c s else s
  | none => s

def execConfirm (port : Nat) (msg : List Byte) (s : State) : Res := .next (commitMessage 0x16 port msg onConfirm s)

/-- REVERT: a switched package returns at D+2, one that did not switch discards the commit; later commits fall (R67, R172). -/
def onRevert (m : Msg) (s : State) : State :=
  match followed m s with
  | some c =>
    if c.phase == .switched then
      if inTime c s then dropLater c (updCommit c.carillon c.seq (fun c => { c with reverting := true }) s) else s
    else dropLater c (journalOutcome c 1 (endCommit c 5 St.ok (takeSealed c s)))
  | none => s

def execRevert (port : Nat) (msg : List Byte) (s : State) : Res := .next (commitMessage 0x17 port msg onRevert s)

/-- A package that enters ELECTING drops its commits that are not armed; a head's undecided ones end COMMIT_NOT_READY (R457). -/
def dropUnarmed (s : State) : State :=
  (s.commits.filter (fun c => c.carillon && (c.phase == .preparing || c.phase == .prepared))).foldl (fun s c =>
    if c.head then answerCommit c St.commitNotReady (endCommit c 7 St.commitNotReady (restage c s))
    else endCommit c 7 St.ok (restage c s)) s

end Sys2Proof.Machine
end

