-- ==== Sys2Proof/Machine/Flow.lean ====
section
/-! DEFINITION. Flow contexts (R211 to R226): lookup, creation, eviction, removal, locks and aging. -/

namespace Sys2Proof.Machine
open Sys2Proof

/-- A flow table. -/
def flowTable (t : Nat) (s : State) : Option FlowTable := aget s.fwd.flowTables t

/-- The context of a key in a table. -/
def findFlow (t : Nat) (key : List Byte) (s : State) : Option FlowCtx :=
  s.fwd.flows.find? (fun f => f.table == t && f.key == key)

/-- Contexts of a table. -/
def flowsOf (t : Nat) (s : State) : List FlowCtx := s.fwd.flows.filter (fun f => f.table == t)

/-- A cache line holds the context of a key. -/
def lineOf (t : Nat) (key : List Byte) (c : CacheLine) : Bool := c.table == t && c.key == key

/-- The context of a key is in the on-die cache (R225). -/
def isCached (t : Nat) (key : List Byte) (s : State) : Bool := s.fwd.cache.any (lineOf t key)

/-- Change a context: a cached one is changed on die, and DDR4 keeps what it held (R225). -/
def updFlow (t : Nat) (key : List Byte) (g : FlowCtx → FlowCtx) (s : State) : State :=
  let was := findFlow t key s
  { s with fwd := { s.fwd with
      flows := s.fwd.flows.map (fun f => if f.table == t && f.key == key then g f else f),
      cache := s.fwd.cache.map (fun c => if lineOf t key c && !c.modified then { c with modified := true, stored := was } else c) } }

/-- Remove a context, from the cache too; a mirrored one is removed from the standby too (R473). -/
def dropFlow (f : FlowCtx) (s : State) : State :=
  mirrorFlow true f { s with fwd := { s.fwd with
    flows := s.fwd.flows.filter (fun g => !(g.table == f.table && g.key == f.key)),
    cache := s.fwd.cache.filter (fun c => !lineOf f.table f.key c) } }

/-- Contexts that the on-die cache holds (R225). -/
def cacheSize : Nat := 131072

/-- Put a context into the cache; a full cache gives one up, whose value is written back to DDR4 (R225). -/
def fillCache (c : CacheLine) (s : State) : State :=
  let l := s.fwd.cache.filter (fun d => !lineOf c.table c.key d)
  { drawn s with fwd := { s.fwd with
      cache := (if l.length < cacheSize then l else l.eraseIdx (Config.cacheVictim s.fresh % l.length)) ++ [c] } }

/-- A write-back of a cached context failed: the context keeps the value that DDR4 last stored (Table 12-3). -/
def writeBackFailed (c : CacheLine) (s : State) : State :=
  { s with fwd := { s.fwd with
      cache := s.fwd.cache.filter (fun d => !lineOf c.table c.key d),
      flows := match c.stored with
        | some f => s.fwd.flows.map (fun g => if g.table == c.table && g.key == c.key then f else g)
        | none => s.fwd.flows.filter (fun g => !(g.table == c.table && g.key == c.key)) } }

/-- Contexts in use, learned, static and locked of a table (R212). -/
def flowCounts (t : Nat) (s : State) : Nat × Nat × Nat × Nat :=
  let l := flowsOf t s
  (l.length, l.countP (·.learned), l.countP (·.isStatic), l.countP (·.lock.isSome))

/-- The bucket of a key: buckets of eight in a table of CONTEXTS (R216). -/
def flowBucketOf (t : Nat) (ft : FlowTable) (key : List Byte) : Nat := Config.flowBucket t key % (ft.contexts / 8)

/-- Occupants of a bucket. -/
def occupants (t b : Nat) (s : State) : List FlowCtx := s.fwd.flows.filter (fun f => f.table == t && f.bucket == b)

/-- The lowest free position of a bucket. -/
def freeSlot (l : List FlowCtx) : Option Nat := firstBelow (fun k => !l.any (fun f => f.slot == k)) 8

/-- Eviction order under OLDEST: earliest LAST, which holds whole nanoseconds (Table 06-18), then the lower position (R218). -/
def older (a b : FlowCtx) : Bool :=
  a.last / tuPerNs < b.last / tuPerNs || (a.last / tuPerNs == b.last / tuPerNs && a.slot < b.slot)

/-- The oldest of a list. -/
def oldest : List FlowCtx → Option FlowCtx
  | [] => none
  | f :: t => match oldest t with
    | some g => if older g f then some g else some f
    | none => some f

/-- The occupant that an eviction takes (R218), POLICY 1 OLDEST. -/
def victim (policy : Nat) (l : List FlowCtx) (s : State) : Option FlowCtx :=
  let e := l.filter (fun f => f.lock.isNone && !f.isStatic)
  if policy = 1 then oldest e else e[Config.random s.fresh % e.length]?

/-- Send a context to the host under FLOW_EXPORT as its 128-byte record (R221); SOURCE, PROFILE, FRAME_LENGTH and the
timestamp of its receive completion are unstated (log 18). -/
def exportFlow (f : FlowCtx) (s : State) : State :=
  punt { bytes := ctxBytes f, frameLen := unstatedAt 20 s, trunc := 0, reason := Exc.flowExport, source := unstatedAt 21 s,
         profile := unstatedAt 22 s, flags := 0, ts := unstatedAt 23 s, store := none } (drawn s)

/-- Remove a context by aging or eviction, exported where its table says so (R221): `idx` counts it in flow.t. -/
def retireFlow (idx : Nat) (f : FlowCtx) (s : State) : State :=
  let s1 := tally (ctrId 18 f.table idx) (dropFlow f s)
  match flowTable f.table s with
  | some ft => if bit ft.flags 1 == 1 then exportFlow f s1 else s1
  | none => s1

/-- Make room in a bucket for a key: its free position, or the position of an evicted occupant when eviction is allowed. -/
def makeRoom (evict : Bool) (t : Nat) (ft : FlowTable) (b : Nat) (s : State) : Option (Nat × State) :=
  let l := occupants t b s
  match freeSlot l with
  | some k => some (k, s)
  | none =>
    if !evict then none
    else match victim ft.policy l s with
      | some v => some (v.slot, retireFlow 1 v (drawn s))
      | none => none

/-- Store a new context at a place of its bucket. -/
def storeFlow (f : FlowCtx) (s : State) : State :=
  mirrorFlow false f { s with fwd := { s.fwd with flows := s.fwd.flows ++ [f] } }

/-- Learn a context for a key (R217, R218), in the cache first: `none` when no occupant is eligible. -/
def learn (t : Nat) (ft : FlowTable) (key : List Byte) (ts len : Nat) (s : State) : Option (FlowCtx × State) :=
  let b := flowBucketOf t ft key
  match makeRoom true t ft b s with
  | none => none
  | some (k, s1) =>
    let f : FlowCtx := { table := t, key := key, isStatic := false, learned := true, mirror := bit ft.flags 2 == 1,
                         packets := 1, bytes := len, last := ts, first := ts, action := ft.learnAction, nh := ft.learnNh,
                         user := zeros 32, bucket := b, slot := k, lock := none, keptPackets := 0, keptBytes := 0,
                         keptLast := 0, lapsed := false }
    some (f, fillCache { table := t, key := key, modified := true, stored := none } (storeFlow f s1))

/-- A hit counts in its context, or aside while the context is locked (R215, R223). -/
def hitFlow (f : FlowCtx) (ts len : Nat) (s : State) : State :=
  updFlow f.table f.key (fun f =>
    if f.lock.isSome then { f with keptPackets := f.keptPackets + 1, keptBytes := f.keptBytes + len, keptLast := max f.keptLast ts }
    else { f with packets := f.packets + 1, bytes := f.bytes + len, last := ts }) s

/-- ACTION fields of a context (Table 06-18). -/
def cSetNh (a : Nat) : Bool := bit a 31 == 1
def cSetClass (a : Nat) : Bool := bit a 30 == 1
def cDrop (a : Nat) : Bool := bit a 29 == 1
def cToHost (a : Nat) : Bool := bit a 28 == 1
def cReason (a : Nat) : Nat := bits a 15 8
def cClass (a : Nat) : Nat := bits a 2 0

/-- Reserved bits of ACTION and NH, and a reason below 64 under TO_HOST (Table 06-18). -/
def ctxActionBad (action nh : Nat) : Bool :=
  bits action 27 16 != 0 || bits action 7 3 != 0 || (cToHost action && cReason action < 64) || bits nh 30 20 != 0

/-- The context that a host buffer describes (Table 06-18); VALID, LOCK, LEARNED, TABLE (R213) and every reserved bit (R8) are ignored. -/
def ctxOf (t : Nat) (b : List Byte) : FlowCtx :=
  { table := t, key := slice b 8 48, isStatic := bit (rd b 0 4) 29 == 1, learned := false, mirror := bit (rd b 0 4) 27 == 1,
    packets := rd b 56 8, bytes := rd b 64 8, last := tempoAt (rd b 76 4) (rd b 72 4), first := tempoAt (rd b 84 4) (rd b 80 4),
    action := rd b 88 4 &&& 0xF000FF07, nh := rd b 92 4 &&& 0x800FFFFF, user := slice b 96 32, bucket := 0, slot := 0, lock := none, keptPackets := 0,
    keptBytes := 0, keptLast := 0, lapsed := false }

/-- A context rewritten by the host (R222): its place, key and LEARNED stay. -/
def rewriteCtx (f g : FlowCtx) : FlowCtx :=
  { f with isStatic := g.isStatic, mirror := g.mirror, packets := g.packets, bytes := g.bytes, last := g.last,
           first := g.first, action := g.action, nh := g.nh, user := g.user }

/-- A lock released by the host (R224). -/
def unlockCtx (f g : FlowCtx) : FlowCtx :=
  { rewriteCtx f g with packets := g.packets + f.keptPackets, bytes := g.bytes + f.keptBytes, last := max g.last f.keptLast,
                        lock := none, keptPackets := 0, keptBytes := 0, keptLast := 0 }

/-- A lock that lapsed (R224). -/
def lapseCtx (f : FlowCtx) : FlowCtx :=
  { f with packets := f.packets + f.keptPackets, bytes := f.bytes + f.keptBytes, last := max f.last f.keptLast,
           lock := none, keptPackets := 0, keptBytes := 0, keptLast := 0, lapsed := true }

/-- Change a context and mirror it (R473). -/
def writeFlow (f : FlowCtx) (g : FlowCtx → FlowCtx) (s : State) : State :=
  mirrorFlow false (g f) (updFlow f.table f.key g s)

/-- A lock of 10 ms ends (R224). -/
def execFlowLockLapse (table : Nat) (key : List Byte) (s : State) : Res :=
  .next (match findFlow table key s with
    | none => s
    | some f => match f.lock with
      | none => s
      | some t => tally (ctrId 18 table 4) (writeFlow f lapseCtx (advanceTo (t + 10000000) s)))

/-- A context that aging removes (R221). -/
def idle (ft : FlowTable) (s : State) (f : FlowCtx) : Bool :=
  0 < ft.idle && !f.isStatic && f.lock.isNone && f.last + ft.idle * 1000000000 * tuPerNs < s.tempo.now

def execFlowAging (table : Nat) (s : State) : Res :=
  .next (match flowTable table s with
    | none => s
    | some ft => ((flowsOf table s).filter (idle ft s)).foldl (fun s f => retireFlow 2 f s) s)

end Sys2Proof.Machine
end

