-- ==== Sys2Proof/Machine/DdrBase.lean ====
section
/-! DEFINITION. A DDR4 channel as its readers see it: its counters, the code of a beat, corrected and uncorrectable errors, and the latency targets of the ports (R416, R424 to R426). -/

namespace Sys2Proof.Machine
open Sys2Proof

/-- A DDR4 channel. -/
def ddrOf (n : Nat) (s : State) : DdrChan := s.mem.ddr.getD n State.resetDdr

/-- Change a DDR4 channel. -/
def updDdr (n : Nat) (f : DdrChan → DdrChan) (s : State) : State := { s with mem := { s.mem with ddr := s.mem.ddr.modify n f } }

/-- A channel counter by its index in class 6. -/
def ddrCtr (n idx : Nat) : Nat := ctrId 6 n idx

/-! ### The code of a beat (R424) -/

/-- All flipped bits lie in one 4-bit nibble of the beat. -/
def oneNibble : List Nat → Bool
  | [] => true
  | b :: l => l.all (fun x => x / 4 == b / 4)

/-- The code corrects any single-bit error, and detects any double-bit error and any error within one nibble (R424); what it makes of any
other error is a free value (log 68). -/
def eccOf (flips : List Nat) : Ecc :=
  match flips.length with
  | 0 => .clean
  | 1 => .corrected
  | n => if n = 2 || oneNibble flips then .uncorrectable
    else match Config.eccBeyond flips % 3 with
      | 0 => .clean
      | 1 => .corrected
      | _ => .uncorrectable

/-! ### Errors (R425, R426) -/

/-- Corrected errors of a channel: EV_DDR_CE_RATE when they pass 256 in one Tempo second. -/
def corrected (n k : Nat) (s : State) : State :=
  let sec := secOf s.tempo.now
  let d := ddrOf n s
  let was := if d.ceSec = sec then d.ceSecond else 0
  let s1 := bump (ddrCtr n 0) k (updDdr n (fun d => { d with ceInterval := d.ceInterval + k, ceSecond := was + k, ceSec := sec }) s)
  if was ≤ 256 && 256 < was + k then raiseEvent Ev.ddrCeRate n (was + k) 0 s1 else s1

/-- An uncorrectable error is counted, recorded and reported (R426). -/
def uncorrected (n port address : Nat) (s : State) : State :=
  raiseEvent Ev.ddrUe n port address
    (tally (ddrCtr n 1) (updDdr n (fun d => { d with ueAddr := address % 137438953472, uePort := port }) s))

/-- A word read with the bits that it and a second read find flipped (R425, R426), and whether it is uncorrectable: then it stays so until
it is written. -/
def ddrRead (n port address : Nat) (flips again : List Nat) (s : State) : Bool × State :=
  let stuck := (ddrOf n s).badWords.contains (address / 8)
  if !stuck && eccOf flips == .clean then (false, s)
  else if !stuck && eccOf flips == .corrected then (false, corrected n 1 s)
  else if stuck || eccOf again == .uncorrectable then
    (true, uncorrected n port address (updDdr n (fun d => { d with badWords := d.badWords.erase (address / 8) ++ [address / 8] }) s))
  else (false, tally (ddrCtr n 2) (if eccOf again == .corrected then corrected n 1 s else s))

/-- Latency target of a port in nanoseconds (Table 12-2). -/
def portTarget : Nat → Nat
  | 0 => 1500
  | 1 => 1000
  | 2 => 4000
  | 3 => 5000
  | 4 => 8000
  | _ => 16000

/-- A request of a port that reaches its deadline is counted (R416). -/
def late (n port waited : Nat) (s : State) : State := if portTarget port ≤ waited then tally (ddrCtr n (6 + port)) s else s

end Sys2Proof.Machine
end

