-- ==== Sys2Proof/Machine/Ports.lean ====
section
/-! DEFINITION. Ports and clients as MACs (chapter 03): settings, link state with its hold, flush, dormancy, and the status words. -/

namespace Sys2Proof.Machine
open Sys2Proof

/-! ### Settings (R76 to R80) -/

/-- Speed in Gb/s of SPEED (Table 03-2). -/
def speedGbps (code : Nat) : Nat := [10, 25, 50, 100, 200, 400, 800, 1600].getD code 0

/-- A combination of Table 03-1: SPEED, LANES, LANE_RATE, FEC. -/
def comboOk (speed lanes rate fec : Nat) : Bool :=
  match speed, lanes, rate with
  | 0, 1, 0 => fec == 0
  | 1, 1, 1 => fec ≤ 1
  | 2, 1, 2 => fec == 2
  | 3, 1, 3 => fec == 2
  | 3, 2, 2 => fec == 2
  | 3, 4, 1 => fec == 1
  | 4, 1, 4 => fec == 2
  | 4, 2, 3 => fec == 2
  | 4, 4, 2 => fec == 2
  | 5, 2, 4 => fec == 2
  | 5, 4, 3 => fec == 2
  | 5, 8, 2 => fec == 2
  | 6, 4, 4 => fec == 2
  | 6, 8, 3 => fec == 2
  | 7, 8, 4 => fec == 2
  | _, _, _ => false

/-- A Fine port or client: 400 Gb/s or less (R78). -/
def fine (gbps : Nat) : Bool := gbps ≤ 400

/-- Receive FIFO in bytes (R89). -/
def fifoSize (gbps : Nat) : Nat := max 32768 (gbps * 98304 / 100)

/-- Settings a PHY of a FlexE group leaves unread (R80). -/
def phyCfg (speed lanes rate fec : Nat) : MacCfg :=
  { speed := speed, lanes := lanes, laneRate := rate, fec := fec, maxFrame := 9216, deliverBad := false, cutThrough := false,
    fcMode := 0, flexePhy := true, ctThreshold := 1024, hold := 20, shedRank := 0, defaultPriority := 0,
    classToTxq := 0xFA50, pfcEnable := 0, xoff := 0, xon := 0, headroom := 0, rxCorr := 0, txCorr := 0 }

/-- Settings from offset 6 on (Table 03-2), with the defaults of R80. -/
def macParams (h : HeldCmd) : MacCfg :=
  { speed := 0, lanes := 0, laneRate := 0, fec := 0, maxFrame := (if par h 6 2 = 0 then 9216 else par h 6 2),
    deliverBad := bit (par h 8 4) 0 == 1, cutThrough := bit (par h 8 4) 1 == 1, fcMode := bits (par h 8 4) 3 2,
    flexePhy := bit (par h 8 4) 4 == 1, ctThreshold := (if par h 12 2 = 0 then 1024 else par h 12 2), hold := par h 14 2,
    shedRank := par h 16 1, defaultPriority := par h 17 1, classToTxq := par h 18 2, pfcEnable := par h 20 1,
    xoff := par h 24 4, xon := par h 28 4, headroom := par h 32 4, rxCorr := signed 32 (par h 36 4),
    txCorr := signed 32 (par h 40 4) }

/-- Enabled priorities of a port in PFC mode. -/
def pfcCount (c : MacCfg) : Nat := (List.range 8).countP (fun p => bit c.pfcEnable p == 1)

/-- The thresholds fail a check of R80 or R93. -/
def thresholdsBad (c : MacCfg) (gbps : Nat) : Bool :=
  let k := pfcCount c
  c.fcMode != 0 &&
  (c.xoff % 256 != 0 || c.xon % 256 != 0 || c.headroom % 256 != 0 || c.xoff ≤ c.xon ||
   (if c.fcMode = 1 then fifoSize gbps < c.xoff + c.headroom
    else fifoSize gbps < k * (c.xoff + c.headroom) + (if k = 8 then 0 else 2 * c.maxFrame)))

/-- The form checks of the settings from offset 6 on (R80). -/
def macParamsBad (h : HeldCmd) (gbps : Nat) : Bool :=
  let c := macParams h
  c.maxFrame < 1518 || 16000 < c.maxFrame || bits (par h 8 4) 31 5 != 0 || c.fcMode == 3 || (c.cutThrough && !fine gbps) ||
  c.ctThreshold % 256 != 0 || c.ctThreshold < 256 || 16384 < c.ctThreshold || 500 < c.hold || 15 < c.shedRank ||
  (c.fcMode == 2 && 7 < c.defaultPriority) || !parZero h 21 3 || thresholdsBad c gbps

/-- The 38 bytes from offset 6 on of the settings in force. -/
def macCfgBytes (c : MacCfg) : List Byte :=
  le 2 c.maxFrame ++
  le 4 (b2n c.deliverBad + 2 * b2n c.cutThrough + 4 * c.fcMode + 16 * b2n c.flexePhy) ++ le 2 c.ctThreshold ++ le 2 c.hold ++
  le 1 c.shedRank ++ le 1 c.defaultPriority ++ le 2 c.classToTxq ++ le 1 c.pfcEnable ++ zeros 3 ++ le 4 c.xoff ++
  le 4 c.xon ++ le 4 c.headroom ++ le 4 (unsignedOf 32 c.rxCorr) ++ le 4 (unsignedOf 32 c.txCorr)

/-- Degraded-signal detection that is off (Table 04-9). -/
def noDegrade : Degrade :=
  { action := 0, set := 0, clear := 0, windowsSet := 3, windowsClear := 10, declared := false, badRun := 0, goodRun := 0 }

/-- A new port or client: ADMIN_DOWN, source address zero, never announced (R79, R108, R613). -/
def newMac (c : MacCfg) (gbps : Nat) (s : State) : Mac :=
  { cfg := c, gbps := gbps, sa := zeros 6, link := .adminDown, holdUntil := none, holdExpired := false, debounceAt := none,
    announced := false, pcs := false, localFault := false, remoteFault := false, ctNow := c.ctThreshold, xoffSent := false,
    pfcXoff := 0, refreshAt := none, pfcRefreshAt := [], pausedUntil := none, pfcPausedUntil := [], rx := [], txq := [],
    sending := none, control := [], signal := .off,
    tsFifo := [], tsLossMark := false, dormantByShed := false, nextSub := 0, secNow := [0, 0, 0, 0, 0],
    secLatched := [0, 0, 0, 0, 0], secTempo := 0, failSince := some s.elapsed, gateHeldSec := none, degrade := noDegrade }

/-- New settings of an existing port or client; another FC_MODE starts with nothing sent to the partner and no pause of the partner's in
force, for a port never runs both kinds (R90). -/
def setMacCfg (m : Nat) (c : MacCfg) (gbps : Nat) (s : State) : State :=
  updMac m (fun x =>
    let y := { x with cfg := c, gbps := gbps, ctNow := c.ctThreshold }
    if c.fcMode = x.cfg.fcMode then y
    else { y with xoffSent := false, pfcXoff := 0, refreshAt := none, pfcRefreshAt := [], pausedUntil := none, pfcPausedUntil := [] })
    (settleMac m s)

/-! ### The link (R105 to R110) -/

/-- A client's size in Gb/s from the transmit calendar in use (R124, R125). -/
def clientSize (n : Nat) (s : State) : Nat :=
  match aget s.flexe.clients n with
  | none => 0
  | some c => match aget s.flexe.groups c.group with
    | none => 0
    | some g => 5 * (if g.txB then g.txCalB else g.txCalA).countP (· == n)

/-- A client's received stream is its own: its group is UP, it is not in CAL_MISMATCH, and it holds a slot (R124, R139). -/
def clientFed (n : Nat) (s : State) : Bool :=
  match aget s.flexe.clients n with
  | none => false
  | some c => match aget s.flexe.groups c.group with
    | none => false
    | some g => g.state == .up && !c.mismatch && 0 < clientSize n s

/-- The receiver is powered: neither ADMIN_DOWN nor DORMANT (R105). -/
def powered (x : Mac) : Bool := x.link != .adminDown && x.link != .dormant

/-- PCS aligned and FEC locked; on a client, its stream is fed. -/
def pcsAligned (m : Nat) (x : Mac) (s : State) : Bool := powered x && (if m < 128 then x.pcs else clientFed (m - 128) s)

/-- Local fault (R105). -/
def localFault (m : Nat) (x : Mac) (s : State) : Bool := powered x && (!pcsAligned m x s || x.localFault)

/-- The link is OK (R105, R141). -/
def linkOk (m : Nat) (s : State) : Bool :=
  match mac? m s with
  | none => false
  | some x => pcsAligned m x s && !x.localFault && !x.remoteFault && !(x.degrade.declared && x.degrade.action == 2)

/-- LINK_STATE code (Table 03-7). -/
def linkCode : LinkState → Nat
  | .adminDown => 0 | .down => 1 | .debounce => 2 | .up => 3 | .hold => 4 | .holdDebounce => 5 | .dormant => 6

/-- What the transmitter carries besides frames: remote fault while the part detects local fault, idle while it receives remote fault; it is
off in ADMIN_DOWN and DORMANT (R105, R106, R109). -/
def signalOf (m : Nat) (x : Mac) (s : State) : LineSignal :=
  if !powered x then .off else if localFault m x s then .remoteFault else if x.remoteFault then .idle else .normal

/-- Send another signal where the condition of the link calls for one (R105). -/
def noteSignal (m : Nat) (s : State) : State :=
  match mac? m s with
  | none => s
  | some x =>
    let y := signalOf m x s
    if y = x.signal then s else emit (.signal m y) (updMac m (fun x => { x with signal := y }) s)

/-- Follow the signal sent, and the time during which the link has failed (PRT_SEC_FAIL_MS). -/
def noteFail (m : Nat) (s0 : State) : State :=
  let s := noteSignal m s0
  let ok := linkOk m s
  updMac m (fun x =>
    match x.failSince, ok with
    | some t, true => { x with failSince := none, secNow := x.secNow.modify 2 (· + (s.elapsed - t)) }
    | none, false => { x with failSince := some s.elapsed }
    | _, _ => x) s

/-- The frame in transmission is lost with PORT_DOWN, counted in port.tx.flush (R107). -/
def loseSending (m : Nat) (s : State) : State :=
  match (mac? m s).bind (·.sending) with
  | none => s
  | some f => tally (portCtr m 0x178) (endPkt f.frame.pkt St.portDown m (dropCause St.portDown (updMac m (fun x => { x with sending := none }) s)))

/-- A flush (R108): TXQs and leaf queues are discarded with PORT_DOWN, and the port is withdrawn; a FlexE PHY has no MAC, and nothing queued. -/
def flush (m : Nat) (s : State) : State :=
  match mac? m s with
  | none => s
  | some x =>
    if x.cfg.flexePhy then raiseEvent Ev.portFlushed m 0 0 s
    else
      let (a, s1) := flushTxq m (settleMac m s)
      let (b, s2) := flushLeaves m s1
      let s3 := raiseEvent Ev.portFlushed m (a + b) 0 (updMac m (fun x => { x with announced := false }) s2)
      if x.announced then announcePort false m s3 else s3

/-- Move a port or client to a link state; its shapers are settled first, and outside UP no frame stays in transmission. -/
def setLink (m : Nat) (st : LinkState) (f : Mac → Mac) (s : State) : State :=
  updMac m (fun x => f { x with link := st }) (settleMac m (if st == .up then s else loseSending m s))

/-- No timer of Table 03-4 runs. -/
def noTimers (x : Mac) : Mac := { x with holdUntil := none, holdExpired := false, debounceAt := none }

/-- Tempo after `ms` milliseconds: the time of Table 03-4 is measured by Tempo (R106). -/
def tempoIn (ms : Nat) (s : State) : Nat := s.tempo.now + ms * 1000000 * tuPerNs

/-- Leave UP because the link failed (Table 03-4). -/
def leaveUp (m : Nat) (x : Mac) (s : State) : State :=
  let s1 := tally (portCtr m 0x180) (updMac m (fun x => { x with secNow := x.secNow.modify 1 (· + 1) }) s)
  if 0 < x.cfg.hold then
    raiseEvent Ev.portLinkDown m 4 0
      (setLink m .hold (fun x => { x with holdUntil := some (tempoIn x.cfg.hold s), holdExpired := false }) s1)
  else raiseEvent Ev.portLinkDown m 1 0 (flush m (setLink m .down noTimers s1))

/-- The link condition moves the link state as Table 03-4 says. -/
def linkStep (m : Nat) (s : State) : State :=
  match mac? m s with
  | none => s
  | some x =>
    let ok := linkOk m s
    let s1 := match x.link with
      | .down => if ok then setLink m .debounce (fun x => { x with debounceAt := some (tempoIn 10 s) }) s else s
      | .debounce => if ok then s else setLink m .down noTimers s
      | .up => if ok then s else leaveUp m x s
      | .hold => if ok then setLink m .holdDebounce (fun x => { x with debounceAt := some (tempoIn 10 s) }) s else s
      | .holdDebounce =>
        if ok then s
        else if x.holdExpired then flush m (setLink m .down noTimers s)
        else setLink m .hold (fun x => { x with debounceAt := none }) s
      | _ => s
    noteFail m s1

/-- TXQ frames over age when transmission resumes (R107). -/
def dropAgedTx (m : Nat) (s : State) : State :=
  match mac? m s with
  | none => s
  | some x =>
    let old := (avals x.txq).flatMap (fun l => l.filter (fun f => tooOld f.pkt.ts s))
    old.foldl (fun s f => endPkt f.pkt St.age m (dropCause St.age s))
      (updMac m (fun x => { x with txq := x.txq.map (fun q => (q.1, q.2.filter (fun f => !tooOld f.pkt.ts s))) }) s)

/-- `UP_DEBOUNCE_END`: DEBOUNCE or HOLD_DEBOUNCE to UP. -/
def execUpDebounceEnd (mac : Nat) (s : State) : Res :=
  .next (match mac? mac s with
    | none => s
    | some x =>
      match x.debounceAt with
      | none => s
      | some t =>
        let s1 := advanceTempo t s
        if x.link == .debounce then
          let s2 := setLink mac .up (fun x => { noTimers x with announced := !x.cfg.flexePhy }) s1
          raiseEvent Ev.portLinkUp mac 0 0 (if x.cfg.flexePhy then s2 else announcePort true mac s2)
        else if x.link == .holdDebounce then dropAgedTx mac (setLink mac .up noTimers s1)
        else s1)

/-- `HOLD_TIMER_EXPIRY`: HOLD to DOWN with a flush; in HOLD_DEBOUNCE the expiry is kept in mind. -/
def execHoldTimerExpiry (mac : Nat) (s : State) : Res :=
  .next (match mac? mac s with
    | none => s
    | some x =>
      match x.holdUntil with
      | none => s
      | some t =>
        let s1 := advanceTempo t s
        if x.link == .hold then flush mac (setLink mac .down noTimers s1)
        else if x.link == .holdDebounce then updMac mac (fun x => { x with holdExpired := true }) s1
        else s1)

/-- Receiver powered down: what it saw is gone (R105). -/
def deaf (x : Mac) : Mac := { noTimers x with pcs := false, localFault := false, remoteFault := false }

/-- To ADMIN_DOWN (Table 03-4). -/
def toAdminDown (m : Nat) (s : State) : State :=
  match mac? m s with
  | none => s
  | some x =>
    if x.link == .adminDown then s
    else
      let s1 := noteFail m (setLink m .adminDown (fun x => { deaf x with dormantByShed := false }) s)
      if x.link == .dormant then s1 else flush m s1

/-- To DORMANT, by command or by a shed level (R109, R110). -/
def toDormant (byShed : Bool) (m : Nat) (s : State) : State :=
  match mac? m s with
  | none => s
  | some x =>
    if x.link == .adminDown then s
    else if x.link == .dormant then updMac m (fun x => { x with dormantByShed := x.dormantByShed && byShed }) s
    else
      raiseEvent Ev.portDormant m 0 0
        (flush m (noteFail m (setLink m .dormant (fun x => { deaf x with dormantByShed := byShed }) s)))

/-- From ADMIN_DOWN or DORMANT to DOWN: link acquisition starts. -/
def toDown (m : Nat) (s : State) : State :=
  match mac? m s with
  | none => s
  | some x =>
    if x.link == .adminDown || x.link == .dormant then
      linkStep m (setLink m .down (fun x => { deaf x with dormantByShed := false }) s)
    else s

/-- STATE of `port.admin` and `flexe.client.admin` (Table 03-9). -/
def adminTo (state m : Nat) (s : State) : State :=
  if heldDown m s then holdItem m (state == 1) s
  else if state = 0 then toAdminDown m s else if state = 1 then toDown m s else toDormant false m s

/-! ### Status words (Tables 03-6, 03-7) -/

/-- PRT_STATUS. -/
def prtStatus (m : Nat) (s : State) : Nat :=
  match mac? m s with
  | none => b2n s.toll.running * 2 ^ 27
  | some x =>
    linkCode x.link * 2 ^ 28 + b2n s.toll.running * 2 ^ 27 + b2n (x.ctNow == 16384) * 2 ^ 26 + b2n (localFault m x s) * 2 ^ 25 +
    b2n (powered x && x.remoteFault) * 2 ^ 24 + b2n (pcsAligned m x s) * 2 ^ 23 + b2n x.xoffSent * 2 ^ 22 +
    b2n (x.pausedUntil.any (fun t => s.elapsed < t)) * 2 ^ 21 +
    ((List.range 8).foldl (fun n p => n + b2n (s.elapsed < agetD x.pfcPausedUntil p 0) * 2 ^ p) 0) * 256 + x.pfcXoff

/-- PRT_CT_STATUS. -/
def ctStatus (m : Nat) (s : State) : Nat := ((mac? m s).map (·.ctNow)).getD 1024

/-- Hold time left in ms (Table 03-9). -/
def holdLeft (x : Mac) (s : State) : Nat :=
  if x.link == .hold || x.link == .holdDebounce then (x.holdUntil.getD 0 - s.tempo.now) / tuPerNs / 1000000 else 0

/-! ### Port nodes (R80, R81) -/

/-- Port nodes in use: ports with a MAC, and clients. -/
def portNodes (s : State) : Nat := s.macs.countP (fun p => !p.2.cfg.flexePhy)

/-- A port node that cannot be freed (R81). -/
def nodeInUse (m : Nat) (s : State) : Bool :=
  (avals s.cfg.channels ++ avals (nextConf s).channels).any (fun c => c.parent == m) ||
  liveOrStaged (fun c => ahas c.gateLists m) s || (gateRun m s).list.isSome

/-- A change that sets a port node's shaper. -/
def isPortSched (m : Nat) : Change → Bool
  | .portSched n _ => n == m
  | _ => false

/-- Discard a port node's settings with it (R81). -/
def dropNode (m : Nat) (s : State) : State :=
  let forget := fun (c : Conf) => { c with portScheds := adel c.portScheds m }
  { s with cfg := forget s.cfg,
           staged := s.staged.filter (fun x => !isPortSched m x.change),
           commits := s.commits.map (fun c => { c with retained := c.retained.map forget }),
           sched := { s.sched with ports := adel s.sched.ports m, gates := adel s.sched.gates m, served := adel s.sched.served m } }

/-- A port that is a PHY of a group, and the group (R117). -/
def phyGroup (port : Nat) (s : State) : Option Nat :=
  (s.flexe.groups.find? (fun g => g.2.phys.any (fun p => p.1 == port))).map (·.1)

/-- Lanes of two ports overlap (R77). -/
def lanesMeet (a n b k : Nat) : Bool := a < b + k && b < a + n

/-! ### Commands (Table 03-9) -/

/-- SPEED, LANES, LANE_RATE, FEC or FLEXE_PHY differs (R79). -/
def shapeDiffers (a b : MacCfg) : Bool :=
  a.speed != b.speed || a.lanes != b.lanes || a.laneRate != b.laneRate || a.fec != b.fec || a.flexePhy != b.flexePhy

/-- The settings that `port.config` asks for. -/
def portCfgOf (h : HeldCmd) : MacCfg :=
  if bit (par h 8 4) 4 = 1 then phyCfg (par h 2 1) (par h 3 1) (par h 4 1) (par h 5 1)
  else { macParams h with speed := par h 2 1, lanes := par h 3 1, laneRate := par h 4 1, fec := par h 5 1 }

/-- SPEED of a FlexE PHY: 100, 200 or 400 Gb/s (R116). -/
def phyType (speed : Nat) : Bool := 3 ≤ speed && speed ≤ 5

/-- `port.config` (R79, R80, R116). -/
def portConfig (h : HeldCmd) (s : State) : Verdict :=
  let m := par h 0 2
  let c := portCfgOf h
  let gbps := speedGbps c.speed
  if 80 ≤ m || !comboOk c.speed c.lanes c.laneRate c.fec || (if c.flexePhy then !phyType c.speed else macParamsBad h gbps) then
    .refuse St.invalidParam
  else if (m % 10) % c.lanes != 0 || 10 < m % 10 + c.lanes then .refuse St.laneGroup
  else if s.macs.any (fun p => p.1 < 80 && p.1 != m && lanesMeet m c.lanes p.1 p.2.cfg.lanes) then .refuse St.laneConflict
  else match mac? m s with
    | none =>
      if !c.flexePhy && 192 ≤ portNodes s then .refuse St.noResource
      else .done St.ok [] { s with macs := aset s.macs m (newMac c gbps s) }
    | some x =>
      let reshape := shapeDiffers c x.cfg
      if reshape && (phyGroup m s).isSome then .refuse St.flexeMember
      else if reshape && x.link != .adminDown then .refuse St.portBusy
      else if c.flexePhy && !x.cfg.flexePhy && nodeInUse m s then .refuse St.nodeInUse
      else if !c.flexePhy && x.cfg.flexePhy && 192 ≤ portNodes s then .refuse St.noResource
      else .done St.ok [] (setMacCfg m c gbps (if c.flexePhy && !x.cfg.flexePhy then dropNode m s else s))

def specPortConfig : CmdSpec := ⟨44, .effect, portConfig⟩
def execPortConfig (c : Cmd) (s : State) : Res := runCmd 0x0201 specPortConfig c s

/-- Discard a port or client with everything it holds. -/
def dropMac (m : Nat) (s : State) : State :=
  let s1 := match mac? m s with
    | some x => (avals x.rx).foldl (fun s (l : List Pkt) => l.foldl (fun s p => discard St.portDown p s) s) (flushTxq m s).2
    | none => s
  dropNode m { s1 with macs := adel s1.macs m }

/-- `port.delete` (R79, R81). -/
def portDelete (h : HeldCmd) (s : State) : Verdict :=
  let m := par h 0 2
  if 80 ≤ m || !parZero h 2 2 then .refuse St.invalidParam
  else match mac? m s with
    | none => .refuse St.notFound
    | some x =>
      if (phyGroup m s).isSome then .refuse St.flexeMember
      else if x.link != .adminDown then .refuse St.portBusy
      else if nodeInUse m s then .refuse St.nodeInUse
      else .done St.ok [] (dropMac m { s with flexe := { s.flexe with lines := adel s.flexe.lines m } })

def specPortDelete : CmdSpec := ⟨4, .effect, portDelete⟩
def execPortDelete (c : Cmd) (s : State) : Res := runCmd 0x0202 specPortDelete c s

/-- `port.admin` (R79, R82). -/
def portAdmin (h : HeldCmd) (s : State) : Verdict :=
  let m := par h 0 2
  if 80 ≤ m || 2 < par h 2 1 || !parZero h 3 1 then .refuse St.invalidParam
  else match mac? m s with
    | none => .refuse St.notFound
    | some _ =>
      if (phyGroup m s).isSome then .refuse St.flexeMember
      else .done St.ok [] (adminTo (par h 2 1) m s)

def specPortAdmin : CmdSpec := ⟨4, .effect, portAdmin⟩
def execPortAdmin (c : Cmd) (s : State) : Res := runCmd 0x0203 specPortAdmin c s

/-- The response of `port.query` (Table 03-9). -/
def portQueryResp (m : Nat) (x : Mac) (s : State) : List Byte :=
  le 2 m ++ le 1 x.cfg.speed ++ le 1 x.cfg.lanes ++ le 1 x.cfg.laneRate ++ le 1 x.cfg.fec ++ macCfgBytes x.cfg ++
  le 4 (prtStatus m s) ++ le 4 (ctStatus m s) ++ le 4 (holdLeft x s) ++ fit 6 x.sa ++ zeros 2

/-- `port.query` (R82). -/
def portQuery (h : HeldCmd) (s : State) : Verdict :=
  let m := par h 0 2
  if 80 ≤ m || !parZero h 2 2 then .refuse St.invalidParam
  else match mac? m s with
    | none => .refuse St.notFound
    | some x => .done St.ok (portQueryResp m x s) s

def specPortQuery : CmdSpec := ⟨4, .query, portQuery⟩
def execPortQuery (c : Cmd) (s : State) : Res := runCmd 0x0204 specPortQuery c s

/-- `port.mac.set` (R613). -/
def portMacSet (h : HeldCmd) (s : State) : Verdict :=
  let m := par h 0 2
  if 256 ≤ m || (80 ≤ m && m < 128) || bit (par h 2 1) 0 == 1 then .refuse St.invalidParam
  else if !hasMac m s then .refuse St.notFound
  else .done St.ok [] (updMac m (fun x => { x with sa := slice (pars h) 2 6 }) s)

def specPortMacSet : CmdSpec := ⟨8, .effect, portMacSet⟩
def execPortMacSet (c : Cmd) (s : State) : Res := runCmd 0x0206 specPortMacSet c s

end Sys2Proof.Machine
end

