-- ==== Sys2Proof/Machine/Frames.lean ====
section
/-! DEFINITION. Frames at the MAC: receive checks and FIFO, flow control, transmit queues, timestamps (R83 to R104, R284). -/

namespace Sys2Proof.Machine
open Sys2Proof

/-- A correction in units of 1/65,536 ns as Tempo units. -/
def corrTu (c : Int) : Int := c * (tuPerNs : Int) / 65536

/-- Tempo now, adjusted by a port's correction (R100). -/
def stamp (corr : Int) (s : State) : Nat := ((s.tempo.now : Int) + corrTu corr).toNat

/-! ### Flow control toward the partner (R90 to R93) -/

/-- A packet from receive sub-queue `p` of port or client `m` that QD holds up (R237, R242). -/
def fromSub (m p : Nat) (w : Waiting) : Bool := w.pkt.source == m && !w.pkt.injected && w.pkt.subQueue == p && w.leaf.isNone && w.punt.isNone

/-- Packets of a sub-queue that wait at its head after a refusal. -/
def heldUp (m p : Nat) (s : State) : List Pkt := (s.qdm.waiting.filter (fromSub m p)).map (·.pkt)

/-- Bytes of a sub-queue of the receive FIFO. -/
def occSub (m : Nat) (x : Mac) (s : State) (p : Nat) : Nat := bytesOf (agetD x.rx p []) + bytesOf (heldUp m p s)

/-- Bytes of the whole FIFO. -/
def occAll (m : Nat) (x : Mac) (s : State) : Nat := (List.range 8).foldl (fun n p => n + occSub m x s p) 0

/-- A quanta value in ns at the port speed, halved for the refresh (R92, R94). -/
def quantaNs (x : Mac) (q : Nat) : Nat := q * 512 / max x.gbps 1

/-- The address of pause and PFC frames (R92). -/
def pauseMac : List Byte := [0x01, 0x80, 0xC2, 0x00, 0x00, 0x01]

/-- A MAC control frame's body. -/
def controlBody (sa payload : List Byte) : List Byte := fit 60 (pauseMac ++ fit 6 sa ++ [0x88, 0x08] ++ payload)

/-- A pause frame with a quanta value. -/
def pauseBody (sa : List Byte) (quanta : Nat) : List Byte := controlBody sa (be 2 1 ++ be 2 quanta)

/-- A PFC frame: enable vector, and the priorities whose time is 0xFFFF. -/
def pfcBody (sa : List Byte) (enable on : Nat) : List Byte :=
  controlBody sa (be 2 0x0101 ++ be 2 enable ++ (List.range 8).flatMap (fun p => be 2 (if bit on p = 1 then 0xFFFF else 0)))

/-- Priorities that are in XOFF after a look at the occupancies, from those in force. -/
def pfcWanted (m : Nat) (x : Mac) (s : State) : Nat :=
  (List.range 8).foldl (fun n p =>
    let on := bit x.cfg.pfcEnable p == 1 &&
      (if bit x.pfcXoff p = 1 then x.cfg.xon ≤ occSub m x s p else x.cfg.xoff ≤ occSub m x s p)
    n + b2n on * 2 ^ p) 0

/-- XOFF of the port after a look at its occupancy. -/
def pauseWanted (m : Nat) (x : Mac) (s : State) : Bool :=
  if x.xoffSent then x.cfg.xon ≤ occAll m x s else x.cfg.xoff ≤ occAll m x s

/-- Half of the time of quanta 0xFFFF from now (R92). -/
def refreshIn (x : Mac) (s : State) : Nat := s.elapsed + quantaNs x 0xFFFF / 2

/-- The priorities of a mask. -/
def priorities (mask : Nat) : List Nat := (List.range 8).filter (fun p => bit mask p == 1)

/-- Queue the pause or PFC frame that the occupancies call for; every priority that enters XOFF starts its own refresh (R92). -/
def checkXoff (m : Nat) (s : State) : State :=
  updMac m (fun x =>
    if x.cfg.fcMode = 1 then
      let on := pauseWanted m x s
      if on = x.xoffSent then x
      else { x with xoffSent := on, refreshAt := (if on then some (refreshIn x s) else none), control := x.control ++ [.pause on] }
    else if x.cfg.fcMode = 2 then
      let on := pfcWanted m x s
      if on = x.pfcXoff then x
      else { x with pfcXoff := on, control := x.control ++ [.pfc (on ^^^ x.pfcXoff) on],
                    pfcRefreshAt := (priorities on).foldl (fun t p => if ahas t p then t else aset t p (refreshIn x s))
                      (x.pfcRefreshAt.filter (fun e => bit on e.1 == 1)) }
    else x) s

/-- Repeat the pause frame, or the PFC frame of the priorities whose refresh has come (R92). -/
def refreshPause (m : Nat) (s : State) : State :=
  updMac m (fun x =>
    let due := x.pfcRefreshAt.filter (fun e => decide (e.2 ≤ s.elapsed))
    let mask := due.foldl (fun n e => n ||| 2 ^ e.1) 0
    { x with
      refreshAt := x.refreshAt.map (fun t => if t ≤ s.elapsed then refreshIn x s else t),
      pfcRefreshAt := due.foldl (fun t e => aset t e.1 (refreshIn x s)) x.pfcRefreshAt,
      control := x.control ++ (if x.refreshAt.any (fun t => t ≤ s.elapsed) then [.pause true] else []) ++
        (if mask = 0 then [] else [.pfc mask mask]) }) s

/-- `PAUSE_REFRESH`: half of the quanta time has passed with the occupancy still at XON or above (R92). -/
def execPauseRefresh (mac : Nat) (s : State) : Res :=
  .next (match mac? mac s with
    | none => s
    | some x =>
      match (x.refreshAt.toList ++ avals x.pfcRefreshAt) with
      | [] => s
      | t :: l => refreshPause mac (advanceTo (l.foldl min t) s))

/-! ### Received MAC control frames (R94) -/

/-- A MAC control frame by its EtherType. -/
def isControl (f : List Byte) : Bool := rdBe f 12 2 == 0x8808

/-- Act on a received pause or PFC frame where it matches FC_MODE; count and discard every MAC control frame. -/
def macControl (m : Nat) (f : List Byte) (s : State) : State :=
  match mac? m s with
  | none => s
  | some x =>
    let s1 := dropCause St.macControl s
    let addressed := f.take 6 == pauseMac
    if addressed && x.cfg.fcMode == 1 && rdBe f 14 2 == 1 then
      let q := rdBe f 16 2
      tally (portCtr m 0x130)
        (updMac m (fun x => { x with pausedUntil := if q = 0 then none else some (s.elapsed + quantaNs x q) }) (settleMac m s1))
    else if addressed && x.cfg.fcMode == 2 && rdBe f 14 2 == 0x0101 then
      (List.range 8).foldl (fun s p =>
        if bit (rdBe f 16 2) p = 1 then
          let q := rdBe f (18 + 2 * p) 2
          tally (portCtr m (0x188 + 8 * p)) (updMac m (fun x => { x with
            pfcPausedUntil := if q = 0 then adel x.pfcPausedUntil p else aset x.pfcPausedUntil p (s.elapsed + quantaNs x q) }) s)
        else s) (settleMac m s1)
    else tally (portCtr m 0x138) s1

/-- `PAUSE_EXPIRY`: the time of a pause, or of a priority's, has passed. -/
def execPauseExpiry (mac : Nat) (priority : Option Nat) (s : State) : Res :=
  .next (match mac? mac s with
    | none => s
    | some x =>
      match priority with
      | none => match x.pausedUntil with
        | none => s
        | some t => updMac mac (fun x => { x with pausedUntil := none }) (settleMac mac (advanceTo t s))
      | some p => match aget x.pfcPausedUntil p with
        | none => s
        | some t => updMac mac (fun x => { x with pfcPausedUntil := adel x.pfcPausedUntil p }) (settleMac mac (advanceTo t s)))

/-! ### Receive checks (R84 to R91) -/

/-- Priority of a frame in PFC mode (R90). -/
def framePriority (x : Mac) (f : List Byte) : Nat :=
  if rdBe f 12 2 = 0x8100 || rdBe f 12 2 = 0x88A8 then bits (rdBe f 14 2) 15 13 else x.cfg.defaultPriority

/-- Room for a frame of `n` bytes in its sub-queue (R91). -/
def fifoRoom (m : Nat) (x : Mac) (s : State) (p n : Nat) : Bool :=
  if x.cfg.fcMode = 2 then
    let share := x.cfg.xoff + x.cfg.headroom
    if bit x.cfg.pfcEnable p = 1 then occSub m x s p + n ≤ share
    else
      let others := (List.range 8).foldl (fun a q => if bit x.cfg.pfcEnable q = 1 then a else a + occSub m x s q) 0
      others + n + pfcCount x.cfg * share ≤ fifoSize x.gbps
  else occAll m x s + n ≤ fifoSize x.gbps

/-- A packet as it enters its stages. -/
def newPkt (bytes : List Byte) (len source ts : Nat) : Pkt :=
  { bytes := bytes, len := len, source := source, injected := false, pass := 0, ts := ts, profile := 0xFFFF, cls := 0,
    dest := 0xFFFF, nh := none, encap := none, pop := 0, decTtl := false, writes := [], ecn := false, copy := false,
    vrf := none, peal := none, direct := false, leaf := 0, ptp := (0, 0), inject := none, store := none, bad := 0, subQueue := 0,
    stream := none }

/-- Put a frame in the receive FIFO, or discard it with RX_FIFO_FULL. -/
def toFifo (m : Nat) (x : Mac) (pri : Nat) (p : Pkt) (s : State) : State :=
  let sub := if x.cfg.fcMode = 2 then pri else 0
  if fifoRoom m x s sub p.len then
    checkXoff m (updMac m (fun x => { x with rx := aset x.rx sub (agetD x.rx sub [] ++ [{ p with subQueue := sub }]) }) s)
  else dropCause St.rxFifoFull (tally (portCtr m 0x128) s)

/-- The MAC receives frames: aligned, neither ADMIN_DOWN nor DORMANT (R85). -/
def receives (m : Nat) (x : Mac) (s : State) : Bool := !x.cfg.flexePhy && pcsAligned m x s

/-- A frame of `n` bytes arrives whole (Table 03-3); `good`: its FCS is right and no code error lies in it. -/
def receiveFrame (m : Nat) (f : List Byte) (codeError : Bool) (s : State) : State :=
  match mac? m s with
  | none => s
  | some x =>
    let n := f.length
    let good := fcsGood f && !codeError
    let ts := stamp x.cfg.rxCorr s
    let pkt := { newPkt (f.take (n - 4)) n m ts with bad := 0 }
    let held := standbyPort m s
    let deliver := fun bad p s =>
      if held then dropCause St.standby (tally (ctrId 8 0 2) s)
      else if x.cfg.deliverBad then toFifo m x (framePriority x f) { p with bad := bad } s else s
    if !receives m x s || n = 0 then s
    else if n < 14 then dropCause St.runt (tally (portCtr m 0x110) s)
    else if n < 64 then
      let s1 := tally (portCtr m 0x110) s
      if x.cfg.deliverBad then deliver (1 + 2 * b2n (!good)) pkt s1 else dropCause St.runt s1
    else if x.cfg.maxFrame < n then
      let s1 := tally (portCtr m 0x118) s
      if x.cfg.deliverBad then deliver 4 { pkt with bytes := f.take 256, len := 256 } s1 else dropCause St.oversize s1
    else if !good then
      let s1 := tally (portCtr m 0x120) (updMac m (fun x => { x with secNow := x.secNow.modify 0 (· + 1) }) s)
      if x.cfg.deliverBad then deliver 2 pkt s1 else dropCause St.fcsError s1
    else
      let s1 := bump (portCtr m 0x108) n (tally (portCtr m 0x100) s)
      if isControl f then macControl m f s1
      else if held then dropCause St.standby (tally (ctrId 8 0 2) s1)
      else toFifo m x (framePriority x f) pkt s1

def execFrameReceived (mac : Nat) (frame : List Byte) (codeError : Bool) (s : State) : Res :=
  .next (receiveFrame mac frame codeError s)

def execMacControlFrameRx (mac : Nat) (frame : List Byte) (s : State) : Res := .next (receiveFrame mac frame false s)

/-! ### One-step timestamps (R101, R102) -/

/-- One's complement sum of 16-bit words, folded. -/
def fold16 (n : Nat) : Nat := iter (fun v => v % 65536 + v / 65536) 5 n

/-- The 16-bit words of a byte string. -/
def words16 : List Byte → List Nat
  | a :: b :: t => (a.toNat * 256 + b.toNat) :: words16 t
  | [a] => [a.toNat * 256]
  | [] => []

/-- An Internet checksum updated for bytes that changed. -/
def csumUpdate (old : Nat) (was now' : List Byte) : Nat :=
  65535 - fold16 ((65535 - old % 65536) + ((words16 was).foldl (fun n w => n + (65535 - w)) 0) + (words16 now').foldl (· + ·) 0)

/-- The UDP header before message offset `o` follows an IPv6 header. -/
def overIpv6 (f : List Byte) (o : Nat) : Bool :=
  48 ≤ o && rdBe f (o - 6) 2 == 319 && rdBe f (o - 48) 1 / 16 == 6 && rdBe f (o - 42) 1 == 17

/-- It follows an IPv4 header, of any length that IHL gives. -/
def overIpv4 (f : List Byte) (o : Nat) : Bool :=
  28 ≤ o && rdBe f (o - 6) 2 == 319 &&
  (List.range 11).any (fun k => 28 + 4 * k ≤ o && rdBe f (o - 28 - 4 * k) 1 == 0x45 + k && rdBe f (o - 19 - 4 * k) 1 == 17)

/-- The message over Ethernet. -/
def overEthernet (f : List Byte) (o : Nat) : Bool := 2 ≤ o && rdBe f (o - 2) 2 == 0x88F7

/-- A PTP event message, Sync, Delay_Req, Pdelay_Req or Pdelay_Resp, by its messageType (IEEE 1588, log 6). -/
def eventMessage (f : List Byte) (o : Nat) : Bool := rdBe f o 1 % 16 < 4

/-- The message bytes an action leaves: correctionField at offset 8, originTimestamp at offset 34 (IEEE 1588, log 6). -/
def ptpMessage (action ingress egress : Nat) (msg : List Byte) : List Byte :=
  let add := fun (d : Int) => be 8 (unsignedOf 64 ((rdBe msg 8 8 : Int) + d))
  if action = 1 then patch msg 8 (add (((egress : Int) - (ingress : Int)) * 65536 / (tuPerNs : Int)))
  else patch (patch msg 8 (add (fracOf egress : Int))) 34 (be 6 (secOf egress) ++ be 4 (nsOf egress))

/-- Apply a one-step action to a frame without FCS; the UDP checksum follows. -/
def oneStep (ptp : Nat × Nat) (ingress egress : Nat) (f : List Byte) : List Byte :=
  let o := ptp.2
  if ptp.1 = 0 || !eventMessage f o || !(overEthernet f o || overIpv6 f o || overIpv4 f o) then f
  else
    let msg := slice f o 44
    let new := ptpMessage ptp.1 ingress egress msg
    let g := patch f o new
    let old := rdBe f (o - 2) 2
    if overEthernet f o || (old = 0 && !overIpv6 f o) then g
    else
      let c := csumUpdate old msg new
      patch g (o - 2) (be 2 (if c = 0 then 65535 else c))

/-! ### Transmission (R95 to R104, R284) -/

/-- Queue a frame on its TXQ after its egress pass. -/
def toTxq (m q : Nat) (f : TxFrame) (s : State) : State :=
  updMac m (fun x => { x with txq := aset x.txq q (txq x q ++ [f]) }) s

/-- The frame at the head of a TXQ may start: its class is not paused and its gate stays open (R96, R284). -/
def mayStart (m : Nat) (x : Mac) (f : TxFrame) (s : State) : Bool :=
  !pausedAt x f.cls s.elapsed && openForStart m f.gate (f.out.length + 4) x s

/-- Count heads that their gate holds, each once; EV_GATE_HELD for the first of a Tempo second (R284, R288). -/
def noteHeld (m q : Nat) (s : State) : State :=
  match mac? m s with
  | none => s
  | some x =>
    match txq x q with
    | [] => s
    | f :: t =>
      if f.held || pausedAt x f.cls s.elapsed || openForStart m f.gate (f.out.length + 4) x s then s
      else
        let sec := secOf s.tempo.now
        let s1 := tally (ctrId 25 (m * 8 + f.gate) 0)
          (updMac m (fun x => { x with txq := aset x.txq q ({ f with held := true } :: t), gateHeldSec := some sec }) s)
        if x.gateHeldSec = some sec then s1 else raiseEvent Ev.gateHeld m f.gate 0 s1

/-- Take a capture into the timestamp FIFO: whether it is stored (R103, R104). -/
def captureTs (m seqTag ts : Nat) (s : State) : Bool × State :=
  match mac? m s with
  | none => (false, s)
  | some x =>
    if x.tsFifo.length < 64 then
      (true, updMac m (fun x => { x with
        tsFifo := x.tsFifo ++ [{ seqTag := seqTag, ts := ts }], tsLossMark := x.tsLossMark && !x.tsFifo.isEmpty }) s)
    else
      let s1 := tally (portCtr m 0x170) (updMac m (fun x => { x with tsLossMark := true }) s)
      (false, if x.tsLossMark then s1 else raiseEvent Ev.portTsLost m seqTag 0 s1)

/-- The completion of a frame that the MAC has sent (R103, R365). -/
def sentDone (m ts status : Nat) (p : Pkt) (s : State) : State :=
  match p.inject with
  | none => s
  | some i =>
    if i.capture && status = St.ok then
      let (kept, s1) := captureTs m i.seqTag ts s
      injectDone i status (if kept then some ts else none) (!kept) m s1
    else injectDone i status none false m s

/-- A frame of `len` bytes starts before the whole of it is in its TXQ: only such a frame can run short (R97, R99). -/
def cutsThrough (x : Mac) (len : Nat) : Bool := fine x.gbps && x.cfg.cutThrough && x.ctNow < 16384 && x.ctNow < len

/-- An underrun raises the threshold (R99). -/
def raiseCt (m : Nat) (s : State) : State :=
  match mac? m s with
  | none => s
  | some x =>
    let n := min 16384 (x.ctNow + 256)
    raiseEvent Ev.portCtRaised m n 0 (updMac m (fun x => { x with ctNow := n }) s)


/-- The head frame of a TXQ starts: its timestamp is taken and its one-step action applied (R100, R101). -/
def startFrame (x : Mac) (f : TxFrame) (s : State) : SentFrame :=
  let ts := stamp x.cfg.txCorr s
  { frame := f, out := oneStep f.pkt.ptp f.pkt.ts ts f.out, ts := ts }

/-- A frame in transmission ends: complete, or with the complement of its FCS after it was found bad or ran short, on a port of either kind
(R98, R99). -/
def endFrame (m : Nat) (x : Mac) (f : SentFrame) (bad : Option Nat) (underrun : Bool) (s : State) : State :=
  let fcs := crc32 f.out
  let starved := underrun && cutsThrough x (f.out.length + 4)
  let stomped := bad.isSome || starved
  let s1 := emit (.frame m (f.out ++ le 4 (if stomped then 4294967295 - fcs else fcs)) f.ts stomped)
    (updMac m (fun x => { x with sending := none }) s)
  let s2 := if stomped then tally (portCtr m 0x150) s1
    else bump (portCtr m 0x148) (f.out.length + 4) (tally (portCtr m 0x140) s1)
  let s3 := match bad with
    | some c => dropCause c s2
    | none => s2
  let s4 := if starved then raiseCt m (tally (portCtr m 0x158) s3) else s3
  sentDone m f.ts (bad.getD St.ok) f.frame.pkt s4

/-- A frame in transmission goes on as the row says. -/
def goOn (m : Nat) (x : Mac) (f : SentFrame) (ends : TxEnd) (underrun : Bool) (s : State) : State :=
  match ends with
  | .sent => endFrame m x f none underrun s
  | .bad c => endFrame m x f (some c) underrun s
  | .begun => updMac m (fun x => { x with sending := some f }) s

/-- The bytes of a pause or PFC frame, FCS excluded, with the source address in force (R92, R613). -/
def controlBytes (x : Mac) : ControlFrame → List Byte
  | .pause on => pauseBody x.sa (if on then 0xFFFF else 0)
  | .pfc enable on => pfcBody x.sa enable on

/-- Send a pause or PFC frame (R92). -/
def sendControlFrame (m : Nat) (x : Mac) (c : ControlFrame) (s : State) : State :=
  let b := controlBytes x c
  let s1 := emit (.frame m (b ++ le 4 (crc32 b)) (stamp x.cfg.txCorr s) false)
    (tally (portCtr m 0x168) (updMac m (fun x => { x with control := x.control.drop 1 }) s))
  match c with
  | .pause _ => s1
  | .pfc enable _ => (priorities enable).foldl (fun s p => tally (portCtr m (0x1C8 + 8 * p)) s) s1

/-- The MAC starts a frame: of the highest TXQ whose head may start (R95, R96). -/
def startNext (m : Nat) (x : Mac) (ends : TxEnd) (underrun : Bool) (s : State) : State :=
  let pick := [3, 2, 1, 0].find? (fun q => ((txq x q).head?).any (fun f => mayStart m x f s))
  let s1 := ([3, 2, 1, 0].filter (fun q => pick.all (fun k => k < q))).foldl (fun s q => noteHeld m q s) s
  match pick with
  | none => s1
  | some q =>
    match txq x q with
    | [] => s1
    | f :: t =>
      goOn m x (startFrame x f s1) ends underrun
        (tally (ctrId 25 (m * 8 + f.gate) 1) (updMac m (fun x => { x with txq := aset x.txq q t }) s1))

/-- `FRAME_TRANSMIT`: the frame in transmission goes on; otherwise a pause frame goes out first, then the next frame starts (R92, R94, R95). -/
def execFrameTransmit (mac : Nat) (ends : TxEnd) (underrun : Bool) (s : State) : Res :=
  .next (match mac? mac s with
    | none => s
    | some x =>
      if x.link != .up || x.cfg.flexePhy then s
      else match x.sending, x.control with
        | some f, _ => goOn mac x f ends underrun s
        | none, b :: _ => sendControlFrame mac x b s
        | none, [] => startNext mac x ends underrun s)

end Sys2Proof.Machine
end

