-- ==== Sys2Proof/Machine/Passes.lean ====
section
/-! DEFINITION. What ingress and egress passes share: slots, TCAM searches, samplers, copies to the host, routes and the ECMP hash (chapters 05, 06). -/

namespace Sys2Proof.Machine
open Sys2Proof

/-! ### Pipeline slots (Table 16-7) -/

/-- Count one slot of a pipeline (0–7 ingress, 8–15 egress): its cycle, its kind, and its sub-kind. -/
def slot (pipe : Nat) (kinds : List Nat) (s : State) : State :=
  kinds.foldl (fun s k => tally (ctrId 10 pipe k) s) (tally (ctrId 10 pipe 0) s)

def slotRetired : List Nat := [1]
def slotRecirc : List Nat := [2, 5]
def slotVerify : List Nat := [2, 6]
def slotLateDrop : List Nat := [2, 7]
def slotMuffle : List Nat := [3, 8]
def slotEmpty : List Nat := [3, 9]
def slotQd : List Nat := [4, 10]
def slotBridge : List Nat := [4, 11]
def slotStall : List Nat := [4, 12]

/-! ### TCAM searches (R150, R167, R173, R174) -/

/-- Selection entries in their order of precedence. -/
def selectOrder (c : Conf) : List (Nat × SelEntry) := sortBy (fun a b => selectBefore a.2 b.2) c.selects

/-- The selection entry that a key takes. -/
def selectHit (key : Nat) (s : State) : Option (Nat × SelEntry) :=
  (selectOrder s.cfg).find? (fun e => !ahas s.fwd.removedSel e.1 && !ahas s.fwd.missingSel e.1 && ternary key e.2.mask e.2.key)

/-- Rules of a table of a direction in their order of precedence. -/
def ruleOrder (dir t : Nat) (c : Conf) : List (Nat × Rule) :=
  sortBy (fun a b => ruleBefore a.2 b.2) (c.rules.filter (fun r => r.1 / 131072 == dir && r.2.table == t))

/-- The rule that a key takes in a table. -/
def ruleHit (dir t width key : Nat) (s : State) : Option (Nat × Rule) :=
  (ruleOrder dir t s.cfg).find? (fun r => !ahas s.fwd.removed r.1 && !ahas s.fwd.missing r.1 && ternary key (keyNat width r.2.mask) (keyNat width r.2.key))

/-- What stands at a physical index of a TCAM: a selection entry or a rule, and its false-hit count. -/
def entryAtIndex (dir index : Nat) (s : State) : Option (Bool × Nat × Nat) :=
  if dir = 0 && index < 2048 then
    (s.cfg.selects.find? (fun e => e.2.index == index)).map (fun e => (true, e.1, selectFalseHits))
  else
    (s.cfg.rules.find? (fun r => r.1 / 131072 == dir && r.2.index == index)).map (fun r => (false, r.1, tableKey dir r.2.table))

/-- An entry whose error a search meets: a false hit is rewritten, a bad key copy takes its entry out of every search, and an entry that
fails to match stays unseen until the scrub (R173 to R175). -/
def badEntry (dir pipe : Nat) (s : State) (f : Nat × TcamFault) : State :=
  match entryAtIndex dir f.1 s with
  | none => s
  | some (sel, id, count) =>
    match f.2 with
    | .falseHit =>
      let s1 := slot pipe slotVerify s
      tally (ctrId 12 0 2)
        { s1 with fwd := { s1.fwd with falseHits := aset s1.fwd.falseHits count (agetD s1.fwd.falseHits count 0 + 1) } }
    | .copyError =>
      let s1 := slot pipe slotVerify s
      let s2 := if sel then { s1 with fwd := { s1.fwd with removedSel := aset s1.fwd.removedSel id () } }
        else { s1 with fwd := { s1.fwd with removed := aset s1.fwd.removed id () } }
      raiseEvent Ev.tcamError dir f.1 0 (tally (ctrId 12 0 3) s2)
    | .noMatch =>
      if sel then { s with fwd := { s.fwd with missingSel := aset s.fwd.missingSel id () } }
      else { s with fwd := { s.fwd with missing := aset s.fwd.missing id () } }

/-- The searches' soft errors of one pass. -/
def badEntries (dir pipe : Nat) (faults : List (Nat × TcamFault)) (s : State) : State := faults.foldl (badEntry dir pipe) s

/-- Classification: the action that a key takes, its hit counted (R166, R180). -/
def classify (dir t key len : Nat) (s : State) : List Byte × State :=
  match aget s.cfg.ruleTables (tableKey dir t) with
  | none => (forwardAction, s)
  | some tb =>
    match ruleHit dir t tb.width key s with
    | some (k, r) => (r.action, bump (ctrId 14 k 1) len (tally (ctrId 14 k 0) s))
    | none => (tb.dflt, bump (ctrId 15 (tableKey dir t) 1) len (tally (ctrId 15 (tableKey dir t) 0) s))

/-! ### Configuration words in error (R538, R539) -/

/-- Kinds of the configuration tables, in the order of R525 (log 25). -/
abbrev Kind.profile : Nat := 0
abbrev Kind.rule : Nat := 1
abbrev Kind.route : Nat := 2
abbrev Kind.exact : Nat := 3
abbrev Kind.nextHop : Nat := 4
abbrev Kind.ecmp : Nat := 5
abbrev Kind.template : Nat := 6
abbrev Kind.settings : Nat := 10

/-- A word of an entry of a configuration table is in error. -/
def wordBad (kind item : Nat) (s : State) : Bool := s.pwr.badWords.any (fun w => w.1 == kind && w.2.2 == item)

/-- The rule that a key takes, or its action's policer or sampler, is in error; samplers stand from 65,536. -/
def ruleBad (dir t key : Nat) (a : List Byte) (s : State) : Bool :=
  (match aget s.cfg.ruleTables (tableKey dir t) with
    | none => false
    | some tb => (ruleHit dir t tb.width key s).any (fun r => wordBad Kind.rule r.1 s)) ||
  (aPolice a && wordBad Kind.settings (aPolicer a) s) || (aSample a && wordBad Kind.settings (65536 + aSampler a) s)

/-! ### Samplers and copies (R161, R259 to R261) -/

/-- Offer a packet to a sampler: whether it is sampled. -/
def offerSampler (n : Nat) (s : State) : Bool × State :=
  let c := samplerOf s.cfg n
  let left := samplerNow n s - 1
  let s1 := tally (ctrId 23 n 0) s
  let put := fun v (s : State) => { s with fwd := { s.fwd with samplers := aset s.fwd.samplers n v } }
  if 0 < left then (false, put left s1)
  else if c.mode = 0 then (true, tally (ctrId 23 n 1) (put c.n s1))
  else (true, tally (ctrId 23 n 1) (drawn (put (1 + Config.random s.fresh % (2 * c.n - 1)) s1)))

/-- A packet for the host under a reason (R161). -/
def puntOf (p : Pkt) (reason trunc : Nat) (egress copy : Bool) : Punt :=
  { bytes := p.bytes, frameLen := (if bit p.bad 2 = 1 then 0xFFFF else p.len), trunc := trunc, reason := reason,
    source := p.source, profile := p.profile,
    flags := p.bad + p.pass * 16 + b2n egress * 64 + b2n p.injected * 128 + b2n copy * 256, ts := p.ts, store := none }

/-- The original under a reason, cut as the reason says. -/
def puntReason (p : Pkt) (reason : Nat) (egress copy : Bool) (s : State) : Punt :=
  puntOf p reason (excOf s.cfg reason).truncate egress copy

/-- SAMPLE of an action (R177, R178). -/
def actSample (a : List Byte) (p : Pkt) (egress : Bool) (s : State) : State :=
  if !aSample a then s
  else
    let (hit, s1) := offerSampler (aSampler a) s
    let c := samplerOf s.cfg (aSampler a)
    if hit then punt (puntOf p c.reason c.truncate egress true) s1 else s1

/-- MIRROR_HOST of an action. -/
def actMirror (a : List Byte) (p : Pkt) (egress : Bool) (s : State) : State :=
  if aMirror a then punt (puntReason p (aReason a) egress true s) s else s

/-- POLICE of an action: whether the packet conforms. -/
def actPolice (a : List Byte) (len : Nat) (s : State) : Bool × State := if aPolice a then police (aPolicer a) len s else (true, s)

/-! ### Routes, labels, ECMP (R183 to R198) -/

/-- Longest prefix of a VRF that matches an address of `w` bits. -/
def longest (v6 : Bool) (w vrf addr : Nat) (routes : Assoc Nat) : Option Nat :=
  (List.range (w + 1)).findSome? (fun k =>
    let len := w - k
    aget routes (routeKey v6 vrf len (addr / 2 ^ k * 2 ^ k)))

/-- The lookup of a pass: `none`: LOOKUP_KIND 0 or no entry. -/
def lookupResult (p bs : List Byte) (vrf : Nat) (c : Conf) : Option Nat :=
  let f := pLookupField p
  match pLookupKind p with
  | 1 => longest false 32 vrf (fieldVal p bs f) c.routes
  | 2 => longest true 128 vrf (((fieldVal p bs f * 2 ^ 32 + fieldVal p bs (f + 1)) * 2 ^ 32 + fieldVal p bs (f + 2)) * 2 ^ 32 +
      fieldVal p bs (f + 3)) c.routes
  | 3 => aget c.labels (fieldVal p bs f)
  | _ => none

/-- The key of the route that an address takes. -/
def longestKey (v6 : Bool) (w vrf addr : Nat) (routes : Assoc Nat) : Option Nat :=
  (List.range (w + 1)).findSome? (fun k =>
    let key := routeKey v6 vrf (w - k) (addr / 2 ^ k * 2 ^ k)
    (aget routes key).map (fun _ => key))

/-- A route's word is in error: a host route is an exact-match entry (R192). -/
def routeBad (key : Option Nat) (s : State) : Bool :=
  key.any (fun k => wordBad (if routeUnits k = 0 then Kind.exact else Kind.route) k s)

/-- The entry that a pass's lookup reads is in error. -/
def lookupBad (p bs : List Byte) (vrf : Nat) (s : State) : Bool :=
  let f := pLookupField p
  match pLookupKind p with
  | 1 => routeBad (longestKey false 32 vrf (fieldVal p bs f) s.cfg.routes) s
  | 2 => routeBad (longestKey true 128 vrf (((fieldVal p bs f * 2 ^ 32 + fieldVal p bs (f + 1)) * 2 ^ 32 + fieldVal p bs (f + 2)) * 2 ^ 32 +
      fieldVal p bs (f + 3)) s.cfg.routes) s
  | 3 => wordBad Kind.exact (fieldVal p bs f) s
  | _ => false

/-- The ECMP hash of a pass (R196, R197). -/
def ecmpHash (p bs : List Byte) (seed : Nat) : Nat :=
  let crc := crc32c (be 4 seed ++ (maskFields (pHash p)).flatMap (fun n => be 4 (fieldVal p bs n)))
  crc / 65536 ^^^ crc % 65536

/-- The next hop of an identifier: of a group's slot, or itself (R188, R198). -/
def memberOf (ecmp : Bool) (id : Nat) (p bs : List Byte) (c : Conf) : Option Nat :=
  if ecmp then (aget c.ecmp id).bind (fun l => l[ecmpHash p bs c.hashSeed * l.length / 65536]?) else some id

/-- A next hop or group that is LIVE in an epoch (R220). -/
def liveNh (nh : Nat) (c : Conf) : Bool :=
  if bit nh 31 = 1 then ahas c.ecmp (bits nh 19 0) else ahas c.nextHops (bits nh 19 0)

/-! ### Header checks (R154) -/

/-- The header at `o` is an IPv4 header of five words whose checksum and total length hold; a header partly beyond byte 255 cannot be
parsed, and its check fails (R146, R147; log 49). -/
def ipv4Ok (bs : List Byte) (o : Nat) : Bool :=
  let h := fit 20 (bs.drop o)
  o + 20 ≤ 256 && rdBe h 0 1 == 0x45 && fold16 ((words16 h).foldl (· + ·) 0) == 0xFFFF && rdBe h 2 2 ≤ bs.length - o

/-- The header at `o` is an IPv6 header whose payload length holds. -/
def ipv6Ok (bs : List Byte) (o : Nat) : Bool :=
  let h := fit 40 (bs.drop o)
  o + 40 ≤ 256 && rdBe h 0 1 / 16 == 6 && rdBe h 4 2 ≤ bs.length - o - 40

/-- A check of CHECKS fails. -/
def checkFails (p bs : List Byte) : Bool :=
  (bit (pChecks p) 0 == 1 && !ipv4Ok bs (pL3 p)) || (bit (pChecks p) 1 == 1 && !ipv6Ok bs (pL3 p))

/-- The class of a packet before any rule (R157). -/
def classFrom (p bs : List Byte) (c : Conf) : Nat :=
  if pClassField p = 0xFF then pClass p % 8 else classOf c (pClass p / 16) (fieldVal p bs (pClassField p) % 64)

/-- Remove every byte before a mark. -/
def popTo (mark : Nat) (p : Pkt) : Pkt :=
  let n := min mark p.bytes.length
  { p with bytes := p.bytes.drop n, len := p.len - n }

end Sys2Proof.Machine
end

