-- ==== Sys2Proof/Machine/Ingress.lean ====
section
/-! DEFINITION. The ingress pass (R146 to R165, R173 to R190, R213 to R226): where its packet comes from, its steps, and its end. -/

namespace Sys2Proof.Machine
open Sys2Proof

/-! ### The end of a pass -/

/-- The pass of an injected frame ends: its completion is written once (R365). -/
def passDone (status : Nat) (p : Pkt) (s : State) : State :=
  match p.inject with
  | some i => injectDone i status none false 0 s
  | none => s

/-- The packet after its completion: its ring is kept, for R364. -/
def answered (p : Pkt) : Pkt := { p with inject := p.inject.map (fun i => { i with notify := false, capture := false }) }

/-- The pass discards its packet. -/
def passDrop (pipe cause : Nat) (p : Pkt) (s : State) : State := passDone cause p (dropCause cause (slot pipe slotLateDrop s))

/-- The pass sends its packet to the host under a reason. -/
def passHost (pipe reason : Nat) (p : Pkt) (s : State) : State :=
  let ok := puntAdmits reason s
  let s1 := punt (puntReason p reason false false s) s
  if ok then passDone St.ok p (slot pipe slotRetired s1) else passDone St.excRate p (slot pipe slotLateDrop s1)

/-- The packet takes a further pass of its pipeline, without the bytes before a mark and with a VRF (R162, R190). -/
def passAgain (pipe mark : Nat) (vrf : Option Nat) (p : Pkt) (s : State) : State :=
  let q := { popTo mark p with pass := p.pass + 1, vrf := vrf, profile := 0xFFFF }
  slot pipe slotRecirc { s with fwd := { s.fwd with recirc := aset s.fwd.recirc pipe (agetD s.fwd.recirc pipe [] ++ [q]) } }

/-- POLICE, SAMPLE and MIRROR_HOST, then what follows for a conforming packet (R177 steps 4 and 5). -/
def policeSampleMirror (pipe : Nat) (a : List Byte) (p : Pkt) (next : State → State) (s : State) : State :=
  let (ok, s1) := actPolice a p.len s
  if !ok then passDrop pipe St.policer p s1 else next (actMirror a p false (actSample a p false s1))

/-- A rule's RECIRCULATE or a TERMINATE ends the pass (R162, R190). -/
def recirculate (pipe mark : Nat) (vrf : Option Nat) (a : List Byte) (p : Pkt) (s : State) : State :=
  policeSampleMirror pipe a p (fun s =>
    if 3 ≤ p.pass then passHost pipe Exc.recircLimit p s else passAgain pipe mark vrf p s) s

/-! ### Resolution (R177 step 6, R188) -/

/-- What the lookups gave a packet: next hop or group, POP, and the class of a flow context. -/
structure Forward where
  ecmp : Bool
  id : Nat
  pop : Nat
  cls : Option Nat

/-- Resolve the next hop and hand the packet on to its VOQ. -/
def resolve (pipe : Nat) (prof a : List Byte) (f : Forward) (p : Pkt) (s : State) : State :=
  if (f.ecmp && wordBad Kind.ecmp f.id s) || (memberOf f.ecmp f.id prof p.bytes s.cfg).any (fun k => wordBad Kind.nextHop k s) then
    passHost pipe Exc.tableError p s
  else match (memberOf f.ecmp f.id prof p.bytes s.cfg).bind (fun k => (aget s.cfg.nextHops k).map (fun n => (k, n))) with
  | none => passDrop pipe St.nhDrop p s
  | some (k, n) =>
    if n.kind = 1 then passDrop pipe St.nhDrop p s
    else if n.kind = 2 then passHost pipe n.reason p s
    else
      let cls := f.cls.getD (if aSetClass a then aClass a else classFrom prof p.bytes s.cfg)
      let q := { p with dest := n.dest, cls := cls, nh := some k, encap := some (if aSetTemplate a then aTemplate a else n.template),
                        pop := f.pop, decTtl := aDecTtl a, writes := aFieldWrites a }
      toQd (.toVoq (answered q)) (slot pipe slotRetired (passDone St.ok p s))

/-- DEC_TTL of a packet whose TTL field holds 0 or 1. -/
def ttlExpired (prof a : List Byte) (p : Pkt) : Bool :=
  aDecTtl a && pTtlField prof != 0xFF && fieldVal prof p.bytes (pTtlField prof) ≤ 1

/-- A packet with a destination: TTL, POLICE, SAMPLE, MIRROR_HOST, then the next hop. -/
def forward (pipe : Nat) (prof a : List Byte) (f : Forward) (p : Pkt) (s : State) : State :=
  if ttlExpired prof a p then passHost pipe Exc.ttlExpired p s
  else policeSampleMirror pipe a p (resolve pipe prof a f p) s

/-! ### Lookups (R185 to R187, R213 to R220) -/

/-- A route or label lookup that found nothing. -/
def lookupMiss (pipe : Nat) (prof : List Byte) (vrf : Nat) (p : Pkt) (s : State) : State :=
  if pLookupKind prof = 3 then passHost pipe Exc.labelMiss p s
  else if missOf s.cfg vrf = 0 then passHost pipe Exc.routeMiss p s
  else passDrop pipe St.routeMiss p s

/-- The mark that a POP names is not defined by the profile. -/
def markMissing (prof : List Byte) (pop : Nat) : Bool := pop != 0 && pMark prof pop == 0xFF

/-- Act on a lookup's result; `cls`: the class of a flow context that was hit. -/
def actResult (pipe : Nat) (prof a : List Byte) (vrf : Nat) (r : Option Nat) (cls : Option Nat) (p : Pkt) (s : State) : State :=
  match r with
  | none => lookupMiss pipe prof vrf p s
  | some r =>
    let pop := bits r 60 59
    if markMissing prof pop then passHost pipe Exc.markUndefined p s
    else
      let f : Forward := { ecmp := bits r 63 61 == 1, id := resId r, pop := if pop = 0 then aPop a else pop, cls := cls }
      match bits r 63 61 with
      | 2 => passDrop pipe St.routeDrop p s
      | 3 => passHost pipe (bits r 39 32) p s
      | 4 => recirculate pipe (pMark prof pop) (some (bits r 55 40)) a p s
      | _ => forward pipe prof a f p s

/-- The result of a pass before its flow lookup: SET_NH, or the route or label lookup. -/
def firstResult (prof a : List Byte) (vrf : Nat) (p : Pkt) (c : Conf) : Option Nat :=
  if aSetNh a then some (b2n (bit (aNh a) 31 == 1) * 2 ^ 61 + bits (aNh a) 19 0) else lookupResult prof p.bytes vrf c

/-- ACTION of a context that was hit (R215, R220). -/
def actContext (pipe : Nat) (prof a : List Byte) (vrf : Nat) (r : Option Nat) (f : FlowCtx) (p : Pkt) (s : State) : State :=
  let cls := if cSetClass f.action then some (cClass f.action) else none
  if (r.map (fun r => bits r 63 61)) = some 4 then actResult pipe prof a vrf r none p s
  else if cDrop f.action then passDrop pipe St.flowDrop p s
  else if cToHost f.action then passHost pipe (cReason f.action) p s
  else if cSetNh f.action then
    if liveNh f.nh s.cfg then
      forward pipe prof a { ecmp := bit f.nh 31 == 1, id := bits f.nh 19 0, pop := aPop a, cls := cls } p s
    else actResult pipe prof a vrf r cls p (tally (ctrId 12 0 5) s)
  else actResult pipe prof a vrf r cls p s

/-- A flow lookup that missed and created no context (R219). -/
def flowMissed (pipe : Nat) (ft : FlowTable) (prof a : List Byte) (vrf : Nat) (r : Option Nat) (p : Pkt) (s : State) : State :=
  if bit ft.flags 3 = 1 then passHost pipe Exc.flowMiss p s else actResult pipe prof a vrf r none p s

/-- The flow lookup of a FORWARD pass (R215 to R219); `lost`: the context read from DDR4 was in error (R226). -/
def flowLookup (pipe : Nat) (lost : Bool) (prof a : List Byte) (vrf : Nat) (r : Option Nat) (p : Pkt) (s : State) : State :=
  let t := aFlowTable a
  let key := flowKey prof p.bytes
  match flowTable t s with
  | none => actResult pipe prof a vrf r none p s
  | some ft =>
    match findFlow t key s with
    | some f =>
      if lost then flowMissed pipe ft prof a vrf r p (raiseEvent Ev.flowEcc t 0 0 (tally (ctrId 18 t 3) (dropFlow f s)))
      else actContext pipe prof a vrf r f p (hitFlow f p.ts p.len s)
    | none =>
      if bit ft.flags 0 = 0 || lost then flowMissed pipe ft prof a vrf r p s
      else match learn t ft key p.ts p.len s with
        | some (f, s1) =>
          let s2 := if bit ft.flags 4 = 1 then punt (puntReason p Exc.flowLearn false true s1) s1 else s1
          actContext pipe prof a vrf r f p s2
        | none => flowMissed pipe ft prof a vrf r p (tally (ctrId 18 t 0) s)

/-! ### The pass -/

/-- Steps after classification (R162, R177). -/
def actRule (pipe : Nat) (lost : Bool) (prof a : List Byte) (p : Pkt) (s : State) : State :=
  if aRecirculate a then
    if markMissing prof (aPop a) then passHost pipe Exc.markUndefined p s
    else recirculate pipe (if aPop a = 0 then 0 else pMark prof (aPop a)) none a p s
  else match aDisposition a with
    | 1 => passDrop pipe St.ruleDrop p (actMirror a p false (actSample a p false s))
    | 2 => passHost pipe (aReason a) p (actSample a p false s)
    | _ =>
      let vrf := if aSetVrf a then aVrf a else p.vrf.getD 0
      let r := firstResult prof a vrf p s.cfg
      if !aSetNh a && lookupBad prof p.bytes vrf s then passHost pipe Exc.tableError p s else
      if aFlow a then flowLookup pipe lost prof a vrf r p s else actResult pipe prof a vrf r none p s

/-- A pass of a packet through an ingress pipeline, from selection on. -/
def ingressSteps (pipe : Nat) (lost : Bool) (p : Pkt) (s : State) : State :=
  if p.bad != 0 then passHost pipe Exc.rxBadFrame p s
  else match selectHit (selectKey s.cfg.layout p.bytes p.source p.pass p.injected) s with
    | none => passHost pipe Exc.noProfile p s
    | some (id, e) =>
      let prof := agetD s.cfg.profiles e.profile emptyProfile
      let q := { p with profile := e.profile }
      let s1 := tally (ctrId 13 e.profile 0) (tally (ctrId 16 id 0) s)
      if wordBad Kind.profile e.profile s1 then passHost pipe Exc.tableError q s1
      else if pDisposition prof = 1 then passHost pipe (pReason prof) q s1
      else if q.bytes.length < pMinLen prof then passHost pipe Exc.short q s1
      else if checkFails prof q.bytes then passHost pipe Exc.check q s1
      else
        let t := pIngTable prof
        let width := ((aget s1.cfg.ruleTables (tableKey 0 t)).map (·.width)).getD 0
        let key := classKey prof q.bytes (pIngKey prof) (ingressMeta t q.source q.pass q.injected) (tableBits width)
        let (a, s2) := if t = 0xFF then (forwardAction, s1) else classify 0 t key q.len s1
        if t != 0xFF && ruleBad 0 t key a s1 then passHost pipe Exc.tableError q s2 else actRule pipe lost prof a q s2

/-- The flow table and key that a packet's pass looks up, when it comes to a flow lookup (R215). -/
def flowAsked (p : Pkt) (s : State) : Option (Nat × List Byte) :=
  if p.bad != 0 then none
  else match selectHit (selectKey s.cfg.layout p.bytes p.source p.pass p.injected) s with
    | none => none
    | some (_, e) =>
      let prof := agetD s.cfg.profiles e.profile emptyProfile
      if pDisposition prof = 1 || p.bytes.length < pMinLen prof || checkFails prof p.bytes then none
      else
        let t := pIngTable prof
        let width := ((aget s.cfg.ruleTables (tableKey 0 t)).map (·.width)).getD 0
        let a := (classify 0 t (classKey prof p.bytes (pIngKey prof) (ingressMeta t p.source p.pass p.injected) (tableBits width)) 0 s).1
        if t != 0xFF && aFlow a && !aRecirculate a && aDisposition a == 0 then some (aFlowTable a, flowKey prof p.bytes) else none

/-- The pass needs a context that the on-die cache does not hold (R225). -/
def cacheMiss (p : Pkt) (s : State) : Bool := (flowAsked p s).any (fun x => !isCached x.1 x.2 s)

/-- The context that a pass waited for is in the cache, where there is one. -/
def cacheRead (p : Pkt) (s : State) : State :=
  match flowAsked p s with
  | none => s
  | some x =>
    if (findFlow x.1 x.2 s).isSome && !isCached x.1 x.2 s then
      fillCache { table := x.1, key := x.2, modified := false, stored := none } s
    else s

/-! ### Sources of a pipeline (R24, R35, R90, R162) -/

/-- Sub-queues of a MAC whose head may be taken, from its next one on. -/
def openSubs (m : Nat) (x : Mac) (s : State) : List Nat :=
  (((List.range 8).map (fun k => (x.nextSub + k) % 8))).filter (fun p => !(agetD x.rx p []).isEmpty && (heldUp m p s).isEmpty)

/-- The inject path of a lane group is held by a frame that QD refused (R242). -/
def pathHeld (g : Nat) (s : State) : Bool := s.qdm.waiting.any (fun w => w.pkt.injected && w.pkt.source == 80 + g && w.punt.isNone && w.leaf.isNone)

/-- A DIRECT frame at the head of a path waits for its leaf queue; it enters no pipeline. -/
def pathHead (g : Nat) (s : State) : Option Pkt :=
  if pathHeld g s then none
  else match agetD s.fwd.injectPath g [] with
    | p :: _ => if p.direct then none else some p
    | [] => none

/-- Ports, clients and inject path of a lane group that offer a packet, with their weights (R24). -/
def offering (g : Nat) (s : State) : List (Nat × Nat) :=
  (s.macs.filter (fun m => macGroup m.1 s == g && !(openSubs m.1 m.2 s).isEmpty)).map (fun m => (m.1, max m.2.gbps 1)) ++
  (if (pathHead g s).isSome then [(1000 + g, 200)] else [])

/-- Take the next packet for a pipeline: a further pass first, otherwise the round-robin's choice. -/
def takeIngress (g : Nat) (s : State) : Option (Pkt × State) :=
  match agetD s.fwd.recirc g [] with
  | p :: t => some (p, { s with fwd := { s.fwd with recirc := aset s.fwd.recirc g t } })
  | [] =>
    match wrr 1600 (offering g s) s.fwd.slotCredits with
    | none => none
    | some (k, credits) =>
      let s1 := { s with fwd := { s.fwd with slotCredits := credits } }
      if 1000 ≤ k then
        match agetD s1.fwd.injectPath g [] with
        | p :: t => some (p, { s1 with fwd := { s1.fwd with injectPath := aset s1.fwd.injectPath g t } })
        | [] => none
      else match mac? k s1 with
        | none => none
        | some x =>
          match openSubs k x s1 with
          | [] => none
          | q :: _ =>
            match agetD x.rx q [] with
            | p :: t => some (p, checkXoff k (updMac k (fun x => { x with rx := aset x.rx q t, nextSub := (q + 1) % 8 }) s1))
            | [] => none

/-- `INGRESS_PASS`: one slot of an ingress pipeline, with the TCAM errors that its selection search and its classification search meet. -/
def execIngressPass (pipe : Nat) (selFaults faults : List (Nat × TcamFault)) (s : State) : Res :=
  .next (if 8 ≤ pipe || halted s then s
    else if s.fwd.stalled.any (fun x => x.1 == pipe) then tally (ctrId 12 0 6) (slot pipe slotStall s)
    else if bit s.fwd.muffled pipe = 1 then slot pipe slotMuffle s
    else match takeIngress pipe s with
      | none =>
        if pathHeld pipe s || (s.qdm.waiting.any (fun w => macGroup w.pkt.source s == pipe && !w.pkt.injected)) then slot pipe slotQd s
        else slot pipe slotEmpty s
      | some (p, s1) =>
        let s2 := badEntries 0 pipe (selFaults.filter (fun f => decide (f.1 < 2048)) ++ faults.filter (fun f => decide (2048 ≤ f.1))) s1
        if cacheMiss p s2 then { s2 with fwd := { s2.fwd with stalled := s2.fwd.stalled ++ [(pipe, p, s2.cfg)] } }
        else ingressSteps pipe false p s2)

/-- The read that answers a stalled pass, and whether its context is uncorrectable; a request that waits at the channel has its deadline
counted there. -/
def readContext (x : CtxRead) (s : State) : Bool × State :=
  let asked := fun (w : DdrWait) => w.req.port == 0 && w.req.address / 128 == x.address / 128
  let s1 := if (ddrOf x.channel s).reads.any asked then updDdr x.channel (fun d => { d with reads := d.reads.filter (fun w => !asked w) }) s
    else late x.channel 0 x.waited s
  ddrRead x.channel 0 x.address x.flips x.again s1

/-- `FLOW_CACHE_FILL`: the context that a pass waits for has been read; the pass goes on in the epoch in which it began (R49, R225, R226). -/
def execFlowCacheFill (pipe : Nat) (read : CtxRead) (s : State) : Res :=
  .next (match s.fwd.stalled.find? (fun x => x.1 == pipe) with
    | none => s
    | some x =>
      let r := readContext read s
      let s1 := { r.2 with cfg := x.2.2, fwd := { r.2.fwd with stalled := r.2.fwd.stalled.filter (fun y => y.1 != pipe) } }
      { ingressSteps pipe r.1 x.2.1 (if r.1 then s1 else cacheRead x.2.1 s1) with cfg := s.cfg })

/-- A stage that has not advanced for 4 µs is flushed: its packet is discarded (R21, R535). -/
def stageTimeout (pipe : Nat) (p : Pkt) (s : State) : State :=
  let sec := secOf s.tempo.now
  let n := if s.pwr.stageSec = some sec then s.pwr.stageCount + 1 else 1
  let s1 := passDone St.stageTimeout p (dropCause St.stageTimeout (tally (ctrId 10 pipe 13) (slot pipe slotLateDrop s)))
  let s2 := { s1 with pwr := { s1.pwr with stageSec := some sec, stageCount := n } }
  if n = 1 then raiseEvent Ev.stageTimeout pipe n 0 s2 else s2

end Sys2Proof.Machine
end

