-- ==== Sys2Proof/Machine/Egress.lean ====
section
/-! DEFINITION. The egress pass (R178, R179, R199 to R201, R244): its rules, its header edits, and the frame it puts on a transmit queue. -/

namespace Sys2Proof.Machine
open Sys2Proof

/-! ### Identifiers that a packet carries -/

/-- The next hop a packet resolved: of the epoch in force, or what a quarantined one held (R53, R57; log 19). -/
def hopOf (k : Nat) (s : State) : Option NextHop :=
  match aget s.cfg.nextHops k with
  | some n => some n
  | none => (aget s.quar (quarKey 0 k)).bind (·.hop)

/-- An encapsulation template likewise. -/
def templateOf (k : Nat) (s : State) : Option (List Byte) :=
  match aget s.cfg.templates k with
  | some t => some t
  | none => (aget s.quar (quarKey 2 k)).bind (·.template)

/-- A Peal target list likewise. -/
def pealTargets (k : Nat) (s : State) : List Nat :=
  match aget s.cfg.pealLists k with
  | some t => t
  | none => ((aget s.quar (quarKey 5 k)).bind (·.peal)).getD []

/-! ### Edits in place (steps 2 and 3 of R179) -/

/-- Write a field of the received packet; bits beyond the end of the frame are not written. -/
def writeField (prof : List Byte) (n v : Nat) (bs : List Byte) : List Byte :=
  if !fieldValid prof n then bs
  else
    let start := fieldStart prof n
    let w := fieldWidth prof n
    let first := start / 8
    let count := (start + w - 1) / 8 - first + 1
    let old := beVal (fit count (slice bs first count))
    let low := 8 * count - (start - 8 * first) - w
    let new := old / 2 ^ (low + w) * 2 ^ (low + w) + v % 2 ^ w * 2 ^ low + old % 2 ^ low
    patch bs first (be count new)

/-- Bytes of the IPv4 header that CHECKS verified: the edit of a range that lies inside updates its checksum incrementally. -/
def withChecksum (prof : List Byte) (off n : Nat) (was now' : List Byte) : List Byte :=
  let l3 := pL3 prof
  if bit (pChecks prof) 0 = 1 && l3 ≤ off && off + n ≤ l3 + 20 then
    let a := (off - l3) / 2 * 2 + l3
    let len := (off + n - a + 1) / 2 * 2
    patch now' (l3 + 10) (be 2 (csumUpdate (rdBe was (l3 + 10) 2) (slice was a len) (slice now' a len)))
  else now'

/-- One decrement of a TTL value of `w` bits; below 0 the spec states no result: free values of place 33 (log 18). -/
def lessOne (w v : Nat) (s : State) : Nat := if v = 0 then unstatedAt 33 s % 2 ^ w else v - 1

/-- DEC_TTL (step 3 of R179); bytes before `cut`, which POP removes, are not edited. -/
def decTtl (prof : List Byte) (cut : Nat) (s : State) (bs : List Byte) : List Byte :=
  let f := pTtlField prof
  if f = 0xFF || !fieldValid prof f then bs
  else
    let first := fieldStart prof f / 8
    let n := (fieldStart prof f + fieldWidth prof f - 1) / 8 - first + 1
    let edited := writeField prof f (lessOne (fieldWidth prof f) (fieldVal prof bs f) s) bs
    withChecksum prof first n bs (bs.take cut ++ edited.drop cut)

/-- The CE codepoint of a marked packet, unless POP removes its IP header (R244). -/
def markCe (prof : List Byte) (bs : List Byte) : List Byte :=
  let o := pL3 prof
  let v := rdBe bs o 1 / 16
  let b := rdBe bs (o + 1) 1
  if o = 0xFF then bs
  else if v = 4 then
    let a := patch bs (o + 1) (be 1 (b / 4 * 4 + 3))
    patch a (o + 10) (be 2 (csumUpdate (rdBe bs (o + 10) 2) (slice bs o 2) (slice a o 2)))
  else if v = 6 then patch bs (o + 1) (be 1 (b / 64 * 64 + 48 + b % 16))
  else bs

/-! ### Templates (R200, R201) -/

/-- What the template patches of a pass use: the next hop's fields and the TTL of R201 for each field. -/
structure PatchArgs where
  dmac : List Byte
  val0 : Nat
  val1 : Nat
  ttl : Nat → Nat

/-- Apply one patch to the push data; lengths come later. -/
def applyPatch (a : PatchArgs) (push : List Byte) (x : Nat × Nat × Nat) : List Byte :=
  let label := fun (v : Nat) => patch push x.2.1 (be 4 (v % 2 ^ 20 * 4096 + rdBe push x.2.1 4 % 4096))
  match x.1 with
  | 1 => patch push x.2.1 (fit 6 a.dmac)
  | 2 => label a.val0
  | 3 => label a.val1
  | 4 => patch push x.2.1 (be 2 (a.val0 % 65536))
  | 5 => patch push x.2.1 (be 1 (a.ttl x.2.2 % 256))
  | _ => push

/-- Push data of a template with its patches, cut to PUSH_LEN. -/
def pushOf (a : PatchArgs) (t : List Byte) : List Byte := ((tPatches t).foldl (applyPatch a) (tPush t)).take (tPushLen t)

/-- The chain from a template outwards: at most three in all (R199). -/
def chainFromId : Nat → Nat → State → List (List Byte)
  | 0, _, _ => []
  | fuel + 1, k, s =>
    match templateOf k s with
    | none => []
    | some t => t :: (match tChain t with
      | some n => chainFromId fuel n s
      | none => [])

/-- Identifiers of that chain. -/
def chainIds : Nat → Nat → State → List Nat
  | 0, _, _ => []
  | fuel + 1, k, s =>
    match templateOf k s with
    | none => []
    | some t => k :: (match tChain t with
      | some n => chainIds fuel n s
      | none => [])

/-- Length patches of a template whose push begins at `start` of the frame. -/
def lengthPatch (start : Nat) (bs : List Byte) (x : Nat × Nat × Nat) : List Byte :=
  let o := start + x.2.1
  match x.1 with
  | 6 =>
    let b := patch (patch bs (o + 2) (be 2 (bs.length - o))) (o + 10) (zeros 2)
    patch b (o + 10) (be 2 (65535 - fold16 ((words16 (slice b o 20)).foldl (· + ·) 0)))
  | 7 => patch bs (o + 4) (be 2 (bs.length - o - 40))
  | _ => bs

/-- Length patches of a chain, its first template innermost: each template's push begins where the pushes outside it end. -/
def lengthPatches : List (List Byte) → List Byte → List Byte
  | [], bs => bs
  | t :: outer, bs =>
    let start := outer.foldl (fun n u => n + tPushLen u) 0
    lengthPatches outer ((tPatches t).foldl (lengthPatch start) bs)

/-- Step 4 of R179: the frame after a template's chain, and its PTP action. -/
def encapsulate (chain : List (List Byte)) (a : PatchArgs) (bs : List Byte) : List Byte × Nat × Nat :=
  let body := bs.drop ((chain.head?.map tPopLen).getD 0)
  let pushed := chain.foldl (fun b t => pushOf a t ++ b) body
  let ptp := match chain.find? (fun t => tPtp t != 0) with
    | some t => (tPtp t, tPtpOffset t)
    | none => (0, 0)
  (lengthPatches chain pushed, ptp)

/-! ### The pass -/

/-- The frame, FCS excluded, that a forwarded packet becomes under an egress action (R179), and its PTP action. -/
def editFrame (prof a : List Byte) (p : Pkt) (s : State) : List Byte × Nat × Nat :=
  if p.direct then (p.bytes, p.ptp)
  else
    let mark := if p.pop = 0 then 0 else pMark prof p.pop
    let cut := if mark = 0xFF then 0 else mark
    let b1 := (p.writes ++ aFieldWrites a).foldl (fun b w => writeField prof w.1 w.2 b) p.bytes
    let b2 := if p.ecn && cut ≤ pL3 prof then markCe prof b1 else b1
    let b3 := if p.decTtl then decTtl prof cut s b2 else b2
    let b4 := if aDecTtl a then decTtl prof cut s b3 else b3
    let hop := p.nh.bind (fun k => hopOf k s)
    let ttl := fun n =>
      let v := fieldVal prof p.bytes n
      let w := fieldWidth prof n
      let once := fun (c : Bool) v => if c && n == pTtlField prof then lessOne w v s else v
      once (aDecTtl a) (once p.decTtl v)
    let args : PatchArgs := { dmac := (hop.map (·.dmac)).getD (zeros 6), val0 := (hop.map (·.val0)).getD 0,
                              val1 := (hop.map (·.val1)).getD 0, ttl := ttl }
    match (if aSetTemplate a then some (aTemplate a) else p.encap) with
    | none => (b4.drop cut, p.ptp)
    | some t =>
      let r := encapsulate (chainFromId 3 t s) args (b4.drop cut)
      if r.2.1 = 0 then (r.1, p.ptp) else r

/-- A packet that its egress pass discards. -/
def egressDrop (pipe m cause : Nat) (p : Pkt) (s : State) : State := endPkt p cause m (dropCause cause (slot (8 + pipe) slotLateDrop s))

/-- The CLASS of a leaf queue, which picks the TXQ and the pause of its frames (Table 08-2). -/
def leafClass (leaf : Nat) (p : Pkt) (s : State) : Nat := ((leafNode leaf s).map (·.cls)).getD p.cls

/-- The frame joins its transmit queue: padded, held to MAX_FRAME, discarded where its port is down (R87, R95, R107, R108). -/
def egressOut (pipe m leaf : Nat) (p : Pkt) (frame : List Byte × Nat × Nat) (s : State) : State :=
  match mac? m s with
  | none => egressDrop pipe m St.portDown p s
  | some x =>
    if macDown m s then egressDrop pipe m St.portDown p (tally (portCtr m 0x178) s)
    else if x.cfg.maxFrame < frame.1.length + 4 then egressDrop pipe m St.egrOversize p (tally (portCtr m 0x160) s)
    else
      let f : TxFrame := { pkt := { p with ptp := frame.2 }, out := frame.1 ++ zeros (60 - frame.1.length),
                           gate := ((leafNode leaf s).map (·.gate)).getD 0, leaf := leaf, cls := leafClass leaf p s, held := false }
      toTxq m (txqOf x (leafClass leaf p s)) f (slot (8 + pipe) slotRetired s)

/-- A packet that an egress rule sends to the host. -/
def egressHost (pipe m reason : Nat) (p : Pkt) (s : State) : State :=
  let ok := puntAdmits reason s
  let s1 := punt (puntReason p reason true false s) s
  if ok then endPkt p St.ok m (slot (8 + pipe) slotRetired s1) else endPkt p St.excRate m (slot (8 + pipe) slotLateDrop s1)

/-- A pass of a packet through an egress pipeline (R178): a rule's DEC_TTL of a received TTL of 0 or 1 sends it to the host (Table 05-6;
log 51), and POLICE charges the line length after the edits, FCS included (R295). -/
def egressSteps (pipe m leaf : Nat) (p : Pkt) (s : State) : State :=
  let prof := agetD s.cfg.profiles p.profile emptyProfile
  let t := pEgrTable prof
  let width := ((aget s.cfg.ruleTables (tableKey 1 t)).map (·.width)).getD 0
  let key := classKey prof p.bytes (pEgrKey prof) (egressMeta t m p.cls p.copy) (tableBits width)
  let (a, s1) := if t = 0xFF || p.direct then (forwardAction, s) else classify 1 t key p.len s
  if !p.direct && (wordBad Kind.profile p.profile s || (t != 0xFF && ruleBad 1 t key a s) || p.nh.any (fun k => wordBad Kind.nextHop k s) ||
      (if aSetTemplate a then some (aTemplate a) else p.encap).any (fun k => (chainIds 3 k s).any (fun j => wordBad Kind.template j s))) then
    egressHost pipe m Exc.tableError p s1
  else match aDisposition a with
  | 1 => egressDrop pipe m St.ruleDrop p (actMirror a p true (actSample a p true s1))
  | 2 => egressHost pipe m (aReason a) p (actSample a p true s1)
  | _ =>
    let frame := editFrame prof a p s1
    let (ok, s2) := actPolice a (max 60 frame.1.length + 4) (drawn s1)
    if ttlExpired prof a p then egressHost pipe m Exc.ttlExpired p s1
    else if !ok then egressDrop pipe m St.policer p s2
    else egressOut pipe m leaf p frame (actMirror a p true (actSample a p true s2))

/-- The next packet that has crossed to FD for a pipeline's egress pass. -/
def egressHead (pipe : Nat) (s : State) : Option (Xfer × Nat × Nat × Pkt) :=
  s.bridge.atFd.findSome? (fun x => match x with
    | .toEgress m l p => if macGroup m s = pipe then some (x, m, l, p) else none
    | _ => none)

/-- Take a transfer that waits on FD. -/
def takeFd (x : Xfer) (s : State) : State := { s with bridge := { s.bridge with atFd := s.bridge.atFd.erase x } }

/-- `EGRESS_PASS`: one slot of an egress pipeline; a full transmit queue stalls it (Table 16-7). -/
def execEgressPass (pipe : Nat) (faults : List (Nat × TcamFault)) (s : State) : Res :=
  .next (if 8 ≤ pipe || halted s then s
    else match egressHead pipe s with
      | none => slot (8 + pipe) slotEmpty s
      | some (x, m, l, p) =>
        if (mac? m s).any (fun c => txqFull c (txqOf c (leafClass l p s))) then slot (8 + pipe) slotStall s
        else egressSteps pipe m l p (badEntries 1 (8 + pipe) faults (takeFd x s)))

/-- `STAGE_TIMEOUT`: 0 to 7 an ingress pipeline's stalled pass, 8 to 15 the head of an egress pipeline (R21, R535). -/
def execStageTimeout (pipe : Nat) (s : State) : Res :=
  .next (if pipe < 8 then
      match s.fwd.stalled.find? (fun x => x.1 == pipe) with
      | some x => stageTimeout pipe x.2.1 { s with fwd := { s.fwd with stalled := s.fwd.stalled.filter (fun y => y.1 != pipe) } }
      | none => s
    else match egressHead (pipe - 8) s with
      | some (x, _, _, p) => stageTimeout pipe p (unref p.store (takeFd x s))
      | none => s)

end Sys2Proof.Machine
end

