-- ==== Sys2Proof/Machine/FlexeBase.lean ====
section
/-! DEFINITION. FlexE groups (chapter 04): alignment, defects with their suppression, the group state, skew and calendars. -/

namespace Sys2Proof.Machine
open Sys2Proof

/-! ### Lines, instances, groups -/

/-- Blocks of an overhead frame, and of a multiframe (R131). -/
def frameBlocks : Nat := 163688
def multiBlocks : Nat := 32 * frameBlocks

/-- The frame marker: type and O code of the control block that an overhead frame begins with, and its overhead blocks (R131). -/
def markerType : Nat := 0x4B
def markerCode : Nat := 0x5
def overheadBlocks : Nat := 8

/-- Ns of one multiframe, rounded up. -/
def multiNs : Nat := 3352331

/-- No mismatch seen. -/
def noMismatch : Mismatch := { bad := 0, good := 0, declared := false }

/-- An instance that searches. -/
def newInst : FlxInst :=
  { align := .search, seen := [], omf := none, sinceFall := none, inMulti := false, lomf := false, omfBad := 0, frame := 0,
    gid := noMismatch, phy := noMismatch, number := noMismatch, cr := false, ca := false, c := false, rpf := false,
    calA := List.replicate 20 0, calB := List.replicate 20 0, allGood := false, lastGood := false, ended := false, start := none }

/-- A line on which nothing has happened. -/
def newLine : FlxLine :=
  { insts := List.replicate 4 newInst, secNow := [0, 0, 0], secLatched := [0, 0, 0, 0], secTempo := 0, defectSince := none,
    defectNs := 0 }

/-- A line instance. -/
def flxLine (p : Nat) (s : State) : FlxLine := agetD s.flexe.lines p newLine

/-- Change a line instance. -/
def updLine (p : Nat) (f : FlxLine → FlxLine) (s : State) : State :=
  { s with flexe := { s.flexe with lines := aset s.flexe.lines p (f (flxLine p s)) } }

/-- A FlexE instance of a port. -/
def flxInst (p i : Nat) (s : State) : FlxInst := (flxLine p s).insts.getD i newInst

/-- Change an instance. -/
def updInst (p i : Nat) (f : FlxInst → FlxInst) (s : State) : State :=
  updLine p (fun l => { l with insts := l.insts.modify i f }) s

/-- A group. -/
def flxGroup (g : Nat) (s : State) : Option FlxGroup := aget s.flexe.groups g

/-- Change a group. -/
def updGroup (g : Nat) (f : FlxGroup → FlxGroup) (s : State) : State :=
  { s with flexe := { s.flexe with groups := aupd s.flexe.groups g f } }

/-- Instances of one PHY: 1, 2 or 4 (Table 04-1). -/
def instCount (g : FlxGroup) : Nat := 2 ^ g.rate

/-- PHYs in ascending PHY number (R120). -/
def physInOrder (g : FlxGroup) : List (Nat × Nat) := sortBy (fun a b => a.2 < b.2) g.phys

/-- Instances of a group in the order of R120: port and instance. -/
def instsInOrder (g : FlxGroup) : List (Nat × Nat) :=
  (physInOrder g).flatMap (fun p => (List.range (instCount g)).map (fun i => (p.1, i)))

/-- Slots of a group. -/
def slotCount (g : FlxGroup) : Nat := 20 * instCount g * g.phys.length

/-- Clients of a group. -/
def clientsOf (g : Nat) (s : State) : List Nat := akeys (s.flexe.clients.filter (fun c => c.2.group == g))

/-- The calendar in use, and the one not in use, of a direction. -/
def txCal (g : FlxGroup) (b : Bool) : List Nat := if b then g.txCalB else g.txCalA
def rxCal (g : FlxGroup) (b : Bool) : List Nat := if b then g.rxCalB else g.rxCalA

/-- CLIENT_ID sent and expected for a slot entry; 0 for an unused slot (R126). -/
def idOfSlot (e : Nat) (s : State) : Nat := ((aget s.flexe.clients e).map (·.clientId)).getD 0

/-- A received calendar of a group: CLIENT_ID by group slot, as last received CRC-good. -/
def receivedCal (g : FlxGroup) (b : Bool) (s : State) : List Nat :=
  (instsInOrder g).flatMap (fun p => let x := flxInst p.1 p.2 s; if b then x.calB else x.calA)

/-- The client of a group whose CLIENT_ID was received, 0xFF unused, 0xFE none (Table 04-14). -/
def clientOfId (g id : Nat) (s : State) : Nat :=
  if id = 0 then 0xFF
  else ((s.flexe.clients.find? (fun c => c.2.group == g && c.2.clientId == id)).map (·.1)).getD 0xFE

/-! ### Alignment (Table 04-6) -/

/-- A frame marker at block `b`: the alignment after it; expected markers that did not come are missed first. -/
def alignMark : Nat → Nat → Align × List Nat → Align × List Nat
  | 0, _, a => a
  | fuel + 1, b, (a, seen) =>
    match a with
    | .search => (.confirm b 0 (b + frameBlocks), [])
    | .confirm st c next =>
      if b < next then (.confirm st c next, seen ++ [b])
      else if b = next then (if c = 0 then (.confirm st 1 (next + frameBlocks), seen ++ [b]) else (.inFrame 0 (next + frameBlocks), []))
      else alignMark fuel b (seen.foldl (fun a x => alignMark fuel x a) (.search, []))
    | .inFrame m next =>
      if b < next then (.inFrame m next, [])
      else if b = next then (.inFrame 0 (next + frameBlocks), [])
      else if m < 4 then alignMark fuel b (.inFrame (m + 1) (next + frameBlocks), [])
      else alignMark fuel b (.search, [])

/-- The expected marker does not come: a rejected candidate's search resumes at the block after it (R132). -/
def alignMiss : Align × List Nat → Align × List Nat
  | (.search, seen) => (.search, seen)
  | (.confirm _ _ _, seen) => seen.foldl (fun a x => alignMark 8 x a) (.search, [])
  | (.inFrame m next, _) => if m < 4 then (.inFrame (m + 1) (next + frameBlocks), []) else (.search, [])

/-- In frame. -/
def inFrame : Align → Bool
  | .inFrame _ _ => true
  | _ => false

/-- The block at which the next marker is expected in frame. -/
def expectedAt : Align → Option Nat
  | .inFrame _ next => some next
  | _ => none

/-- An instance that leaves IN_FRAME starts over; otherwise it takes the new alignment. The model's choice (log 61): RPF_RX falls with the
frame, while the received CR, CA, C and calendars stand. -/
def realign (a : Align × List Nat) (x : FlxInst) : FlxInst :=
  if inFrame x.align && !inFrame a.1 then
    { newInst with align := a.1, seen := a.2, calA := x.calA, calB := x.calB, c := x.c, cr := x.cr, ca := x.ca, lomf := x.lomf,
                   gid := x.gid, phy := x.phy }
  else { x with align := a.1, seen := a.2 }

/-- An instance of a PHY whose link has failed: it searches, and no mismatch is declared under PHY_FAIL (R132, R137). -/
def cutOff (x : FlxInst) : FlxInst := { realign (.search, []) x with gid := noMismatch, phy := noMismatch, number := noMismatch }

/-! ### Defects (Table 04-7) -/

/-- One defect in force: order, PHY port or client as DEST of Table 05-5, instance. -/
structure Defect where
  order : Nat
  place : Nat
  inst : Nat
  deriving DecidableEq, Repr

/-- The group's receivers are on. -/
def groupOn (g : FlxGroup) : Bool := g.state == .down || g.state == .up

/-- Defects of one PHY, each suppressed by those above it in its scope. The model's choice (log 62): GID_MISMATCH and PHY_MISMATCH run for each
instance, are declared while any instance declares them, and cleared when all have cleared. -/
def phyDefects (g : FlxGroup) (port : Nat) (s : State) : List Defect :=
  if !linkOk port s then [⟨1, port, 0⟩]
  else
    let is := (List.range (instCount g)).map (fun i => (i, flxInst port i s))
    let good := is.filter (fun x => inFrame x.2.align && !x.2.lomf)
    let lof := (is.filter (fun x => !inFrame x.2.align)).map (fun x => Defect.mk 2 port x.1)
    let lomf := (is.filter (fun x => inFrame x.2.align && x.2.lomf)).map (fun x => Defect.mk 3 port x.1)
    if is.any (fun x => x.2.gid.declared) then lof ++ lomf ++ [⟨4, port, 0⟩]
    else if is.any (fun x => x.2.phy.declared) then lof ++ lomf ++ [⟨5, port, 0⟩]
    else lof ++ lomf ++ (good.filter (fun x => x.2.number.declared)).map (fun x => Defect.mk 6 port x.1)

/-- The defects in force of a group. -/
def defects (g : Nat) (s : State) : List Defect :=
  match flxGroup g s with
  | none => []
  | some x =>
    if !groupOn x then []
    else
      x.phys.flatMap (fun p => phyDefects x p.1 s) ++
      (if x.skew then [⟨7, 0, 0⟩]
       else ((clientsOf g s).filter (fun c => (aget s.flexe.clients c).any (·.mismatch))).map (fun c => Defect.mk 8 (128 + c) 0))

/-- A group in defect (R138). -/
def inDefect (l : List Defect) : Bool := l.any (fun d => d.order ≤ 7)

/-- The PHY map of a group: bit n set for PHY number n. -/
def phyMask (g : FlxGroup) : Nat := g.phys.foldl (fun m p => m ||| 2 ^ p.2) 0

/-- Instance number of instance `i` of a PHY: the agreement assigns it, and the model takes the index within the PHY (R120, log 60). -/
def instNumber (i : Nat) : Nat := i

/-- The 20 slots of the instance at position `k` of R120. -/
def slotsAt (k : Nat) (cal : List Nat) : List Nat := (cal.drop (20 * k)).take 20

/-- What the instance at position `k` of the group sends. -/
def overheadOf (g : Nat) (x : FlxGroup) (k : Nat) (p : Nat × Nat) (s : State) : Overhead :=
  let used := slotsAt k (txCal x x.txB)
  { port := p.1, inst := p.2, group := x.number, phy := ((x.phys.find? (fun q => q.1 == p.1)).map (·.2)).getD 0, phyMap := phyMask x,
    instNumber := instNumber p.2, cr := x.crB, ca := x.caB, c := List.replicate 3 x.txB, rpf := inDefect (defects g s), sc := false,
    calA := (slotsAt k x.txCalA).map (fun e => idOfSlot e s), calB := (slotsAt k x.txCalB).map (fun e => idOfSlot e s),
    errorSlots := (List.range 20).filter (fun n => used.getD n 0xFF == 0xFF) }

/-- Send the group's overhead on every instance (R116, R118, R120, R126, R127, R130, R139); its transmitters are off in ADMIN_DOWN and
DORMANT. -/
def sendOverhead (g : Nat) (s : State) : State :=
  match flxGroup g s with
  | none => s
  | some x =>
    if !groupOn x then s
    else (instsInOrder x).zipIdx.foldl (fun t p => emit (.flexe (overheadOf g x p.2 p.1 s)) t) s

/-- Count a declared defect: LOF and CAL_MISMATCH have counters (Tables 04-10, 04-11). -/
def countDefect (g : Nat) (d : Defect) (s : State) : State :=
  if d.order = 2 then tally (ctrId 1 d.place 1) s
  else if d.order = 8 then tally (ctrId 2 g 2) s
  else s

/-- Report the declaration or clearing of a defect. -/
def reportDefect (g : Nat) (declared : Bool) (d : Defect) (s : State) : State :=
  raiseEvent Ev.flexeDefect g (d.order + b2n declared * 256 + d.place * 65536) d.inst (if declared then countDefect g d s else s)

/-- A defect suppresses another: it stands higher in the order, and its scope holds the other's (Table 04-7). -/
def suppresses (a b : Defect) : Bool :=
  a.order < b.order &&
  (match a.order with
   | 1 => b.order ≤ 6 && a.place == b.place
   | 2 | 3 => (b.order == 3 || b.order == 6) && a.place == b.place && a.inst == b.inst
   | 4 | 5 => b.order ≤ 6 && a.place == b.place
   | 7 => b.order == 8
   | _ => false)

/-- End a pending calendar switch with a status: CR returns to the calendar in use (R129). -/
def endSwitch (g status : Nat) (s : State) : State :=
  match flxGroup g s with
  | none => s
  | some x =>
    if x.switch.isNone then s
    else
      sendOverhead g (finishWaiting (fun w => w == .calendar g) status (fun _ => []) (status == St.ok) 0 0
        (updGroup g (fun x => { x with switch := none, crB := x.txB }) s))

/-- A client's MAC follows its size and its group. -/
def followClient (n : Nat) (s : State) : State :=
  let size := clientSize n s
  let s1 := if (mac? (128 + n) s).any (fun x => x.gbps == size) then s
    else updMac (128 + n) (fun x => { x with gbps := size }) (settleMac (128 + n) s)
  linkStep (128 + n) s1

/-- Every client of a group. -/
def followClients (g : Nat) (s : State) : State := (clientsOf g s).foldl (fun s n => followClient n s) s

/-- Time with a defect of order 1 to 6 on a line (FLX_LINE_SEC_DEFECT_MS). -/
def noteDefects (g : Nat) (l : List Defect) (s : State) : State :=
  match flxGroup g s with
  | none => s
  | some x => x.phys.foldl (fun s p =>
      let bad := l.any (fun d => d.order ≤ 6 && d.place == p.1)
      updLine p.1 (fun y =>
        match y.defectSince, bad with
        | some t, false => { y with defectSince := none, defectNs := y.defectNs + (s.elapsed - t) }
        | none, true => { y with defectSince := some s.elapsed }
        | _, _ => y) s) s

/-- Time not UP, outside ADMIN_DOWN (FLX_GRP_SEC_DOWN_MS). -/
def noteDown (g : Nat) (s : State) : State :=
  updGroup g (fun x =>
    let bad := x.state == .down || x.state == .dormant
    match x.downSince, bad with
    | some t, false => { x with downSince := none, downNs := x.downNs + (s.elapsed - t) }
    | none, true => { x with downSince := some s.elapsed }
    | _, _ => x) s

/-- Bring a group to its defects, those in force before given: reports, state, clients (R138 to R140); one that is now suppressed is not
reported as cleared. -/
def groupStep (g : Nat) (before : List Defect) (s : State) : State :=
  let now := defects g s
  let s1 := (before.filter (fun d => !now.contains d && !now.any (fun e => suppresses e d))).foldl (fun s d => reportDefect g false d s) s
  let s2 := (now.filter (fun d => !before.contains d)).foldl (fun s d => reportDefect g true d s) s1
  let s3 := match flxGroup g s2 with
    | none => s2
    | some x =>
      if x.state == .up && inDefect now then
        let top := now.foldl (fun m d => min m d.order) 8
        endSwitch g St.flexeGroupDown
          (raiseEvent Ev.flexeGroupDown g top 0 (tally (ctrId 2 g 0) (updGroup g (fun x => { x with state := .down }) s2)))
      else if x.state == .down && !inDefect now then
        raiseEvent Ev.flexeGroupUp g 0 0 (updGroup g (fun x => { x with state := .up }) s2)
      else s2
  let s4 := if inDefect before = inDefect now then s3 else sendOverhead g s3
  noteDown g (noteDefects g now (followClients g s4))

/-- Do something to a group and bring it to its defects. -/
def withGroup (g : Nat) (f : State → State) (s : State) : State := groupStep g (defects g s) (f s)

/-- A PHY whose link has failed searches again (Table 04-6). -/
def dropAlign (port : Nat) (s : State) : State :=
  if linkOk port s then s else updLine port (fun l => { l with insts := l.insts.map cutOff }) s

/-- Something about a port's or client's link changes: its link state, and its group when it is a PHY. -/
def linkChange (m : Nat) (f : State → State) (s : State) : State :=
  match phyGroup m s with
  | some g => withGroup g (fun s => dropAlign m (linkStep m (f s))) s
  | none => linkStep m (f s)

/-! ### Group states (Table 04-8) -/

/-- Every PHY port of a group. -/
def eachPhy (g : Nat) (f : Nat → State → State) (s : State) : State :=
  match flxGroup g s with
  | none => s
  | some x => x.phys.foldl (fun s p => f p.1 s) s

/-- A group to ADMIN_DOWN. -/
def groupAdminDown (g : Nat) (s : State) : State :=
  if (flxGroup g s).any (fun x => x.state == .adminDown) then s
  else withGroup g (fun s =>
    eachPhy g (fun p s => dropAlign p (toAdminDown p s))
      (updGroup g (fun x => { x with state := .adminDown, dormantByShed := false }) (endSwitch g St.flexeGroupDown s))) s

/-- A group to DORMANT (R121). -/
def groupDormant (byShed : Bool) (g : Nat) (s : State) : State :=
  match flxGroup g s with
  | none => s
  | some x =>
    if x.state == .adminDown then s
    else if x.state == .dormant then updGroup g (fun x => { x with dormantByShed := x.dormantByShed && byShed }) s
    else withGroup g (fun s =>
      eachPhy g (fun p s => dropAlign p (toDormant byShed p s))
        (updGroup g (fun x => { x with state := .dormant, dormantByShed := byShed }) (endSwitch g St.flexeGroupDown s))) s

/-- A group from ADMIN_DOWN or DORMANT to DOWN. -/
def groupDown (g : Nat) (s : State) : State :=
  match flxGroup g s with
  | none => s
  | some x =>
    if groupOn x then s
    else sendOverhead g (withGroup g (fun s =>
      eachPhy g toDown (updGroup g (fun x => { x with state := .down, dormantByShed := false, skew := false, skewOkMulti := 0 }) s)) s)

/-! ### Overhead content (R133, R134, R137) -/

/-- One CRC-good frame of a mismatch defect: 3 consecutive frames declare or clear it. -/
def mismatchStep (differs : Bool) (m : Mismatch) : Mismatch :=
  if differs then { bad := m.bad + 1, good := 0, declared := m.declared || 3 ≤ m.bad + 1 }
  else { bad := 0, good := m.good + 1, declared := m.declared && m.good + 1 < 3 }

/-- Multiframe alignment after a frame with OMF `o` (R133): OMF is 0 in the first 16 frames, 1 in the last 16 (log 6). -/
def omfStep (o : Bool) (x : FlxInst) : FlxInst :=
  let fall := x.omf == some true && !o
  if x.inMulti then
    let f := (x.frame + 1) % 32
    let wrong := o != (16 ≤ f)
    if wrong && 1 ≤ x.omfBad then { x with omf := some o, inMulti := false, lomf := true, omfBad := 0, sinceFall := none, frame := f,
                                                number := noMismatch }
    else { x with omf := some o, frame := f, omfBad := if wrong then 1 else 0 }
  else if fall then
    match x.sinceFall with
    | some 31 => { x with omf := some o, inMulti := true, lomf := false, omfBad := 0, frame := 0, sinceFall := none }
    | _ => { x with omf := some o, sinceFall := some 0 }
  else { x with omf := some o, sinceFall := x.sinceFall.map (· + 1) }

/-- A frame whose marker was missed while in frame. -/
def lostFrame (x : FlxInst) : FlxInst :=
  { x with omf := none, frame := (x.frame + 1) % 32, sinceFall := x.sinceFall.map (· + 1), allGood := false }

/-- Majority of the three copies of C. -/
def majority (l : List Bool) : Bool := 2 ≤ l.countP id

/-- Calendar entries that a frame carries. -/
def takeCal (cal : List (Nat × Nat × Nat)) (x : FlxInst) : FlxInst :=
  cal.foldl (fun x e => { x with calA := x.calA.set e.1 e.2.1, calB := x.calB.set e.1 e.2.2 }) x

/-- The content of a frame at its expected position. -/
def takeFrame (g : FlxGroup) (phyNo : Nat) (f : OhFrame) (x : FlxInst) : FlxInst :=
  let x1 := omfStep f.omf { x with c := majority f.c }
  let x2 := if f.crcGood then
      { takeCal f.cal x1 with gid := mismatchStep (f.group != g.number) x1.gid,
                              phy := mismatchStep (f.phy != phyNo || f.phyMap != phyMask g) x1.phy,
                              number := if x1.lomf then noMismatch else mismatchStep (f.instNumber != instNumber f.inst) x1.number,
                              cr := f.cr, ca := f.ca, rpf := f.rpf }
    else x1
  let x3 := { x2 with allGood := (x2.allGood || x2.frame == 0) && f.crcGood }
  let x4 := if x3.inMulti && x3.frame = 0 then { x3 with start := some f.block } else x3
  if x4.inMulti && x4.frame = 31 then { x4 with lastGood := x4.allGood, ended := true } else x4

/-! ### Skew (R135, R136) -/

/-- Distance of a multiframe start from a reference, within half a multiframe either way. -/
def startDiff (r b : Nat) : Int :=
  (((b : Int) - (r : Int) + ((multiBlocks / 2 : Nat) : Int)) % (multiBlocks : Int)) - ((multiBlocks / 2 : Nat) : Int)

/-- Arrival of every instance's multiframe relative to one of them, when all are known. -/
def arrivals (g : FlxGroup) (s : State) : Option (List (Nat × Int)) :=
  let l := (instsInOrder g).map (fun p => (p.1, (flxInst p.1 p.2 s).start))
  match l.head?.bind (·.2) with
  | none => none
  | some r => if l.any (fun x => x.2.isNone) then none else some (l.map (fun x => (x.1, startDiff r (x.2.getD 0))))

/-- Largest and smallest of the arrivals. -/
def latest (l : List (Nat × Int)) : Int := l.foldl (fun m x => max m x.2) ((l.head?.map (·.2)).getD 0)
def earliest (l : List (Nat × Int)) : Int := l.foldl (fun m x => min m x.2) ((l.head?.map (·.2)).getD 0)

/-- Blocks as ns: 0.64 ns each. -/
def blocksNs (n : Nat) : Nat := n * 16 / 25

/-- The delay added to a PHY, in ns. -/
def lineSkew (port : Nat) (s : State) : Nat :=
  match (phyGroup port s).bind (fun g => flxGroup g s) with
  | none => 0
  | some g => match arrivals g s with
    | none => 0
    | some l => blocksNs ((latest l - earliest (l.filter (fun x => x.1 == port))).toNat)

/-- Measure the group skew at a multiframe start: from the first measure within the limit, the next one of the same instance ends a complete
multiframe (R136). -/
def measureSkew (g : Nat) (s : State) : State :=
  match flxGroup g s with
  | none => s
  | some x =>
    match arrivals x s with
    | none => s
    | some l =>
      let k := (latest l - earliest l).toNat
      let ok := k ≤ 18750
      let run := if ok then x.skewOkMulti + 1 else 0
      updGroup g (fun x => { x with
        skewBlocks := k, skewOkMulti := run, skewMax := max x.skewMax (blocksNs k),
        skew := if ok then x.skew && run ≤ (instsInOrder x).length else true }) s

/-! ### Calendars received (R125, R130, Table 04-7) -/

/-- The slots of a client, expected or received, differ. -/
def calDiffers (g n : Nat) (x : FlxGroup) (s : State) : Bool :=
  let want := rxCal x x.rxB
  let got := receivedCal x x.rxB s
  (List.range want.length).any (fun k =>
    let w := want.getD k 0xFF
    let r := clientOfId g (got.getD k 0) s
    (w == n || r == n) && w != r)

/-- One whole CRC-good multiframe for CAL_MISMATCH of a client. -/
def calStep (g n : Nat) (x : FlxGroup) (s : State) : State :=
  let bad := calDiffers g n x s
  { s with flexe := { s.flexe with clients := aupd s.flexe.clients n (fun c =>
      { c with badRun := (if bad then c.badRun + 1 else 0), mismatch := bad && (c.mismatch || 2 ≤ c.badRun + 1) }) } }

/-- Answer CR (R130): CA once the requested calendar was received whole and is the expected one; otherwise the request is reported, and it is
over when the far end withdraws it. -/
def answerCr (g : Nat) (x : FlxGroup) (s : State) : State :=
  let is := (instsInOrder x).map (fun p => flxInst p.1 p.2 s)
  let want := is.any (·.cr)
  if !is.all (fun i => i.cr == want) then s
  else if x.caB = want then updGroup g (fun x => { x with crPending := false }) s
  else
    let expected := (rxCal x want).map (fun e => idOfSlot e s)
    if receivedCal x want s == expected then
      sendOverhead g (updGroup g (fun x => { x with caB := want, crPending := false }) s)
    else if x.crPending then s
    else raiseEvent Ev.flexeCalRequest g (b2n want) 0 (updGroup g (fun x => { x with crPending := true }) s)

/-- Every instance has ended a multiframe: calendars are looked at when all were CRC-good. -/
def multiframeEnd (g : Nat) (s : State) : State :=
  match flxGroup g s with
  | none => s
  | some x =>
    let ps := instsInOrder x
    let is := ps.map (fun p => flxInst p.1 p.2 s)
    if !is.all (·.ended) then s
    else
      let s1 := ps.foldl (fun s p => updInst p.1 p.2 (fun i => { i with ended := false }) s) s
      if !is.all (·.lastGood) then s1
      else answerCr g x ((clientsOf g s1).foldl (fun s n => calStep g n x s) s1)

/-- The receive calendar in use follows the received C bit of every instance (R125). -/
def followC (g : Nat) (s : State) : State :=
  match flxGroup g s with
  | none => s
  | some x =>
    let is := (instsInOrder x).map (fun p => flxInst p.1 p.2 s)
    if is.all (fun i => i.c != x.rxB) && !is.isEmpty then
      raiseEvent Ev.flexeCalSwitched g (1 + 2 * b2n (!x.rxB)) 0 (updGroup g (fun x => { x with rxB := !x.rxB }) s)
    else s

/-- `FLEXE_OH_FRAME_RX` on a PHY of a group. The model's choice (log 63): the content of the frame whose marker moves CONFIRM to IN_FRAME is
neither used nor counted. -/
def ohFrame (g : Nat) (x : FlxGroup) (f : OhFrame) (s : State) : State :=
  let i := flxInst f.port f.inst s
  let hit := expectedAt i.align == some f.block
  let s1 := updInst f.port f.inst (fun y => realign (alignMark 12 f.block (y.align, y.seen)) y) s
  if !hit then s1
  else
    let no := ((x.phys.find? (fun p => p.1 == f.port)).map (·.2)).getD 0
    let s2 := if f.crcGood then (if f.rpf then tally (ctrId 1 f.port 2) s1 else s1)
      else tally (ctrId 1 f.port 0) (updLine f.port (fun l => { l with secNow := l.secNow.modify 0 (· + 1) }) s1)
    let s3 := updInst f.port f.inst (takeFrame x no f) s2
    let y := flxInst f.port f.inst s3
    let s4 := if y.inMulti && y.frame = 0 then measureSkew g s3 else s3
    multiframeEnd g (followC g s4)

/-- A frame on a port whose receiver is on and whose link is OK; another control block is no marker (R131). -/
def execFlexeOhFrameRx (f : OhFrame) (s : State) : Res :=
  .next (match phyGroup f.port s with
    | none => s
    | some g => match flxGroup g s with
      | none => s
      | some x => if f.blockType != markerType || f.oCode != markerCode || instCount x ≤ f.inst || !groupOn x || !linkOk f.port s then s else withGroup g (ohFrame g x f) s)

/-- `FLEXE_MARKER_MISSED`: no marker at the expected position. -/
def execFlexeMarkerMissed (port inst : Nat) (s : State) : Res :=
  .next (match phyGroup port s with
    | none => s
    | some g => withGroup g (fun s => updInst port inst (fun y =>
        let a := alignMiss (y.align, y.seen)
        if inFrame y.align && inFrame a.1 then { lostFrame y with align := a.1, seen := a.2 } else realign a y) s) s)

/-! ### Transmit switch (R127 to R129) -/

/-- `FLEXE_CR_SET`: one complete multiframe of the staged calendar has been sent. -/
def execFlexeCrSet (group : Nat) (s : State) : Res :=
  .next (match flxGroup group s with
    | none => s
    | some x =>
      match x.switch with
      | some w =>
        if w.crAt.isSome || s.mgmt.restarting then s
        else
          let s1 := advanceTo (w.startedAt + multiNs) s
          sendOverhead group (updGroup group (fun x => { x with
            crB := !x.txB, switch := some { w with crAt := some s1.elapsed } }) s1)
      | none => s)

/-- CA naming the staged calendar has been received on every PHY. -/
def caReceived (x : FlxGroup) (s : State) : Bool := (instsInOrder x).all (fun p => (flxInst p.1 p.2 s).ca == !x.txB)

/-- `FLEXE_C_BIT_CHANGE`: the C bit changes, clients are mapped by the new calendar, the command completes. -/
def execFlexeCBitChange (group : Nat) (s : State) : Res :=
  .next (match flxGroup group s with
    | none => s
    | some x =>
      if !(x.switch.any (fun w => w.crAt.isSome)) || !caReceived x s || s.mgmt.restarting then s
      else
        let s1 := (clientsOf group s).foldl (fun s n => settleMac (128 + n) s) s
        let s2 := tally (ctrId 2 group 1) (updGroup group (fun x => { x with txB := !x.txB, switch := none }) s1)
        let s3 := raiseEvent Ev.flexeCalSwitched group (2 * b2n (!x.txB)) 0 (followClients group s2)
        finishWaiting (fun w => w == .calendar group) St.ok (fun _ => []) true 0 0 (sendOverhead group s3))

/-- `FLEXE_NO_ACK`: ten multiframes after CR was set. -/
def execFlexeNoAck (group : Nat) (s : State) : Res :=
  .next (match flxGroup group s with
    | none => s
    | some x =>
      match x.switch.bind (·.crAt) with
      | none => s
      | some t => if caReceived x s || s.mgmt.restarting then s else endSwitch group St.flexeNoAck (advanceTo (t + 10 * multiNs) s))

end Sys2Proof.Machine
end

