-- ==== Sys2Proof/Machine/FlexeCmds.lean ====
section
/-! DEFINITION. FlexE commands and status words (chapter 04), the link rows, and degraded-signal detection. -/

namespace Sys2Proof.Machine
open Sys2Proof

/-! ### Status words (Tables 04-10, 04-11) -/

/-- FLX_LINE_STATUS. -/
def lineStatus (p : Nat) (s : State) : Nat :=
  let deg := b2n ((mac? p s).any (fun x => x.degrade.declared)) * 32768
  match (phyGroup p s).bind (fun g => flxGroup g s) with
  | none => deg
  | some g =>
    let is := (List.range (instCount g)).map (fun i => flxInst p i s)
    let ds := if groupOn g then phyDefects g p s else []
    deg + b2n (is.any (·.rpf)) * 16384 +
    ds.foldl (fun n d => n + (match d.order with
      | 1 => 8192 | 2 => 2 ^ d.inst | 3 => 2 ^ (4 + d.inst) | 4 => 4096 | 5 => 2048 | _ => 0)) 0 +
    b2n (ds.any (fun d => d.order == 6)) * 256

/-- FLX_LINE_GROUP. -/
def lineGroup (p : Nat) (s : State) : Nat := (phyGroup p s).getD 0xFF

/-- State code of a group. -/
def groupCode : FlxState → Nat
  | .adminDown => 0 | .down => 1 | .up => 2 | .dormant => 3

/-- FLX_GRP_STATUS. -/
def groupStatus (g : Nat) (s : State) : Nat :=
  match flxGroup g s with
  | none => 0
  | some x =>
    groupCode x.state * 2 ^ 29 + b2n x.skew * 2 ^ 28 + b2n x.txB * 2 ^ 27 + b2n x.rxB * 2 ^ 26 + b2n x.switch.isSome * 2 ^ 25 +
    b2n x.crPending * 2 ^ 24

/-- FLX_GRP_SKEW. -/
def groupSkew (g : Nat) (s : State) : Nat := ((flxGroup g s).map (fun x => blocksNs x.skewBlocks % 65536)).getD 0

/-! ### Group commands -/

/-- PHY list of `flexe.group.config`: port and PHY number. -/
def phyList (h : HeldCmd) : List (Nat × Nat) := (List.range (par h 1 1)).map (fun k => (par h (8 + 2 * k) 1, par h (9 + 2 * k) 1))

/-- Distinct values. -/
def allDistinct (l : List Nat) : Bool := (distinct l).length == l.length

/-- A calendar for a new number of slots. -/
def fitCal (n : Nat) (c : List Nat) : List Nat := c.take n ++ List.replicate (n - c.length) 0xFF

/-- The form checks of `flexe.group.config` (R116, R118, R119). The model's choice (log 64): a port listed twice is refused too, whatever its
PHY numbers. -/
def groupConfigBad (h : HeldCmd) (s : State) : Bool :=
  let n := par h 1 1
  let l := phyList h
  16 ≤ par h 0 1 || n < 1 || 8 < n || 2 < par h 2 1 || 15 < par h 3 1 || par h 4 4 < 1 || 0xFFFFE < par h 4 4 ||
  !parZero h (8 + 2 * n) (16 - 2 * n) || l.any (fun p => p.2 < 1 || 254 < p.2) || !allDistinct (l.map (·.2)) ||
  !allDistinct (l.map (·.1)) ||
  l.any (fun p => 80 ≤ p.1 || !((mac? p.1 s).any (fun x => x.cfg.flexePhy && x.cfg.speed == 3 + par h 2 1)))

/-- A new group, in ADMIN_DOWN with every slot unused (R118, R125). -/
def newFlxGroup (rate rank number : Nat) (phys : List (Nat × Nat)) : FlxGroup :=
  let c := List.replicate (20 * 2 ^ rate * phys.length) 0xFF
  { rate := rate, shedRank := rank, number := number, phys := phys, state := .adminDown, dormantByShed := false, txB := false,
    rxB := false, txCalA := c, txCalB := c, rxCalA := c, rxCalB := c, switch := none, crB := false, caB := false,
    crPending := false, skew := false, skewBlocks := 0, skewOkMulti := 0, secTempo := 0, downSince := none, downNs := 0,
    skewMax := 0, secLatched := [0, 0] }

/-- `flexe.group.config` (R118, R119): the group's state governs the PHY ports that join it. -/
def flexeGroupConfig (h : HeldCmd) (s : State) : Verdict :=
  let g := par h 0 1
  let l := phyList h
  if groupConfigBad h s then .refuse St.invalidParam
  else if !(distinct (l.map (fun p => p.1 / 10))).length == 1 then .refuse St.laneGroup
  else if l.any (fun p => (phyGroup p.1 s).any (fun k => k != g)) then .refuse St.flexeMember
  else
    let put := fun (x : FlxGroup) => l.foldl (fun s p => toAdminDown p.1 s)
      { s with flexe := { s.flexe with groups := aset s.flexe.groups g x } }
    match flxGroup g s with
    | none => .done St.ok [] (put (newFlxGroup (par h 2 1) (par h 3 1) (par h 4 4) l))
    | some x =>
      let differs := x.rate != par h 2 1 || x.number != par h 4 4 || x.phys != l
      if differs && x.state != .adminDown then .refuse St.flexeBusy
      else if !differs then .done St.ok [] (updGroup g (fun x => { x with shedRank := par h 3 1 }) s)
      else
        let n := 20 * 2 ^ par h 2 1 * l.length
        .done St.ok [] (put { x with rate := par h 2 1, shedRank := par h 3 1, number := par h 4 4, phys := l,
                                     txCalA := fitCal n x.txCalA, txCalB := fitCal n x.txCalB, rxCalA := fitCal n x.rxCalA,
                                     rxCalB := fitCal n x.rxCalB })

def specFlexeGroupConfig : CmdSpec := ⟨24, .effect, flexeGroupConfig⟩
def execFlexeGroupConfig (c : Cmd) (s : State) : Res := runCmd 0x0301 specFlexeGroupConfig c s

/-- `flexe.group.delete` (R118). -/
def flexeGroupDelete (h : HeldCmd) (s : State) : Verdict :=
  let g := par h 0 1
  if 16 ≤ g || !parZero h 1 3 then .refuse St.invalidParam
  else match flxGroup g s with
    | none => .refuse St.notFound
    | some x =>
      if x.state != .adminDown || !(clientsOf g s).isEmpty then .refuse St.flexeBusy
      else .done St.ok [] { s with flexe := { s.flexe with groups := adel s.flexe.groups g } }

def specFlexeGroupDelete : CmdSpec := ⟨4, .effect, flexeGroupDelete⟩
def execFlexeGroupDelete (c : Cmd) (s : State) : Res := runCmd 0x0302 specFlexeGroupDelete c s

/-- `flexe.group.admin` (R140, R145). -/
def flexeGroupAdmin (h : HeldCmd) (s : State) : Verdict :=
  let g := par h 0 1
  if 16 ≤ g || 2 < par h 1 1 || !parZero h 2 2 then .refuse St.invalidParam
  else if (flxGroup g s).isNone then .refuse St.notFound
  else if heldGroup g s then .done St.ok [] (holdItem (256 + g) (par h 1 1 == 1) s)
  else .done St.ok [] (if par h 1 1 = 0 then groupAdminDown g s else if par h 1 1 = 1 then groupDown g s else groupDormant false g s)

def specFlexeGroupAdmin : CmdSpec := ⟨4, .effect, flexeGroupAdmin⟩
def execFlexeGroupAdmin (c : Cmd) (s : State) : Res := runCmd 0x0303 specFlexeGroupAdmin c s

/-! ### Client commands -/

/-- A client holds a slot in some calendar of its group. -/
def holdsSlot (n : Nat) (s : State) : Bool :=
  match (aget s.flexe.clients n).bind (fun c => flxGroup c.group s) with
  | none => false
  | some g => (g.txCalA ++ g.txCalB ++ g.rxCalA ++ g.rxCalB).contains n

/-- `flexe.client.config` (R122, R123). -/
def flexeClientConfig (h : HeldCmd) (s : State) : Verdict :=
  let n := par h 0 2
  let g := par h 2 1
  let id := par h 4 2
  let c := macParams h
  if 128 ≤ n || 16 ≤ g || !parZero h 3 1 || id < 1 || 0xFFFE < id || c.flexePhy || macParamsBad h (clientSize n s) then
    .refuse St.invalidParam
  else if (flxGroup g s).isNone then .refuse St.notFound
  else if s.flexe.clients.any (fun x => x.1 != n && x.2.group == g && x.2.clientId == id) then .refuse St.invalidParam
  else match aget s.flexe.clients n with
    | none =>
      if 192 ≤ portNodes s then .refuse St.noResource
      else .done St.ok [] { s with
        macs := aset s.macs (128 + n) (newMac c 0 s),
        flexe := { s.flexe with clients := aset s.flexe.clients n { group := g, clientId := id, badRun := 0, mismatch := false } } }
    | some x =>
      if x.group != g && (holdsSlot n s || (mac? (128 + n) s).any (fun y => y.link != .adminDown)) then .refuse St.flexeClientActive
      else .done St.ok [] (setMacCfg (128 + n) c (clientSize n s)
        { s with flexe := { s.flexe with clients := aset s.flexe.clients n { x with group := g, clientId := id } } })

def specFlexeClientConfig : CmdSpec := ⟨44, .effect, flexeClientConfig⟩
def execFlexeClientConfig (c : Cmd) (s : State) : Res := runCmd 0x0304 specFlexeClientConfig c s

/-- `flexe.client.delete` (R81, R122). -/
def flexeClientDelete (h : HeldCmd) (s : State) : Verdict :=
  let n := par h 0 2
  if 128 ≤ n || !parZero h 2 2 then .refuse St.invalidParam
  else if !ahas s.flexe.clients n then .refuse St.notFound
  else if holdsSlot n s || (mac? (128 + n) s).any (fun y => y.link != .adminDown) then .refuse St.flexeClientActive
  else if nodeInUse (128 + n) s then .refuse St.nodeInUse
  else .done St.ok [] (dropMac (128 + n) { s with flexe := { s.flexe with clients := adel s.flexe.clients n } })

def specFlexeClientDelete : CmdSpec := ⟨4, .effect, flexeClientDelete⟩
def execFlexeClientDelete (c : Cmd) (s : State) : Res := runCmd 0x0305 specFlexeClientDelete c s

/-- `flexe.client.admin` (R145). -/
def flexeClientAdmin (h : HeldCmd) (s : State) : Verdict :=
  let n := par h 0 2
  if 128 ≤ n || 2 < par h 2 1 || !parZero h 3 1 then .refuse St.invalidParam
  else if !ahas s.flexe.clients n then .refuse St.notFound
  else .done St.ok [] (adminTo (par h 2 1) (128 + n) s)

def specFlexeClientAdmin : CmdSpec := ⟨4, .effect, flexeClientAdmin⟩
def execFlexeClientAdmin (c : Cmd) (s : State) : Res := runCmd 0x0306 specFlexeClientAdmin c s

/-! ### Calendar commands (R125 to R129) -/

/-- A client size of Table 04-1, in slots. -/
def slotsOk (n : Nat) : Bool := n == 0 || n == 2 || n == 8 || (n % 5 == 0 && n ≤ 320)

/-- `flexe.calendar.stage` (R125, R126). -/
def flexeCalendarStage (h : HeldCmd) (s : State) : Verdict :=
  let g := par h 0 1
  let n := par h 2 2
  let cal := (List.range n).map (fun k => par h (4 + k) 1)
  if 16 ≤ g || 3 < par h 1 1 || h.paramLen < 4 + n then .refuse St.invalidParam
  else match flxGroup g s with
    | none => .refuse St.notFound
    | some x =>
      let tx := bit (par h 1 1) 0 == 1
      let rx := bit (par h 1 1) 1 == 1
      if n != slotCount x ||
          cal.any (fun e => e != 0xFF && !((aget s.flexe.clients e).any (fun c => c.group == g))) ||
          (distinct cal).any (fun e => e != 0xFF && !slotsOk (cal.countP (· == e))) then .refuse St.invalidParam
      else if tx && (clientsOf g s).any (fun k =>
          (mac? (128 + k) s).any (fun y => y.link != .adminDown) && (txCal x x.txB).contains k && !cal.contains k) then
        .refuse St.flexeClientActive
      else if x.switch.isSome then .refuse St.flexeBusy
      else
        let s1 := updGroup g (fun x =>
          let y := if !tx then x else if x.txB then { x with txCalA := cal } else { x with txCalB := cal }
          if !rx then y else if y.rxB then { y with rxCalA := cal } else { y with rxCalB := cal }) s
        .done St.ok [] (if tx then sendOverhead g s1 else s1)

def specFlexeCalendarStage : CmdSpec := ⟨4, .effect, flexeCalendarStage⟩
def execFlexeCalendarStage (c : Cmd) (s : State) : Res := runCmd 0x0307 specFlexeCalendarStage c s

/-- `flexe.calendar.switch` (R127, R129). The model's choice (log 65): a second one while a switch is pending is refused with FLEXE_BUSY. -/
def flexeCalendarSwitch (h : HeldCmd) (s : State) : Verdict :=
  let g := par h 0 1
  if 16 ≤ g || !parZero h 1 3 then .refuse St.invalidParam
  else match flxGroup g s with
    | none => .refuse St.notFound
    | some x =>
      if x.state != .up then .refuse St.flexeGroupDown
      else if x.switch.isSome then .refuse St.flexeBusy
      else .wait (.calendar g) [] (updGroup g (fun x => { x with switch := some { startedAt := s.elapsed, crAt := none } }) s)

def specFlexeCalendarSwitch : CmdSpec := ⟨4, .effect, flexeCalendarSwitch⟩
def execFlexeCalendarSwitch (c : Cmd) (s : State) : Res := runCmd 0x0308 specFlexeCalendarSwitch c s

/-- One PHY record of Table 04-14. -/
def phyRecord (p : Nat × Nat) (s : State) : List Byte := le 1 p.1 ++ le 1 p.2 ++ le 2 (lineSkew p.1 s) ++ le 4 (lineStatus p.1 s)

/-- `flexe.query` (Table 04-14). -/
def flexeQuery (h : HeldCmd) (s : State) : Verdict :=
  let g := par h 0 1
  if 16 ≤ g || !parZero h 1 3 then .refuse St.invalidParam
  else match flxGroup g s with
    | none => .refuse St.notFound
    | some x =>
      let cal := fun (l : List Nat) => l.map (fun e => BitVec.ofNat 8 e)
      .done St.ok (le 4 (groupStatus g s) ++ le 2 (groupSkew g s) ++ le 2 (slotCount x) ++ le 1 x.phys.length ++ zeros 7 ++
        fit 64 (x.phys.flatMap (fun p => phyRecord p s)) ++ cal x.txCalA ++ cal x.txCalB ++ cal x.rxCalA ++ cal x.rxCalB ++
        cal ((receivedCal x x.rxB s).map (fun id => clientOfId g id s))) s

def specFlexeQuery : CmdSpec := ⟨4, .query, flexeQuery⟩
def execFlexeQuery (c : Cmd) (s : State) : Res := runCmd 0x0309 specFlexeQuery c s

/-! ### Link rows -/

/-- `PORT_LINK_OK`: aligned, locked, and no fault received. -/
def execPortLinkOk (mac : Nat) (s : State) : Res :=
  .next (if (mac? mac s).any powered then
      linkChange mac (updMac mac (fun x => { x with pcs := true, localFault := false, remoteFault := false })) s
    else s)

/-- `PORT_LINK_FAIL`: alignment or lock lost, or a fault received: the operands give the ordered sets received from here on (R105). -/
def execPortLinkFail (mac : Nat) (pcsLost localFault remoteFault : Bool) (s : State) : Res :=
  .next (if (mac? mac s).any powered then
      linkChange mac (updMac mac (fun x => { x with
        pcs := x.pcs && !pcsLost, localFault := localFault, remoteFault := remoteFault })) s
    else s)

/-! ### Degraded signal (R141, R142) -/

/-- DEG is declared or cleared. -/
def setDeg (m : Nat) (on : Bool) (s : State) : State :=
  let s1 := if on then tally (ctrId 1 m 3) s else s
  raiseEvent Ev.portDegraded m (b2n on) 0 (linkChange m (updMac m (fun x => { x with degrade := { x.degrade with declared := on } })) s1)

/-- `port.degrade`. The model's choice (log 66): the window runs start over, and a declared DEG stands while ACTION goes between REPORT and
FAIL. -/
def portDegrade (h : HeldCmd) (s : State) : Verdict :=
  let m := par h 0 2
  if 80 ≤ m || 2 < par h 2 1 || par h 3 1 < 1 || 16 < par h 3 1 || par h 4 1 < 1 || !parZero h 5 3 || par h 8 4 < par h 12 4 then
    .refuse St.invalidParam
  else match mac? m s with
    | none => .refuse St.notFound
    | some x =>
      let s1 := if par h 2 1 = 0 && x.degrade.declared then setDeg m false s else s
      .done St.ok [] (linkChange m (updMac m (fun x => { x with degrade :=
        { x.degrade with action := par h 2 1, set := par h 8 4, clear := par h 12 4, windowsSet := par h 3 1,
                         windowsClear := par h 4 1, badRun := 0, goodRun := 0 } })) s1)

def specPortDegrade : CmdSpec := ⟨16, .effect, portDegrade⟩
def execPortDegrade (c : Cmd) (s : State) : Res := runCmd 0x0205 specPortDegrade c s

/-- One window of a port: its codewords count for its second (R114), its errors for DEG (R141). -/
def degWindow (m : Nat) (w : WindowCount) (s0 : State) : State :=
  match mac? m s0 with
  | none => s0
  | some x =>
    let s := if x.cfg.fec = 0 then s0 else updMac m (fun x => { x with
      secNow := (x.secNow.modify 3 (· + w.corrected)).modify 4 (· + w.uncorrectable) }) s0
    let errors := w.errors
    let uncorrectable := decide (0 < w.uncorrectable)
    let d := x.degrade
    let above := d.action != 0 && (d.set < errors || uncorrectable)
    let below := errors ≤ d.clear && !uncorrectable
    let s1 := updLine m (fun l => { l with secNow := (l.secNow.modify 2 (· + errors)).modify 1 (· + b2n above) }) s
    if d.action = 0 then s1
    else
      let bad := if above then d.badRun + 1 else 0
      let good := if below then d.goodRun + 1 else 0
      let s2 := updMac m (fun x => { x with degrade := { x.degrade with badRun := bad, goodRun := good } }) s1
      if !d.declared && d.windowsSet ≤ bad then setDeg m true s2
      else if d.declared && d.windowsClear ≤ good then setDeg m false s2
      else s2

/-- The next multiple of 10 ms of Tempo. -/
def windowEnd (s : State) : Nat := (s.tempo.now / (10000000 * tuPerNs) + 1) * (10000000 * tuPerNs)

/-- The FEC counts of a fabric lane (R336). -/
def laneWindow (w : WindowCount) (s : State) : State :=
  if w.line < 128 || 240 ≤ w.line then s
  else bump (laneCtr (w.line - 128) 0x128) w.uncorrectable (bump (laneCtr (w.line - 128) 0x120) w.corrected s)

/-- `DEG_WINDOW_END`: every configured port's window ends; a line not listed had no error. -/
def execDegWindowEnd (counts : List WindowCount) (s : State) : Res :=
  .next (counts.foldl (fun s w => laneWindow w s) ((akeys (s.macs.filter (fun p => p.1 < 80))).foldl (fun s m =>
    degWindow m ((counts.find? (fun c => c.line == m)).getD { line := m, errors := 0, corrected := 0, uncorrectable := 0 }) s)
      (advanceTempo (windowEnd s) s)))

end Sys2Proof.Machine
end

