-- ==== Sys2Proof/Machine/Halt.lean ====
section
/-! DEFINITION. Stopping the data plane (R540, R545, Table 15-10, R467): what is buffered is discarded, ports and lanes go down, HBM powers down; and the order in which S3 makes ports dormant (R110, R121). -/

namespace Sys2Proof.Machine
open Sys2Proof

/-! ### Packets -/

/-- The descriptor of a DIRECT frame is consumed with its frame on the leaf queue, or with its discard (R363). -/
def directDone (p : Pkt) (s : State) : State :=
  match p.inject with
  | some i => if p.direct && stands i.home s then descDone i.home.ring s else s
  | none => s

/-- Port or client of a DIRECT frame's completion (Table 10-9); 0 for any other packet. -/
def directPort (p : Pkt) : Nat := (p.inject.map (·.port)).getD 0

/-- Discard a frame that has not reached its leaf queue. -/
def discardBegun (cause m : Nat) (p : Pkt) (s : State) : State := directDone p (endPkt p cause m (dropCause cause s))

/-- Discard what waits for QD: its buffer request or its re-offer ends (R237, R242). -/
def dropWaiting (cause : Nat) (w : Waiting) (s : State) : State :=
  match w.punt, w.leaf with
  | some _, _ => dropCause cause s
  | none, some _ => discardBegun cause (directPort w.pkt) w.pkt s
  | none, none => endPkt w.pkt cause 0 (if w.pkt.dest = 0xFFFF || w.consumer = consumerEgress then dropCause cause s else voqDrop (w.pkt.dest * 8 + w.pkt.cls) cause s)

/-- Discard what crosses the bridge. -/
def dropXfer (cause : Nat) (x : Xfer) (s : State) : State :=
  match x with
  | .toVoq p => discard cause p s
  | .toPunt _ p => unref p.store (dropCause cause s)
  | .toLeaf _ p => discardBegun cause (directPort p) p s
  | .toEgress m _ p => endPkt p cause m (dropCause cause s)
  | .toHost _ _ _ _ _ p => unref p.store (dropCause cause s)

/-- Discard every packet in the receive FIFOs and transmit queues of a port or client. -/
def emptyMac (cause m : Nat) (s : State) : State :=
  match mac? m s with
  | none => s
  | some x =>
    let rx := (avals x.rx).flatMap id
    let tx := (avals x.txq).flatMap id
    let s1 := updMac m (fun x => { x with rx := [], txq := [] }) s
    let s2 := rx.foldl (fun s _ => dropCause cause s) s1
    tx.foldl (fun s f => tally (portCtr m 0x178) (endPkt f.pkt cause m (dropCause cause s))) s2

/-- Discard every packet of the pipelines and the inject paths. -/
def emptyPipes (cause : Nat) (s : State) : State :=
  let paths := (avals s.fwd.injectPath).flatMap id
  let again := (avals s.fwd.recirc).flatMap id ++ s.fwd.stalled.map (·.2.1)
  let s1 := { s with fwd := { s.fwd with injectPath := [], recirc := [], stalled := [] } }
  again.foldl (fun s p => discard cause p s) (paths.foldl (fun s p => discardBegun cause (directPort p) p s) s1)

/-- Discard every packet on the bridge. -/
def emptyBridge (cause : Nat) (s : State) : State :=
  let b := s.bridge
  (b.toQd ++ b.toFd ++ b.atQd ++ b.atFd).foldl (fun s x => dropXfer cause x s)
    { s with bridge := { b with toQd := [], toFd := [], atQd := [], atFd := [] } }

/-- Discard every packet of a VOQ, its pages freed. -/
def emptyVoqOf (cause v : Nat) (s : State) : State :=
  let ps := voqAll (voq v s)
  let s1 := updVoq v (fun q => { q with head := [], backlog := [], seg := [], tail := [], written := 0 }) (setSegment v 0 0 s)
  settleCredit v (checkUnspill v (ps.foldl (fun s p => discardVoq v cause p s) s1))

/-- Discard every packet of a leaf queue: `idx` counts each in class 20. -/
def emptyLeaf (cause idx l : Nat) (s : State) : State :=
  let ps := leafQueue l s
  let m := leafMac l s
  ps.foldl (fun s p =>
    let s1 := discardLeaf l (m.getD 0) idx cause p s
    match m with
    | some m => if cause = St.portDown then tally (portCtr m 0x178) s1 else s1
    | none => s1) (setLeaf l [] s)

/-- Discard every packet of a punt queue. -/
def emptyPunt (cause q : Nat) (s : State) : State :=
  let ps := agetD s.qdm.punts q []
  ps.foldl (fun s p => unref p.store (dropCause cause s)) { s with qdm := { s.qdm with punts := adel s.qdm.punts q } }

/-- Discard every buffered packet with a cause. -/
def dropBuffered (cause : Nat) (s : State) : State :=
  let s1 := (akeys s.macs).foldl (fun s m => emptyMac cause m s) s
  let s2 := emptyBridge cause (emptyPipes cause s1)
  let s3 := s2.qdm.waiting.foldl (fun s w => dropWaiting cause w s) { s2 with qdm := { s2.qdm with waiting := [] } }
  let s4 := (akeys s3.qdm.voqs).foldl (fun s v => emptyVoqOf cause v s) s3
  let s5 := (akeys s4.sched.queues).foldl (fun s l => emptyLeaf cause 3 l s) s4
  (akeys s5.qdm.punts).foldl (fun s q => emptyPunt cause q s) s5

/-! ### Dormancy by shedding (R110, R121) -/

/-- Ports outside groups, and groups (256 + g), that shedding may make dormant: rank, place, item. -/
def shedItems (s : State) : List (Nat × Nat × Nat) :=
  (s.macs.filter (fun m => m.1 < 80 && !m.2.cfg.flexePhy && m.2.link != .adminDown && m.2.link != .dormant)).map
      (fun m => (m.2.cfg.shedRank, m.1, m.1)) ++
  (s.flexe.groups.filter (fun g => g.2.state != .adminDown && g.2.state != .dormant)).map
      (fun g => (g.2.shedRank, (g.2.phys.map (·.1)).foldl min 1000, 256 + g.1))

/-- Items in ascending SHED_RANK, and ascending port number within a rank. -/
def shedOrder (s : State) : List (Nat × Nat) :=
  (sortBy (fun a b => a.1 < b.1 || (a.1 == b.1 && a.2.1 < b.2.1)) (shedItems s)).map (fun x => (x.1, x.2.2))

/-- One port or group goes dormant by shedding. -/
def sleepItem (k : Nat) (s : State) : State := if 256 ≤ k then groupDormant true (k - 256) s else toDormant true k s

/-- One port or group that shedding made dormant wakes; one made dormant by command stays. -/
def wakeItem (k : Nat) (s : State) : State :=
  if 256 ≤ k then (if (flxGroup (k - 256) s).any (fun g => g.dormantByShed) then groupDown (k - 256) s else s)
  else if (mac? k s).any (fun x => x.dormantByShed) then toDown k s else s

/-! ### The stop (Table 15-10, S4) -/

/-- Stop the data plane: every port and group dormant, packets discarded, lanes DISABLED, HBM down; the state already says that it is stopped. -/
def haltData (s : State) : State :=
  let order := (shedOrder s).map (·.2)
  let s1 := order.foldl (fun s k => sleepItem k s) s
  let s2 := dropBuffered St.portDown { s1 with pwr := { s1.pwr with asleepS4 := s1.pwr.asleepS4 ++ order, toSleep := [] } }
  hbmPowerDown (applyLanes s2.fab.planeB false s2)

/-- RELINQUISH to the pair's other member (R476). -/
def sendRelinquish (cause : Nat) (s : State) : State := flood 0x44 (peerPosition s) (be 1 s.prot.pair ++ be 1 cause ++ zeros 2) s

/-- An ACTIVE member fails by its own fatal report or S4: its peer hears RELINQUISH, and its mirrored completions are written (Table 13-6, R476). -/
def protFail (s : State) : State :=
  if s.prot.state = 6 then
    releaseMirror (sendRelinquish 1 { s with prot := { s.prot with state := 7, since := s.elapsed, peerSync := false, wtrAt := none } })
  else s

/-- A fatal report (R540). -/
def fatalReport (code : Nat) (s : State) : State :=
  if s.glb.fatal then s
  else
    let s0 := protFail s
    let s1 := { s0 with glb := { s0.glb with fatal := true }, pwr := { s0.pwr with fault := code } }
    let s2 := if halted s0 then s1 else haltData s1
    raiseGlb 1 (raiseEvent Ev.fatal code 0 0 s2)

/-- `CLOCK_LOCK_LOSS`: a data-plane clock loses lock (R540); the spec gives the loss no event code: a free value of place 34 (log 18). -/
def execClockLockLoss (s : State) : Res := .next (fatalReport (unstatedAt 34 s % 65536) (drawn s))

end Sys2Proof.Machine
end

