-- ==== Sys2Proof/Machine/Admit.lean ====
section
/-! DEFINITION. Arrival on QD (R27 to R30, R237, R240 to R244, R254, R262, R363): the bridge, VOQ admission, buffer requests that wait, punt queues and DIRECT frames. -/

namespace Sys2Proof.Machine
open Sys2Proof

/-! ### Queue entry -/

/-- Spill writes are permitted (R252). -/
def spillPath (s : State) : Bool := s.qdm.spillEnabled && s.pwr.level < 2

/-- Add an admitted packet to its VOQ: on die, to the spill backlog, or to the tail part; spill is entered where R245 says so. -/
def voqAppend (v : Nat) (p : Pkt) (s : State) : State :=
  let s1 := bump (ctrId 19 v 1) p.len (tally (ctrId 19 v 0) s)
  let s2 :=
    if (voq v s1).spilled then
      if spillPath s1 then updVoq v (fun q => { q with backlog := q.backlog ++ [p] }) s1
      else updVoq v (fun q => { q with tail := q.tail ++ [p] }) s1
    else
      let s2 := updVoq v (fun q => { q with head := q.head ++ [p] }) s1
      if spillAllowed v s2 && spillThreshold v s2 < onDie (voq v s2) then enterSpill v s2 else s2
  voqMoved v (spillAtLevel3 s2)

/-! ### Admission (R240 to R243) -/

/-- What admission decides before a buffer is asked for; `mark`: the packet takes the CE codepoint. -/
inductive Admit where
  | drop (cause : Nat)
  | refuse
  | take (mark : Bool)
  deriving DecidableEq, Repr

/-- The marking probability at a depth, in units of 1/65,536 (R243). -/
def curveAt (d : Nat) : List (Nat × Nat) → Nat
  | [] => 0
  | [a] => if a.1 ≤ d then a.2 else 0
  | a :: b :: t =>
    if d < a.1 then 0
    else if d < b.1 then a.2 + (b.2 - a.2) * (d - a.1) / (b.1 - a.1)
    else curveAt d (b :: t)

/-- A packet that may carry a congestion mark (R243). -/
def ecnCapable (p : Pkt) (s : State) : Bool :=
  let o := pL3 (agetD s.cfg.profiles p.profile emptyProfile)
  let v := rdBe p.bytes o 1 / 16
  let b := rdBe p.bytes (o + 1) 1
  o != 0xFF && ((v == 4 && b % 4 != 0) || (v == 6 && bits b 5 4 != 0))

/-- Steps 1 to 5 of R240 for one VOQ; a random value is drawn where the curve is in use. `copy`: a multicast copy, for which LOSSLESS is ignored. -/
def admission (v : Nat) (copy : Bool) (p : Pkt) (s : State) : Admit × State :=
  match destOf s.cfg v with
  | none => (.drop St.noDest, s)
  | some d =>
    let pr := voqProf v s
    let held := lossless pr && !copy
    let full := fun cause => if held then Admit.refuse else Admit.drop cause
    if !reaches d.endpoint s then (.drop St.unreachable, s)
    else if ahas s.fab.withdrawn (v / 8) then (.drop St.portDown, s)
    else if effectiveLimit v s < depth (voq v s) + p.len then (full St.tailLimit, s)
    else
      let mode := curveMode pr
      let chosen := mode != 0 && Config.random s.fresh % 65536 < curveAt (depth (voq v s)) pr.curve
      let s1 := if mode = 0 then s else drawn s
      let mark := chosen && mode != 1 && ecnCapable p s
      if chosen && (mode == 1 || (mode == 2 && !mark)) then (.drop St.curveDrop, s1)
      else if (voq v s1).spilled && spillPath s1 && hbmFree s1 == 0 then (full St.spillFull, s1)
      else (.take mark, s1)

/-- The consumer of a packet from an ingress pass: its lane group (R235). -/
def laneGroupOf (p : Pkt) (s : State) : Nat := if p.injected then p.source - 80 else macGroup p.source s

/-- A discard at admission: counted at the VOQ where it exists (R240). -/
def admitDrop (v cause : Nat) (p : Pkt) (s : State) : State :=
  if cause = St.noDest && !voqExists v s then discard cause p s else discardVoq v cause p s

/-- Put a marked packet on its VOQ, its buffer held. -/
def admitted (v : Nat) (mark : Bool) (p : Pkt) (s : State) : State :=
  voqAppend v { p with ecn := p.ecn || mark } (if mark then tally (ctrId 19 v 2) s else s)

/-- A packet that waits on QD. -/
def waits (w : Waiting) (s : State) : State := { s with qdm := { s.qdm with waiting := s.qdm.waiting ++ [w] } }

/-! ### Multicast (R254) -/

/-- Offer one copy to the VOQ of a listed destination. -/
def admitCopy (p : Pkt) (list : Nat) (s : State) (d : Nat) : State :=
  let v := d * 8 + p.cls
  let q := { p with dest := d, peal := some list, inject := none }
  match admission v true q s with
  | (.take mark, s1) =>
    let n := p.store.getD 0
    let s2 := match aget s1.qdm.stored n with
      | some x => { s1 with qdm := { s1.qdm with stored := aset s1.qdm.stored n { x with refs := x.refs + 1 } } }
      | none => s1
    admitted v mark q s2
  | (.drop c, s1) => if c = St.noDest && !voqExists v s1 then dropCause c s1 else voqDrop v c s1
  | (.refuse, s1) => s1

/-- Every copy of a stored multicast packet; the store's own reference ends with the last (R254). -/
def admitCopies (p : Pkt) (s : State) : State :=
  match aget s.cfg.dests p.dest with
  | none => discard St.noDest p s
  | some d => unref p.store ((agetD s.cfg.epLists d.epList []).foldl (admitCopy p d.pealList) s)

/-! ### A packet from an ingress pass -/

/-- Give a packet that QD admits its buffer; or how it waits for one (R237). -/
def storeIngress (mark : Bool) (p : Pkt) (s : State) : Option Waiting × State :=
  let g := laneGroupOf p s
  let q := { p with ecn := p.ecn || mark }
  match alloc p.bytes g 1 s with
  | some (n, s1) =>
    let q1 := { q with store := some n }
    (none, if (aget s1.cfg.dests p.dest).any (fun d => d.kind == 1) then admitCopies q1 s1
      else admitted (p.dest * 8 + p.cls) mark q1 s1)
  | none => (some { pkt := q, consumer := g, since := s.elapsed, lossless := false, punt := none, leaf := none }, s)

/-- A packet that a lossless VOQ refuses, or that stands behind one that waits. -/
def refused (p : Pkt) (s : State) : Waiting :=
  { pkt := p, consumer := laneGroupOf p s, since := s.elapsed, lossless := true, punt := none, leaf := none }

/-- Offer a packet to its VOQ: how it waits, when it does. -/
def offer (p : Pkt) (s : State) : Option Waiting × State :=
  let v := p.dest * 8 + p.cls
  match aget s.cfg.dests p.dest with
  | none => (none, admitDrop v St.noDest p s)
  | some d =>
    if d.kind = 1 then storeIngress false p s
    else match admission v false p s with
      | (.drop c, s1) => (none, admitDrop v c p s1)
      | (.refuse, s1) => (some (refused p s1), s1)
      | (.take mark, s1) => storeIngress mark p s1

/-- A packet that waits came from the same sub-queue or inject path. -/
def sameHead (p : Pkt) (w : Waiting) : Bool :=
  w.punt.isNone && w.leaf.isNone && w.consumer < 8 && w.pkt.source == p.source && w.pkt.injected == p.injected &&
  (p.injected || w.pkt.subQueue == p.subQueue)

/-- `VOQ_ADMISSION`: the next packet that has crossed to QD; one behind a packet that waits at the head of its sub-queue or path waits too (R90, R242). -/
def execVoqAdmission (s : State) : Res :=
  .next (match s.bridge.atQd.findSome? (fun x => match x with
      | .toVoq p => some p
      | _ => none) with
    | none => s
    | some p =>
      let s1 := { s with bridge := { s.bridge with atQd := s.bridge.atQd.erase (.toVoq p) } }
      let s2 := if s.qdm.waiting.any (sameHead p) then waits (refused p s) s1
        else match offer p s1 with
          | (none, s2) => s2
          | (some w, s2) => waits w s2
      if p.injected then s2 else checkXoff p.source s2)

/-! ### Punt queues and leaf queues -/

/-- Bytes a punted packet counts in its queue. -/
def puntLen (p : Punt) : Nat := p.bytes.length + 4

/-- A punted packet as it is stored: cut to its truncation. -/
def puntCut (p : Punt) : List Byte := if p.trunc = 0 then p.bytes else p.bytes.take p.trunc

/-- Put a punted packet on its queue. -/
def puntAppend (q : Nat) (p : Punt) (s : State) : State :=
  bump (ctrId 24 q 1) (puntLen p) (tally (ctrId 24 q 0)
    { s with qdm := { s.qdm with punts := aset s.qdm.punts q (agetD s.qdm.punts q [] ++ [p]) } })

/-- A placeholder packet of a punted one that waits for its buffer. -/
def puntHolder (p : Punt) (s : State) : Pkt := newPkt (puntCut p) (puntLen p) p.source s.tempo.now

/-- Bytes of a punt queue: its packets, and those admitted to it that wait for their buffers. -/
def puntBytes (q : Nat) (s : State) : Nat :=
  ((agetD s.qdm.punts q []) ++ s.qdm.waiting.filterMap (fun w => match w.punt with
    | some (k, p) => if k = q then some p else none
    | none => none)).foldl (fun n x => n + puntLen x) 0

/-- Admission to a punt queue (R262): its TAIL_LIMIT, then a HOST buffer. -/
def admitPunt (q : Nat) (p : Punt) (s : State) : State :=
  if puntLimitOf s.cfg q < puntBytes q s + puntLen p then
    dropCause St.puntLimit (tally (ctrId 24 q 2) s)
  else match alloc (puntCut p) consumerHost 1 s with
    | some (n, s1) => puntAppend q { p with store := some n } s1
    | none => waits { pkt := puntHolder p s, consumer := consumerHost, since := s.elapsed, lossless := false, punt := some (q, p), leaf := none } s

/-- A DIRECT frame takes its HOST buffer and joins its leaf queue (R363). -/
def admitLeaf (l : Nat) (p : Pkt) (s : State) : State :=
  match alloc p.bytes consumerHost 1 s with
  | some (n, s1) => directDone p (enqueueLeaf l { p with store := some n } s1)
  | none => waits { pkt := p, consumer := consumerHost, since := s.elapsed, lossless := false, punt := none, leaf := some l } s

/-! ### Reassembled packets (R256, R258) -/

/-- Enqueue one Peal copy: whether it was taken. -/
def enqueueCopy (p : Pkt) (first : Bool) (t : Nat) (s : State) : Bool × State :=
  let l := bits t 16 0
  let q := { p with copy := !first, encap := if bit t 63 = 1 then some (bits t 50 32) else p.encap }
  match leafMac l s with
  | none => (false, discardLeaf l 0 3 St.portDown { q with store := none } s)
  | some m =>
    if macDown m s then (false, tally (portCtr m 0x178) (discardLeaf l m 3 St.portDown { q with store := none } s))
    else (true, enqueueLeaf l q s)

/-- Enqueue a stored packet of a PEAL_RX destination on every target of its list (R256, R258). -/
def pealOut (p : Pkt) (list : Nat) (s : State) : State :=
  let ts := pealTargets list s
  let r := ts.foldl (fun (a : Nat × Nat × State) t =>
    let (ok, s1) := enqueueCopy p (a.1 == 0) t a.2.2
    (a.1 + 1, a.2.1 + b2n ok, s1)) (0, 0, s)
  let s1 := setRefs (p.store.getD 0) r.2.1 r.2.2
  if r.2.1 = 0 then tally (ctrId 22 0 4) s1 else s1

/-- Put a reassembled packet with its buffer where its destination says (R256, R327). -/
def deliver (p : Pkt) (s : State) : State :=
  match heldHere p.dest s with
  | none => discard St.noDest p (tally (fabCtr 0x128) s)
  | some d => if d.kind = 2 then pealOut p (p.peal.getD 0) s else enqueueLeaf (d.leafBase + p.cls) p s

/-! ### Requests that wait (R237) -/

/-- Remove one waiting request. -/
def unwait (w : Waiting) (s : State) : State := { s with qdm := { s.qdm with waiting := s.qdm.waiting.erase w } }

/-- Serve a waiting request with its buffer. -/
def served (w : Waiting) (n : Nat) (s : State) : State :=
  match w.punt, w.leaf with
  | some (q, p), _ => puntAppend q { p with store := some n } s
  | none, some l => directDone w.pkt (enqueueLeaf l { w.pkt with store := some n } s)
  | none, none =>
    let p := { w.pkt with store := some n }
    if w.consumer = consumerEgress then deliver p s
    else if (aget s.cfg.dests p.dest).any (fun d => d.kind == 1) then admitCopies p s
    else admitted (p.dest * 8 + p.cls) p.ecn p s

/-- Offer a waiting packet again: whether it has left. -/
def reoffer (w : Waiting) (s : State) : Bool × State :=
  match offer w.pkt s with
  | (none, s1) => (true, unwait w s1)
  | (some x, s1) =>
    (false, if x.lossless then s1 else { s1 with qdm := { s1.qdm with waiting := s1.qdm.waiting.map (fun y => if y = w then x else y) } })

/-- The packets behind one that has left the head of its sub-queue or path are offered in their turn. -/
def offerBehind : Nat → Pkt → State → State
  | 0, _, s => s
  | fuel + 1, p, s =>
    match s.qdm.waiting.find? (sameHead p) with
    | some w =>
      if w.lossless then
        let (left, s1) := reoffer w s
        if left then offerBehind fuel p s1 else s1
      else s
    | none => s

/-- A waiting packet from a sub-queue or path has left: the next is offered, and flow control looks at the FIFO again. -/
def headLeft (w : Waiting) (s : State) : State :=
  if w.punt.isSome || w.leaf.isSome || 8 ≤ w.consumer then s
  else
    let s1 := offerBehind (s.qdm.waiting.length + 1) w.pkt s
    if w.pkt.injected then s1 else checkXoff w.pkt.source s1

/-- Reassembled packets of one stream, destination and class, which keep their order (R19). -/
def sameFlow (p : Pkt) (w : Waiting) : Bool :=
  w.consumer == consumerEgress && w.pkt.stream == p.stream && w.pkt.dest == p.dest && w.pkt.cls == p.cls

/-- A request that stands behind an earlier one of the same stream, destination and class asks for no buffer yet (R19). -/
def standsBehind (w : Waiting) (s : State) : Bool :=
  w.consumer == consumerEgress && s.qdm.waiting.find? (sameFlow w.pkt) != some w

/-- Retry one request. -/
def retryOne (w : Waiting) (s : State) : State :=
  if standsBehind w s then s
  else match alloc w.pkt.bytes w.consumer 1 s with
    | some (n, s1) => headLeft w (served w n (unwait w s1))
    | none => s

/-- `BUF_ALLOC_RETRY`: one QD cycle, the requests in the rotating order of their consumers (R237). -/
def execBufAllocRetry (s : State) : Res :=
  let order := (List.range 10).map (fun k => (s.qdm.allocNext + k) % 10)
  let reqs := order.flatMap (fun c => s.qdm.waiting.filter (fun w => !w.lossless && w.consumer == c))
  .next (reqs.foldl (fun s w => retryOne w s) { s with qdm := { s.qdm with allocNext := (s.qdm.allocNext + 1) % 10 } })

/-- A request whose 2 µs have passed is discarded with BUF_EXHAUST (R237). -/
def exhaust (w : Waiting) (s : State) : State :=
  let s1 := exhausted w.pkt.bytes w.consumer (unwait w s)
  let s2 := match w.punt, w.leaf with
    | some _, _ => s1
    | none, some l => directDone w.pkt (endPkt w.pkt St.bufExhaust ((leafMac l s1).getD 0) s1)
    | none, none =>
      let v := w.pkt.dest * 8 + w.pkt.cls
      endPkt w.pkt St.bufExhaust 0 (if w.consumer < 8 && voqExists v s1 then tally (ctrId 19 v 12) s1 else s1)
  headLeft w s2

/-- `BUF_EXHAUST`: the oldest request reaches its 2 µs. -/
def execBufExhaust (s : State) : Res :=
  let reqs := s.qdm.waiting.filter (fun w => !w.lossless)
  .next (match reqs.find? (fun w => reqs.all (fun x => w.since ≤ x.since)) with
    | none => s
    | some w => exhaust w (advanceTo (w.since + 2000) s))

/-- A packet that waits at the head of its sub-queue or path, nothing of the same head before it. -/
def isHead (w : Waiting) (s : State) : Bool := s.qdm.waiting.find? (sameHead w.pkt) == some w

/-- `LOSSLESS_REOFFER`: the depth of a VOQ has fallen; the packets it refused are offered again (R242). -/
def execLosslessReoffer (v : Nat) (s : State) : Res :=
  .next ((s.qdm.waiting.filter (fun w => w.lossless && w.pkt.dest * 8 + w.pkt.cls == v)).foldl (fun s w =>
    if !isHead w s then s
    else
      let (left, s1) := reoffer w s
      if left then headLeft w s1 else s1) s)

/-- `REFUSED_PACKET_AGE`: packets that wait after a lossless refusal beyond the maximum age (R242, R264). -/
def execRefusedPacketAge (s : State) : Res :=
  .next ((s.qdm.waiting.filter (fun w => w.lossless && tooOld w.pkt.ts s)).foldl (fun s w =>
    if !isHead w s then s
    else headLeft w (admitDrop (w.pkt.dest * 8 + w.pkt.cls) St.age w.pkt (unwait w s))) s)

/-! ### The bridge (R27 to R30) -/

/-- What has crossed the bridge goes to its next stage; from QD, the reference to its stored copy ends (R238, R258). -/
def crossed (x : Xfer) (s : State) : State :=
  match x with
  | .toVoq _ => { s with bridge := { s.bridge with atQd := s.bridge.atQd ++ [x] } }
  | .toPunt q p => admitPunt q p s
  | .toLeaf l p => admitLeaf l p s
  | .toEgress m l p =>
    let s1 := unref p.store s
    { s1 with bridge := { s1.bridge with atFd := s1.bridge.atFd ++ [.toEgress m l { p with store := none }] } }
  | .toHost q r place d n p =>
    let s1 := unref p.store s
    { s1 with bridge := { s1.bridge with atFd := s1.bridge.atFd ++ [.toHost q r place d n { p with store := none }] } }

/-- The bridge is declared failed (R30). -/
def bridgeFail (toQd : Bool) (s : State) : State :=
  if s.bridge.stopped then s
  else
    fatalReport Ev.bridgeFailed (raiseEvent Ev.bridgeFailed (b2n (!toQd)) 0 0
      { s with bridge := { s.bridge with stopped := true }, glb := { s.glb with bridgeFailed := true } })

/-- A transfer abandoned after four failures (R29), counted in its Tempo second (R30): the second of the 16 is the one that holds the
instant, from boundary to boundary, and no window that slides (log 46). -/
def abandon (toQd : Bool) (x : Xfer) (s : State) : State :=
  let b := s.bridge
  let sec := secOf s.tempo.now
  let n := fun (c : Nat) => if b.second = sec then c else 0
  let q := n b.lostToQd + b2n toQd
  let f := n b.lostToFd + b2n (!toQd)
  let s1 := dropXfer St.bridgeError x (tally (ctrId 11 0 2)
    { s with bridge := { b with second := sec, lostToQd := q, lostToFd := f } })
  let s2 := raiseEvent Ev.bridgeError (b2n (!toQd)) 0 0 s1
  if 16 < (if toQd then q else f) then bridgeFail toQd s2 else s2

/-- `BRIDGE_TRANSFER`: the oldest transfer of a direction crosses, replayed after each CRC failure (R27 to R29). -/
def execBridgeTransfer (toQd : Bool) (failures : Nat) (s : State) : Res :=
  let b := s.bridge
  .next (if b.stopped then s
    else match (if toQd then b.toQd else b.toFd) with
      | [] => s
      | x :: t =>
        let s1 := { s with bridge := if toQd then { b with toQd := t } else { b with toFd := t } }
        let s2 := bump (ctrId 11 0 (b2n (!toQd))) (min failures 3) s1
        if 4 ≤ failures then abandon toQd x s2 else crossed x s2)

/-- `BRIDGE_STALL`: no transfer of a direction has completed for 100 µs (R30). -/
def execBridgeStall (toQd : Bool) (s : State) : Res := .next (bridgeFail toQd s)

end Sys2Proof.Machine
end

