-- ==== Sys2Proof/Machine/Spill.lean ====
section
/-! DEFINITION. Spill and VOQ dequeue (R247 to R253, R314, R321, R331, R432 to R435): writes to HBM, read-back, page retirement, cells toward the fabric. -/

namespace Sys2Proof.Machine
open Sys2Proof

/-! ### The spill path -/

/-- The spill path is enabled: each spilled queue's tail part follows its backlog; `report`: not the first training after a power-on
reset, which no change of shed level causes (R252). -/
def enableSpill (report : Bool) (s : State) : State :=
  if s.qdm.spillEnabled || !s.qdm.hbmReady || 2 ≤ s.pwr.level then s
  else
    let s1 := (akeys s.qdm.voqs).foldl (fun s v => updVoq v (fun q => { q with backlog := q.backlog ++ q.tail, tail := [] }) s) s
    let s2 := { s1 with qdm := { s1.qdm with spillEnabled := true } }
    spillAtLevel3 (if report then raiseEvent Ev.spillEnabled s.pwr.level 0 0 s2 else s2)

/-- The spill path is disabled on entry to S2 (R252). -/
def disableSpill (s : State) : State :=
  checkHbmIdle (raiseEvent Ev.spillDisabled s.pwr.level 0 0 { s with qdm := { s.qdm with spillEnabled := false } })

/-- Packets of the backlog whose last byte is written, with the bytes written of the next. -/
def wholeWritten : Nat → List Pkt → List Pkt × List Pkt × Nat
  | w, [] => ([], [], w)
  | w, p :: t =>
    if p.len ≤ w then
      let r := wholeWritten (w - p.len) t
      (p :: r.1, r.2)
    else ([], p :: t, w)

/-- Write `n` bytes of a VOQ's backlog behind its segment. -/
def spillBytes (v n : Nat) (s : State) : State :=
  let q := voq v s
  let r := wholeWritten (q.written + n) q.backlog
  let s1 := updVoq v (fun q => { q with
    seg := q.seg ++ r.1.map (fun p => { p with store := none }), backlog := r.2.1, written := r.2.2, segEnd := q.segEnd + n }) s
  reportHbm (r.1.foldl (fun s p => unref p.store s) s1)

/-- Spilled queues with data to write, in ascending order. -/
def writers (s : State) : List Nat :=
  (akeys s.qdm.voqs).filter (fun v => (voq v s).spilled && 0 < bytesOf (voq v s).backlog - (voq v s).written)

/-- It is a queue's turn to write (R250). -/
def writeTurn (v : Nat) (s : State) : Bool := nextTurn s.qdm.lastWrite (writers s) == some v

/-- Spilled queues that need read-back, in ascending order (R248). -/
def readers (s : State) : List Nat :=
  (akeys s.qdm.voqs).filter (fun v =>
    (voq v s).spilled && !(voq v s).seg.isEmpty && bytesOf (voq v s).head < (voqProf v s).headKeep)

/-- It is a queue's turn to be read back (R250). -/
def readTurn (v : Nat) (s : State) : Bool := nextTurn s.qdm.lastRead (readers s) == some v

/-- `SPILL_WRITE`: one burst of up to 2 KiB of the queue whose turn it is; with no free page only the room of the last page is written
(R247, R250, R251). -/
def execSpillWrite (v : Nat) (s0 : State) : Res :=
  let q := voq v s0
  let s := if writeTurn v s0 then { s0 with qdm := { s0.qdm with lastWrite := some v } } else s0
  let n := min 2048 (bytesOf q.backlog - q.written)
  let grows := pagesOf q.segStart q.segEnd < pagesOf q.segStart (q.segEnd + n)
  let room := (8192 - q.segEnd % 8192) % 8192
  .next (if !writeTurn v s0 || !q.spilled || !spillPath s || halted s || n = 0 then s0
    else if !grows then spillBytes v n s
    else match pickPage s with
      | some p => spillBytes v n (addPage v p s)
      | none => if room = 0 then s else spillBytes v (min n room) s)

/-! ### HBM errors (R432 to R435) -/

/-- A page is retired: cause 0 an uncorrectable error, 1 corrected errors; at most 65,536 (R433, R434). -/
def retirePage (p cause : Nat) (s : State) : State :=
  if ahas s.mem.retired p || 65536 ≤ s.mem.retired.length then s
  else
    let k := p / stackPages s
    let s1 := { s with mem := { s.mem with retired := aset s.mem.retired p (k, cause, secOf s.tempo.now % 4294967296, false) } }
    let s2 := raiseEvent Ev.hbmPageRetired k cause p (reportHbm s1)
    if s2.mem.retired.length = 65536 then
      raiseEvent Ev.hbmRetireFull 0 65536 0 { s2 with mem := { s2.mem with retireFull := true } }
    else s2

/-- A stack becomes FAILED (R435): with none READY the spill path has nothing to write to. -/
def failStack (k cause : Nat) (s : State) : State :=
  let s1 := { s with mem := { s.mem with hbmStacks := s.mem.hbmStacks.set k (4, cause) } }
  let s2 := if (readyStacks s1).isEmpty then { s1 with qdm := { s1.qdm with hbmReady := false, spillEnabled := false } } else s1
  raiseEvent Ev.hbmStackFailed k cause 0 (reportHbm s2)

/-- Count an uncorrectable error of a stack; more than 64 in one Tempo second fail it (R435). -/
def stackError (k : Nat) (s : State) : State :=
  let sec := secOf s.tempo.now
  let l := if s.mem.ueSec = sec then s.mem.ueSecond else List.replicate 4 0
  let n := l.getD k 0 + 1
  let s1 := tally (ctrId 7 k 1) { s with mem := { s.mem with ueSec := sec, ueSecond := l.set k n } }
  if 64 < n && (s1.mem.hbmStacks.getD k (0, 0)).1 == 2 then failStack k 2 s1 else s1

/-- The code of a 32-byte access corrects an error confined to one 8-bit symbol and detects one confined to two (R432); what it makes of
more is a free value (log 72). -/
def hbmEcc (symbols : List Nat) : Ecc :=
  match symbols.eraseDups.length with
  | 0 => .clean
  | 1 => .corrected
  | 2 => .uncorrectable
  | _ => match Config.hbmBeyond symbols % 3 with
    | 0 => .clean
    | 1 => .corrected
    | _ => .uncorrectable

/-- A corrected error of a page: its fourth within one hour of Tempo retires the page (R433). -/
def pageCorrected (p : Nat) (s : State) : State :=
  let l := (agetD s.mem.pageErrors p []).filter (fun t => tempoNs s < t + 3600000000000) ++ [tempoNs s]
  let s1 := tally (ctrId 7 (p / stackPages s) 0) s
  if l.length < 4 then { s1 with mem := { s1.mem with pageErrors := aset s1.mem.pageErrors p l } }
  else retirePage p 1 { s1 with mem := { s1.mem with pageErrors := adel s1.mem.pageErrors p } }

/-- A command to a stack, with or without a parity error at its interface: more than 16 in a row with one fail the stack (R435). -/
def stackCommand (k : Nat) (parity : Bool) (s : State) : State :=
  let n := if parity then s.mem.parityRun.getD k 0 + 1 else 0
  let s1 := { s with mem := { s.mem with parityRun := s.mem.parityRun.set k n } }
  if 16 < n && (s1.mem.hbmStacks.getD k (0, 0)).1 == 2 then failStack k 3 s1 else s1

/-! ### Read-back (R248, R249, R253, R264) -/

/-- The packet's data was lost with a page that it continues into (R264); it is discarded at its own dequeue. -/
abbrev lostBit : Nat := 128

/-- Each packet of a segment with the offset of its first byte. -/
def withOffsets : Nat → List Pkt → List (Nat × Pkt)
  | _, [] => []
  | o, p :: t => (o, p) :: withOffsets (o + p.len) t

/-- Pages that the bytes from `a` up to `b` touch. -/
def touched (a b : Nat) : List Nat := (List.range (pagesOf a b)).map (fun k => a / 8192 + k)

/-- What read-back does with a packet. -/
inductive ReadFate where
  | keep
  | error
  | age
  deriving DecidableEq, Repr

/-- The packets that one read takes: `bad` marks packets of the failing burst or of a failed stack, `old` pages over age. -/
def readRun (keep room : Nat) (bad : Nat → Nat → Bool) (old : Nat → Bool) :
    Nat → Nat → Bool → List (Nat × Pkt) → List (ReadFate × Pkt) × List (Nat × Pkt)
  | _, _, _, [] => ([], [])
  | head, used, inBad, (o, p) :: t =>
    if bad o (o + p.len) && (inBad || head < keep) then
      let r := readRun keep room bad old head used true t
      ((.error, p) :: r.1, r.2)
    else if keep ≤ head then ([], (o, p) :: t)
    else if old (o / 8192) then
      let r := readRun keep room bad old head used false t
      ((.age, p) :: r.1, r.2)
    else if room < used + p.len then ([], (o, p) :: t)
    else
      let lost := (touched o (o + p.len)).any (fun k => k != o / 8192 && old k)
      let r := readRun keep room bad old (head + p.len) (used + p.len) false t
      ((.keep, if lost then { p with bad := p.bad ||| lostBit } else p) :: r.1, r.2)

/-- Bytes in the read stage: packets read back and not yet dequeued. -/
def stageUsed (s : State) : Nat :=
  (avals s.qdm.voqs).foldl (fun n q => n + bytesOf (q.head.filter (fun p => p.store.isNone))) 0

/-- The page of a VOQ that holds a byte of its segment. -/
def pageAt (q : Voq) (o : Nat) : Nat := q.pages.getD (o / 8192 - q.segStart / 8192) 0

/-- What an access in error does to its page and stack (R432, R433). -/
def accessError (p : Nat) (e : Ecc) (s : State) : State :=
  match e with
  | .clean => s
  | .corrected => pageCorrected p s
  | .uncorrectable => stackError (p / stackPages s) (retirePage p 0 s)

/-- First bytes of the bursts of 2 KiB that the bytes from `a` up to `b` touch. -/
def burstsOf (a b : Nat) : List Nat :=
  (List.range ((b + 2047) / 2048 - a / 2048)).map (fun k => 2048 * (a / 2048 + k))

/-- The bursts of the packets that a read takes, each once and in order. -/
def burstsRead (l : List (Nat × Pkt)) : List Nat := (l.flatMap (fun y => burstsOf y.1 (y.1 + y.2.len))).eraseDups

/-- A burst that was read, with its accesses in error: one event where it holds an uncorrectable one (R253). -/
def burstRead (v p : Nat) (l : List Ecc) (s : State) : State :=
  l.foldl (fun s e => accessError p e s) (if l.contains .uncorrectable then raiseEvent Ev.hbmError 0 v p s else s)

/-- Read a segment's oldest packets into the head part. -/
def readSegment (v : Nat) (errors : ReadErrors) (s0 : State) : State :=
  let q := voq v s0
  let all := withOffsets q.segStart q.seg
  let s := errors.commands.foldl (fun s b => stackCommand (pageAt q q.segStart / stackPages s) b s) s0
  let found := fun x => (errors.accesses.filter (fun e => 2048 * (q.segStart / 2048 + e.1) == x)).map (fun e => hbmEcc e.2)
  let inBurst := fun a b => (burstsOf a b).any (fun x => (found x).contains .uncorrectable)
  let dead := fun k => (s.mem.hbmStacks.getD (pageAt q (8192 * k) / stackPages s) (0, 0)).1 == 4
  let inDead := fun a b => (touched a b).any dead
  let old := fun k =>
    let l := all.filter (fun x => x.1 / 8192 == k)
    !l.isEmpty && l.all (fun x => tooOld x.2.ts s)
  let r := readRun (voqProf v s).headKeep (8388608 - stageUsed s) (fun a b => inBurst a b || inDead a b) old (bytesOf q.head) 0 false all
  let read := r.1
  let start := q.segStart + bytesOf (read.map (·.2))
  let s1 := if read.isEmpty && bytesOf q.head < (voqProf v s).headKeep then tally (ctrId 22 0 2) s else s
  let s2 := updVoq v (fun q => { q with
    head := q.head ++ (read.filter (fun x => x.1 == .keep)).map (·.2), seg := r.2.map (·.2) }) s1
  let s3 := read.foldl (fun s x => match x.1 with
    | .keep => s
    | .error => discardVoq v St.hbmError x.2 (tally (ctrId 22 0 3) s)
    | .age => discardVoq v St.age x.2 s) s2
  let got := all.take read.length
  let s4 := (burstsRead got).foldl (fun s x => if dead (x / 8192) then s else burstRead v (pageAt q x) (found x) s) s3
  let s5 := match got.find? (fun y => inDead y.1 (y.1 + y.2.len)) with
    | some y => raiseEvent Ev.hbmError 0 v (pageAt q (8192 * ((touched y.1 (y.1 + y.2.len)).find? dead).getD 0)) s4
    | none => s4
  setSegment v start q.segEnd s5

/-- With the spill path disabled and nothing left in HBM, the backlog and the tail part pass to the head part on die. -/
def backToHead (v : Nat) (s : State) : State :=
  let q := voq v s
  if !q.spilled || spillPath s || !q.seg.isEmpty then s
  else updVoq v (fun q => { q with head := q.head ++ q.backlog ++ q.tail, backlog := [], tail := [], written := 0 }) (setSegment v 0 0 s)

/-- `READ_BACK`: the queue whose turn it is (R250), with the errors that the read meets. -/
def execReadBack (v : Nat) (errors : ReadErrors) (s : State) : Res :=
  let q := voq v s
  .next (if !q.spilled || halted s then s
    else
      let s1 := if readTurn v s then readSegment v errors { s with qdm := { s.qdm with lastRead := some v } } else s
      checkHbmIdle (voqMoved v (checkUnspill v (backToHead v s1))))

/-! ### Dequeue toward the fabric (R314, R321, R331) -/

/-- The stream its class asks for: dual-path or single-path (R329). -/
def dualWanted (v : Nat) (s : State) : Bool := bit s.fab.dual (v % 8) == 1

/-- A VOQ that must wait 20 µs after its last cell before it changes stream (R331). -/
def streamHeld (v : Nat) (s : State) : Bool :=
  let q := voq v s
  q.dualStream != dualWanted v s && 0 < q.lastCell && s.elapsed < q.lastCell + 20000

/-- Send the head packet of a VOQ. -/
def sendHead (v : Nat) (p : Pkt) (rest : List Pkt) (s : State) : State :=
  let dual := dualWanted v s
  let ep := voqEndpoint v s
  if !canSpray ep dual s then s
  else
    let s1 := sendCells ep { p with dest := v / 8, cls := v % 8 } dual s
    let s2 := updVoq v (fun q => { q with
      head := rest, credit := q.credit - (p.len : Int), lastCell := max s.elapsed 1, dualStream := dual }) s1
    voqMoved v (checkUnspill v (unref p.store s2))

/-- A packet that its dequeue discards with cause AGE (R264). -/
def ageAtDequeue (p : Pkt) (s : State) : Bool := tooOld p.ts s || lostBit ≤ p.bad

/-- `VOQ_DEQUEUE`: the head packet of a VOQ with positive credit is sprayed, or discarded when it is over age. -/
def execVoqDequeue (v : Nat) (s : State) : Res :=
  let q := voq v s
  .next (match q.head with
    | [] => s
    | p :: rest =>
      if q.credit ≤ 0 || halted s || !voqExists v s then s
      else if ageAtDequeue p s then voqMoved v (checkUnspill v (discardVoq v St.age p (updVoq v (fun q => { q with head := rest }) s)))
      else if streamHeld v s || !reaches (voqEndpoint v s) s then s
      else sendHead v p rest s)

/-- Elapsed instant at which a VOQ becomes age-drained (R321). -/
def drainAt (v : Nat) (s : State) : Option Nat :=
  let ep := voqEndpoint v s
  let u := if reaches ep s then none else some (agetD s.fab.unreachable ep 0 + maxAgeNs s)
  let w := (aget s.fab.withdrawn (v / 8)).map (fun x => x.1 + maxAgeNs s)
  match u, w with
  | some a, some b => some (min a b)
  | some a, none => some a
  | none, b => b

/-- Discard the over-age packets at the front of a VOQ, wherever they lie (R321). -/
def dropOldFront (v : Nat) (s : State) : State :=
  let q := voq v s
  let gone := (voqAll q).takeWhile (fun p => ageAtDequeue p s)
  let k := gone.length
  let k1 := k - q.head.length
  let k2 := k1 - q.seg.length
  let start := q.segStart + bytesOf (q.seg.take k1) + (if 0 < k2 then q.written else 0)
  let s1 := setSegment v start q.segEnd (updVoq v (fun q => { q with
    head := q.head.drop k, seg := q.seg.drop k1, backlog := q.backlog.drop k2, tail := q.tail.drop (k2 - q.backlog.length),
    written := if 0 < k2 then 0 else q.written }) s)
  checkHbmIdle (voqMoved v (checkUnspill v (gone.foldl (fun s p => discardVoq v St.age p s) s1)))

/-- `AGE_DRAIN`: the maximum age since the endpoint became unreachable, or the DEST withdrawn, has passed. -/
def execAgeDrain (v : Nat) (s : State) : Res :=
  .next (match drainAt v s with
    | none => s
    | some t => if halted s then s else dropOldFront v (advanceTo t s))

/-- `DUAL_STREAM_SWITCH`: 20 µs after its last cell in the old stream the VOQ takes the new one. -/
def execDualStreamSwitch (v : Nat) (s : State) : Res :=
  let q := voq v s
  .next (if q.dualStream == dualWanted v s then s
    else
      let s1 := if q.lastCell = 0 then s else advanceTo (q.lastCell + 20000) s
      updVoq v (fun q => { q with dualStream := dualWanted v s }) s1)

end Sys2Proof.Machine
end

