-- ==== Sys2Proof/Machine/Reasm.lean ====
section
/-! DEFINITION. Reorder and reassembly (R309, R312, R326 to R328): cells in SEQ order, packets from FIRST to LAST, their buffer and their queue. -/

namespace Sys2Proof.Machine
open Sys2Proof

/-- Set the receiving side of a stream. -/
def setStream (key : Nat) (x : Stream) (s : State) : State := { s with fab := { s.fab with streams := aset s.fab.streams key x } }

/-! ### Packets (R310, R312, R327) -/

/-- The ingress timestamp: the latest Tempo at or before the first cell's arrival that agrees with TS_NS (R312). -/
def restoreTs (arrival tsNs frac : Nat) : Nat :=
  let a := arrival / tuPerNs
  let back := (a + 2147483648 - tsNs % 2147483648) % 2147483648
  (a - back) * tuPerNs + frac * 2 * tuPerNs / 65536

/-- The packet that fabric data spells, with the Tempo and SEQ of its first cell and its stream; what the spec carries of no ingress
metadata is a free value of place 35 (log 18), and so is the Peal target list of a copy from another package (log 20). -/
def packetFrom (data : List Byte) (key seq dest cls arrival : Nat) (s : State) : Pkt :=
  let h := rdBe data 0 12
  let ext := bit h 95 == 1
  let e := slice data 12 16
  let frame := data.drop (if ext then 28 else 12)
  let free := unstatedAt 35 s
  let b := rdBe e 0 1
  { newPkt frame (frame.length + 4) (4096 + free % 256) (restoreTs arrival (bits h 45 15) (bits h 14 0)) with
    pass := free / 256 % 4, injected := free / 1024 % 2 == 1, profile := bits h 93 85, cls := cls, dest := dest,
    encap := some (bits h 84 66), nh := some (bits h 65 46), ecn := bit h 94 == 1,
    pop := if ext then bits b 7 6 else 0, decTtl := ext && bit b 5 == 1,
    writes := if ext then [(rdBe e 1 1 % 32, rdBe e 4 4), (rdBe e 2 1 % 32, rdBe e 8 4)].take (bits b 4 3) else [],
    peal := some ((aget s.fab.loopPeal (key * 2097152 + seq)).getD (Config.pealCarried data)), stream := some key }

/-- A reassembled packet: NO_DEST before it takes a buffer, else an EGRESS buffer and its queue (R327); it waits behind a packet of
its stream, destination and class that waits for a buffer (R19). -/
def reassembled (p : Pkt) (s : State) : State :=
  let w : Waiting := { pkt := p, consumer := consumerEgress, since := s.elapsed, lossless := false, punt := none, leaf := none }
  match heldHere p.dest s with
  | none => discard St.noDest p (tally (fabCtr 0x128) s)
  | some _ =>
    if s.qdm.waiting.any (sameFlow p) then waits w s
    else match alloc p.bytes consumerEgress 1 s with
      | some (n, s1) => deliver { p with store := some n } s1
      | none => waits w s

/-- Fabric data of a packet's cells: their payloads without the PAD of the last. -/
def fabricData (cells : List CellIn) : List Byte :=
  let all := cells.flatMap (·.payload)
  all.take (all.length - (cells.getLast?.map (·.pad)).getD 0)

/-- A packet lost in reassembly, counted at an offset of Table 09-14. -/
def reasmLost (off : Nat) (s : State) : State := dropCause St.reasmTimeout (tally (fabCtr off) s)

/-- One released cell joins the packet in progress (R327). While `broken`, the packet whose cells come is already counted as lost. -/
def releaseCell (key : Nat) (x : Stream) (c : CellIn) (s : State) : Stream × State :=
  let whole := fun (cells : List CellIn) (h : CellIn) (s : State) =>
    let p := packetFrom (fabricData cells) key h.seq h.dest h.cls h.tempo s
    reassembled p (drawn { s with fab := { s.fab with loopPeal := adel s.fab.loopPeal (key * 2097152 + h.seq) } })
  let malformed := ({ x with inProgress := [], broken := !c.last, lostDest := c.dest, lostCls := c.cls }, reasmLost 0x108 s)
  if c.first then
    let s1 := if x.inProgress.isEmpty then s else reasmLost 0x108 s
    if c.last then ({ x with inProgress := [], broken := false }, whole [c] c s1)
    else ({ x with inProgress := [c], broken := false }, s1)
  else if x.broken then
    if x.lostDest != c.dest || x.lostCls != c.cls then malformed else ({ x with broken := !c.last }, s)
  else match x.inProgress with
    | [] => malformed
    | h :: _ =>
      if h.dest != c.dest || h.cls != c.cls then malformed
      else if c.last then ({ x with inProgress := [] }, whole (x.inProgress ++ [c]) h s)
      else ({ x with inProgress := x.inProgress ++ [c] }, s)

/-- Release cells in SEQ order while the next expected one is there (R326). -/
def releaseCells (key : Nat) : Nat → Stream → State → Stream × State
  | 0, x, s => (x, s)
  | fuel + 1, x, s =>
    match aget x.cells x.next with
    | none => (x, s)
    | some c =>
      let y := { x with next := (x.next + 1) % 2097152, cells := adel x.cells x.next }
      let r := releaseCell key y c { s with fab := { s.fab with reorderFill := s.fab.reorderFill - c.payload.length } }
      releaseCells key fuel r.1 r.2

/-- Release what may be released; the gap's 20 µs run from the first cell that waits beyond it. -/
def settleStream (key : Nat) (x : Stream) (s : State) : State :=
  let r := releaseCells key (x.cells.length + 1) x s
  let arrivals := (avals r.1.cells).map (·.arrived)
  reorderFc (setStream key { r.1 with gapSince := arrivals.head?.map (fun a => arrivals.foldl min a) } r.2)

/-! ### Cells (R309, R326) -/

/-- The cell that a unit holds. -/
def cellOf (u : List Byte) (s : State) : CellIn :=
  { seq := hdr u 68 48, first := hdr u 123 123 == 1, last := hdr u 122 122 == 1, dest := hdr u 87 72, cls := hdr u 71 69,
    payload := fit (16 * (hdr u 119 116 + 3)) (u.drop 16), pad := hdr u 115 112, arrived := s.elapsed, tempo := s.tempo.now }

/-- A stream on which no cell has been accepted: the first sets its SEQ (R302). -/
def freshStream (seq : Nat) : Stream := { next := seq, cells := [], gapSince := none, inProgress := [], broken := false, lostDest := 0, lostCls := 0 }

/-- Take a cell into its stream, or discard it as late or as a duplicate. -/
def acceptCell (c : CellIn) (src : Nat) (dual : Bool) (s : State) : State :=
  let key := src * 2 + b2n dual
  let x := agetD s.fab.streams key (freshStream c.seq)
  let ahead := (c.seq + 2097152 - x.next) % 2097152
  if 1048576 ≤ ahead || ahas x.cells c.seq then tally (fabCtr (if dual then 0x118 else 0x110)) s
  else settleStream key { x with cells := aset x.cells c.seq c }
    { s with fab := { s.fab with reorderFill := s.fab.reorderFill + c.payload.length } }

/-- A CELL arrives. -/
def onCell (lane : Nat) (u : List Byte) (s : State) : State :=
  let c := cellOf u s
  let s1 := if lane = 112 then s else tally (laneCtr lane 0x108) s
  if hdr u 47 16 != crc32c c.payload then (if lane = 112 then s1 else tally (laneCtr lane 0x118) s1)
  else if hdr u 111 100 != s.fab.endpoint then tally (fabCtr 0x128) s1
  else acceptCell c (hdr u 99 88) (hdr u 121 121 == 1) s1

def execCell (lane : Nat) (unit : List Byte) (s : State) : Res := onUnit lane 1 unit (onCell lane) s

/-- The SEQ nearest beyond the expected one that waits. -/
def nearestSeq (x : Stream) : Option Nat :=
  let far := fun k => (k + 2097152 - x.next) % 2097152
  (akeys x.cells).foldl (fun b k => match b with
    | none => some k
    | some j => if far k < far j then some k else some j) none

/-- Skip a gap (R326): the packet in progress had a cell in it, and so had the packet of the cell that comes next when that cell is not
its FIRST; the two are one packet where DEST and CLASS agree (log 47). -/
def skipGap (key : Nat) (x : Stream) (s : State) : State :=
  match nearestSeq x with
  | none => s
  | some k =>
    let before := match x.inProgress with
      | h :: _ => some (h.dest, h.cls)
      | [] => if x.broken then some (x.lostDest, x.lostCls) else none
    let s1 := if x.inProgress.isEmpty then s else reasmLost 0x100 s
    let y := { x with next := k, inProgress := [], broken := false }
    match aget x.cells k with
    | none => settleStream key y s1
    | some c =>
      if c.first then settleStream key y s1
      else settleStream key { y with broken := true, lostDest := c.dest, lostCls := c.cls }
        (if before = some (c.dest, c.cls) then s1 else reasmLost 0x100 s1)

/-- `REASSEMBLY_GAP`: 20 µs since the first cell beyond the missing one arrived. -/
def execReassemblyGap (source : Nat) (dual : Bool) (s : State) : Res :=
  let key := source * 2 + b2n dual
  .next (match aget s.fab.streams key with
    | none => s
    | some x => match x.gapSince with
      | none => s
      | some t => skipGap key x (advanceTo (t + 20000) s))

end Sys2Proof.Machine
end

