-- ==== Sys2Proof/Machine/Inject.lean ====
section
/-! DEFINITION. Inject rings and punt delivery (R360 to R365, R369 to R372, R88): descriptors into the inject paths, receive buffers, receive completions. -/

namespace Sys2Proof.Machine
open Sys2Proof

/-! ### Inject descriptors (Table 10-7) -/

def iFlags (d : Desc) : Nat := rd d.bytes 1 1
def iNotify (d : Desc) : Bool := bit (iFlags d) 0 == 1
def iCapture (d : Desc) : Bool := bit (iFlags d) 1 == 1
def iIndirect (d : Desc) : Bool := bit (iFlags d) 2 == 1
def iPtp (d : Desc) : Nat := bits (iFlags d) 4 3
def iLength (d : Desc) : Nat := rd d.bytes 16 2

/-- The form checks of R361; `mode`: the row's MODE. -/
def injectBad (mode : Nat) (d : Desc) : Bool :=
  rd d.bytes 0 1 != mode || bits (iFlags d) 7 5 != 0 || iPtp d == 3 || !allZero (slice d.bytes 24 40) ||
  (if iIndirect d then iLength d < 1 || 64 < iLength d || rd d.bytes 8 8 % 16 != 0 else iLength d < 1 || 16000 < iLength d) ||
  (if mode == 0 then iCapture d || iPtp d != 0 || 7 < rd d.bytes 18 1 || rd d.bytes 19 1 != 0 || rd d.bytes 20 4 != 0
   else rd d.bytes 18 1 != 0 || (iPtp d == 0 && rd d.bytes 19 1 != 0) || 131072 ≤ rd d.bytes 20 4)

/-- The fragment lengths of a table, `none` where an entry is malformed (Table 10-8). -/
def fragLens (n : Nat) (t : List Byte) : Option (List Nat) :=
  let l := (List.range n).map (fun k => rd t (16 * k + 8) 4)
  if (List.range n).any (fun k => rd t (16 * k + 8) 4 == 0 || rd t (16 * k + 12) 4 != 0) then none else some l

/-- The frame's length, or the status that refuses the descriptor. -/
def injectLen (d : Desc) : Nat ⊕ Nat :=
  if !iIndirect d then .inl (iLength d)
  else match d.frags with
    | none => .inr St.dmaError
    | some t => match fragLens (iLength d) t with
      | none => .inr St.invalidParam
      | some l => .inl (l.foldl (· + ·) 0)

/-- A frame of a ring waits at the head of its path, or on QD behind it (R364). -/
def ringBlocked (r : Nat) (s : State) : Bool :=
  let mine := fun (p : Pkt) => p.inject.any (fun i => i.home == ringRef r s)
  s.fwd.injectPath.any (fun g => match g.2 with
    | p :: _ => mine p && (p.direct || pathHeld g.1 s || bit s.fwd.muffled g.1 == 1 || halted s || s.fwd.stalled.any (fun x => x.1 == g.1))
    | [] => false) ||
  s.qdm.waiting.any (fun w => (w.leaf.isSome || w.consumer < 8) && w.pkt.injected && mine w.pkt)

/-- Descriptors begun and not consumed, of all rings (R356). -/
def begunTotal (s : State) : Nat := (avals s.host.rings).foldl (fun n x => n + x.begun) 0

/-- INDEX of the descriptor that is begun next. -/
def injectIndex (r : Nat) (s : State) : Nat :=
  match ring? r s with
  | some x => (x.partIndex + x.begun) % 4294967296
  | none => 0

/-- Where its completion goes (R365). -/
def injectRef (d : Desc) (s : State) : InjectRef :=
  { home := ringRef d.ring s, cq := ringRef (((ring? d.ring s).map (·.cq)).getD 0) s, index := injectIndex d.ring s, tag := rd d.bytes 4 4, seqTag := rd d.bytes 2 2, notify := iNotify d, capture := iCapture d,
    port := if rd d.bytes 0 1 = 1 then (leafMac (rd d.bytes 20 4) s).getD 0 else 0 }

/-- Refuse a descriptor: it is consumed and its completion is written whatever NOTIFY says (R361). -/
def injectRefuse (d : Desc) (status : Nat) (s : State) : State :=
  let i := injectRef d s
  let s1 := if status = St.dmaError then tally (hifCtr 0x108) s else s
  injectDone { i with notify := true } status none false i.port (consume d.ring s1)

/-- The frame of a descriptor, padded to 60 bytes (R88). -/
def injectFrame (n : Nat) (b : List Byte) : List Byte := if n < 60 then fit 60 (fit n b) else fit n b

/-- Put a frame at the end of a lane group's inject path. -/
def toPath (g : Nat) (p : Pkt) (s : State) : State :=
  { s with fwd := { s.fwd with injectPath := aset s.fwd.injectPath g (agetD s.fwd.injectPath g [] ++ [p]) } }

/-- The turn of a ring for a frame of `n` bytes: inject rings that have a descriptor share the reads in proportion to WEIGHT (R364). The
credits after it; none where another ring's turn comes first. -/
def injectTurn (r n : Nat) (s : State) : Option (Assoc Nat) :=
  let offers := s.host.rings.filter (fun x =>
    x.2.typ == .inject && mayBegin x.2 s && !ringBlocked x.1 s && (x.1 == r || !x.2.fetched.isEmpty))
  match wrr n (offers.map (fun x => (x.1, x.2.weight))) s.host.injectCredits with
  | some (k, credits) => if k = r then some credits else none
  | none => none

/-- Begin a descriptor: the checks of R361 in order, then `go` with the frame. -/
def beginInject (mode : Nat) (d : Desc) (check : Nat → State → Option Nat) (go : List Byte → State → State) (s : State) : State :=
  match ring? d.ring s with
  | none => s
  | some x =>
    if x.typ != .inject || !mayBegin x s || ringBlocked d.ring s || 2048 ≤ begunTotal s then s
    else if injectBad mode d then injectRefuse d St.invalidParam s
    else match injectLen d with
      | .inr st => injectRefuse d st s
      | .inl n => match check n s with
        | some st => injectRefuse d st s
        | none => match injectTurn d.ring n s with
          | none => s
          | some credits =>
            let s1 := { s with host := { s.host with injectCredits := credits } }
            match d.data with
            | none => injectRefuse d St.dmaError s1
            | some b => go (injectFrame n b) (bump (hifCtr 0x130) n s1)

/-- A PIPELINE frame enters its inject path and its descriptor is consumed (R362). -/
def pipelineFrame (d : Desc) (b : List Byte) (s : State) : State :=
  let g := rd d.bytes 18 1
  let p := { newPkt b (b.length + 4) (80 + g) s.tempo.now with injected := true, inject := some (injectRef d s) }
  consume d.ring (toPath g p s)

def execInjectPipeline (d : Desc) (s : State) : Res :=
  .next (beginInject 0 d (fun n _ => if 15996 < n then some St.txOversize else none) (pipelineFrame d) s)

/-- A leaf queue takes a DIRECT frame now: its depth is below GRANT_STOP, or its port is down and the frame is discarded (R363). -/
def leafTakes (l : Nat) (s : State) : Bool :=
  match leafNode l s, leafMac l s with
  | some n, some m => macDown m s || leafDepth l s < n.grantStop
  | _, _ => true

/-- The DIRECT frame at the head of a path goes to QD when its leaf queue takes it. -/
def releasePath (g : Nat) (s : State) : State :=
  match agetD s.fwd.injectPath g [] with
  | p :: t =>
    if p.direct && leafTakes p.leaf s then toQd (.toLeaf p.leaf p) { s with fwd := { s.fwd with injectPath := aset s.fwd.injectPath g t } }
    else s
  | [] => s

/-- The refusals of a DIRECT descriptor that its leaf queue decides (R361). -/
def directCheck (d : Desc) (n : Nat) (s : State) : Option Nat :=
  let l := rd d.bytes 20 4
  if !ahas s.cfg.leaves l then some St.noSuchId
  else match (leafMac l s).bind (fun m => mac? m s) with
    | some x => if x.cfg.maxFrame - 4 < n then some St.txOversize else none
    | none => none

/-- A DIRECT frame enters the path of its port's lane group; its descriptor is begun (R363). -/
def directFrame (d : Desc) (b : List Byte) (s : State) : State :=
  let l := rd d.bytes 20 4
  let g := macGroup ((leafMac l s).getD 0) s
  let cls := bits ((leafNode l s).map (·.cls) |>.getD 0) 2 0
  let p := { newPkt b (b.length + 4) (80 + g) s.tempo.now with
    injected := true, inject := some (injectRef d s), direct := true, leaf := l, cls := cls, ptp := (iPtp d, rd d.bytes 19 1) }
  releasePath g (toPath g p (updRing d.ring (fun x => { x with begun := x.begun + 1, fetched := x.fetched.drop 1 }) s))

def execInjectDirect (d : Desc) (s : State) : Res := .next (beginInject 1 d (directCheck d) (directFrame d) s)

/-- `DIRECT_INJECT_ENQUEUE`: a frame that waited for this leaf queue at the head of a path. -/
def execDirectInjectEnqueue (leaf : Nat) (s : State) : Res :=
  .next ((akeys s.fwd.injectPath).foldl (fun s g => match agetD s.fwd.injectPath g [] with
    | p :: _ => if p.direct && p.leaf == leaf then releasePath g s else s
    | [] => s) s)

/-! ### Receive buffers (R370, R371) -/

/-- `BUFFER_POST`: the next descriptor of a receive pool is read (R358, R370). -/
def execBufferPost (d : Desc) (s : State) : Res :=
  .next (match ring? d.ring s with
    | none => s
    | some x =>
      if x.typ == .buffer && x.state == .enabled && (pciFn x.fn s).busMaster && 0 < fetchRoom x then
        updRing d.ring (fun x => { x with fetched := x.fetched ++ [fit 64 d.bytes] }) s
      else s)

/-- The pool of a group that serves `n` bytes now: its place, its ring and whether it is a fallback (R371). -/
def servePool (n : Nat) (pools : List Nat) (s : State) : Option (Nat × Nat × Bool) :=
  let rs := pools.map (fun r => (r, ring? r s))
  let size := fun (k : Nat) => ((rs.getD k (0, none)).2.map (·.bufSize)).getD 0
  let first := ((List.range pools.length).find? (fun k => n ≤ size k)).getD (pools.length - 1)
  let has := fun (k : Nat) => (rs.getD k (0, none)).2.any (fun x => x.state == .enabled && !x.fetched.isEmpty)
  let spare := fun (k : Nat) => (rs.getD k (0, none)).2.any (fun x => x.warn ≤ posted x)
  if pools.isEmpty then none
  else if has first then some (first, pools.getD first 0, false)
  else ((List.range pools.length).find? (fun k => first < k && has k && spare k)).map (fun k => (k, pools.getD k 0, true))

/-- A punt queue whose head packet its ring can take: quantum, delivered length, ring, serving pool. -/
structure Ready where
  queue : Nat
  quantum : Nat
  len : Nat
  ring : Nat
  pool : Option (Nat × Nat × Bool)

/-- Bytes that a buffer of the group's largest pool holds. -/
def largestBuf (pools : List Nat) (s : State) : Nat := ((pools.getLast?.bind (fun r => ring? r s)).map (·.bufSize)).getD 0

/-- Punted packets between QD and the host that take a record of a RECEIVE ring. -/
def onTheWay (ring : Nat) (s : State) : Nat :=
  (s.bridge.toFd ++ s.bridge.atFd).countP (fun x => match x with
    | .toHost _ r _ _ _ _ => r == ring
    | _ => false)

/-- Punt queues with a packet whose RECEIVE ring takes a record, those on their way counted, in ascending order. -/
def readyQueues (s : State) : List Ready :=
  s.qdm.punts.filterMap (fun q => match q.2, aget s.host.binds q.1 with
    | p :: _, some b =>
      match ring? b.ring s, aget s.host.groups b.ring with
      | some x, some g =>
        let len := min (puntCut p).length (largestBuf g.pools s)
        if canWrite x s && occupancy x.partIndex x.hostIndex + onTheWay b.ring s < x.size then some { queue := q.1, quantum := b.weight * 128, len := len, ring := b.ring, pool := servePool len g.pools s } else none
      | _, _ => none
    | _, _ => none)

/-- Rounds that a queue needs until its deficit covers its head packet. -/
def roundsOf (r : Ready) (s : State) : Nat :=
  max 1 ((r.len - agetD s.host.deficits r.queue 0 + r.quantum - 1) / max r.quantum 1)

/-- The next queue of the deficit round-robin (R369): the one in service while its deficit lasts, otherwise by rounds from `drrNext`. -/
def drrPick (l : List Ready) (s : State) : Option (Ready × State) :=
  let now := (s.host.drrNext + 4095) % 4096
  match l.find? (fun r => r.queue == now && r.len ≤ agetD s.host.deficits now 0) with
  | some r => some (r, s)
  | none =>
    let turn := l.filter (fun r => s.host.drrNext ≤ r.queue) ++ l.filter (fun r => r.queue < s.host.drrNext)
    let n := (turn.map (fun r => roundsOf r s)).foldl min 1000
    match turn.findIdx? (fun r => roundsOf r s == n) with
    | none => none
    | some k =>
      let add := fun (d : Assoc Nat) (j : Nat) =>
        let r := turn.getD j { queue := 0, quantum := 0, len := 0, ring := 0, pool := none }
        aset d r.queue (agetD d r.queue 0 + r.quantum * (if j ≤ k then n else n - 1))
      (turn[k]?).map (fun r => (r, { s with host := { s.host with
        deficits := (List.range turn.length).foldl add s.host.deficits, drrNext := (r.queue + 1) % 4096 } }))

/-- The receive completion of Table 10-13. -/
def receiveBytes (cookie : List Byte) (p : Punt) (len place queue : Nat) : List Byte :=
  fit 4 cookie ++ le 2 len ++ le 2 p.frameLen ++ le 1 p.reason ++ le 1 p.source ++ le 2 p.profile ++
  le 2 (p.flags + (if len < p.frameLen - 4 then 8 else 0)) ++ le 1 place ++ zeros 1 ++
  le 4 (nsOf p.ts) ++ le 4 (secOf p.ts) ++ le 2 (secOf p.ts / 4294967296) ++ le 2 (fracOf p.ts) ++ le 2 queue ++ zeros 2

/-- Send the head packet of a queue over the bridge to the host DMA engine; its buffer is assigned, which consumes the descriptor (R15, R371,
Table 10-7a). -/
def sendPunt (r : Ready) (place pool : Nat) (fallback : Bool) (s : State) : State :=
  match agetD s.qdm.punts r.queue [], ring? pool s with
  | p :: t, some b =>
    let s1 := if fallback then tally (hifCtr 0x120) s else s
    let s2 := consume pool { s1 with
      qdm := { s1.qdm with punts := if t.isEmpty then adel s1.qdm.punts r.queue else aset s1.qdm.punts r.queue t },
      host := { s1.host with deficits :=
        if t.isEmpty then adel s1.host.deficits r.queue else aset s1.host.deficits r.queue (agetD s1.host.deficits r.queue 0 - r.len) } }
    { s2 with bridge := { s2.bridge with toFd := s2.bridge.toFd ++
        [.toHost r.queue r.ring place (b.fetched.head?.getD []) r.len p] } }
  | _, _ => s

/-- A punted packet that has crossed to FD: its queue, ring, place of its pool, descriptor and delivered length. -/
structure Landed where
  queue : Nat
  ring : Nat
  place : Nat
  desc : List Byte
  len : Nat
  pkt : Punt

/-- The oldest punted packet on FD whose ring takes it now (R356, R369). -/
def landed (s : State) : Option (Xfer × Landed) :=
  s.bridge.atFd.findSome? (fun x => match x with
    | .toHost q r place d n p =>
      if (ring? r s).any (fun y => canWrite y s) then some (x, { queue := q, ring := r, place := place, desc := d, len := n, pkt := p }) else none
    | _ => none)

/-- Write a packet into its buffer, then its receive completion (R372). -/
def deliverPunt (l : Landed) (s : State) : State :=
  match ring? l.ring s with
  | some x =>
    let bytes := (puntCut l.pkt).take l.len
    writeRecord l.ring (receiveBytes (slice l.desc 8 4) l.pkt bytes.length l.place l.queue)
      (dmaWrite x.fn (rd l.desc 0 8) bytes (bump (hifCtr 0x128) bytes.length s))
  | none => s

/-- A packet waits because no pool of its group serves it: once a Tempo second for each ring (R378). -/
def poolEmpty (r : Nat) (s : State) : State :=
  let sec := secOf s.tempo.now
  match ring? r s with
  | some x => if x.poolEmptySec = some sec then s
    else raiseEvent Ev.rxPoolEmpty r 0 0 (updRing r (fun x => { x with poolEmptySec := some sec }) s)
  | none => s

/-- `PUNT_DELIVERY`: a punted packet that has crossed to FD is written to the host; with none there, QD sends the next one over (R15, R371). -/
def execPuntDelivery (s : State) : Res :=
  .next (match landed s with
    | some (x, l) => deliverPunt l { s with bridge := { s.bridge with atFd := s.bridge.atFd.erase x } }
    | none =>
      let l := readyQueues s
      let s1 := (l.filter (fun r => r.pool.isNone)).foldl (fun s r => poolEmpty r.ring s) s
      match drrPick (l.filter (fun r => r.pool.isSome)) s1 with
      | some (r, s2) => match r.pool with
        | some (place, pool, fallback) => sendPunt r place pool fallback s2
        | none => s2
      | none => s1)

end Sys2Proof.Machine
end

