-- ==== Sys2Proof/Machine/Toll.lean ====
section
/-! DEFINITION. Toll (R557 to R579): counter identifiers, instants, dumps, and the commands of group 0x0D. -/

namespace Sys2Proof.Machine
open Sys2Proof

/-! ### Identifiers (Table 16-1) -/

/-- Instances below which a class has counters, and indices of an instance. -/
def classShape (cls : Nat) : Nat × Nat :=
  match cls with
  | 0 => (256, 33) | 1 => (80, 4) | 2 => (16, 3) | 3 => (1, 10) | 4 => (112, 8) | 5 => (1, 7) | 6 => (8, 12) | 7 => (4, 2)
  | 8 => (1, 9) | 9 => (1, 4) | 10 => (16, 14) | 11 => (1, 3) | 12 => (1, 9) | 13 => (512, 1) | 14 => (196608, 2)
  | 15 => (512, 2) | 16 => (2048, 1) | 17 => (256, 2) | 18 => (16, 5) | 19 => (524288, 15) | 20 => (131072, 4) | 21 => (7, 2)
  | 22 => (1, 5) | 23 => (4096, 2) | 24 => (4096, 3) | 25 => (2048, 2) | 26 => (524288, 4) | 27 => (28, 1) | 28 => (1, 3)
  | 29 => (20, 2)
  | _ => (0, 0)

/-- A place that Table 05-5 gives a port or client. -/
def isDest (d : Nat) : Bool := d < 80 || (128 ≤ d && d < 256)

/-- An instance of a class. -/
def hasInstance (cls inst : Nat) : Bool :=
  inst < (classShape cls).1 && (if cls = 0 then isDest inst else if cls = 25 then isDest (inst / 8) else true)

/-- A counter exists. -/
def isCounter (cls inst idx : Nat) : Bool := hasInstance cls inst && idx < (classShape cls).2

/-- Class, instance and index of an identifier. -/
def ctrParts (id : Nat) : Nat × Nat × Nat := (id / 134217728, id / 64 % 2097152, id % 64)

/-- An identifier names a counter. -/
def namesCounter (id : Nat) : Bool := isCounter (ctrParts id).1 (ctrParts id).2.1 (ctrParts id).2.2

/-! ### Records (Tables 16-3 to 16-5) -/

/-- One value as it is dumped: identifier, flagged, value. -/
abbrev Dumped := Nat × Bool × Nat

/-- Instance of an identifier, its class included. -/
def instOf (id : Nat) : Nat := id / 64

/-- A counter record of one or two values. -/
def counterRecord (dump : Nat) (a : Dumped) (b : Option Dumped) : List Byte :=
  le 4 a.1 ++ le 4 dump ++ le 1 (1 + b2n b.isSome) ++
  le 1 (b2n a.2.1 + b2n (b.any (·.2.1)) * 2 + b2n (a.1 == ctrId 12 0 1) * 4) ++ le 1 0xD1 ++ zeros 1 ++
  le 4 ((b.map (·.1)).getD 0) ++ le 8 a.2.2 ++ le 8 ((b.map (·.2.2)).getD 0)

/-- Values in records: two of one instance in each (R564). -/
def packRecords (dump : Nat) : List Dumped → List (List Byte)
  | [] => []
  | [a] => [counterRecord dump a none]
  | a :: b :: t =>
    if instOf a.1 = instOf b.1 && a.1 < b.1 then counterRecord dump a (some b) :: packRecords dump t
    else counterRecord dump a none :: packRecords dump (b :: t)

/-- A dump: header, counter records, trailer. -/
def dumpRecords (dump instant flags skipped : Nat) (step : Int) (vals : List Dumped) : List (List Byte) :=
  let recs := packRecords dump vals
  let head := le 4 dump ++ le 4 recs.length ++ le 2 flags ++ le 1 0xD0 ++ le 1 (min skipped 255) ++ le 4 (nsOf instant) ++
    le 6 (secOf instant) ++ le 2 (dump / 4294967296) ++ le 8 (unsignedOf 64 step)
  let tail := le 4 dump ++ le 4 recs.length ++ zeros 2 ++ le 1 0xD2 ++ zeros 1 ++ le 4 (crc32c (recs.flatMap id)) ++ zeros 16
  head :: recs ++ [tail]

/-! ### Instants (R560 to R566) -/

/-- PERIOD in ns. -/
def periodNs (s : State) : Nat := s.toll.period * 1000000

/-- `toll.stop` waits for the dumps in progress; a restart ends it without effect (R397). -/
def tollStopping (s : State) : Bool := !s.mgmt.restarting && s.mgmt.running.any (fun r => r.waits == .tollStop)

/-- A dump that cannot start: the instant is skipped for the function (R565, R579). -/
def skipDump (n dump : Nat) (s : State) : State :=
  let sec := secOf s.tempo.now
  let told := (pciFn n s).tollSkipSec == some sec
  let s1 := tally (ctrId 28 0 0) (updFn n (fun f => { f with
    tollSkippedSincePrev := f.tollSkippedSincePrev + 1, tollSkippedSinceStart := f.tollSkippedSinceStart + 1,
    tollSkipSec := some sec }) s)
  if told then s1 else raiseEvent Ev.tollSkipped n 1 dump s1

/-- The flagged values of a dump are counted and reported (R566). -/
def reportFlagged (dump : Nat) (vals : List Dumped) (s : State) : State :=
  (vals.filter (·.2.1)).foldl (fun s v => raiseEvent Ev.tollError (ctrParts v.1).1 v.1 dump (tally (ctrId 28 0 2) s)) s

/-- A function's dump starts from the totals of the instant; values flagged since its previous dump are flagged in it. -/
def startDump (n dump instant : Nat) (s : State) : State :=
  let f := pciFn n s
  let vals := f.tollSel.map (fun id => (id, ahas f.tollFlagged id, agetD s.toll.snap id 0))
  let flags := b2n f.tollFirst + b2n f.tollStepped * 2 + b2n (vals.any (·.2.1)) * 4 + b2n s.mgmt.restarting * 8
  reportFlagged dump vals (updFn n (fun f => { f with
    tollPending := dumpRecords dump instant flags f.tollSkippedSincePrev f.tollStepNs vals, tollDump := some dump,
    tollInstant := instant, tollSkippedSincePrev := 0, tollFirst := false, tollStepNs := 0, tollStepped := false, tollFlagged := [] }) s)

/-- One function at an instant. -/
def dumpAt (n dump instant : Nat) (s : State) : State :=
  let s1 := updFn n (fun f => { f with
    tollStepNs := f.tollStepNs + s.toll.stepNs, tollStepped := f.tollStepped || s.toll.stepped,
    tollFlagged := (akeys s.toll.flagged).foldl (fun l id => aset l id ()) f.tollFlagged }) s
  let f := pciFn n s1
  if f.tollRing.isNone || f.tollSel.isEmpty || tollStopping s then s1
  else if f.tollDump.isSome then skipDump n dump s1 else startDump n dump instant s1

/-- `TOLL_INSTANT` (Table 16-2). -/
def execTollInstant (s : State) : Res :=
  .next (if !s.toll.running then s
    else
      let at' := s.toll.next
      let dump := at' / periodNs s
      let s1 := advanceTempo (at' * tuPerNs) s
      let s2 := { s1 with toll := { s1.toll with
        snap := s1.ctrs, last := dump, lastTempo := at' * tuPerNs, next := max (at' + periodNs s) s1.toll.resumeAt } }
      let s3 := dumpAt 1 dump (at' * tuPerNs) (dumpAt 0 dump (at' * tuPerNs) s2)
      { s3 with toll := { s3.toll with flagged := [], stepNs := 0, stepped := false } })

/-- Toll stops: counters continue, and the command that waits completes (R571). -/
def tollStopped (s : State) : State :=
  let s1 := raiseEvent Ev.tollState 0 s.toll.period s.toll.last { s with toll := { s.toll with running := false } }
  finishWaiting (fun w => w == .tollStop) St.ok (fun _ => []) true 0 0 s1

/-- No dump is in progress. -/
def dumpsDone (s : State) : Bool := s.host.pf0.tollDump.isNone && s.host.pf1.tollDump.isNone

/-- Write a dump's records while its ring has room (R563). -/
def writeDump : Nat → Nat → State → State
  | 0, _, s => s
  | fuel + 1, n, s =>
    match (pciFn n s).tollPending, (pciFn n s).tollRing with
    | rec :: rest, some r =>
      match ring? r s with
      | some x =>
        if !canWrite x s then s
        else
          let s1 := writeRecord r rec (updFn n (fun f => { f with tollPending := rest }) s)
          let s2 := if rd rec 10 1 = 0xD1 then tally (ctrId 28 0 1) s1 else s1
          let s3 := if rest.isEmpty then
              updFn n (fun f => { f with tollDump := none, tollLastTrailer := f.tollDump.getD 0 })
                { s2 with toll := { s2.toll with lastReached := (pciFn n s2).tollInstant } }
            else s2
          writeDump fuel n s3
      | none => s
    | _, _ => s

/-- `TOLL_DUMP_WRITE`. -/
def execTollDumpWrite (fn : Nat) (s : State) : Res :=
  let s1 := writeDump ((pciFn fn s).tollPending.length + 1) fn s
  .next (if tollStopping s1 && dumpsDone s1 then tollStopped s1 else s1)

/-! ### Commands (Table 16-9) -/

/-- A ring operand with VALID: its COMPLETION ring, or that there is none. -/
def tollRingOf (fn v : Nat) (s : State) : Option (Option Nat) :=
  if bit v 15 = 0 then some none
  else match ring? (v % 32768) s with
    | some x => if x.typ == .completion && x.fn == fn then some (some (v % 32768)) else none
    | none => none

/-- `toll.config` (R567). -/
def tollConfig (h : HeldCmd) (s : State) : Verdict :=
  let p := par h 0 4
  if p % 10 != 0 || p < 20 || 60000 < p || !parZero h 8 4 then .refuse St.invalidParam
  else match tollRingOf 0 (par h 4 2) s, tollRingOf 1 (par h 6 2) s with
    | some a, some b =>
      if s.toll.running then .refuse St.tollBusy
      else .done St.ok [] (updFn 1 (fun f => { f with tollRing := b }) (updFn 0 (fun f => { f with tollRing := a })
        { s with toll := { s.toll with period := p } }))
    | _, _ => .refuse St.noSuchRing

def specTollConfig : CmdSpec := ⟨12, .effect, tollConfig⟩
def execTollConfig (c : Cmd) (s : State) : Res := runCmd 0x0D01 specTollConfig c s

/-- Identifiers that one selection entry names, in order (R568). -/
def entryIds (e : List Byte) : List Nat :=
  let cls := rd e 0 1
  let first := rd e 1 3
  let n := min (rd e 4 4) ((classShape cls).1 - first)
  let idx := (List.range (classShape cls).2).filter (fun i => bit (rd e 8 8) i == 1)
  ((List.range n).filter (fun k => hasInstance cls (first + k))).flatMap (fun k => idx.map (fun i => ctrId cls (first + k) i))

/-- `toll.select` (R568). -/
def tollSelect (h : HeldCmd) (s : State) : Verdict :=
  let fn := par h 0 1
  let n := par h 2 2
  if !fnExists fn s || 1024 < n || !parZero h 1 1 || !parZero h 4 4 then .refuse St.invalidParam
  else match (if n = 0 then some [] else h.data) with
    | none => .refuse St.dmaError
    | some b =>
      let es := (List.range n).map (fun k => entryIds (fit 16 (b.drop (16 * k))))
      let ids := es.flatMap id
      if es.any (·.isEmpty) || 4194304 < ids.length then .refuse St.invalidParam
      else .done St.ok (le 4 ids.length) (updFn fn (fun f => { f with tollSel := ids }) s)

def specTollSelect : CmdSpec := ⟨16, .effect, tollSelect⟩
def execTollSelect (c : Cmd) (s : State) : Res := runCmd 0x0D02 specTollSelect c s

/-- `toll.start` (R570). -/
def tollStart (h : HeldCmd) (s : State) : Verdict :=
  if !parZero h 0 4 then .refuse St.invalidParam
  else if s.toll.running then .refuse St.tollBusy
  else
    let next := (tempoNs s / periodNs s + 1) * periodNs s
    let first := fun (f : PciFn) => { f with
      tollFirst := true, tollSkippedSincePrev := 0, tollSkippedSinceStart := 0, tollStepNs := 0, tollStepped := false, tollFlagged := [] }
    .done St.ok [] (raiseEvent Ev.tollState 1 s.toll.period (next / periodNs s) (updFn 1 first (updFn 0 first
      { s with toll := { s.toll with running := true, snap := s.ctrs, next := next, stepNs := 0, stepped := false, flagged := [] } })))

def specTollStart : CmdSpec := ⟨4, .effect, tollStart⟩
def execTollStart (c : Cmd) (s : State) : Res := runCmd 0x0D03 specTollStart c s

/-- `toll.stop` (R571). -/
def tollStop (h : HeldCmd) (s : State) : Verdict :=
  if !parZero h 0 4 then .refuse St.invalidParam
  else if !s.toll.running then .done St.ok [] s
  else if dumpsDone s then .done St.ok [] (tollStopped s)
  else .wait .tollStop [] s

def specTollStop : CmdSpec := ⟨4, .effect, tollStop⟩
def execTollStop (c : Cmd) (s : State) : Res := runCmd 0x0D04 specTollStop c s

/-- A counter as `counter.read` gives it: its total while Toll runs, otherwise its live value (R572). -/
def readCounter (id : Nat) (s : State) : Nat := if s.toll.running then agetD s.toll.snap id 0 else ctr id s

/-- `counter.read` (R572). -/
def counterRead (h : HeldCmd) (s : State) : Verdict :=
  let id := par h 0 4
  let n := par h 4 2
  if n < 1 || 64 < n || 64 < id % 64 + n || !parZero h 6 2 then .refuse St.invalidParam
  else if !namesCounter id then .refuse St.noSuchCounter
  else
    let t := if s.toll.running then s.toll.lastTempo else s.tempo.now
    .done St.ok (le 6 (secOf t) ++ le 4 (nsOf t) ++ le 6 (secOf t) ++ le 4 (nsOf t) ++ le 1 (b2n s.toll.running) ++ zeros 3 ++
      le 8 (if s.toll.running then s.toll.last else 0) ++
      (List.range n).flatMap (fun k => le 8 (if namesCounter (id + k) then readCounter (id + k) s else 0))) s

def specCounterRead : CmdSpec := ⟨8, .query, counterRead⟩
def execCounterRead (c : Cmd) (s : State) : Res := runCmd 0x0D05 specCounterRead c s

/-- One function in `toll.status`. -/
def tollFnStatus (n : Nat) (s : State) : List Byte :=
  let f := pciFn n s
  le 2 ((f.tollRing.map (fun r => 32768 + r)).getD 0) ++ zeros 2 ++ le 4 f.tollSel.length ++ le 4 f.tollLastTrailer ++ le 4 f.tollSkippedSinceStart

/-- `toll.status` (R577). -/
def tollStatus (_ : HeldCmd) (s : State) : Verdict :=
  .done St.ok (le 1 (b2n s.toll.running) ++ zeros 3 ++ le 4 s.toll.period ++ le 8 s.toll.last ++ tollFnStatus 0 s ++ tollFnStatus 1 s) s

def specTollStatus : CmdSpec := ⟨0, .query, tollStatus⟩
def execTollStatus (c : Cmd) (s : State) : Res := runCmd 0x0D06 specTollStatus c s

end Sys2Proof.Machine
end

