-- ==== Sys2Proof/Machine/Flash.lean ====
section
/-! DEFINITION. Flash, the update record, images and settings (R486 to R510, Tables 14-1 to 14-10). -/

namespace Sys2Proof.Machine
open Sys2Proof

/-! ### Bytes of the device -/

/-- A byte of flash: an unlisted one is erased. -/
def flashByte (m : List (Nat × Byte)) (a : Nat) : Byte := agetD m a 0xFF

/-- `n` bytes of flash from an address. -/
def flashRead (a n : Nat) (s : State) : List Byte := (List.range n).map (fun k => flashByte s.fw.flash (a + k))

/-- Put one byte: an erased byte is not listed. -/
def flashPut (m : List (Nat × Byte)) (a : Nat) (b : Byte) : List (Nat × Byte) := if b = 0xFF then adel m a else aset m a b

/-- Bytes put one address after another. -/
def flashPutAll (m : List (Nat × Byte)) (a : Nat) : List Byte → List (Nat × Byte)
  | [] => m
  | b :: t => flashPutAll (flashPut m a b) (a + 1) t

/-- Program bytes (R486). -/
def flashWrite (a : Nat) (bs : List Byte) (s : State) : State := { s with fw := { s.fw with flash := flashPutAll s.fw.flash a bs } }

/-- Erase the 64 KiB sectors that a range touches, each counted. -/
def flashErase (a n : Nat) (s : State) : State :=
  let lo := a / 65536
  let hi := (a + n + 65535) / 65536
  { s with fw := { s.fw with
      flash := s.fw.flash.filter (fun x => x.1 < 65536 * lo || 65536 * hi ≤ x.1),
      wear := (List.range (hi - lo)).foldl (fun w k => aset w (lo + k) (agetD w (lo + k) 0 + 1)) s.fw.wear } }

/-- The device is present and fits (R486). -/
def flashUsable (s : State) : Bool := s.fw.flashOk && 67108864 ≤ s.fw.flashSize

/-! ### The update record (R495, Table 14-5) -/

/-- First address of a copy of the record. -/
def recAddr (k : Nat) : Nat := 0x10000 * (k + 1)

/-- A copy's 256 bytes. -/
def recCopy (k : Nat) (s : State) : List Byte := flashRead (recAddr k) 256 s

/-- A copy checks: MAGIC and CRC. -/
def recGood (r : List Byte) : Bool := rd r 0 4 == 0x414C5552 && rd r 248 8 == crc64 (r.take 248)

/-- Which copy is the valid record. -/
def validCopy (s : State) : Option Nat :=
  let a := recCopy 0 s
  let b := recCopy 1 s
  match recGood a, recGood b with
  | true, true => if rd a 4 4 = (rd b 4 4 + 1) % 4294967296 then some 0 else some 1
  | true, false => some 0
  | false, true => some 1
  | false, false => none

/-- The valid record; without one, IDLE with nothing staged (log 21). -/
def updRec (s : State) : List Byte :=
  match validCopy s with
  | some k => recCopy k s
  | none => zeros 256

def uState (s : State) : Nat := rd (updRec s) 8 1
def uFlags (s : State) : Nat := rd (updRec s) 9 1
def uStage (s : State) : Nat := rd (updRec s) 10 1
def uNextStart (s : State) : Bool := bit (uFlags s) 0 == 1
def uMigrated (s : State) : Bool := bit (uFlags s) 1 == 1
def uVerifyPending (s : State) : Bool := bit (uFlags s) 2 == 1
def uRecovery (s : State) : Bool := bit (uFlags s) 3 == 1

/-- States of the record. -/
abbrev Upd.idle : Nat := 0
abbrev Upd.copyPrev : Nat := 1
abbrev Upd.copyActive : Nat := 2
abbrev Upd.armed : Nat := 3
abbrev Upd.probation : Nat := 4
abbrev Upd.confirmed : Nat := 5
abbrev Upd.reverting : Nat := 6

/-- A record with its SEQ and CRC. -/
def sealRec (seq : Nat) (r : List Byte) : List Byte :=
  let b := patch (patch (fit 256 r) 0 (le 4 0x414C5552)) 4 (le 4 seq)
  patch b 248 (le 8 (crc64 (b.take 248)))

/-- Write a new record into the copy that is not valid. -/
def writeRec (r : List Byte) (s : State) : State :=
  let k := if validCopy s = some 0 then 1 else 0
  let seq := match validCopy s with
    | some _ => (rd (updRec s) 4 4 + 1) % 4294967296
    | none => 1
  flashWrite (recAddr k) (sealRec seq r) (flashErase (recAddr k) 65536 s)

/-- Change a field of the record. -/
def setRec (off n v : Nat) (r : List Byte) : List Byte := patch r off (le n v)

/-- Move the record to a state, with what `f` changes, and report it (R501). -/
def moveRec (st : Nat) (f : List Byte → List Byte) (s : State) : State :=
  let s1 := writeRec (f (setRec 8 1 st (updRec s))) s
  raiseEvent Ev.fwActivateStep st (rd (updRec s1) 16 4) (rd (updRec s1) 4 4) s1

/-- Set or clear bits of FLAGS. -/
def setFlag (i : Nat) (on : Bool) (r : List Byte) : List Byte :=
  setRec 9 1 (rd r 9 1 - bit (rd r 9 1) i * 2 ^ i + b2n on * 2 ^ i) r

/-! ### Images (R487 to R490) -/

/-- Slots: 0 ACTIVE, 1 PREVIOUS, 2 STAGING. -/
def slotBase (k : Nat) : Nat := 0x1000000 * (k + 1)

/-- An image's header. -/
def slotHeader (k : Nat) (s : State) : List Byte := flashRead (slotBase k) 4096 s

/-- BODY_LEN of a header. -/
def bodyLen (h : List Byte) : Nat := rd h 16 4

/-- Bytes of an image. -/
def imageLen (h : List Byte) : Nat := 4096 + bodyLen h + 8192

/-- Image digest (R488). -/
def imageDigest (h : List Byte) : List Byte := fit 64 (Config.sha3 h)

/-- Check 1 of Table 14-3. -/
def headerChecks (h : List Byte) : Bool :=
  rd h 0 4 == 0x414C5A31 && rd h 4 2 == 1 && allZero (slice h 24 40) && allZero (slice h 2720 1376) &&
  bodyLen h % 4096 == 0 && 4096 ≤ bodyLen h && bodyLen h ≤ 16764928

/-- Check 6: the body's digest. -/
def bodyChecks (k : Nat) (s : State) : Bool :=
  let h := slotHeader k s
  fit 64 (Config.sha3 (flashRead (slotBase k + 4096) (bodyLen h) s)) == slice h 64 64

/-- Check 7: the signature over the image digest. -/
def signatureChecks (k : Nat) (s : State) : Bool :=
  let h := slotHeader k s
  Config.verifySignature (slice h 128 2592) (imageDigest h) (flashRead (slotBase k + 4096 + bodyLen h) 4627 s)

/-- Check 5 for a header (R491). -/
def versionOk (h : List Byte) (s : State) : Bool := s.fw.fuseCounter ≤ rd h 7 1

/-- Verify a slot's image in the order of Table 14-3: 0, or the status of the first check that fails. -/
def verifyImage (k : Nat) (s : State) : Nat :=
  let h := slotHeader k s
  if !headerChecks h then St.fwBadHeader
  else if rd h 12 2 != 0x1640 || 0xB0 < rd h 14 1 || rd h 15 1 < 0xB0 then St.fwWrongPart
  else if 2 < rd h 6 1 || fit 64 (Config.sha3 (slice h 128 2592)) != fit 64 (Config.keyDigest (rd h 6 1)) then St.fwKeyInvalid
  else if bit s.fw.revoked (rd h 6 1) = 1 then St.fwKeyRevoked
  else if !versionOk h s then St.fwRollback
  else if !bodyChecks k s then St.fwDigest
  else if !signatureChecks k s then St.fwSignature
  else St.ok

/-- The running image: FW_VERSION, SECURITY_VERSION, and the settings formats it writes and reads from. -/
def runVersion (s : State) : Nat := rd s.fw.image 8 4
def runSecurity (s : State) : Nat := rd s.fw.image 7 1
def runFormat (s : State) : Nat := rd s.fw.image 20 2
def runReadMin (s : State) : Nat := rd s.fw.image 22 2

/-! ### Settings (R507 to R509) -/

/-- First address of a settings copy: 0 A, 1 B. -/
def setBase (k : Nat) : Nat := 0x100000 + 0x400000 * k

/-- A copy's snapshot header. -/
def snapHead (k : Nat) (s : State) : List Byte := flashRead (setBase k) 64 s

/-- A copy is CRC-good. -/
def snapGood (k : Nat) (s : State) : Bool :=
  let h := snapHead k s
  let n := rd h 12 4
  rd h 0 4 == 0x414C5354 && n ≤ 2097088 && rd h 56 8 == crc64 (h.take 56 ++ flashRead (setBase k + 64) n s)

/-- Round up to a multiple. -/
def roundUp (m n : Nat) : Nat := (n + m - 1) / m * m

/-- Apply one item or journal record: hbm.retired entries add up, an empty value removes a host item. -/
def setItem (t : Assoc (List Byte)) (id : Nat) (v : List Byte) : Assoc (List Byte) :=
  if id = 4 then aset t 4 (agetD t 4 [] ++ v)
  else if v.isEmpty then adel t id
  else aset t id v

/-- Items of a snapshot. -/
def parseItems : Nat → List Byte → Assoc (List Byte) → Assoc (List Byte)
  | 0, _, t => t
  | fuel + 1, b, t =>
    if b.length < 4 then t
    else
      let n := rd b 2 2
      parseItems fuel (b.drop (4 + roundUp 4 n)) (setItem t (rd b 0 2) (slice b 4 n))

/-- Bytes of a journal record with a value of `n` bytes (Table 14-9). -/
def jrecLen (n : Nat) : Nat := 32 + roundUp 16 n

/-- A journal record at the front of the bytes: its length when it checks. -/
def jrecAt (b : List Byte) : Option Nat :=
  let n := jrecLen (rd b 2 2)
  if b.length < n then none
  else if rd b (n - 12) 4 = 0 && rd b (n - 16) 4 = crc32c (b.take (n - 16)) then some n else none

/-- Values after a journal, with the bytes and the records it uses. -/
def parseJournal : Nat → List Byte → Assoc (List Byte) × Nat × Nat → Assoc (List Byte) × Nat × Nat
  | 0, _, r => r
  | fuel + 1, b, r =>
    match jrecAt b with
    | none => r
    | some n => parseJournal fuel (b.drop n) (setItem r.1 (rd b 0 2) (slice b 16 (rd b 2 2)), r.2.1 + n, r.2.2 + 1)

/-- Bytes of a copy's journal. -/
def journalBytesOf (k : Nat) (s : State) : List Byte := flashRead (setBase k + 0x200000) 0x200000 s

/-- Values, journal bytes used and journal records of a copy. -/
def readCopy (k : Nat) (s : State) : Assoc (List Byte) × Nat × Nat :=
  let items := parseItems 65536 (flashRead (setBase k + 64) (rd (snapHead k s) 12 4) s) []
  parseJournal 65536 (journalBytesOf k s) (items, 0, 0)

/-- GENERATION and FORMAT of a copy. -/
def snapGen (k : Nat) (s : State) : Nat := rd (snapHead k s) 8 4
def snapFormat (k : Nat) (s : State) : Nat := rd (snapHead k s) 4 2

/-- A copy that the running image reads. -/
def readable (k : Nat) (s : State) : Bool := snapGood k s && runReadMin s ≤ snapFormat k s && snapFormat k s ≤ runFormat s

/-- The live copy (R507). -/
def liveCopy (s : State) : Option Nat :=
  if uState s = Upd.reverting then some (rd (updRec s) 11 1 % 2)
  else match readable 0 s, readable 1 s with
    | true, true => if snapGen 0 s < snapGen 1 s then some 1 else some 0
    | true, false => some 0
    | false, true => some 1
    | false, false => none

/-- Values of the stored settings; an absent one has its default (Table 14-10). -/
def settings (s : State) : Assoc (List Byte) :=
  match liveCopy s with
  | some k => (readCopy k s).1
  | none => []

/-- Items as a snapshot holds them; hbm.retired in items of up to 8,191 entries. -/
def itemBytes (id : Nat) (v : List Byte) : List Byte := le 2 id ++ le 2 v.length ++ fit (roundUp 4 v.length) v

/-- A value cut into items. -/
def itemsOf : Nat → Nat → List Byte → List Byte
  | 0, _, _ => []
  | fuel + 1, id, v => if v.length ≤ 65528 then itemBytes id v else itemBytes id (v.take 65528) ++ itemsOf fuel id (v.drop 65528)

/-- Write a whole copy: its snapshot, and an empty journal. -/
def writeSnapshot (k gen format : Nat) (vals : Assoc (List Byte)) (s : State) : State :=
  let items := vals.flatMap (fun x => itemsOf 16 x.1 x.2)
  let head := le 4 0x414C5354 ++ le 2 format ++ zeros 2 ++ le 4 gen ++ le 4 items.length ++ le 4 (runVersion s) ++ zeros 36
  flashWrite (setBase k) (head ++ le 8 (crc64 (head ++ items)) ++ items) (flashErase (setBase k) 0x400000 s)

/-- A journal record (Table 14-9). -/
def jrecBytes (id seq source : Nat) (v : List Byte) (s : State) : List Byte :=
  let b := le 2 id ++ le 2 v.length ++ le 4 seq ++ le 4 (secOf s.tempo.now) ++ le 1 source ++ zeros 3 ++ fit (roundUp 16 v.length) v
  b ++ le 4 (crc32c b) ++ zeros 4 ++ zeros 8

/-- A change fits the live journal (R508). -/
def journalFits (n : Nat) (s : State) : Bool :=
  match liveCopy s with
  | some k => (readCopy k s).2.1 + jrecLen n ≤ 0x200000
  | none => true

/-- Append a change to the live journal; with no live copy, a copy of defaults is written first (log 21). -/
def appendSetting (id source : Nat) (v : List Byte) (s : State) : State :=
  let s1 := if (liveCopy s).isNone then writeSnapshot 0 1 (runFormat s) [] s else s
  let k := (liveCopy s1).getD 0
  let r := readCopy k s1
  flashWrite (setBase k + 0x200000 + r.2.1) (jrecBytes id r.2.2 source v s1) s1

/-- A setting's value, or its default. -/
def settingOr (id : Nat) (d : List Byte) (s : State) : List Byte := agetD (settings s) id d

/-- fw.probation in seconds (Table 14-10). -/
def probationLimit (s : State) : Nat := rd (settingOr 5 (zeros 4) s) 0 4

/-- A setting changed by a command: it waits for its journal record (R509), or is refused. -/
def changeSetting (id : Nat) (v : List Byte) (s : State) : Verdict :=
  if !flashUsable s then .refuse St.flashError
  else if !journalFits v.length s then .refuse St.settingsFull
  else .wait (.setting id (some v)) [] s

end Sys2Proof.Machine
end

