-- ==== Sys2Proof/Machine/Protect.lean ====
section
/-! DEFINITION. Protection pairs (R469 to R481, Tables 13-5, 13-6, 13-8). -/

namespace Sys2Proof.Machine
open Sys2Proof

/-- Change the pair's state. -/
def updProt (f : Protect → Protect) (s : State) : State := { s with prot := f s.prot }

/-- Enter a state of Table 13-6. -/
def protTo (st : Nat) (s : State) : State := updProt (fun p => { p with state := st, since := s.elapsed }) s

/-- EV_PROTECT_STATE. -/
def protEvent (s : State) : State := raiseEvent Ev.protectState s.prot.pair s.prot.state s.prot.peerSerial s

/-! ### The hold (R470) -/

/-- Ports outside groups and groups (256 + g) that a hold keeps in ADMIN_DOWN and that are not there. -/
def toHold (s : State) : List Nat :=
  (akeys (s.macs.filter (fun m => heldDown m.1 s && !m.2.cfg.flexePhy && m.2.link != .adminDown))) ++
  (s.flexe.groups.filter (fun g => g.2.state != .adminDown && g.2.phys.any (fun p => heldDown p.1 s))).map (fun g => 256 + g.1)

/-- A port or group to ADMIN_DOWN, or from there to DOWN. -/
def itemDown (k : Nat) (s : State) : State := if 256 ≤ k then groupAdminDown (k - 256) s else toAdminDown k s
def itemUp (k : Nat) (s : State) : State := if 256 ≤ k then groupDown (k - 256) s else toDown k s

/-- Enter the hold: lanes fall back to HUNT, ports to what STANDBY_PORT says. -/
def enterHold (s : State) : State :=
  let s1 := updProt (fun p => { p with hold := true }) s
  let l := toHold s1
  let s2 := l.foldl (fun s k => itemDown k s) (updProt (fun p => { p with heldItems := p.heldItems ++ l }) s1)
  (akeys s2.fab.lanes).foldl (fun s n =>
    if (fabLane n s).state == .check || (fabLane n s).state == .up then moveLane n .hunt s else s) s2

/-- Leave the hold: ports and lanes are released (R476). -/
def leaveHold (s : State) : State :=
  let l := s.prot.heldItems
  l.foldl (fun s k => itemUp k s) (updProt (fun p => { p with hold := false, heldItems := [] }) s)

/-- The package forwards: a port or a lane is UP. -/
def forwarding (s : State) : Bool := s.macs.any (fun m => m.2.link == .up) || !(upLanes s).isEmpty

/-- An active member moves to the hold, and what it has buffered is discarded (R476, R478). -/
def standDown (s : State) : State := dropBuffered St.portDown (enterHold s)

/-! ### PAIR_BEAT (Table 13-5) -/

/-- The package makes its FATAL known (Table 13-3, Table 13-5). -/
def fatalFlag (s : State) : Bool := s.glb.fatal || 4 ≤ s.pwr.level

/-- Seconds and nanoseconds of an instant in ns, as messages carry them. -/
def ts10 (ns : Nat) : List Byte := be 6 (ns / 1000000000) ++ be 4 (ns % 1000000000)
def readTs (b : List Byte) (off : Nat) : Nat := rdBe b off 6 * 1000000000 + rdBe b (off + 6) 4

/-- HOME and REVERTIVE. -/
def isHome (s : State) : Bool := bit s.prot.flags 0 == 1
def isRevertive (s : State) : Bool := bit s.prot.flags 1 == 1

/-- The member's PAIR_BEAT payload. -/
def pairBeatOf (s : State) : List Byte :=
  let p := s.prot
  be 1 p.pair ++ be 1 p.state ++
  be 1 (bit p.flags 0 + b2n (fatalFlag s) * 2 + b2n s.mgmt.restarting * 4 + bit p.flags 1 * 8 + bits p.flags 3 2 * 16 + b2n p.lockout * 64) ++
  be 1 p.wtr ++ be 8 s.glb.serial ++ be 8 p.peerSerial ++ le 10 p.portMask ++ be 2 s.fab.endpoint ++
  ts10 (if p.state = 6 then p.activeSince else 0) ++ zeros 2

/-- The peer's configuration agrees with the own one (R469). -/
def agrees (b : List Byte) (s : State) : Bool :=
  let p := s.prot
  let f := rdBe b 2 1
  rdBe b 0 1 == p.pair && rdBe b 3 1 == p.wtr && bit f 3 == bit p.flags 1 && bits f 5 4 == bits p.flags 3 2 &&
  rd b 20 10 == p.portMask && rdBe b 12 8 == s.glb.serial && bit f 0 + bit p.flags 0 == 1 && rdBe b 30 2 == s.fab.endpoint

/-- A lockout is in force, set at either member. -/
def lockedOut (s : State) : Bool := s.prot.lockout || bit (rdBe s.prot.peerBeat 2 1) 6 == 1

/-- A member that may switch to ACTIVE on a trigger: STANDBY or WTR, in sync, not locked out (R475). -/
def maySwitch (s : State) : Bool := (s.prot.state == 4 || s.prot.state == 5) && s.prot.inSync && !lockedOut s

/-! ### Switching (R476) -/

/-- Commands that wait for a switch end OK. -/
def switchedOver (s : State) : State :=
  (s.mgmt.running.filter (fun r => match r.waits with
    | .switchOver _ => true
    | _ => false)).foldl (fun s r => finishRunning r St.ok r.resp true 0 0 s) s

/-- The new active starts: ports and lanes released, every stream at SEQ 0 (R476, R477). -/
def startActive (s : State) : State :=
  let s1 := updProt (fun p => { p with
    state := 6, since := s.elapsed, activeSince := tempoNs s, inSync := false, wtrAt := none, switching := none, peerSync := false }) s
  leaveHold { s1 with fab := { s1.fab with txSeq := [] } }

/-- A standby's switch ends with it ACTIVE: its cause and instant kept, EV_PROTECT_SWITCH. -/
def takeOver (cause : Nat) (s : State) : State :=
  let s1 := startActive (updProt (fun p => { p with lastCause := cause, lastSwitch := s.tempo.now, resync := true }) s)
  switchedOver (raiseEvent Ev.protectSwitch s1.prot.pair cause s1.prot.peerSerial s1)

/-- A trigger: the new active starts at RELINQUISH or 5 ms later. -/
def triggerSwitch (cause : Nat) (s : State) : State :=
  if s.prot.switching.isSome then s else updProt (fun p => { p with switching := some (s.elapsed + 5000000, cause), wtrAt := none }) s

/-- The old active moves first: hold, discards, RELINQUISH; it is STANDBY from here (Table 13-6). -/
def stepDown (cause : Nat) (s : State) : State :=
  let s1 := standDown (updProt (fun p => { p with
    state := 4, since := s.elapsed, inSync := true, lastCause := cause, lastSwitch := s.tempo.now, peerSync := false, resync := false,
    wtrAt := none }) s)
  releaseMirror (sendRelinquish cause s1)

/-- `RELINQUISH` (R476): the standby that waits, or has not been triggered, starts. -/
def execRelinquish (port : Nat) (msg : List Byte) (s : State) : Res :=
  .next (match crlReceive port 0x44 msg s with
    | (none, s1) => s1
    | (some m, s1) =>
      if rdBe m.payload 0 1 = s1.prot.pair && (s1.prot.state == 4 || s1.prot.state == 5 || (s1.prot.state == 3 && s1.prot.switching.isSome)) then
        takeOver ((s1.prot.switching.map (·.2)).getD (rdBe m.payload 1 1)) s1
      else s1)

/-- `RELINQUISH_WAIT_EXPIRY` (R476). -/
def execRelinquishWaitExpiry (s : State) : Res :=
  .next (match s.prot.switching with
    | some (t, cause) => takeOver cause (advanceTo t s)
    | none => s)

/-- `WTR_EXPIRY` (R479): the pair switches back; an old active that still runs moves first (R476, log 76). -/
def execWtrExpiry (s : State) : Res :=
  .next (match s.prot.wtrAt with
    | some t =>
      if s.prot.state = 6 then stepDown 4 (advanceTo t s)
      else if maySwitch s then triggerSwitch 4 (advanceTo t s)
      else s
    | none => s)

/-! ### Synchronisation (R473, R474) -/

/-- Send a resynchronisation: the configuration as a KIND 2 record, whose layout the spec does not give, then every mirrored context (log 22). -/
def sendResync (s : State) : State :=
  let s1 := mirrorOut 0x41 (be 1 2 ++ zeros 3) (Config.resyncRecord s.fresh) (drawn (updProt (fun p => { p with resync := true }) s))
  (s1.fwd.flows.filter (·.mirror)).foldl (fun s f => mirrorFlow false f s) s1

/-- A standby is in sync at the first downbeat after its resynchronisation (R474): STANDBY, or WTR with its timer for a revertive HOME. -/
def syncAtDownbeat (s : State) : State :=
  if s.prot.state = 3 && s.prot.resync then
    if isHome s && isRevertive s && !lockedOut s then
      updProt (fun p => { p with state := 5, since := s.elapsed, inSync := true, resync := false,
                                 wtrAt := some (s.elapsed + p.wtr * 60000000000) }) s
    else updProt (fun p => { p with state := 4, since := s.elapsed, inSync := true, resync := false }) s
  else s

/-- A standby falls out of sync. -/
def outOfSync (s : State) : State :=
  if s.prot.state = 4 || s.prot.state = 5 then updProt (fun p => { p with state := 3, since := s.elapsed, inSync := false, wtrAt := none }) s else s

/-- A mirrored message of a standby comes in turn: its number follows the last applied one; a resynchronisation starts the count. -/
def mirrorInTurn (seq : Nat) (starts : Bool) (s : State) : Bool := standsBy s && (starts || seq = (s.prot.mirrorApplied + 1) % 4294967296)

/-- Acknowledge the highest number applied without a gap. -/
def sendMirrorAck (s : State) : State := flood 0x43 (peerPosition s) (be 4 s.prot.mirrorApplied) s

/-- Number and acknowledge an applied change. -/
def mirrorDone (seq : Nat) (s : State) : State := sendMirrorAck (updProt (fun p => { p with mirrorApplied := seq }) s)

/-- Apply a mirrored context (R473): PACKETS, BYTES and LAST stay the standby's own; those of a context that it did not hold start at zero
and at this instant (log 77). -/
def applyMirrorFlow (delete : Bool) (b : List Byte) (s : State) : State :=
  let t := rd b 0 1 % 16
  let g := ctxOf t b
  match findFlow t g.key s with
  | some f => if delete then dropFlow f s else updFlow t f.key (fun f => rewriteCtx f { g with packets := f.packets, bytes := f.bytes, last := f.last }) s
  | none =>
    if delete then s
    else match flowTable t s with
      | none => s
      | some ft =>
        let bk := flowBucketOf t ft g.key
        match freeSlot (occupants t bk s) with
        | some slot => storeFlow { g with bucket := bk, slot := slot, packets := 0, bytes := 0, last := tempoAt (secOf s.tempo.now) (nsOf s.tempo.now) } s
        | none => s

/-- `MIRROR_FLOW` (R473). -/
def execMirrorFlow (port : Nat) (msg : List Byte) (s : State) : Res :=
  .next (match crlReceive port 0x42 msg s with
    | (none, s1) => s1
    | (some m, s1) =>
      let seq := rdBe m.payload 0 4
      if mirrorInTurn seq false s1 then mirrorDone seq (applyMirrorFlow (rdBe m.payload 4 1 == 1) (slice m.payload 8 128) s1)
      else if standsBy s1 then sendMirrorAck s1 else s1)

/-- A number is covered by an acknowledgement. -/
def covered (ack seq : Nat) : Bool := (ack + 4294967296 - seq) % 4294967296 < 2147483648

/-- `MIRROR_ACK` (R471): what it covers is done. -/
def execMirrorAck (port : Nat) (msg : List Byte) (s : State) : Res :=
  .next (match crlReceive port 0x43 msg s with
    | (none, s1) => s1
    | (some m, s1) =>
      if s1.prot.state != 6 then s1
      else
        let ack := rdBe m.payload 0 4
        let mine := s1.prot.mirrorHeld.filter (fun h => covered ack h.1)
        let s2 := updProt (fun p => { p with
          mirrorAcked := ack, mirrorQueue := p.mirrorQueue.filter (fun q => !covered ack q),
          mirrorHeld := p.mirrorHeld.filter (fun h => !covered ack h.1) }) s1
        let s3 := mine.foldl (fun s h => postMirrored h s) s2
        (s3.mgmt.running.filter (fun r => match r.waits with
          | .mirror q => covered ack q
          | _ => false)).foldl (fun s r => finishMirrored r s) s3)

/-! ### Beats (R475, R478, R480) -/

/-- An ACTIVE member times its peer's wait to restore from the first beat that shows WTR, and ends no later than the peer by the 10 ms of
the beat (R476, R479, log 76). -/
def followWtr (st : Nat) (s : State) : State :=
  updProt (fun p => { p with
    wtrAt := if st = 5 then some (p.wtrAt.getD (s.elapsed + p.wtr * 60000000000 - 10000000)) else none }) s

/-- An ACTIVE member takes its peer's state: a standby in sync is mirrored to, one out of sync resynchronised (R474). -/
def activeSees (st : Nat) (s : State) : State :=
  if st = 4 || st = 5 then
    if s.prot.peerSync then s
    else if s.prot.resync then updProt (fun p => { p with peerSync := true, resync := false }) s
    else sendResync s
  else
    let s1 := if s.prot.peerSync then releaseMirror (updProt (fun p => { p with peerSync := false }) s) else s
    if st = 3 && !s1.prot.resync then sendResync s1 else s1

/-- Both members show ACTIVE: the one with the later ACTIVE_SINCE yields, the HOME member keeps a tie (R478). -/
def dualActive (b : List Byte) (s : State) : State :=
  let theirs := readTs b 32
  let s1 := switchedOver (raiseEvent Ev.protectDualActive s.prot.pair 0 s.prot.peerSerial s)
  if theirs < s1.prot.activeSince || (theirs = s1.prot.activeSince && !isHome s1) then
    let s2 := standDown (updProt (fun p => { p with
      state := 3, since := s1.elapsed, lastCause := 5, lastSwitch := s1.tempo.now, peerSync := false, resync := false }) s1)
    releaseMirror (raiseEvent Ev.protectSwitch s2.prot.pair 5 s2.prot.peerSerial s2)
  else s1

/-- The peer's PAIR_BEAT moves the member (Table 13-6). -/
def peerBeat (b : List Byte) (s : State) : State :=
  let s1 := updProt (fun p => { p with peerAt := some s.elapsed, peerBeat := b }) s
  let theirs := rdBe b 1 1
  let st := s1.prot.state
  if st = 2 then if agrees b s1 then protTo 1 s1 else s1
  else if st = 0 || st = 7 then s1
  else if !agrees b s1 then protEvent (releaseMirror (protTo 2 (updProt (fun p => { p with inSync := false, peerSync := false, wtrAt := none, switching := none }) s1)))
  else if st = 1 then
    if theirs = 6 then protTo 3 (updProt (fun p => { p with inSync := false, resync := false }) (if s1.prot.hold then s1 else standDown s1))
    else if isHome s1 then startActive s1
    else s1
  else if st = 6 then if theirs = 6 then dualActive b s1 else activeSees theirs (followWtr theirs s1)
  else
    let s2 := if theirs = 6 then switchedOver s1 else s1
    let s3 := if st = 5 && lockedOut s2 then protTo 4 (updProt (fun p => { p with wtrAt := none }) s2) else s2
    if bit (rdBe b 2 1) 1 == 1 && maySwitch s3 then triggerSwitch 1 s3 else s3

/-- `PAIR_BEAT` on a carillon port or on the bus. -/
def execPairBeat (bus : Bool) (port : Nat) (msg : List Byte) (s : State) : Res :=
  .next (match (if bus then busReceive 0x40 msg s else crlReceive port 0x40 msg s) with
    | (none, s1) => s1
    | (some m, s1) => if s1.prot.state != 0 && rdBe m.payload 4 8 = s1.prot.peerSerial then peerBeat m.payload s1 else s1)

/-- Put a pair's settings in force: flags, WTR, peer and PORT_MASK. -/
def pairNow (c : Nat × Nat × Nat × Nat) (s : State) : State :=
  updProt (fun p => { p with flags := c.1, wtr := c.2.1, peerSerial := c.2.2.1, portMask := c.2.2.2, next := none }) s

/-- Changed settings of a pair in place take effect with its next PAIR_BEAT (Table 13-8): a hold follows them. -/
def applyPair (s : State) : State :=
  match s.prot.next with
  | none => s
  | some c => if s.prot.hold then enterHold (pairNow c (leaveHold s)) else pairNow c s

/-- `PAIR_BEAT_SEND`: every 10 ms on both paths (R475). -/
def execPairBeatSend (s : State) : Res :=
  .next (if s.prot.state = 0 || s.crl.parked || 5 ≤ s.pwr.level || s.mgmt.rom then s
    else
      let s1 := applyPair (advanceTo ((s.elapsed / 10000000 + 1) * 10000000) s)
      let b := pairBeatOf s1
      busSend 0x40 0xFF b (flood 0x40 0xFF b (updProt (fun p => { p with ownBeat := b }) s1)))

/-- `PEER_LOST`: no PAIR_BEAT for 30 ms on either path (R475, R480). -/
def execPeerLost (s : State) : Res :=
  .next (match s.prot.peerAt with
    | none => s
    | some t =>
      let s1 := updProt (fun p => { p with peerAt := none }) (advanceTo (t + 30000000) s)
      if s1.prot.state = 6 then releaseMirror (updProt (fun p => { p with peerSync := false, resync := false, wtrAt := none }) s1)
      else if maySwitch s1 then takeOver 0 s1
      else if standsBy s1 then
        protEvent (protTo 1 (updProt (fun p => { p with inSync := false, wtrAt := none, switching := none, resync := false }) s1))
      else if s1.prot.state = 1 then protTo 1 s1
      else s1)

/-- `PAIRING_TIMEOUT`: no peer for 3 s at the HOME member, 10 s at the other (Table 13-6). -/
def execPairingTimeout (s : State) : Res :=
  .next (if s.prot.state = 1 && s.prot.peerAt.isNone then
      startActive (advanceTo (s.prot.since + (if isHome s then 3000000000 else 10000000000)) s)
    else s)

/-! ### Commands (Table 13-8) -/

/-- Reserved and out-of-range parameters of `protect.pair.set`. -/
def pairSetBad (h : HeldCmd) : Bool :=
  3 < par h 0 1 || bits (par h 1 1) 7 4 != 0 || 1 < bits (par h 1 1) 3 2 || 60 < par h 2 2 || !parZero h 4 4 ||
  !parZero h 26 6

/-- The settings of a `protect.pair.set`: flags, WTR with its default of 5 (log 34), peer and PORT_MASK. -/
def pairSettings (h : HeldCmd) : Nat × Nat × Nat × Nat :=
  (par h 1 1, if par h 2 2 = 0 then 5 else par h 2 2, par h 8 8, par h 16 10)

/-- `protect.pair.set`: a pair in place changes at the next PAIR_BEAT. -/
def protectPairSet (h : HeldCmd) (s : State) : Verdict :=
  if pairSetBad h then .refuse St.invalidParam
  else if s.prot.state != 0 && s.prot.pair != par h 0 1 then .refuse St.protectMember
  else if !isMember s then .refuse St.carillonBusy
  else
    if s.prot.state = 0 then
      let s1 := pairNow (pairSettings h) (updProt (fun p => { p with pair := par h 0 1 }) s)
      let s2 := protTo 1 (updProt (fun p => { p with
        inSync := false, lockout := false, peerAt := none, peerBeat := [], wtrAt := none, switching := none, resync := false }) s1)
      .done St.ok [] (if forwarding s2 then s2 else enterHold s2)
    else .done St.ok [] (updProt (fun p => { p with next := some (pairSettings h) }) s)

def specProtectPairSet : CmdSpec := ⟨32, .effect, protectPairSet⟩
def execProtectPairSet (c : Cmd) (s : State) : Res := runCmd 0x0B05 specProtectPairSet c s

/-- MODE to OFF (R481). -/
def fabricOff (s : State) : State :=
  let s1 := { s with fab := { s.fab with mode := 0 } }
  lookReach (applyLanes s.fab.planeB (s.fab.mode != 0) s1)

/-- The hold ends with its pair: what it kept in ADMIN_DOWN outside PORT_MASK is released (R470, log 81). -/
def releaseOutside (held : List Nat) (mask : Nat) (s : State) : State :=
  let masked := fun (k : Nat) (s : State) =>
    if 256 ≤ k then (aget s.flexe.groups (k - 256)).any (fun g => g.phys.any (fun p => bit mask p.1 == 1)) else bit mask k == 1
  held.foldl (fun s k => if masked k s then s else itemUp k s) s

/-- `protect.pair.delete` (R481). -/
def protectPairDelete (h : HeldCmd) (s : State) : Verdict :=
  if 3 < par h 0 1 || !parZero h 1 3 then .refuse St.invalidParam
  else if s.prot.state = 0 || s.prot.pair != par h 0 1 then .refuse St.noSuchPair
  else
    let active := s.prot.state = 6
    let mask := s.prot.portMask
    let s1 := releaseMirror { s with prot := State.resetProt }
    .done St.ok [] (if active then s1
      else releaseOutside s.prot.heldItems mask ((List.range 80).foldl (fun s m => if bit mask m = 1 then
        (match phyGroup m s with
          | some g => groupAdminDown g s
          | none => toAdminDown m s) else s) (fabricOff s1)))

def specProtectPairDelete : CmdSpec := ⟨4, .effect, protectPairDelete⟩
def execProtectPairDelete (c : Cmd) (s : State) : Res := runCmd 0x0B06 specProtectPairDelete c s

/-- The standby of the pair is in sync, as either member knows it. -/
def pairInSync (s : State) : Bool := if s.prot.state = 6 then s.prot.peerSync else standsBy s && s.prot.inSync

/-- A switch ordered at either member: the active one moves first. -/
def orderSwitch (cause : Nat) (s : State) : State := if s.prot.state = 6 then stepDown cause s else triggerSwitch cause s

/-- `protect.switch`. -/
def protectSwitch (h : HeldCmd) (s : State) : Verdict :=
  let a := par h 1 1
  if 3 < par h 0 1 || 3 < a || !parZero h 2 2 then .refuse St.invalidParam
  else if s.prot.state = 0 || s.prot.pair != par h 0 1 then .refuse St.noSuchPair
  else if a = 2 then
    let s1 := updProt (fun p => { p with lockout := true, wtrAt := none }) s
    .done St.ok [] (if s1.prot.state = 5 then protTo 4 s1 else s1)
  else if a = 3 then .done St.ok [] (updProt (fun p => { p with lockout := false }) s)
  else if a = 0 then
    if !pairInSync s then .refuse St.protectNotSync
    else if lockedOut s then .refuse St.protectLockout
    else .wait (.switchOver 0) [] (orderSwitch 2 s)
  else if s.prot.state = 6 || standsBy s then .wait (.switchOver 1) [] (orderSwitch 3 s)
  else .refuse St.protectNotSync

def specProtectSwitch : CmdSpec := ⟨4, .effect, protectSwitch⟩
def execProtectSwitch (c : Cmd) (s : State) : Res := runCmd 0x0B07 specProtectSwitch c s

/-- Seconds of the wait-to-restore timer left. -/
def wtrLeft (s : State) : Nat :=
  match s.prot.wtrAt with
  | some t => (t - s.elapsed) / 1000000000
  | none => 0

/-- EXPOSED: ACTIVE with no standby in sync (R480). -/
def exposed (s : State) : Bool := s.prot.state == 6 && !s.prot.peerSync

/-- A PAIR_BEAT payload as a response holds it: its numbers least significant byte first (R7). -/
def beatRecord (b : List Byte) : List Byte :=
  slice b 0 4 ++ le 8 (rdBe b 4 8) ++ le 8 (rdBe b 12 8) ++ slice b 20 10 ++ le 2 (rdBe b 30 2) ++ le 6 (rdBe b 32 6) ++
    le 4 (rdBe b 38 4) ++ zeros 2

/-- `protect.query`. -/
def protectQuery (h : HeldCmd) (s : State) : Verdict :=
  if 3 < par h 0 1 || !parZero h 1 3 then .refuse St.invalidParam
  else if s.prot.state = 0 || s.prot.pair != par h 0 1 then .refuse St.noSuchPair
  else .done St.ok (beatRecord (fit 44 s.prot.ownBeat) ++ beatRecord (fit 44 s.prot.peerBeat) ++ le 4 (wtrLeft s) ++ le 4 s.prot.mirrorQueue.length ++
    le 1 s.prot.lastCause ++ zeros 3 ++ le 6 (secOf s.prot.lastSwitch) ++ le 4 (nsOf s.prot.lastSwitch) ++ zeros 2) s

def specProtectQuery : CmdSpec := ⟨4, .query, protectQuery⟩
def execProtectQuery (c : Cmd) (s : State) : Res := runCmd 0x0B08 specProtectQuery c s

end Sys2Proof.Machine
end

