-- ==== Sys2Proof/Machine/TempoCmds.lean ====
section
/-! DEFINITION. Tempo, its sources and steps (R36 to R45, R407): the Tempo commands, the PPS servo and the TMP registers. -/

namespace Sys2Proof.Machine
open Sys2Proof

/-! ### Registers (Tables 02-3, 02-4) -/

/-- SOURCE and STATE codes of Table 02-4. -/
def sourceCode : TempoSource → Nat
  | .freeRun => 0 | .pps => 1 | .host => 2 | .carillon => 3
def modeCode : TempoMode → Nat
  | .freeRun => 0 | .acquiring => 1 | .locked => 2 | .holdover => 3

/-- STATE: a follower reports the state of the head, which no message gives it: a free value (log 18). -/
def tempoState (s : State) : Nat :=
  if s.tempo.source == .carillon then unstatedAt 24 s % 4 else modeCode s.tempo.mode

/-- COMMIT_PHASE: the outstanding commit of the lowest target. -/
def commitPhase (s : State) : Nat :=
  let low := s.commits.foldl (fun (b : Option Commit) c => match b with
    | none => some c
    | some x => if c.target < x.target then some c else some x) none
  match low with
  | none => 0
  | some c => match c.phase with
    | .preparing => 1 | .prepared => 1 | .armed => 2 | .switched => 3

/-- A PPS_IN edge was seen within the last 1.5 s. -/
def ppsPresent (s : State) : Bool := s.tempo.lastEdge.any (fun e => s.elapsed ≤ e + 1500000000)

/-- TMP_STATUS. -/
def tmpStatus (s : State) : Nat :=
  b2n s.crl.diverged * 32768 + b2n s.tempo.skewAlarm * 16384 + b2n s.tempo.stepped * 8192 + b2n (ppsPresent s) * 4096 +
  commitPhase s * 256 + sourceCode s.tempo.source * 16 + tempoState s

/-- A TMP register by its offset (Table 02-3). -/
def tmpWord (off : Nat) (s : State) : Nat :=
  match off with
  | 0x00 => fracOf s.tempo.now
  | 0x04 => nsOf s.tempo.now
  | 0x08 => secOf s.tempo.now % 4294967296
  | 0x0C => secOf s.tempo.now / 4294967296 % 65536
  | 0x10 => tmpStatus s
  | 0x18 => s.tempo.lastDownbeat % 4294967296
  | 0x1C => s.tempo.lastDownbeat / 4294967296 % 4294967296
  | 0x20 => s.tempo.epoch % 4294967296
  | 0x24 => s.tempo.epoch / 4294967296 % 4294967296
  | 0x28 => s.tempo.cseq
  | 0x2C => s.cfg.grid
  | 0x30 => nsOf s.tempo.ppsTempo
  | 0x34 => secOf s.tempo.ppsTempo % 4294967296
  | 0x38 => secOf s.tempo.ppsTempo / 4294967296 % 65536
  | _ => 0

/-! ### The servo (R39, R40) -/

/-- Set Tempo's own state. -/
def setTempo (f : Tempo → Tempo) (s : State) : State := { s with tempo := f s.tempo }

/-- A follower refuses the Tempo commands (R38). -/
def follower (s : State) : Bool := s.crl.role == .follower

/-- An event of the source in use. -/
def tempoEvent (code : Nat) (s : State) : State := raiseEvent code (sourceCode s.tempo.source) 0 0 s

/-- Enter HOLDOVER: the frequency is held at the average of the last 16 corrections, or at the one in force at the selection (R39). -/
def holdover (s : State) : State :=
  let l := s.tempo.corrections
  let f := if l.isEmpty then s.tempo.freqAtSelect else (l.foldl (· + ·) 0) / (l.length : Int)
  tempoEvent Ev.tempoHoldover (setTempo (fun t => { t with mode := .holdover, freq := f, spacedEdges := 0, stepWaiting := none }) s)

/-- What is slewed at once of a correction in ns: up to 10 µs, in Tempo units (R40). -/
def slewOf (c : Int) : Int := clampInt (-10000) 10000 c * (tuPerNs : Int)

/-- Apply an offset of Tempo from the reference: slewed up to 10 µs; a larger one is stepped in ACQUIRING, and slewed meanwhile (R40, R41). -/
def correctPhase (o : Int) (s : State) : State :=
  setTempo (fun t => { t with
    slew := slewOf (-o), stepWaiting := if 10000 < o.natAbs && t.mode == .acquiring then some (-o) else none }) s

/-- The step that the servo waits for, in ns: what slewing has left of it. The servo steps only in ACQUIRING, and is paused while Teruo
restarts (R39 to R41). -/
def servoStep (s : State) : Int :=
  match s.tempo.stepWaiting with
  | some c => if s.tempo.mode == .acquiring && !s.mgmt.restarting then c - (slewOf c - s.tempo.slew) / (tuPerNs : Int) else 0
  | none => 0

/-- The servo's next frequency, which the spec leaves to it: a free value within ±200 ppm (R40, log 18). -/
def servoFreq (s : State) : Int := clampInt (-maxFreq) maxFreq (signed 32 (unstatedAt 30 s))

/-- A correction of the servo: frequency and phase. -/
def servoCorrect (o : Int) (s : State) : State :=
  let f := servoFreq s
  correctPhase o (setTempo (fun t => { t with freq := f, corrections := (f :: t.corrections).take 16 }) (drawn s))

/-- Signed distance of an instant in ns from the nearest second. -/
def fromSecond (t : Int) : Int := if t % 1000000000 < 500000000 then t % 1000000000 else t % 1000000000 - 1000000000

/-- Offset of Tempo at an edge of timestamp `ts`: from the nearest second, or, while the servo waits for a step, from the second that the
step makes of it, whose value `tempo.tod.set` may have given (R41, R407). -/
def edgeOffset (ts : Nat) (s : State) : Int := fromSecond ((ts : Int) + servoStep s) - servoStep s

/-- The RUNNING `tempo.tod.set` commands decide at an edge (R407). -/
def todEdge (ts : Nat) (s : State) : State :=
  (s.mgmt.running.filter (fun r => match r.waits with
    | .timeOfDay _ => true
    | _ => false)).foldl (fun s r => match r.waits with
      | .timeOfDay sec =>
        let o := (ts : Int) - ((sec * 1000000000 : Nat) : Int)
        finishRunning r St.ok [] true 0 0 (correctPhase o (setTempo (fun t => { t with todGiven := true, ppsOffset := o }) s))
      | _ => s) s

/-- Transitions of Table 02-2 at an edge of offset `o`, `gap` ns after the edge before. -/
def edgeMode (o : Int) (gap : Nat) (s : State) : State :=
  match s.tempo.mode with
  | .acquiring =>
    let n := if s.tempo.todGiven && o.natAbs ≤ 20 then s.tempo.goodEdges + 1 else 0
    if 16 ≤ n then tempoEvent Ev.tempoLocked (setTempo (fun t => { t with mode := .locked, goodEdges := 0, badEdges := 0, stepWaiting := none }) s)
    else setTempo (fun t => { t with goodEdges := n }) s
  | .locked =>
    let n := if 100 < o.natAbs then s.tempo.badEdges + 1 else 0
    if 4 ≤ n then tempoEvent Ev.tempoUnlocked (setTempo (fun t => { t with mode := .acquiring, goodEdges := 0, badEdges := 0 }) s)
    else setTempo (fun t => { t with badEdges := n }) s
  | .holdover =>
    let n := if 999999000 ≤ gap && gap ≤ 1000001000 then s.tempo.spacedEdges + 1 else 1
    if 4 ≤ n then setTempo (fun t => { t with mode := .acquiring, goodEdges := 0, badEdges := 0, spacedEdges := 0 }) s
    else setTempo (fun t => { t with spacedEdges := n }) s
  | .freeRun => s

/-- `PPS_IN_EDGE` with its timestamp in ns from the Tempo epoch (R39, R604); the servo is paused while Teruo restarts. -/
def execPpsInEdge (arrival : Nat) (s : State) : Res :=
  let gap := arrival - s.tempo.ppsTempo / tuPerNs
  let s1 := setTempo (fun t => { t with ppsTempo := arrival * tuPerNs, lastEdge := some s.elapsed }) s
  .next (if s.tempo.source != .pps then s1
    else
      let s2 := setTempo (fun t => { t with lastInput := s.elapsed, ppsOffset := edgeOffset arrival s }) s1
      if s.mgmt.restarting then s2
      else
        let s3 := todEdge arrival s2
        let o := s3.tempo.ppsOffset
        let s4 := if s3.tempo.mode == .acquiring || s3.tempo.mode == .locked then servoCorrect o s3 else s3
        edgeMode o gap s4)

/-- Elapsed instant from which silence of a source counts (R39). -/
def quietSince (s : State) : Nat := max s.tempo.lastInput s.tempo.selectedAt

/-- No input of a source for a span moves ACQUIRING and LOCKED to HOLDOVER (Table 02-2). -/
def silence (src : TempoSource) (span : Nat) (s : State) : State :=
  if s.tempo.source == src && (s.tempo.mode == .acquiring || s.tempo.mode == .locked) && !s.mgmt.restarting then
    holdover (advanceTo (quietSince s + span) s)
  else s

def execPpsLoss (s : State) : Res := .next (silence .pps 1500000000 s)
def execHostAdjustSilence (s : State) : Res := .next (silence .host 10000000000 s)

/-! ### Commands (Table 11-12) -/

/-- Select a source of Table 02-1 (Table 02-2). -/
def selectSource (src : TempoSource) (s : State) : State :=
  if src == .freeRun then
    setTempo (fun t => { t with source := .freeRun, mode := .freeRun, freq := 0, slew := 0, stepWaiting := none, selectedAt := s.elapsed }) s
  else if s.tempo.source == src then s
  else
    let s1 := if s.tempo.mode == .locked then tempoEvent Ev.tempoUnlocked s else s
    setTempo (fun t => { t with source := src, mode := .acquiring, selectedAt := s.elapsed, corrections := [], freqAtSelect := t.freq,
                                todGiven := false, goodEdges := 0, badEdges := 0, spacedEdges := 0, stepWaiting := none }) s1

def tempoSourceSet (h : HeldCmd) (s : State) : Verdict :=
  if 3 ≤ par h 0 1 || !parZero h 1 3 then .refuse St.invalidParam
  else if follower s then .refuse St.tempoFollower
  else .done St.ok [] (selectSource (match par h 0 1 with
    | 0 => .freeRun
    | 1 => .pps
    | _ => .host) s)

def specTempoSourceSet : CmdSpec := ⟨4, .effect, tempoSourceSet⟩
def execTempoSourceSet (c : Cmd) (s : State) : Res := runCmd 0x0A01 specTempoSourceSet c s

def tempoTodSet (h : HeldCmd) (s : State) : Verdict :=
  if par h 6 2 != 0 || (s.tempo.source != .pps && !follower s) then .refuse St.invalidParam
  else if follower s then .refuse St.tempoFollower
  else .wait (.timeOfDay (par h 0 6)) [] s

def specTempoTodSet : CmdSpec := ⟨8, .effect, tempoTodSet⟩
def execTempoTodSet (c : Cmd) (s : State) : Res := runCmd 0x0A02 specTempoTodSet c s

/-- The host servo's correction (Table 02-2, Table 11-12). -/
def hostAdjust (freq phase : Int) (lock : Bool) (s : State) : State :=
  let m := s.tempo.mode
  let s1 := setTempo (fun t => { t with
    freq := freq, slew := t.slew + phase * (tuPerNs : Int), corrections := (freq :: t.corrections).take 16,
    lastInput := s.elapsed, mode := if lock then .locked else .acquiring }) s
  if lock && m != .locked then tempoEvent Ev.tempoLocked s1
  else if !lock && m == .locked then tempoEvent Ev.tempoUnlocked s1 else s1

def tempoAdjust (h : HeldCmd) (s : State) : Verdict :=
  let freq := signed 32 (par h 0 4)
  let phase := signed 32 (par h 4 4)
  if 200000000 < freq.natAbs || 10000 < phase.natAbs || bits (par h 8 1) 7 1 != 0 || !parZero h 9 3 ||
      (s.tempo.source != .host && !follower s) then .refuse St.invalidParam
  else if follower s then .refuse St.tempoFollower
  else .done St.ok [] (hostAdjust freq phase (bit (par h 8 1) 0 == 1) s)

def specTempoAdjust : CmdSpec := ⟨12, .effect, tempoAdjust⟩
def execTempoAdjust (c : Cmd) (s : State) : Res := runCmd 0x0A03 specTempoAdjust c s

/-- RUNNING `tempo.step` commands, in order, with their steps in ns. -/
def waitingSteps (s : State) : List (Running × Int) :=
  s.mgmt.running.filterMap (fun r => match r.waits with
    | .tempoStep d => some (r, d)
    | _ => none)

/-- The sum of the host's waiting steps. -/
def waitingSum (s : State) : Int := (waitingSteps s).foldl (fun n p => n + p.2) 0

/-- A Tempo value in ns that a step may lead to (R41). -/
def stepResultOk (v : Int) : Bool := 0 ≤ v && v < (281474976710656 * 1000000000 : Int)

def tempoStep (h : HeldCmd) (s : State) : Verdict :=
  let sec := signed 64 (par h 0 8)
  let ns := signed 32 (par h 8 4)
  let d := sec * 1000000000 + ns
  let bad := 999999999 < ns.natAbs || (0 < sec && ns < 0) || (sec < 0 && 0 < ns)
  let result := ((s.tempo.nextSecond * 1000000000 : Nat) : Int) + waitingSum s + d
  if bad || (s.tempo.source != .host && !follower s) || !stepResultOk result then .refuse St.invalidParam
  else if follower s then .refuse St.tempoFollower
  else if !s.commits.isEmpty then .refuse St.tempoBusy
  else .wait (.tempoStep d) [] s

def specTempoStep : CmdSpec := ⟨12, .effect, tempoStep⟩
def execTempoStep (c : Cmd) (s : State) : Res := runCmd 0x0A04 specTempoStep c s

/-- `tempo.query`: the TMP registers, the grid, the maximum age and the servo (Table 11-12). -/
def tempoQuery (_ : HeldCmd) (s : State) : Verdict :=
  let regs := (List.range 15).flatMap (fun k => le 4 (tmpWord (4 * k) s))
  .done St.ok (regs ++ le 8 s.tempo.anchor ++ le 8 (s.tempo.anchorAt / 1000000000) ++ le 4 (s.tempo.anchorAt % 1000000000) ++
    le 4 s.cfg.maxAge ++ le 4 (unsignedOf 32 s.tempo.freq) ++ le 4 (unsignedOf 32 s.tempo.ppsOffset)) (drawn s)

def specTempoQuery : CmdSpec := ⟨0, .query, tempoQuery⟩
def execTempoQuery (c : Cmd) (s : State) : Res := runCmd 0x0A05 specTempoQuery c s

def tempoGridSet (h : HeldCmd) (s : State) : Verdict :=
  let p := par h 0 2
  if p = 0 || 400 < p || !parZero h 2 2 then .refuse St.invalidParam
  else if follower s then .refuse St.tempoFollower
  else staged [] (.grid p) s

def specTempoGridSet : CmdSpec := ⟨4, .config, tempoGridSet⟩
def execTempoGridSet (c : Cmd) (s : State) : Res := runCmd 0x0A06 specTempoGridSet c s

def tempoMaxAgeSet (h : HeldCmd) (s : State) : Verdict :=
  let a := par h 0 2
  if a < 10 || 500 < a || !parZero h 2 2 then .refuse St.invalidParam
  else if follower s then .refuse St.tempoFollower
  else staged [] (.maxAge a) s

def specTempoMaxAgeSet : CmdSpec := ⟨4, .config, tempoMaxAgeSet⟩
def execTempoMaxAgeSet (c : Cmd) (s : State) : Res := runCmd 0x0A07 specTempoMaxAgeSet c s

/-! ### A step (R41, R46, R55, R75, R286) -/

/-- First cycle start of a list at or after an instant in ns; cycle starts lie on both sides of BASE (R282). -/
def nextCycle (l : GateList) (t : Nat) : Nat := t + (((l.base : Int) - (t : Int)) % ((max l.cycle 1 : Nat) : Int)).toNat

/-- At a step each gate keeps its state until its list's first cycle start after it (R286); a pending change that is passed over takes the next one. -/
def stepGates (old new : Nat) (g : GateRun) : GateRun :=
  let open' := (gatesAt g old).1
  let after := (new + tuPerNs - 1) / tuPerNs
  let next := fun (l : Option GateList) => (l.map (fun l => nextCycle l after)).getD after
  { g with
    gates := open', startedAt := if g.list.isSome then next g.list else g.startedAt,
    pending := g.pending.map (fun p => if p.1 < after then (next (match p.2 with
      | some l => some l
      | none => g.list), p.2) else p) }

/-- The downbeat numbers that a forward step from `old` passes over: after the last one at or before `old`, below the first one at or after
`ns` (R46). -/
def passedOver (old ns : Nat) (s : State) : Nat × Nat :=
  let p := s.cfg.grid * 250000
  let t := s.tempo
  (if t.anchorAt * tuPerNs ≤ old then t.anchor + (old / tuPerNs - t.anchorAt) / p + 1 else t.anchor, t.anchor + (ns - t.anchorAt + p - 1) / p)

/-- Tempo after a step of `d` ns: what falls at the value before it and has not occurred still occurs, and so does what falls at the value
after it (R46, R75). -/
def steppedTempo (d : Int) (s : State) : Tempo :=
  let t := s.tempo
  let new := ((t.now : Int) + d * (tuPerNs : Int)).toNat
  let ns := (new + tuPerNs - 1) / tuPerNs
  let beat := tempoNs s
  { t with
    now := new, stepped := true, steppedTo := ns, nextSecond := (ns + 999999999) / 1000000000,
    skips := if d < 0 then [] else t.skips ++ [passedOver t.now ns s],
    lastBeat := none,
    beatDue := if 0 ≤ d && beat % 10000000 = 0 && t.lastBeat != some beat then some beat else none }

/-- Toll after a step of `d` ns: the first instant at or after the new value comes next, behind one that fell due before it (R75, R562). -/
def steppedToll (d : Int) (s : State) : Toll :=
  let t := s.toll
  let ns := (((s.tempo.now : Int) + d * (tuPerNs : Int)).toNat + tuPerNs - 1) / tuPerNs
  let first := (ns + t.period * 1000000 - 1) / (t.period * 1000000) * (t.period * 1000000)
  let due := decide (0 ≤ d ∧ t.next * tuPerNs ≤ s.tempo.now)
  { t with stepNs := t.stepNs + d, stepped := true, next := if due then t.next else first, resumeAt := if d < 0 then 0 else first }

/-- Move Tempo by a step of `d` ns. -/
def stepTempo (d : Int) (s : State) : State :=
  let s0 := settleShapers s
  let old := s0.tempo.now
  let s1 := setTempo (fun _ => steppedTempo d s0) s0
  let new := s1.tempo.now
  let s2 := { s1 with
    quar := if d < 0 then s1.quar.map (fun m => (m.1, { m.2 with postponed := m.2.postponed + d.natAbs })) else s1.quar,
    toll := steppedToll d s0,
    sched := { s1.sched with gates := s1.sched.gates.map (fun g => (g.1, stepGates old new g.2)) } }
  raiseEvent Ev.tempoStepped 0 0 (unsignedOf 64 d) s2


/-- Apply the waiting steps at a second boundary when no commit is outstanding (R41): none while Teruo restarts, and the servo's never one
whose result the rule excludes. -/
def applySteps (s : State) : State :=
  let host := waitingSum s
  let servo := if stepResultOk ((tempoNs s : Int) + host + servoStep s) then servoStep s else 0
  let d := host + servo
  if !s.commits.isEmpty || s.mgmt.restarting || !stepResultOk ((tempoNs s : Int) + d) then s
  else if (waitingSteps s).isEmpty && servo = 0 then s
  else
    let s1 := (waitingSteps s).foldl (fun s p => finishRunning p.1 St.ok [] true 0 0 s) (stepTempo d s)
    if servo = 0 then s1 else setTempo (fun t => { t with stepWaiting := none, slew := 0 }) s1

end Sys2Proof.Machine
end

