-- ==== Sys2Proof/Machine/Carillon.lean ====
section
/-! DEFINITION. The carillon (R443 to R460): heartbeats and neighbours, elections and positions, members. -/

namespace Sys2Proof.Machine
open Sys2Proof

/-- Change the carillon side. -/
def updCrl (f : Carillon → Carillon) (s : State) : State := { s with crl := f s.crl }

/-! ### What the package says of itself -/

/-- MEMBER payload (Table 13-2). -/
def memberPayload (s : State) : List Byte :=
  be 8 s.glb.serial ++ be 1 s.crl.position ++ be 1 s.pwr.level ++ be 1 s.prot.state ++
  be 1 (b2n s.mgmt.restarting + b2n (fatalFlag s) * 2) ++ be 4 (runVersion s)

/-- Flood MEMBER, and keep the own record. -/
def sendMember (s : State) : State :=
  if isMember s then
    let p := memberPayload s
    flood 0x05 0xFF p (updCrl (fun c => { c with members := aset c.members c.position p }) s)
  else s

/-- HEARTBEAT payload for a port (Table 13-3). -/
def heartbeatPayload (p : Nat) (s : State) : List Byte :=
  let c := s.crl
  be 8 s.glb.serial ++ be 8 c.headSerial ++ be 2 c.term ++ be 1 (ownSrc s) ++
  be 1 (p % 2 + b2n s.mgmt.restarting * 2 + b2n (fatalFlag s) * 4 + b2n (c.role == .head) * 8 + b2n (c.role == .excluded) * 16) ++
  be 4 s.tempo.cseq ++ be 1 s.pwr.level ++ be 1 s.prot.state ++ zeros 2 ++ ts10 (tempoNs s) ++ ts10 (crlPort p s).echoTs ++
  ts10 (crlPort p s).echoRx ++ zeros 2

/-- HEAD_BEACON payload. -/
def beaconPayload (s : State) : List Byte :=
  be 8 s.glb.serial ++ be 2 s.crl.term ++ zeros 2 ++ be 4 s.crl.beat ++ be 4 s.tempo.cseq ++ be 1 s.crl.members.length ++
  be 1 (b2n s.crl.ring) ++ zeros 2

/-- Send a heartbeat out of a port whose PCS is aligned (R450). -/
def heartbeatOut (p : Nat) (s : State) : State :=
  if (crlPort p s).pcs then crlOut p (ownMsg 0x01 0xFF s.crl.msgId (heartbeatPayload p s) s) (nextMsg s) else s

/-- The multiple of 10 ms of Tempo at which heartbeats are sent next: one that fell due before a step, the present one where none was sent
at it, or the one after (R75). -/
def beatInstant (s : State) : Nat :=
  match s.tempo.beatDue with
  | some b => b
  | none =>
    if tempoNs s % 10000000 = 0 && s.tempo.lastBeat != some (tempoNs s) then tempoNs s
    else (tempoNs s / 10000000 + 1) * 10000000

/-! ### Elections (R453, R454) -/

/-- The better of two claims (R453). -/
def better (a b : Claim) : Bool :=
  if a.upEnd != b.upEnd then a.upEnd
  else if a.incumbent != b.incumbent then a.incumbent
  else if a.priority != b.priority then b.priority < a.priority
  else a.serial < b.serial

/-- The package's own claim. -/
def ownClaim (s : State) : Claim :=
  { term := s.crl.term, upEnd := s.crl.up.neighbour.isNone, incumbent := s.crl.incumbent, priority := s.crl.priority,
    serial := s.glb.serial }

/-- CLAIM payload. -/
def claimPayload (c : Claim) : List Byte :=
  be 2 c.term ++ be 1 (b2n c.upEnd + b2n c.incumbent * 2) ++ be 1 c.priority ++ be 8 c.serial

/-- Send a claim on both ports; none during a management restart. -/
def sendClaim (c : Claim) (s : State) : State :=
  if s.mgmt.restarting then s else crlNeighbour 1 0x03 (claimPayload c) (crlNeighbour 0 0x03 (claimPayload c) s)

/-- Begin an election term with the own claim; during a management restart the package does not claim. -/
def claimTerm (t : Nat) (s : State) : State :=
  let s1 := updCrl (fun c => { c with term := t % 65536, highestTerm := max c.highestTerm (t % 65536) }) s
  let c := ownClaim s1
  sendClaim c (updCrl (fun x => { x with best := if s1.mgmt.restarting then none else some c, settleAt := s1.elapsed + 20000000, electionAt := s1.elapsed }) s1)

/-- Commands relayed to other packages end TARGET_UNREACHABLE (R457). -/
def dropRelays (s : State) : State :=
  (s.mgmt.running.filter (fun r => match r.waits with
    | .relay _ _ => true
    | _ => false)).foldl (fun s r => finishRunning r St.targetUnreachable [] false 0 0 s) (updCrl (fun c => { c with relaySent := [] }) s)

/-- Response of `fw.distribute`: each position's code, 0xFF for a member that was lost (R500). -/
def distResponse (d : Distribution) : List Byte := (List.range 8).flatMap (fun p => le 1 (agetD d.results p 0))

/-- A distribution ends: OK only when every member reached VERIFIED; the spec names no other status: a free value of place 36 (log 18). -/
def endDistribution (s : State) : State :=
  match s.fw.dist with
  | none => s
  | some d =>
    let bad := (avals d.results).any (· != 0)
    let st := if bad then 1 + unstatedAt 36 s % 65535 else St.ok
    finishWaiting (fun w => w == .distribute) st (fun _ => if d.neighbour.isSome then [] else distResponse d) (st == St.ok) 0 0
      (drawn { s with fw := { s.fw with dist := none } })

/-- Members of a distribution that have not reported are lost (R500). -/
def loseMembers (s : State) : State :=
  match s.fw.dist with
  | none => s
  | some d =>
    if d.neighbour.isSome then s
    else
      let gone := (List.range 8).filter (fun p => bit d.positions p == 1 && !ahas d.results p)
      endDistribution { s with fw := { s.fw with dist := some { d with results := gone.foldl (fun r p => aset r p 0xFF) d.results } } }

/-- A carillon activation schedule stops: its command ends with the packages done (R502), but in a restart only after it (R397); a stop before the last one has a status
the spec does not name: a free value of place 37 (log 18). -/
def endSchedule (s : State) : State :=
  match s.fw.schedule with
  | none => s
  | some d =>
    if s.mgmt.restarting then s else
    let st := if d.todo.isEmpty && d.active.isEmpty && !d.stopped then St.ok else 1 + unstatedAt 37 s % 65535
    finishWaiting (fun w => w == .activate) st (fun _ => le 4 d.done.length) true 0 d.done.length (drawn { s with fw := { s.fw with schedule := none } })

/-- The schedule stops at a package (R502). -/
def stopSchedule (pos st : Nat) (s : State) : State :=
  match s.fw.schedule with
  | none => s
  | some d => endSchedule (raiseEvent Ev.fwCarillonStep pos st d.version
      { s with fw := { s.fw with schedule := some { d with stopped := true } } })

/-- The schedule stops 600 s after a package that is not done (R502). -/
def scheduleLate (s : State) : State :=
  match s.fw.schedule with
  | some d =>
    match d.active.find? (fun a => a.1 != 0 && a.2 + 600000000000 ≤ s.elapsed) with
    | some a => stopSchedule a.1 St.timedOut s
    | none => s
  | none => s

/-- `HEARTBEAT_SEND`: at the next multiple of 10 ms of Tempo; a head floods its beacon (R450, R452), and its schedule stops at a package that
is late (R502). -/
def execHeartbeatSend (s : State) : Res :=
  .next (if !s.crl.enable || s.crl.parked || 5 ≤ s.pwr.level || s.mgmt.rom then s
    else
      let b := beatInstant s
      let s1 := setTempo (fun t => { t with lastBeat := some b, beatDue := none }) (advanceTempo (b * tuPerNs) s)
      let s2 := scheduleLate (heartbeatOut 1 (heartbeatOut 0 s1))
      if s2.crl.role == .head then
        let s3 := updCrl (fun c => { c with beat := (c.beat + 1) % 4294967296 }) s2
        flood 0x02 0xFF (beaconPayload s3) s3
      else s2)

/-- Enter ELECTING: a new term with the own claim; what needed the carillon ends (R454, R457). -/
def enterElecting (s : State) : State :=
  let was := s.crl.role == .head
  let s1 := updCrl (fun c => { c with
    role := .electing, headSerial := 0, ring := false, incumbent := was, peersDiverged := 0 }) (endSchedule (loseMembers s))
  claimTerm (s.crl.highestTerm + 1) (dropRelays (dropUnarmed s1))

/-- Leave the carillon's time: a source other than CARILLON stays, CARILLON becomes FREE_RUN (log 23). -/
def leaveCarillonTime (s : State) : State := if s.tempo.source == .carillon then selectSource .freeRun s else s

/-- An epoch that differs from the head's (R69). -/
def compareCseq (head : Nat) (s : State) : State :=
  let s1 := updCrl (fun c => { c with headCseq := head, diverged := s.tempo.cseq != head }) s
  if s.tempo.cseq != head && !s.crl.diverged then raiseEvent Ev.epochDiverged 0 s.tempo.cseq head s1 else s1

/-- POSITION payload. -/
def positionPayload (hops : Nat) (s : State) : List Byte := be 2 s.crl.term ++ be 1 hops ++ zeros 1 ++ be 8 s.crl.headSerial

/-- Send POSITION down; an EXCLUDED neighbour gets one that gives it a position of 7 or less (R455, log 74). -/
def positionDown (hops : Nat) (s : State) : State :=
  if 6 < hops && s.crl.down.neighbour.any (·.excluded) then s else crlNeighbour 1 0x04 (positionPayload hops s) s

/-- The own claim has won: HEAD. -/
def becomeHead (s : State) : State :=
  let s1 := leaveCarillonTime (updCrl (fun c => { c with
    role := .head, position := 0, headSerial := s.glb.serial, best := none, incumbent := false, members := [], diverged := false }) s)
  let s2 := positionDown 0 s1
  raiseEvent Ev.carillonHead 0 s2.crl.term s2.crl.headSerial (sendMember s2)

/-- `ELECTION_SETTLE` (Table 13-4). -/
def execElectionSettle (s : State) : Res :=
  .next (if s.crl.role != .electing || s.mgmt.restarting then s
    else
      let s1 := advanceTo s.crl.settleAt s
      if s1.crl.best.any (fun c => c.serial == s1.glb.serial) then becomeHead s1 else s1)

/-- `ELECTION_RETRY`: 100 ms without POSITION (Table 13-4). -/
def execElectionRetry (s : State) : Res :=
  .next (if s.crl.role != .electing || s.mgmt.restarting then s
    else claimTerm (s.crl.term + 1) (advanceTo (s.crl.electionAt + 100000000) s))

/-- Note a TERM seen. -/
def seenTerm (t : Nat) (s : State) : State := updCrl (fun c => { c with highestTerm := max c.highestTerm t }) s

/-- A claim received (Table 13-4): a higher TERM or a better claim is taken, and the best one is sent on. -/
def onClaim (m : Msg) (s : State) : State :=
  let f := rdBe m.payload 2 1
  let c : Claim := { term := rdBe m.payload 0 2, upEnd := bit f 0 == 1, incumbent := bit f 1 == 1, priority := rdBe m.payload 3 1,
                     serial := rdBe m.payload 4 8 }
  let s1 := seenTerm c.term s
  if s1.crl.role != .electing || c.term < s1.crl.term then s1
  else
    let beats := s1.crl.best.all (fun held => better c held)
    if s1.crl.term < c.term || beats then
      let best := { (if beats then c else s1.crl.best.getD c) with term := c.term }
      sendClaim best (updCrl (fun x => { x with term := c.term, best := some best, settleAt := s1.elapsed + 20000000 }) s1)
    else s1

def execClaim (port : Nat) (msg : List Byte) (s : State) : Res :=
  .next (match crlReceive port 0x03 msg s with
    | (none, s1) => s1
    | (some m, s1) => onClaim m s1)

/-- A position assigned: FOLLOWER (Table 13-4). -/
def becomeFollower (hops head : Nat) (s : State) : State :=
  let s1 := selectSource .carillon (updCrl (fun c => { c with
    role := .follower, position := hops + 1, headSerial := head, best := none, incumbent := false, members := [], lastBeacon := s.elapsed, beaconPort := 0 }) s)
  let s2 := sendMember (positionDown (hops + 1) s1)
  raiseEvent Ev.carillonHead s2.crl.position s2.crl.term head s2

/-- POSITION arrives on the up port (Table 13-4, R455). -/
def onPosition (m : Msg) (s : State) : State :=
  let t := rdBe m.payload 0 2
  let hops := rdBe m.payload 2 1
  let head := rdBe m.payload 4 8
  let s1 := seenTerm t s
  if s1.mgmt.restarting then s1
  else match s1.crl.role with
    | .electing =>
      if t != s1.crl.term then s1
      else if hops ≤ 6 then becomeFollower hops head s1
      else raiseEvent Ev.carillonExcluded 0 t head (leaveCarillonTime (updCrl (fun c => { c with
        role := .excluded, headSerial := head, best := none, members := [], diverged := false }) s1))
    | .excluded => if s1.crl.term < t && hops ≤ 6 then becomeFollower hops head (updCrl (fun c => { c with term := t }) s1) else s1
    | .head =>
      if t = s1.crl.term then raiseEvent Ev.carillonRing 1 s1.crl.members.length 0 (updCrl (fun c => { c with ring := true }) s1) else s1
    | _ => s1

def execPosition (port : Nat) (msg : List Byte) (s : State) : Res :=
  .next (if port != 0 then s
    else match crlReceive port 0x04 msg s with
      | (none, s1) => s1
      | (some m, s1) => onPosition m s1)

/-! ### Heartbeats received (R38, R451) -/

/-- The port of the neighbour nearer the head (R37, R38): the one left where a neighbour is lost; in a ring the one with fewer hops; in a
chain, and in a ring that has opened, the one over which the head's beacons come. -/
def sourcePort (s : State) : Nat :=
  let n := s.crl.members.length
  if s.crl.up.neighbour.isNone then 1
  else if s.crl.down.neighbour.isNone then 0
  else if !s.crl.ring then s.crl.beaconPort
  else if s.crl.position ≤ n - s.crl.position then 0 else 1

/-- A two-way exchange of a heartbeat: alarm above 20 ns, and a slew (R38). -/
def exchange (port tx echoTs echoRx : Nat) (s : State) : State :=
  let back : Int := (echoRx : Int) - (echoTs : Int)
  let ahead : Int := (tempoNs s : Int) - (tx : Int)
  let o : Int := (back - ahead) / 2
  let alarm := 20 < o.natAbs
  let s1 := correctPhase (-o) (setTempo (fun t => { t with skewAlarm := alarm })
    (updCrlPort port (fun p => { p with delay := some ((back + ahead) / 2).toNat }) s))
  if alarm && !s.tempo.skewAlarm then raiseEvent Ev.tempoSkew 0 (unsignedOf 32 o) 0 s1 else s1

/-- What a follower's Tempo lacks of its source neighbour's, in ns, by a heartbeat's TX_TS and the link's delay. -/
def sourceLead (port tx : Nat) (s : State) : Int :=
  match (crlPort port s).delay with
  | some d => ((tx + d : Nat) : Int) - (tempoNs s : Int)
  | none => 0

/-- A follower takes time from its source neighbour (R38): where the neighbour's Tempo has stepped, it steps with it (R41, log 53); otherwise
the exchange corrects it, unless a step lies within the exchange. -/
def followNeighbour (port tx echoTs echoRx : Nat) (s : State) : State :=
  if s.crl.role != .follower || port != sourcePort s then s
  else
    let lead := sourceLead port tx s
    if 10000 < lead.natAbs && s.commits.isEmpty && stepResultOk ((tempoNs s : Int) + lead) then stepTempo lead s
    else if echoTs = 0 || echoTs < s.tempo.steppedTo || tempoNs s < echoTs then s
    else exchange port tx echoTs echoRx s

/-- A heartbeat's place in the election: its TERM is higher, or its HEAD_SERIAL differs (Table 13-4). -/
def heartbeatElects (term head flags : Nat) (s : State) : Bool :=
  (s.crl.role == .follower || s.crl.role == .head) && bit flags 4 == 0 && (s.crl.term < term || head != s.crl.headSerial)

/-- A consistent heartbeat (R451). -/
def onHeartbeat (port : Nat) (m : Msg) (s : State) : State :=
  let b := m.payload
  let serial := rdBe b 0 8
  let flags := rdBe b 19 1
  let gained := (crlPort port s).neighbour.isNone
  let nb : Neighbour := { serial := serial, position := rdBe b 18 1, seenAt := s.elapsed, excluded := bit flags 4 == 1 }
  let s1 := updCrlPort port (fun p => { p with
    neighbour := some nb, miswire := false, echoTs := readTs b 28, echoRx := tempoNs s, delay := if gained then none else p.delay }) (seenTerm (rdBe b 16 2) s)
  let s2 := if gained then raiseEvent Ev.carillonNeighbour port 1 serial (tally (ctrId 8 0 1) s1) else s1
  let s3 := followNeighbour port (readTs b 28) (readTs b 38) (readTs b 48) s2
  let p := nb.position
  let s4 := if s3.crl.role == .head && p < 8 then
      updCrl (fun c => { c with
        peersDiverged := c.peersDiverged - bit c.peersDiverged p * 2 ^ p + b2n (rdBe b 20 4 != s3.tempo.cseq) * 2 ^ p }) s3
    else s3
  let s5 := if bit flags 2 == 1 && serial = s4.prot.peerSerial && maySwitch s4 then triggerSwitch 1 s4 else s4
  if (gained && (s5.crl.role == .follower || s5.crl.role == .head)) || heartbeatElects (rdBe b 16 2) (rdBe b 8 8) flags s5 then
    enterElecting s5
  else s5

/-- A heartbeat that is not consistent sets MISWIRE; the first is reported (R451). -/
def miswired (port : Nat) (m : Msg) (s : State) : State :=
  let first := !(crlPort port s).miswire
  let s1 := updCrlPort port (fun p => { p with miswire := true }) s
  if first then raiseEvent Ev.carillonMiswire port m.cid (rdBe m.payload 0 8) s1 else s1

/-- `HEARTBEAT` (R451); a foreign CARILLON_ID is discarded and counted too (R448). -/
def execHeartbeat (port : Nat) (msg : List Byte) (s : State) : Res :=
  .next (
    let m := msgOf msg
    if !s.crl.enable || s.mgmt.rom || !fcsGood msg || rdBe msg 12 2 != 0x88B5 then s
    else
      let s1 := updCrlPort port (fun p => { p with pcs := true }) s
      let s2 := if msgRefused 0 msg s1 then tally (ctrId 8 0 0) s1 else s1
      if m.version != 1 || m.domain != 0 || m.typ != 1 || msg.length < 38 + m.length then s2
      else if m.cid != s2.crl.cid || (bit (rdBe m.payload 19 1) 0 == 1) != (port == 0) then miswired port m s2
      else onHeartbeat port m s2)

/-- Send the chunks of STAGING from an offset out of a port, in offset order. -/
def sendChunks : Nat → Nat → Nat → Nat → Nat → State → State
  | 0, _, _, _, _, s => s
  | fuel + 1, port, transfer, total, off, s =>
    if total ≤ off then s
    else
      let d := flashRead (slotBase 2 + off) (min 1024 (total - off)) s
      let p := be 4 transfer ++ be 4 off ++ be 4 total ++ be 4 (crc32c d) ++ d
      let s1 := if (crlPort port s).pcs && !(crlPort port s).miswire then crlOut port (ownMsg 0x30 0xFF s.crl.msgId p s) (nextMsg s) else s
      sendChunks fuel port transfer total (off + 1024) s1

/-- Bytes of the STAGING image. -/
def stageLength (s : State) : Nat := rd (updRec s) 28 4

/-- Send from an offset: to the neighbour that is fed; otherwise down, and in a ring that has opened up as well, to the packages that are
out of reach downward (R460). -/
def distributeFrom (off : Nat) (s : State) : State :=
  match s.fw.dist with
  | none => s
  | some d =>
    let send := fun port s => sendChunks 16385 port d.transfer (stageLength s) off s
    match d.neighbour with
    | some p => send p s
    | none =>
      let s1 := send 1 s
      if !s.crl.ring && s.crl.up.neighbour.isSome then send 0 s1 else s1

/-- A ring that opens during a distribution: what the member that holds least still lacks is sent again (R460). -/
def distributeOpen (s : State) : State :=
  match s.fw.dist with
  | none => s
  | some d =>
    let left := (List.range 8).filter (fun p => p != 0 && bit d.positions p == 1)
    if s.mgmt.restarting || d.neighbour.isSome then s
    else distributeFrom (left.foldl (fun n p => min n (agetD d.contig p 0)) (stageLength s)) s

/-- A port's neighbour is lost: an open ring keeps its positions (R451, R456). -/
def loseNeighbour (port : Nat) (s : State) : State :=
  match (crlPort port s).neighbour with
  | none => s
  | some n =>
    let s1 := updCrlPort port (fun p => { p with neighbour := none }) s
    let s2 := raiseEvent Ev.carillonNeighbour port 0 n.serial (tally (ctrId 8 0 1) s1)
    if s2.crl.ring then
      let s3 := updCrl (fun c => { c with ring := false }) s2
      if s3.crl.role == .head then distributeOpen (raiseEvent Ev.carillonRing 0 s3.crl.members.length 0 s3) else s3
    else s2

/-- `NEIGHBOUR_LOST`: 30 ms without a heartbeat, or the port's PCS or FEC lock fails. -/
def execNeighbourLost (port : Nat) (pcs : Bool) (s : State) : Res :=
  .next (if !s.crl.enable then s
    else if pcs then loseNeighbour port (updCrlPort port (fun p => { p with pcs := false, miswire := false }) s)
    else match (crlPort port s).neighbour with
      | some n => loseNeighbour port (advanceTo (n.seenAt + 30000000) s)
      | none => s)

/-! ### Beacons and members (R452, R69) -/

/-- A beacon of the package's head. -/
def onBeacon (port : Nat) (m : Msg) (s : State) : State :=
  let b := m.payload
  let s1 := seenTerm (rdBe b 8 2) s
  if s1.crl.role == .follower && rdBe b 0 8 = s1.crl.headSerial && rdBe b 8 2 = s1.crl.term then
    let ring := bit (rdBe b 21 1) 0 == 1 && s1.crl.up.neighbour.isSome && s1.crl.down.neighbour.isSome
    compareCseq (rdBe b 16 4) (updCrl (fun c => { c with lastBeacon := s1.elapsed, beaconPort := port, ring := ring }) s1)
  else s1

def execHeadBeacon (port : Nat) (msg : List Byte) (s : State) : Res :=
  .next (match crlReceive port 0x02 msg s with
    | (none, s1) => s1
    | (some m, s1) => onBeacon port m s1)

/-- `HEAD_LOST`: no beacon of the head for 30 ms (R452). -/
def execHeadLost (s : State) : Res :=
  .next (if s.crl.role == .follower then enterElecting (advanceTo (s.crl.lastBeacon + 30000000) s) else s)

/-- A member has reached the new version: its activation is done (R502). -/
def scheduleDone (pos version : Nat) (s : State) : State :=
  match s.fw.schedule with
  | none => s
  | some d =>
    if version = d.version && d.active.any (fun a => a.1 == pos) then
      raiseEvent Ev.fwCarillonStep pos St.ok version
        { s with fw := { s.fw with schedule := some { d with active := d.active.filter (fun a => a.1 != pos), done := d.done ++ [pos] } } }
    else s

/-- `MEMBER`: a member's state is kept. -/
def keepMember (m : Msg) (s : State) : State :=
  if rdBe m.payload 8 1 < 8 then
    updCrl (fun c => { c with members := aset c.members (rdBe m.payload 8 1) (slice m.payload 0 16) }) s
  else s

/-! ### Settings and commands -/

/-- A port powered up, or down. -/
def crlPortReset (on : Bool) : CrlPort := { State.resetCrlPort with pcs := on }

/-- Put ENABLE, PRIORITY and CARILLON_ID in force: a change of ENABLE or CARILLON_ID starts an election (Table 13-8). -/
def setCarillon (v : List Byte) (s : State) : State :=
  let en := rd v 0 1 == 1
  let cid := rd v 4 4
  let was := s.crl.enable
  let same := s.crl.cid = cid
  let s1 := updCrl (fun c => { c with enable := en, priority := rd v 1 1, cid := cid }) s
  if !en then
    if !was then s1
    else
      let s2 := dropRelays (dropUnarmed (endSchedule (loseMembers s1)))
      leaveCarillonTime (updCrl (fun c => { c with
        role := .alone, position := 0, headSerial := 0, ring := false, members := [], best := none, incumbent := false,
        diverged := false, peersDiverged := 0, up := crlPortReset false, down := crlPortReset false, partials := c.partials.filter (·.bus),
        seen := [] }) s2)
  else if !was then
    claimTerm 1 (updCrl (fun c => { c with
      role := .electing, up := crlPortReset true, down := crlPortReset true, incumbent := false, members := [] }) s1)
  else if same then s1
  else enterElecting s1

/-- `carillon.config` (R482): kept in the settings, in force once its record is committed. -/
def carillonConfig (h : HeldCmd) (s : State) : Verdict :=
  if 1 < par h 0 1 || !parZero h 2 2 || par h 4 4 = 0 || par h 4 4 = 0xFFFFFFFF then .refuse St.invalidParam
  else if s.commits.any (·.carillon) || s.fw.dist.isSome || (s.fw.rxTransfer.isSome && s.fw.contig < s.fw.total) then .refuse St.carillonBusy
  else changeSetting 1 (slice (pars h) 0 8) s

def specCarillonConfig : CmdSpec := ⟨8, .effect, carillonConfig⟩
def execCarillonConfig (c : Cmd) (s : State) : Res := runCmd 0x0B01 specCarillonConfig c s

/-- ROLE of CRL_STATUS (Table 13-9). -/
def roleCode : Role → Nat
  | .alone => 0 | .electing => 1 | .follower => 2 | .head => 3 | .excluded => 4

/-- A MEMBER payload in host memory: its fields little-endian (R7). -/
def memberRecord (m : List Byte) : List Byte := le 8 (rdBe m 0 8) ++ slice m 8 4 ++ le 4 (rdBe m 12 4)

/-- The members known, by position. -/
def memberRecords (s : State) : List Byte := (List.range 8).flatMap (fun p => memberRecord (fit 16 (agetD s.crl.members p [])))

/-- `carillon.status`. -/
def carillonStatus (_ : HeldCmd) (s : State) : Verdict :=
  let c := s.crl
  .done St.ok (le 1 (roleCode c.role) ++ le 1 (ownSrc s) ++ le 2 c.term ++ le 1 c.members.length ++
    le 1 (b2n c.ring + b2n (c.role == .excluded) * 2) ++ zeros 2 ++ le 8 c.headSerial ++ memberRecords s) s

def specCarillonStatus : CmdSpec := ⟨0, .query, carillonStatus⟩
def execCarillonStatus (c : Cmd) (s : State) : Res := runCmd 0x0B02 specCarillonStatus c s

/-- `carillon.park` (R467). -/
def carillonPark (h : HeldCmd) (s : State) : Verdict :=
  if !parZero h 0 4 then .refuse St.invalidParam
  else if s.prot.state = 6 then .refuse St.protectActive
  else .done St.ok [] (updCrl (fun c => { c with parkAt := some (s.elapsed + 100000000) }) s)

def specCarillonPark : CmdSpec := ⟨4, .effect, carillonPark⟩
def execCarillonPark (c : Cmd) (s : State) : Res := runCmd 0x0B03 specCarillonPark c s

/-- `DOWNBEAT` (R46): what falls at it, and the end of a resynchronisation (R474). -/
def execDownbeat (s : State) : Res := .next (if s.crl.parked then s else syncAtDownbeat (downbeatNow s))

end Sys2Proof.Machine
end

