-- ==== Sys2Proof/Machine/Boot.lean ====
section
/-! DEFINITION. Starting Teruo (R492 to R497, Table 14-6): the choice of an image, slot copies, migration, recovery mode, the start of a management restart. -/

namespace Sys2Proof.Machine
open Sys2Proof

/-- Change what is kept of flash and firmware. -/
def updFw (f : Fw → Fw) (s : State) : State := { s with fw := f s.fw }

/-! ### The choice of an image (R494, Table 14-6) -/

/-- Three starts of the slot in a row failed before READY. -/
def slotFailed (k : Nat) (s : State) : Bool := s.fw.started == k && 3 ≤ s.fw.failedStarts

/-- Try a slot: one that fails is reported once Teruo runs; three failed starts have no status code in the spec: a free value of place 38 (log 18). -/
def trySlot (k : Nat) (s : State) : Bool × State :=
  if slotFailed k s then (false, drawn (updFw (fun f => { f with badSlots := f.badSlots ++ [(k, unstatedAt 38 s % 65536)] }) s))
  else
    let st := verifyImage k s
    if st = St.ok then (true, s) else (false, updFw (fun f => { f with badSlots := f.badSlots ++ [(k, st)] }) s)

/-- Start a slot when it verifies. -/
def oneSlot (k : Nat) (s : State) : Option Nat × State :=
  let r := trySlot k s
  (if r.1 then some k else none, r.2)

/-- The record moves to REVERTING: cause, and PREVIOUS as the image that ACTIVE must hold again. -/
def toReverting (cause : Nat) (s : State) : State :=
  moveRec Upd.reverting (fun r => patch (setRec 25 1 cause r) 32 (imageDigest (slotHeader 1 s))) s

/-- The boot ROM's choice at a start, with the records that Table 14-6 gives it. -/
def bootChoice (s : State) : Option Nat × State :=
  let st := uState s
  if st = Upd.idle then
    let r := trySlot 0 s
    if r.1 then (some 0, r.2) else oneSlot 1 r.2
  else if st = Upd.copyActive || st = Upd.reverting then oneSlot 1 s
  else if st = Upd.armed then
    let s1 := updFw (fun f => { f with probationAt := s.elapsed }) (moveRec Upd.probation id s)
    oneSlot 0 (raiseEvent Ev.fwProbation 0 (rd (updRec s1) 16 4) (rd (updRec s1) 20 4) s1)
  else if st = Upd.probation then
    let r := trySlot 1 s
    if r.1 then (some 1, toReverting 0 r.2)
    else oneSlot 0 (raiseEvent Ev.fwNoPrevious 0 (rd (updRec s) 16 4) 0 r.2)
  else oneSlot 0 s

/-- Load a slot's image. -/
def loadSlot (k : Nat) (s : State) : State :=
  let h := (slotHeader k s).take 24
  updFw (fun f => { f with image := h, started := k, failedStarts := if f.started = k then f.failedStarts else 0 }) s

/-! ### Slot copies (R496) -/

/-- Begin a copy: the destination's sectors that the source image occupies are erased. -/
def startCopy (src dst : Nat) (retried : Bool) (s : State) : State :=
  updFw (fun f => { f with copy := some { src := src, dst := dst, retried := retried } })
    (flashErase (slotBase dst) (min (imageLen (slotHeader src s)) 16777216) s)

/-- Program the source image into the destination. -/
def copyImage (c : SlotCopy) (s : State) : State :=
  let n := min (imageLen (slotHeader c.src s)) 16777216
  let a := slotBase c.src
  let bytes := s.fw.flash.filter (fun x => a ≤ x.1 && x.1 < a + n)
  updFw (fun f => { f with flash := bytes.foldl (fun m x => flashPut m (x.1 - a + slotBase c.dst) x.2) f.flash }) s

/-- The check of a copy: the destination's image digest is DEST_DIGEST, and its body digest checks. -/
def copyChecks (c : SlotCopy) (s : State) : Bool :=
  imageDigest (slotHeader c.dst s) == slice (updRec s) 32 64 && bodyChecks c.dst s

/-- The copy that a state of the record asks for: source and destination. -/
def copyOf (st : Nat) : Option (Nat × Nat) :=
  if st = Upd.copyPrev then some (0, 1)
  else if st = Upd.copyActive then some (2, 0)
  else if st = Upd.reverting then some (1, 0)
  else none

/-- Begin the copy of the record's state, from its beginning. -/
def resumeCopy (s : State) : State :=
  match copyOf (uState s) with
  | some (src, dst) => startCopy src dst false s
  | none => s

/-! ### Recovery mode (R511 to R517) -/

/-- The CRC-good settings copy that the boot ROM reads: the higher GENERATION. -/
def romCopy (s : State) : Option Nat :=
  match snapGood 0 s, snapGood 1 s with
  | true, true => if snapGen 0 s < snapGen 1 s then some 1 else some 0
  | true, false => some 0
  | false, true => some 1
  | false, false => none

/-- Default values of the settings carillon and mgmt.bus (Table 14-10). -/
def carillonDefault : List Byte := [0, 128, 0, 0, 0, 0, 0, 0]
def busDefault : List Byte := [0, 0x10, 0, 0, 0, 0, 0, 0]

/-- The boot ROM's node address and CARILLON_ID: 0x3F and any, when no copy can be read (R513). -/
def romAddress (s : State) : State :=
  let v := (romCopy s).map (fun k => (readCopy k s).1)
  let node := (v.map (fun t => rd (agetD t 2 busDefault) 1 1)).getD 0x3F
  let cid := (v.map (fun t => rd (agetD t 1 carillonDefault) 4 4)).getD 0
  { s with bus := { State.resetBus with enable := true, nodeBase := node, msgId := s.bus.msgId },
           crl := { State.resetCrl with enable := true, cid := cid, up := crlPortReset true, down := crlPortReset true,
                                        msgId := s.crl.msgId, priority := s.crl.priority } }

/-- Enter recovery mode: no Teruo, no ring, the data plane stopped; a copy STAGING to ACTIVE that stood is repeated (R511, R515). -/
def enterRecovery (s : State) : State :=
  let sr := { s with mgmt := { s.mgmt with rom := true } }
  let s0 := if halted s then sr else haltData sr
  let s1 := functionReset 1 (functionReset 0 s0)
  let s2 := romAddress { s1 with mgmt := { s1.mgmt with
      ready := true, rom := true, restarting := false, restartDue := none, running := [], held := [],
      mbx := if s1.mgmt.mbx == .running then .idle else s1.mgmt.mbx } }
  let s3 := updFw (fun f => { f with copy := none, image := [], dist := none, schedule := none, rxTransfer := none, verifying := false }) s2
  let s4 := raiseGlb 32 s3
  if uState s4 = Upd.copyActive && uStage s4 = 3 && flashUsable s4 then startCopy 2 0 false s4 else s4

/-- Some DDR4 channel is FAILED: no Teruo can start (R413, R514). -/
def ddrFailed (s : State) : Bool := s.mem.ddr.any (fun d => d.state == 3)

/-- The boot ROM starts again from recovery mode; `START_READY` follows (R515). -/
def startAgain (s : State) : State :=
  if ddrFailed s then s
  else { s with mgmt := { s.mgmt with rom := false, ready := false }, bus := State.resetBus, crl := State.resetCrl,
                fw := { s.fw with image := [] } }

/-! ### A management restart begins (R541 to R543) -/

/-- The boot ROM chooses and loads an image; with none, or without usable flash or DDR4, recovery mode (R511). -/
def bootImage (s : State) : State :=
  if !flashUsable s || ddrFailed s then enterRecovery s
  else
    let r := bootChoice (updFw (fun f => { f with copy := none, verifying := false }) s)
    match r.1 with
    | some k => loadSlot k r.2
    | none => enterRecovery r.2

/-- Begin a management restart with a cause of EV_MGMT_RESTART. -/
def beginRestart (cause : Nat) (s : State) : State :=
  if s.mgmt.rom || s.crl.parked then s
  else
    let s1 := { s with mgmt := { s.mgmt with
      restarting := true, ready := false, restartCause := cause, restartAt := s.elapsed, restartDue := none,
      restarts := s.mgmt.restarts + 1 } }
    bootImage (raiseGlb 2 s1)

/-! ### Teruo runs -/

/-- Write the fuse counter and end the confirmation (R504, Table 14-6). -/
def finishConfirm (s : State) : State :=
  let r := updRec s
  let s1 := updFw (fun f => { f with fuseCounter := max f.fuseCounter (min 64 (rd r 26 1)) }) s
  raiseEvent Ev.fwConfirmed s1.fw.fuseCounter (rd r 16 4) 0 (moveRec Upd.idle id s1)

/-- The copy that migration writes, and the one it reads. -/
def preCopy (s : State) : Nat := rd (updRec s) 11 1 % 2
def preGeneration (s : State) : Nat := rd (updRec s) 12 4

/-- Migration can read PRE_COPY: CRC-good, and of a format in the image's range. -/
def migratable (s : State) : Bool :=
  flashUsable s && snapGood (preCopy s) s && runReadMin s ≤ snapFormat (preCopy s) s && snapFormat (preCopy s) s ≤ runFormat s

/-- Migrate the settings at the first start in PROBATION (R510): whether it went well. -/
def migrate (s : State) : Bool × State :=
  let other := 1 - preCopy s
  let write := fun vals => updFw (fun f => { f with migration := St.ok })
    (let s1 := writeSnapshot other (preGeneration s + 1) (runFormat s) vals s
     writeRec (setFlag 1 true (updRec s1)) s1)
  if !snapGood 0 s && !snapGood 1 s && flashUsable s then (true, write [])
  else if migratable s then (true, write (readCopy (preCopy s) s).1)
  else
    let s1 := raiseEvent Ev.fwMigrationFailed (snapFormat (preCopy s) s) (preCopy s) 0
      (updFw (fun f => { f with migration := St.settingsMigrationFailed }) s)
    (false, toReverting 2 s1)

/-- Put ENABLE, NODE_BASE, EVENT_NODE and EVENT_MUTE of the management bus in force (Table 13-8). -/
def setBus (v : List Byte) (s : State) : State :=
  { s with bus := { s.bus with
      enable := rd v 0 1 == 1, nodeBase := rd v 1 1, eventNode := rd v 2 1, eventMute := rd v 4 2 } }

/-- Entries of hbm.retired (Table 12-10). -/
def retiredEntries : Nat → List Byte → List Nat
  | 0, _ => []
  | fuel + 1, b => if b.length < 8 then [] else rd b 0 8 :: retiredEntries fuel (b.drop 8)

/-- One recorded page is excluded (R433). -/
def excludePage (e : Nat) (s : State) : State :=
  { s with mem := { s.mem with
      retired := aset s.mem.retired (bits e 55 32) (bits e 63 62, bit e 61, e % 4294967296, true) } }

/-- Apply the stored settings at a start (R492 step 6, R423, R433). -/
def applySettings (s : State) : State :=
  let t := settings s
  let s1 := setBus (agetD t 2 busDefault) (setCarillon (agetD t 1 carillonDefault) s)
  let s2 := { s1 with mem := { s1.mem with rhThreshold := rd (agetD t 3 (le 4 4096)) 0 4 } }
  (retiredEntries 65536 (agetD t 4 [])).foldl (fun s e => excludePage e s) s2

/-- Report the slots that failed verification (R494). -/
def reportBadSlots (s : State) : State :=
  s.fw.badSlots.foldl (fun s b => raiseEvent Ev.fwSlotBad b.1 b.2 0 s) (updFw (fun f => { f with badSlots := [] }) s)

/-- Teruo runs its image: settings migrated and applied, the confirmation, the copy and the verification that stood taken up. The
result says that the image must revert at once. -/
def teruoRuns (s : State) : Bool × State :=
  let s1 := reportBadSlots (updFw (fun f => { f with failedStarts := 0 }) s)
  let s2 := if uState s1 = Upd.confirmed then finishConfirm s1 else s1
  let m := if uState s2 = Upd.probation && !uMigrated s2 then migrate s2 else (true, s2)
  let s3 := applySettings m.2
  let s4 := if uVerifyPending s3 then updFw (fun f => { f with verifying := true }) s3 else s3
  if m.1 then (false, resumeCopy s4) else (true, s4)

/-! ### The end of a copy -/

/-- On a revert: the journal records of the migrated copy are counted, and its first sector is erased (R510). -/
def loseMigrated (s : State) : Nat × State :=
  let k := 1 - preCopy s
  if snapGood k s && snapGen k s = preGeneration s + 1 then ((readCopy k s).2.2, flashErase (setBase k) 65536 s) else (0, s)

/-- A copy that passed its check (Table 14-6). -/
def copyPassed (s : State) : State :=
  let s1 := updFw (fun f => { f with copy := none }) s
  let st := uState s1
  if st = Upd.copyPrev then
    startCopy 2 0 false (moveRec Upd.copyActive (fun r => patch r 32 (imageDigest (slotHeader 2 s1))) s1)
  else if st = Upd.copyActive then
    let s2 := moveRec Upd.armed id s1
    if s2.mgmt.rom then startAgain s2 else if uNextStart s2 then s2 else beginRestart 2 s2
  else if st = Upd.reverting then
    let r := updRec s1
    let l := loseMigrated s1
    raiseEvent Ev.fwReverted (rd r 25 1) l.1 (rd r 16 4) (moveRec Upd.idle id l.2)
  else s1

/-- A copy whose check failed: repeated once; then COPY_PREV is given up, and any other goes to REVERTING, whose copy repeats at a
later start (R496). The spec names no REVERT_CAUSE for it: a free value of place 39 (log 18). -/
def copyFailed (c : SlotCopy) (s : State) : State :=
  if !c.retried then startCopy c.src c.dst true s
  else
    let s1 := raiseEvent Ev.flashError 2 (slotBase c.dst) 0 (updFw (fun f => { f with copy := none }) s)
    if uState s1 = Upd.copyPrev then moveRec Upd.idle id s1
    else if uState s1 = Upd.copyActive then toReverting (unstatedAt 39 s1 % 256) (drawn s1)
    else s1

/-- `FLASH_COPY_CHECKED` (R496): `good` says that the flash took what was programmed. -/
def execFlashCopyChecked (good : Bool) (s : State) : Res :=
  .next (match s.fw.copy with
    | none => s
    | some c =>
      let s1 := copyImage c s
      if good && copyChecks c s1 then copyPassed s1 else copyFailed c s)

end Sys2Proof.Machine
end

