-- ==== Sys2Proof/Machine/FwCmds.lean ====
section
/-! DEFINITION. Firmware and settings: downloads, verification, distribution, activation, confirmation, stored settings, keys and attestation (R498 to R520, Tables 14-11, 14-12). -/

namespace Sys2Proof.Machine
open Sys2Proof

/-- A distribution to this package runs (R499): its head still stands. -/
def receiving (s : State) : Bool := s.fw.rxTransfer.isSome && s.fw.contig < s.fw.total && s.crl.role == .follower

/-- FW_BUSY of the staging commands: the record is not IDLE, or a distribution to this package runs (R499); in recovery mode only a copy
that runs (log 24). -/
def stagingBusy (s : State) : Bool := if s.mgmt.rom then s.fw.copy.isSome else uState s != Upd.idle || receiving s

/-- FW_VERSION of a slot's header. -/
def slotVersion (k : Nat) (s : State) : Nat := rd (slotHeader k s) 8 4

/-! ### Staging (R498, R499) -/

/-- In recovery mode the first download writes an erased boot header and formats the update record (R487). -/
def formatFlash (s : State) : State :=
  if s.mgmt.rom && (flashRead 0 8 s).all (· == 0xFF) then
    writeRec (zeros 256) (flashWrite 0 (le 4 0x414C5A46 ++ le 4 1) s)
  else s

/-- The record's STAGE and STAGE_LENGTH change; STAGING_DIGEST is zero unless VERIFIED. -/
def setStage (stage : Nat) (digest : List Byte) (s : State) : State :=
  writeRec (patch (setRec 10 1 stage (updRec s)) 96 (fit 64 digest)) s

/-- FIRST: STAGE INCOMPLETE with the image length, before the first byte is written. -/
def beginStaging (total : Nat) (s : State) : State :=
  let s1 := formatFlash s
  updFw (fun f => { f with contig := 0, total := total })
    (writeRec (patch (setRec 28 4 total (setRec 10 1 1 (updRec s1))) 96 (zeros 64)) s1)

/-- Erase the sectors that data first reaches (R498). -/
def eraseReached (off n : Nat) (s : State) : State :=
  let first := (off + 65535) / 65536
  let last := (off + n + 65535) / 65536
  if first < last then flashErase (slotBase 2 + 65536 * first) (65536 * (last - first)) s else s

/-- Write image data in order into STAGING; the last byte completes it. -/
def stageData (bs : List Byte) (s : State) : State :=
  let off := s.fw.contig
  let s1 := flashWrite (slotBase 2 + off) bs (eraseReached off bs.length s)
  let s2 := updFw (fun f => { f with contig := off + bs.length }) s1
  if s2.fw.contig = s2.fw.total then raiseEvent Ev.fwStaged 2 s2.fw.total 0 (setStage 2 [] s2) else s2

/-- Image data from an offset: what STAGING holds already is not written again. -/
def stageFrom (off : Nat) (bs : List Byte) (s : State) : State :=
  if off + bs.length ≤ s.fw.contig then s
  else stageData ((bs.drop (s.fw.contig - off)).take (s.fw.total - s.fw.contig)) s

/-- Set VERIFY_PENDING and begin the verification (R498); STAGING_DIGEST is zero until STAGE is VERIFIED. -/
def beginVerify (s : State) : State :=
  updFw (fun f => { f with verifying := true }) (writeRec (patch (setFlag 2 true (setRec 10 1 2 (updRec s))) 96 (zeros 64)) s)

/-- LENGTH, and the data of a download: inline, or by DMA. -/
def downloadData (h : HeldCmd) : Option (List Byte) :=
  if bit (par h 8 1) 0 == 1 then some (slice (pars h) 24 (par h 4 4)) else h.data.map (fun d => fit (par h 4 4) d)

/-- Malformed parameters of `fw.download`. -/
def downloadBad (h : HeldCmd) (s : State) : Bool :=
  let f := par h 8 1
  let total := if bit f 1 == 1 then par h 12 4 else s.fw.total
  bits f 7 2 != 0 || !parZero h 9 3 || (bit f 1 == 1 && (par h 12 4 < 16384 || 16777216 < par h 12 4)) ||
  (bit f 0 == 1 && (par h 16 8 != 0 || h.paramLen < 24 + par h 4 4)) || total < par h 0 4 + par h 4 4

/-- `fw.download`. -/
def fwDownload (h : HeldCmd) (s : State) : Verdict :=
  let first := bit (par h 8 1) 1 == 1
  if downloadBad h s then .refuse St.invalidParam
  else if stagingBusy s then .refuse St.fwBusy
  else if par h 0 4 != (if first then 0 else s.fw.contig) then .refuse St.fwOutOfOrder
  else if !flashUsable s then .refuse St.flashError
  else match downloadData h with
    | none => .refuse St.dmaError
    | some _ => .wait .flash (le 4 0) (if first then updFw (fun f => { f with rxTransfer := none }) (beginStaging (par h 12 4) s) else s)

def specFwDownload : CmdSpec := ⟨24, .bulk, fwDownload⟩
def execFwDownload (c : Cmd) (s : State) : Res := runCmd 0x0C01 specFwDownload c s

/-- `fw.verify`. -/
def fwVerify (h : HeldCmd) (s : State) : Verdict :=
  if !parZero h 0 4 then .refuse St.invalidParam
  else if stagingBusy s then .refuse St.fwBusy
  else if uStage s < 2 || 3 < uStage s then .refuse St.fwNotStaged
  else if !flashUsable s then .refuse St.flashError
  else .wait .verify [] (beginVerify s)

def specFwVerify : CmdSpec := ⟨4, .effect, fwVerify⟩
def execFwVerify (c : Cmd) (s : State) : Res := runCmd 0x0C02 specFwVerify c s

/-- In recovery mode an activation writes COPY_ACTIVE with RECOVERY set, and the boot ROM copies (R515). The other fields of Table 14-5
are those of this update: the settings copy that the boot ROM reads, and the version that ACTIVE holds (log 75). -/
def recoveryActivate (s : State) : State :=
  let h := slotHeader 2 s
  let old := if headerChecks (slotHeader 0 s) then slotVersion 0 s else 0
  let change := fun (r : List Byte) =>
    let r1 := setFlag 3 true (setFlag 1 false (setFlag 0 false r))
    let r2 := setRec 12 4 (((romCopy s).map (fun k => snapGen k s)).getD 0) (setRec 11 1 ((romCopy s).getD 0) r1)
    let r3 := setRec 24 1 (rd h 7 1) (setRec 20 4 old (setRec 16 4 (rd h 8 4) r2))
    patch (setRec 25 2 0 r3) 32 (imageDigest h)
  startCopy 2 0 false (moveRec Upd.copyActive change s)

/-- Every command that waits for the verification ends. -/
def verifyDone (st : Nat) (s : State) : State :=
  (s.mgmt.running.filter (fun r => r.waits == .verify)).foldl (fun s r => finishRunning r st [] (st == St.ok) 0 0 s) s

/-- `VERIFICATION_COMPLETE` (R498, R517). -/
def execVerificationComplete (s : State) : Res :=
  .next (if !s.fw.verifying || s.mgmt.restarting then s
    else
      let st := verifyImage 2 s
      let digest := if st = St.ok then imageDigest (slotHeader 2 s) else []
      let stage := if st = St.ok then 3 else if uStage s = 1 then 1 else 2
      let s1 := writeRec (patch (setFlag 2 false (setRec 10 1 stage (updRec s))) 96 (fit 64 digest)) s
      let s2 := raiseEvent Ev.fwVerified st (slotVersion 2 s) 0 (updFw (fun f => { f with verifying := false }) s1)
      let s3 := verifyDone st s2
      if s3.mgmt.rom && s3.fw.rxTransfer.isSome && st = St.ok then
        recoveryActivate (updFw (fun f => { f with rxTransfer := none }) s3)
      else s3)

/-! ### Activation (R501, R502) -/

/-- Refusals of a package-scope activation, in order. -/
def activateRefusal (s : State) : Option Nat :=
  let h := slotHeader 2 s
  if uStage s != 3 then some St.fwNotStaged
  else if (if s.mgmt.rom then s.fw.copy.isSome else uState s != Upd.idle) then some St.fwBusy
  else if !versionOk h s then some St.fwRollback
  else if !s.mgmt.rom && (liveCopy s).any (fun k => snapFormat k s < rd h 22 2 || rd h 20 2 < snapFormat k s) then some St.fwSettingsFormat
  else if !flashUsable s then some St.flashError
  else none

/-- Write COPY_PREV and begin the copy ACTIVE to PREVIOUS (R501). -/
def activatePackage (nextStart : Bool) (s : State) : State :=
  let h := slotHeader 2 s
  let pre := (liveCopy s).getD 0
  let gen := ((liveCopy s).map (fun k => snapGen k s)).getD 0
  let change := fun (r : List Byte) =>
    let r1 := setFlag 3 false (setFlag 1 false (setFlag 0 nextStart r))
    let r2 := setRec 12 4 gen (setRec 11 1 pre r1)
    let r3 := setRec 24 1 (rd h 7 1) (setRec 20 4 (runVersion s) (setRec 16 4 (rd h 8 4) r2))
    patch (setRec 25 2 0 r3) 32 (imageDigest (slotHeader 0 s))
  startCopy 0 1 false (moveRec Upd.copyPrev change s)

/-- A relay of the head's own: purpose 0 `fw.status`, 1 `fw.activate`, 2 `fw.confirm`. -/
def ownRelay (purpose pos op : Nat) (params : List Byte) (s : State) : State :=
  let id := s.crl.msgId
  let block := le 2 op ++ le 2 params.length ++ le 4 id ++ le 2 0 ++ le 1 pos ++ le 1 0 ++ le 4 0 ++ params
  flood 0x20 pos block (updCrl (fun c => { c with relaySent := c.relaySent ++ [(pos, id, purpose)] }) s)

/-- Begin activations while fewer than PARALLEL run, the head last and alone. -/
def scheduleStep : Nat → State → State
  | 0, s => s
  | fuel + 1, s =>
    match s.fw.schedule with
    | none => s
    | some d =>
      match d.todo with
      | [] => if d.active.isEmpty then endSchedule s else s
      | p :: rest =>
        if d.parallel ≤ d.active.length || (p = 0 && !d.active.isEmpty) then s
        else
          let s1 := { s with fw := { s.fw with schedule := some { d with todo := rest, active := d.active ++ [(p, s.elapsed)] } } }
          if p = 0 then
            match activateRefusal s1 with
            | some st => stopSchedule 0 st s1
            | none => activatePackage false s1
          else if ahas s1.crl.members p then scheduleStep fuel (ownRelay 1 p 0x0C04 (zeros 4) s1)
          else stopSchedule p St.targetUnreachable s1

/-- `fw.activate`. -/
def fwActivate (h : HeldCmd) (s : State) : Verdict :=
  let next := bit (par h 1 1) 0 == 1
  if 1 < par h 0 1 || bits (par h 1 1) 7 1 != 0 || 8 < par h 3 1 then .refuse St.invalidParam
  else if par h 0 1 = 0 then
    match activateRefusal s with
    | some st => .refuse st
    | none => .done St.ok [] (if s.mgmt.rom then recoveryActivate s else activatePackage next s)
  else if s.crl.role != .head then .refuse St.fwNotHead
  else if s.fw.schedule.isSome then .refuse St.fwBusy
  else match activateRefusal s with
  | some st => .refuse st
  | none =>
    let want := (List.range 8).filter (fun p => bit (par h 2 1) p == 1)
    let todo := want.filter (· != 0) ++ want.filter (· == 0)
    let d : Schedule := { todo := todo, active := [], parallel := max 1 (par h 3 1), done := [], version := slotVersion 2 s, stopped := false }
    if todo.isEmpty then .done St.ok (le 4 0) s
    else
      let s1 := scheduleStep 9 (updFw (fun f => { f with schedule := some d }) s)
      if s1.fw.schedule.isSome then .wait .activate (le 4 0) s1
      else .done (1 + unstatedAt 37 s % 65535) (le 4 0) (drawn s1)

def specFwActivate : CmdSpec := ⟨4, .bulk, fwActivate⟩
def execFwActivate (c : Cmd) (s : State) : Res := runCmd 0x0C04 specFwActivate c s

/-- A package that was done shows another version: it has reverted (R502). -/
def scheduleReverted (pos version : Nat) (s : State) : State :=
  match s.fw.schedule with
  | some d => if version != d.version && d.done.contains pos then stopSchedule pos (1 + unstatedAt 37 s % 65535) (drawn s) else s
  | none => s

/-- `MEMBER` (R449, R502): a member that still restarts has not begun its probation. -/
def execMember (port : Nat) (msg : List Byte) (s : State) : Res :=
  .next (match crlReceive port 0x05 msg s with
    | (none, s1) => s1
    | (some m, s1) =>
      let pos := rdBe m.payload 8 1
      let v := rdBe m.payload 12 4
      let s2 := keepMember m s1
      scheduleStep 9 (if bit (rdBe m.payload 11 1) 0 = 1 then s2 else scheduleReverted pos v (scheduleDone pos v s2)))

/-! ### Confirmation and revert (R503 to R505) -/

/-- `fw.confirm`. -/
def fwConfirm (h : HeldCmd) (s : State) : Verdict :=
  let ready := uState s == Upd.probation && uMigrated s
  let confirm := fun (s : State) => finishConfirm (moveRec Upd.confirmed (fun r => setRec 26 1 (min 64 (rd r 24 1)) r) s)
  if 1 < par h 0 1 || !parZero h 2 2 then .refuse St.invalidParam
  else if par h 0 1 = 0 then if ready then .done St.ok [] (confirm s) else .refuse St.fwNotProbation
  else if s.crl.role != .head then .refuse St.fwNotHead
  else if bit (par h 1 1) 0 == 1 && !ready then .refuse St.fwNotProbation
  else
    let s1 := ((List.range 8).filter (fun p => p != 0 && bit (par h 1 1) p == 1)).foldl (fun s p => ownRelay 2 p 0x0C05 (zeros 4) s) s
    .done St.ok [] (if bit (par h 1 1) 0 == 1 then confirm s1 else s1)

def specFwConfirm : CmdSpec := ⟨4, .effect, fwConfirm⟩
def execFwConfirm (c : Cmd) (s : State) : Res := runCmd 0x0C05 specFwConfirm c s

/-- `fw.revert` (R505, Table 14-6). -/
def fwRevert (h : HeldCmd) (s : State) : Verdict :=
  let st := uState s
  if !parZero h 0 4 then .refuse St.invalidParam
  else if st = Upd.copyPrev then
    .done St.ok [] (flashErase (slotBase 1) 65536 (moveRec Upd.idle id (updFw (fun f => { f with copy := none }) s)))
  else if st = Upd.copyActive || st = Upd.armed then .done St.ok [] (startCopy 1 0 false (toReverting 1 s))
  else if st = Upd.probation then .done St.ok [] (beginRestart 3 (toReverting 1 s))
  else .refuse St.fwNotProbation

def specFwRevert : CmdSpec := ⟨4, .effect, fwRevert⟩
def execFwRevert (c : Cmd) (s : State) : Res := runCmd 0x0C06 specFwRevert c s

/-- `PROBATION_LIMIT` (R503). -/
def execProbationLimit (s : State) : Res :=
  .next (if uState s = Upd.probation && 0 < probationLimit s && !s.mgmt.restarting && s.mgmt.ready then
      beginRestart 3 (toReverting 3 (advanceTo (s.fw.probationAt + probationLimit s * 1000000000) s))
    else s)

/-! ### Status and attestation (R519, R520) -/

/-- A slot's 32 bytes of `fw.status`: its header and signature are checked; one whose header does not check reads as zeros (log 24). -/
def slotRecord (k : Nat) (s : State) : List Byte :=
  let h := slotHeader k s
  if headerChecks h then
    le 1 (b2n (signatureChecks k s)) ++ le 1 (rd h 6 1) ++ le 1 (rd h 7 1) ++ zeros 1 ++ le 4 (rd h 8 4) ++ le 4 (imageLen h) ++ zeros 4 ++
      (imageDigest h).take 16
  else zeros 32

/-- GENERATION, FORMAT and journal bytes of the live copy. -/
def liveGen (s : State) : Nat := ((liveCopy s).map (fun k => snapGen k s)).getD 0

/-- `fw.status` (Table 14-12). -/
def fwStatus (_ : HeldCmd) (s : State) : Verdict :=
  let k := (liveCopy s).getD 0
  let used := ((liveCopy s).map (fun k => (readCopy k s).2.1)).getD 0
  let elapsed := if uState s = Upd.probation then (s.elapsed - s.fw.probationAt) / 1000000000 else 0
  .done St.ok (updRec s ++ slotRecord 0 s ++ slotRecord 1 s ++ slotRecord 2 s ++ le 1 s.fw.fuseCounter ++ le 1 s.fw.revoked ++ le 1 k ++
    zeros 1 ++ le 4 (liveGen s) ++ le 2 (((liveCopy s).map (fun k => snapFormat k s)).getD 0) ++ le 2 s.fw.migration ++ le 4 used ++
    le 4 elapsed ++ le 4 s.fw.contig) s

def specFwStatus : CmdSpec := ⟨0, .query, fwStatus⟩
def execFwStatus (c : Cmd) (s : State) : Res := runCmd 0x0C07 specFwStatus c s

/-- A slot's image digest for the quote: zero when its header does not check. -/
def quoteDigest (k : Nat) (s : State) : List Byte := if headerChecks (slotHeader k s) then imageDigest (slotHeader k s) else zeros 64

/-- `attest.quote` (R520). -/
def attestQuote (h : HeldCmd) (s : State) : Verdict :=
  let q := le 8 s.glb.serial ++ slice (pars h) 0 64 ++ le 6 (secOf s.tempo.now) ++ le 4 (nsOf s.tempo.now) ++ le 1 s.fw.fuseCounter ++
    le 1 s.fw.revoked ++ le 1 (uState s) ++ zeros 3 ++ quoteDigest 0 s ++ quoteDigest 1 s ++ quoteDigest 2 s ++ le 4 (liveGen s) ++ zeros 4
  .done St.ok (q ++ fit 4627 (Config.sign (fit 64 (Config.sha3 q))) ++ zeros 13 ++ fit 2592 Config.identityKey) s

def specAttestQuote : CmdSpec := ⟨64, .query, attestQuote⟩
def execAttestQuote (c : Cmd) (s : State) : Res := runCmd 0x0C0B specAttestQuote c s

/-- `key.revoke` (R490). -/
def keyRevoke (h : HeldCmd) (s : State) : Verdict :=
  let k := par h 0 1
  let names := fun slot => headerChecks (slotHeader slot s) && rd (slotHeader slot s) 6 1 == k
  if 2 < k || !parZero h 1 3 || par h 4 4 != 0x5245564B then .refuse St.invalidParam
  else if names 0 || (uStage s == 3 && names 2) then .refuse St.keyInUse
  else if bit s.fw.revoked k = 0 && (List.range 3).all (fun j => j == k || bit s.fw.revoked j == 1) then .refuse St.keyLast
  else .done St.ok [] (raiseEvent Ev.keyRevoked k 0 0 (updFw (fun f => { f with revoked := f.revoked ||| 2 ^ k }) s))

def specKeyRevoke : CmdSpec := ⟨8, .effect, keyRevoke⟩
def execKeyRevoke (c : Cmd) (s : State) : Res := runCmd 0x0C0A specKeyRevoke c s

/-! ### Settings (R507 to R509, Table 14-10) -/

/-- A stored setting's value as `settings.read` gives it. -/
def settingValue (id : Nat) (s : State) : Option (List Byte) :=
  if id = 1 then some (settingOr 1 carillonDefault s)
  else if id = 2 then some (settingOr 2 busDefault s)
  else if id = 3 then some (settingOr 3 (le 4 4096) s)
  else if id = 4 then some (le 4 ((settingOr 4 [] s).length / 8))
  else if id = 5 then some (settingOr 5 (zeros 4) s)
  else if 0x100 ≤ id && id ≤ 0x13F then aget (settings s) id
  else none

/-- `settings.read`. -/
def settingsRead (h : HeldCmd) (s : State) : Verdict :=
  if !parZero h 2 2 then .refuse St.invalidParam
  else match settingValue (par h 0 2) s with
    | none => .refuse St.noSuchSetting
    | some v => .done St.ok (le 2 v.length ++ zeros 2 ++ le 4 (liveGen s) ++ v) s

def specSettingsRead : CmdSpec := ⟨4, .query, settingsRead⟩
def execSettingsRead (c : Cmd) (s : State) : Res := runCmd 0x0C08 specSettingsRead c s

/-- A value out of its range or size. -/
def settingBad (id n v : Nat) : Bool :=
  if id = 3 then n != 4 || v < 1024 || 16384 < v || v % 256 != 0
  else if id = 5 then n != 4 || (v != 0 && (v < 60 || 86400 < v))
  else 4096 < n

/-- `settings.write`. -/
def settingsWrite (h : HeldCmd) (s : State) : Verdict :=
  let id := par h 0 2
  let n := par h 2 2
  let readOnly := id = 1 || id = 2 || id = 4
  let writable := id = 3 || id = 5 || (0x100 ≤ id && id ≤ 0x13F)
  if h.paramLen < 4 + n || (writable && settingBad id n (par h 4 4)) then .refuse St.invalidParam
  else if readOnly then .refuse St.settingsReadOnly
  else if !writable then .refuse St.noSuchSetting
  else changeSetting id (slice (pars h) 4 n) s

def specSettingsWrite : CmdSpec := ⟨4, .effect, settingsWrite⟩
def execSettingsWrite (c : Cmd) (s : State) : Res := runCmd 0x0C09 specSettingsWrite c s

/-- `mgmt.bus.config` (Table 13-8). -/
def mgmtBusConfig (h : HeldCmd) (s : State) : Verdict :=
  if 1 < par h 0 1 || par h 1 1 < 1 || 0x37 < par h 1 1 || !parZero h 3 1 || !parZero h 6 2 then .refuse St.invalidParam
  else changeSetting 2 (slice (pars h) 0 8) s

def specMgmtBusConfig : CmdSpec := ⟨8, .effect, mgmtBusConfig⟩
def execMgmtBusConfig (c : Cmd) (s : State) : Res := runCmd 0x0B04 specMgmtBusConfig c s

/-- A changed setting takes hold (R509). -/
def settingTakesHold (id : Nat) (v : List Byte) (s : State) : State :=
  if id = 1 then setCarillon v s
  else if id = 2 then setBus v s
  else if id = 3 then { s with mem := { s.mem with rhThreshold := rd v 0 4 } }
  else s

/-- A RUNNING command that waits for the flash. -/
def waitsFlash : WaitFor → Bool
  | .flash => true
  | .setting _ _ => true
  | _ => false

/-- `FLASH_WRITE_DONE`: the oldest command that waits for the flash is decided (R499, R509). -/
def execFlashWriteDone (s : State) : Res :=
  .next (if s.mgmt.restarting then s
    else match s.mgmt.running.find? (fun r => waitsFlash r.waits) with
      | none => s
      | some r =>
        match r.waits with
        | .setting id (some v) =>
          let s1 := settingTakesHold id v (appendSetting id r.cmd.source v s)
          finishRunning r St.ok r.resp true id 0 s1
        | _ =>
          let bs := (downloadData r.cmd).getD []
          let off := par r.cmd 0 4
          let s1 := if bit (par r.cmd 8 1) 1 == 1 then updFw (fun f => { f with contig := 0 }) s else s
          if s1.fw.contig < off then finishRunning r St.fwOutOfOrder (le 4 0) false 0 0 s1
          else finishRunning r St.ok (le 4 bs.length) true 0 bs.length (stageFrom off bs s1))

/-- `FLASH_OPERATION_TIMEOUT` (R486): the copy whose destination it hit fails, otherwise the oldest waiting command ends FLASH_ERROR. -/
def execFlashOperationTimeout (erase : Bool) (address : Nat) (s : State) : Res :=
  .next (
    let s1 := raiseEvent Ev.flashError (if erase then 0 else 1) address 0 s
    match s1.fw.copy with
    | some c => if slotBase c.dst ≤ address && address < slotBase c.dst + 16777216 then copyFailed c s1
        else if s1.mgmt.restarting then s1
        else finishWaiting waitsFlash St.flashError (fun r => r.resp) false 0 0 s1
    | none =>
      if s1.mgmt.restarting then s1 else finishWaiting waitsFlash St.flashError (fun r => r.resp) false 0 0 s1)

/-- `SETTINGS_COMPACTION` (R508). -/
def execSettingsCompaction (s : State) : Res :=
  .next (if s.mgmt.restarting || s.mgmt.rom || !s.mgmt.ready || uState s != Upd.idle || !flashUsable s then s
    else match liveCopy s with
      | none => s
      | some k =>
        let r := readCopy k s
        if 1572864 ≤ r.2.1 then writeSnapshot (1 - k) (snapGen k s + 1) (runFormat s) r.1 s else s)

/-- The entry of a retired page (Table 12-10). -/
def retiredEntry (page : Nat) (r : Nat × Nat × Nat × Bool) : Nat :=
  r.1 * 2 ^ 62 + r.2.1 * 2 ^ 61 + page % 2 ^ 24 * 2 ^ 32 + r.2.2.1 % 2 ^ 32

/-- `RETIRED_PAGE_RECORD` (R433): the first page that the settings do not hold is recorded. -/
def execRetiredPageRecord (s : State) : Res :=
  .next (if s.mgmt.restarting || s.mgmt.rom || !s.mgmt.ready || !flashUsable s || !journalFits 8 s then s
    else match s.mem.retired.find? (fun p => !p.2.2.2.2) with
      | none => s
      | some p =>
        let s1 := appendSetting 4 0x0A (le 8 (retiredEntry p.1 p.2)) s
        { s1 with mem := { s1.mem with retired := aset s1.mem.retired p.1 (p.2.1, p.2.2.1, p.2.2.2.1, true) } })

/-! ### Images over the carillon (R460, R500, R516, R517) -/

/-- `fw.distribute`. -/
def fwDistribute (h : HeldCmd) (s : State) : Verdict :=
  let f := par h 1 1
  let toNeighbour := bit f 0 == 1
  if bits f 7 2 != 0 || !parZero h 2 2 then .refuse St.invalidParam
  else if !toNeighbour && s.crl.role != .head then .refuse St.fwNotHead
  else if stagingBusy s || s.fw.dist.isSome then .refuse St.fwBusy
  else if uStage s != 3 then .refuse St.fwNotStaged
  else
    let named := (List.range 8).filter (fun p => bit (par h 0 1) p == 1)
    let known := named.filter (fun p => p == 0 || !ahas s.crl.members p)
    let d : Distribution := { transfer := s.crl.msgId, positions := par h 0 1, neighbour := if toNeighbour then some (bit f 1) else none,
                              contig := [], results := if toNeighbour then [] else known.foldl (fun r p => aset r p (if p = 0 then 0 else 0xFF)) [],
                              sent := 0 }
    if !toNeighbour && named.length = known.length then
      let bad := named.any (· != 0)
      .done (if bad then 1 + unstatedAt 36 s % 65535 else St.ok) (distResponse d) (drawn s)
    else .wait .distribute [] (distributeFrom 0 (updFw (fun f => { f with dist := some d }) s))

def specFwDistribute : CmdSpec := ⟨4, .effect, fwDistribute⟩
def execFwDistribute (c : Cmd) (s : State) : Res := runCmd 0x0C03 specFwDistribute c s

/-- Acknowledge chunks: CONTIG, and the first missing byte of a gap. -/
def imageAck (transfer nak : Nat) (s : State) : State :=
  let p := be 4 transfer ++ be 4 s.fw.contig ++ be 4 nak
  if s.mgmt.rom then
    let m := ownMsg 0x31 0 s.crl.msgId p s
    crlOut 1 m (crlOut 0 m (nextMsg s))
  else flood 0x31 0 p s

/-- A chunk of a new TRANSFER is treated as `fw.download` with FIRST, when that is allowed. -/
def newTransfer (transfer total : Nat) (s : State) : Option State :=
  if s.fw.rxTransfer == some transfer then some s
  else if (if s.mgmt.rom then s.fw.copy.isSome else uState s != Upd.idle) || !flashUsable s || total < 16384 || 16777216 < total then none
  else some (updFw (fun f => { f with rxTransfer := some transfer }) (beginStaging total s))

/-- A chunk received: checked, written, forwarded, acknowledged (R460). -/
def onChunk (port : Nat) (msg : List Byte) (m : Msg) (s : State) : State :=
  let b := m.payload
  let transfer := rdBe b 0 4
  let off := rdBe b 4 4
  let data := b.drop 16
  if s.crl.role == .head || s.mgmt.restarting then s
  else match newTransfer transfer (rdBe b 8 4) s with
    | none => s
    | some s1 =>
      let held := s1.fw.contig
      if crc32c data != rdBe b 12 4 || held < off then imageAck transfer held s1
      else
        let s2 := stageFrom off data s1
        let s3 := if !s2.mgmt.rom && crlOpen (1 - port) s2 then emit (.carillon (1 - port) msg) s2 else s2
        let s4 := imageAck transfer 0xFFFFFFFF s3
        if held < s4.fw.contig && s4.fw.contig = s4.fw.total then beginVerify s4 else s4

/-- `IMAGE_CHUNK`. -/
def execImageChunk (port : Nat) (msg : List Byte) (s : State) : Res :=
  .next (match crlReceive port 0x30 msg s with
    | (none, s1) => s1
    | (some m, s1) => if s1.mgmt.ready || s1.mgmt.rom then onChunk port msg m s1 else s1)

/-- An acknowledgement at the sender: what is missing is sent again; a member that holds all is asked for its status (R500). -/
def onImageAck (m : Msg) (s : State) : State :=
  match s.fw.dist with
  | none => s
  | some d =>
    if rdBe m.payload 0 4 != d.transfer || s.mgmt.restarting then s
    else
      let contig := rdBe m.payload 4 4
      let nak := rdBe m.payload 8 4
      let s1 := updFw (fun f => { f with dist := some { d with contig := aset d.contig m.src contig } }) s
      let s2 := if nak = 0xFFFFFFFF then s1 else distributeFrom nak s1
      if contig < stageLength s2 then s2
      else if d.neighbour.isSome then endDistribution s2
      else if bit d.positions m.src = 1 && !ahas d.results m.src && m.src < 8 then ownRelay 0 m.src 0x0C07 [] s2
      else s2

/-- `IMAGE_ACK`; that of a boot ROM comes from SRC 0xFF on the port that is fed (R516). -/
def execImageAck (port : Nat) (msg : List Byte) (s : State) : Res :=
  .next (if (msgOf msg).src = 0xFF && (s.fw.dist.any (fun d => d.neighbour == some port)) && fcsGood msg && !msgRefused 0 msg s &&
        (msgOf msg).typ = 0x31 then onImageAck (msgOf msg) s
    else match crlReceive port 0x31 msg s with
      | (none, s1) => s1
      | (some m, s1) => onImageAck m s1)

/-- A member's `fw.status` answers the head: VERIFIED is OK, a verification that runs is asked again; the spec gives no code for another
end: a free value of place 40 (log 18). -/
def memberStatus (pos st : Nat) (resp : List Byte) (s : State) : State :=
  match s.fw.dist with
  | none => s
  | some d =>
    let pending := bit (rd resp 9 1) 2 == 1 || rd resp 10 1 == 1
    if st = St.ok && pending then ownRelay 0 pos 0x0C07 [] s
    else
      let code := if st != St.ok then st % 256 else if rd resp 10 1 = 3 then 0 else 1 + unstatedAt 40 s % 255
      let d1 := { d with results := aset d.results pos code }
      let s1 := drawn (updFw (fun f => { f with dist := some d1 }) s)
      if (List.range 8).all (fun p => bit d.positions p == 0 || ahas d1.results p) then endDistribution s1 else s1

/-- `RELAY_RESP` (R459): it ends the command relayed under its MSG_ID, or answers a relay of the head's own. -/
def onRelayResp (m : Msg) (s : State) : State :=
  let st := rdBe m.payload 0 2
  let resp := slice m.payload 8 (rdBe m.payload 4 4)
  match s.mgmt.running.find? (fun r => r.waits == .relay m.src m.msgId) with
  | some r => finishRunning r st resp false 0 0 s
  | none =>
    match s.crl.relaySent.find? (fun x => x.1 == m.src && x.2.1 == m.msgId) with
    | none => s
    | some x =>
      let s1 := updCrl (fun c => { c with relaySent := c.relaySent.filter (fun y => y != x) }) s
      if x.2.2 = 0 then memberStatus m.src st resp s1
      else if x.2.2 = 1 && st != St.ok then stopSchedule m.src st s1
      else s1

def execRelayResp (port : Nat) (msg : List Byte) (s : State) : Res :=
  .next (match crlReceive port 0x21 msg s with
    | (none, s1) => s1
    | (some m, s1) => if s1.mgmt.restarting then s1 else onRelayResp m s1)

end Sys2Proof.Machine
end

