-- ==== Sys2Proof/Machine/System.lean ====
section
/-! DEFINITION. System commands: information, restart, event binding, the journal; the watchdog and the start of a management restart (R398, R402 to R406, R541 to R543). -/

namespace Sys2Proof.Machine
open Sys2Proof

/-- FORM and PCIE_SPLIT. -/
def splitStrap (s : State) : Nat := bit s.glb.strap 0

/-- `sys.info` (Table 11-11). -/
def sysInfo (_ : HeldCmd) (s : State) : Verdict :=
  let rom := s.mgmt.rom
  .done St.ok (le 2 0x1640 ++ le 1 0xB0 ++ le 1 s.glb.form ++ le 4 (if rom then 0 else runVersion s) ++
    le 1 (if rom then 0 else runSecurity s) ++ le 1 (b2n rom) ++ le 1 (ownSrc s) ++ le 1 (splitStrap s) ++ le 4 s.mgmt.restarts ++
    le 8 s.glb.serial ++ le 8 (if rom then 0 else s.mgmt.journalNext) ++ le 4 s.mgmt.running.length ++ zeros 4) s

def specSysInfo : CmdSpec := ⟨0, .query, sysInfo⟩
def execSysInfo (c : Cmd) (s : State) : Res := runCmd 0x0101 specSysInfo c s

/-- `sys.restart` (R406): the restart is due within 10 ms. -/
def sysRestart (h : HeldCmd) (s : State) : Verdict :=
  if !parZero h 0 4 then .refuse St.invalidParam
  else .done St.ok [] { s with mgmt := { s.mgmt with restartDue := some (s.elapsed + 10000000) } }

def specSysRestart : CmdSpec := ⟨4, .effect, sysRestart⟩
def execSysRestart (c : Cmd) (s : State) : Res := runCmd 0x0104 specSysRestart c s

/-- `event.bind` (R398): waiting events are written when a ring is bound. -/
def eventBind (h : HeldCmd) (s : State) : Verdict :=
  let fn := par h 0 1
  let ring := par h 2 2
  if 1 < fn || !fnExists fn s || !parZero h 1 1 || par h 4 2 % 2 != 0 || !parZero h 6 2 then .refuse St.invalidParam
  else match tollRingOf fn ring s with
    | none => .refuse St.noSuchRing
    | some r =>
      let s1 := updFn fn (fun f => { f with evRing := r, evMute := par h 4 2 }) s
      .done St.ok [] (flushEvents ((pciFn fn s1).evPending.length + 1) fn s1)

def specEventBind : CmdSpec := ⟨8, .effect, eventBind⟩
def execEventBind (c : Cmd) (s : State) : Res := runCmd 0x0105 specEventBind c s

/-- `journal.read` (R404). -/
def journalRead (h : HeldCmd) (s : State) : Verdict :=
  let start := par h 0 8
  let count := par h 8 2
  let oldest := s.mgmt.journalNext - s.mgmt.journal.length
  if count < 1 || 1000 < count || !parZero h 10 6 || s.mgmt.journalNext < start then .refuse St.invalidParam
  else if s.mem.journalBad then .done St.memError [] { s with mem := { s.mem with journalBad := false } }
  else
    let first := max start oldest
    let recs := (s.mgmt.journal.reverse.drop (first - oldest)).take count
    .done St.ok (le 8 oldest ++ le 8 s.mgmt.journalNext ++ recs.flatMap journalBytes) s

def specJournalRead : CmdSpec := ⟨16, .query, journalRead⟩
def execJournalRead (c : Cmd) (s : State) : Res := runCmd 0x0106 specJournalRead c s

/-- A start that does not reach READY counts against its slot (R494, R543). -/
def countFailedStart (s : State) : State := updFw (fun f => { f with failedStarts := f.failedStarts + 1 }) s

/-- `WATCHDOG_EXPIRY`: 1 s without a service; a start before READY is one of the three of R494 (R541, R543). -/
def execWatchdogExpiry (s : State) : Res :=
  .next (if s.mgmt.rom || s.crl.parked || 5 ≤ s.pwr.level then s
    else
      let s1 := advanceTo (s.mgmt.watchdogAt + 1000000000) s
      if s1.mgmt.ready then beginRestart 0 s1
      else
        let s2 := if s1.fw.image.isEmpty then bootImage s1 else s1
        if s2.mgmt.rom then s2 else beginRestart 0 (countFailedStart s2))

/-- `MANAGEMENT_RESTART`: a restart ordered by `sys.restart` begins when it is due; any other cause begins one at once (R541, R542). -/
def execManagementRestart (cause : Nat) (s : State) : Res :=
  .next (if s.mgmt.rom || s.crl.parked || 5 ≤ s.pwr.level || !s.mgmt.ready then s
    else if cause = 1 then
      match s.mgmt.restartDue with
      | some _ => beginRestart 1 s
      | none => s
    else beginRestart (cause % 4) s)

end Sys2Proof.Machine
end

