-- ==== Sys2Proof/Machine/Power.lean ====
section
/-! DEFINITION. Shedding, sensors, rails and power failure (R544 to R551, R601): the shed level and its actions, S5 and the Knell record, the commands of group 0x0E about them. -/

namespace Sys2Proof.Machine
open Sys2Proof

/-- Change what is kept of power, Hum and faults. -/
def updPwr (f : Power → Power) (s : State) : State := { s with pwr := f s.pwr }

/-- The part has its power and its clock: it is neither parked nor held in reset. -/
def awake (s : State) : Bool := !s.crl.parked && !s.pwr.dead

/-- Let time pass until the next multiple of a period of Tempo (R522). -/
def nextInstant (periodNs : Nat) (s : State) : State := advanceTempo ((tempoNs s / periodNs + 1) * periodNs * tuPerNs) s

/-! ### Requests (Table 15-8) -/

/-- Requests in force, PWR_STATUS bits 6:0. -/
def requestBits (p : Power) : Nat :=
  b2n (0 < p.board) + b2n (0 < p.floor) * 2 + b2n (0 < p.dieAsk) * 4 + b2n (0 < p.hbmAsk) * 8 + b2n p.railLow * 16 +
  b2n p.powerFail * 32 + b2n p.thermalTrip * 64

/-- The highest level asked below S5. -/
def highestAsk (p : Power) : Nat := max (max p.board p.floor) (max (max p.dieAsk p.hbmAsk) (if p.railLow then 4 else 0))

/-- PWR_STATUS (Table 15-15). -/
def pwrStatus (s : State) : Nat :=
  let p := s.pwr
  p.level * 536870912 + p.floor * 67108864 + p.board * 16777216 + b2n p.powerFail * 8388608 + b2n s.glb.fatal * 4194304 + requestBits p

/-! ### Entry and exit actions (Table 15-10) -/

/-- Items that S3 makes dormant, in order: those with SHED_RANK below S3_KEEP_RANK. -/
def sleepPlan (s : State) : List Nat := ((shedOrder s).filter (fun x => x.1 < s.pwr.keepRank)).map (·.2)

/-- SHED_RANK of a port or a group (256 + g). -/
def rankOf (k : Nat) (s : State) : Nat :=
  if 256 ≤ k then ((flxGroup (k - 256) s).map (·.shedRank)).getD 0 else ((mac? k s).map (·.cfg.shedRank)).getD 0

/-- Entry to a level: its counter, then its actions; what still waited to wake stays dormant. -/
def enterLevel (k : Nat) (s : State) : State :=
  let s1 := tally (ctrId 9 0 (k - 1)) (updPwr (fun p => { p with level := k }) s)
  if k = 1 then { s1 with mem := { s1.mem with deferred := true } }
  else if k = 2 then disableSpill s1
  else if k = 3 then updPwr (fun p => { p with toSleep := sleepPlan s1, toWake := [], asleep := p.toWake.reverse }) s1
  else if k = 4 then haltData (protFail (updPwr (fun p => { p with toWake := [], asleepS4 := p.toWake.reverse ++ p.asleepS4 }) s1))
  else s1

/-- Below S2 the stacks that were powered down train again; with HBM ready the spill path is enabled (R252, R436). -/
def leaveS2 (s : State) : State :=
  let down := stackBits 3 s
  if down = 0 then enableSpill true s
  else raiseEvent Ev.hbmPower down 0 0 { s with mem := { s.mem with hbmStacks := s.mem.hbmStacks.map (fun k => if k.1 = 3 then (1, 0) else k) } }

/-- Below S4 the data plane runs again, unless a fatal report stands: lanes are enabled, and what S4 alone made dormant wakes. -/
def leaveS4 (s : State) : State :=
  if s.glb.fatal then s
  else
    let kept := s.pwr.asleepS4.filter (fun k => s.pwr.keepRank ≤ rankOf k s)
    let rest := s.pwr.asleepS4.filter (fun k => rankOf k s < s.pwr.keepRank)
    applyLanes s.fab.planeB false
      (updPwr (fun p => { p with toWake := kept.reverse, asleep := p.asleep ++ rest, asleepS4 := [] }) s)

/-- Exit from a level to the one below it. -/
def exitLevel (k : Nat) (s : State) : State :=
  let s1 := updPwr (fun p => { p with level := k - 1 }) s
  if k = 1 then { s1 with mem := { s1.mem with deferred := false } }
  else if k = 2 then leaveS2 s1
  else if k = 3 then updPwr (fun p => { p with toWake := p.toWake ++ p.asleep.reverse, toSleep := [], asleep := [] }) s1
  else if k = 4 then leaveS4 s1
  else s1

/-! ### The level (Table 15-9) -/

/-- Keep a level change: the last 8, newest first, and its Tempo. -/
def noteLevel (s : State) : State :=
  updPwr (fun p => { p with history := ((p.level, s.elapsed) :: p.history).take 8, lastChange := s.tempo.now }) s

/-- Report a level change. -/
def levelChanged (was : Nat) (s : State) : State :=
  let s1 := noteLevel s
  raiseGlb 8 (raiseEvent Ev.shedLevel s1.pwr.level (requestBits s1.pwr) was s1)

/-- Raise the level to `r`: the entry actions of every level passed, in order. -/
def raiseLevel (r : Nat) (s : State) : State :=
  let n := s.pwr.level
  levelChanged n ((List.range (r - n)).foldl (fun s k => enterLevel (n + 1 + k) s) (updPwr (fun p => { p with belowSince := none }) s))

/-- Bring the level to the requests: a higher one raises it at once, a lower one starts the 1 s after which it falls. -/
def settleShed (s : State) : State :=
  if 5 ≤ s.pwr.level then s
  else
    let r := highestAsk s.pwr
    if s.pwr.level < r then raiseLevel r s
    else if r < s.pwr.level then updPwr (fun p => { p with belowSince := some (p.belowSince.getD s.elapsed) }) s
    else updPwr (fun p => { p with belowSince := none }) s

/-- `SHED_REQUEST_CHANGE`: SHED_REQ[1:0] as two equal samples gave it (R544). -/
def execShedRequestChange (board : Nat) (s : State) : Res :=
  .next (if awake s then settleShed (updPwr (fun p => { p with board := board % 4 }) s) else s)

/-- `SHED_LEVEL_DECAY`: the highest request has stayed below the level for 1 s. -/
def execShedLevelDecay (s : State) : Res :=
  .next (match s.pwr.belowSince with
    | none => s
    | some t =>
      if s.pwr.level = 0 || 5 ≤ s.pwr.level || s.pwr.level ≤ highestAsk s.pwr || !awake s then s
      else
        let n := s.pwr.level
        let s1 := advanceTo (t + 1000000000) s
        settleShed (levelChanged n (exitLevel n (updPwr (fun p => { p with belowSince := none }) s1))))

/-- `S3_DORMANT_STEP`: 1 ms later the next port or group goes dormant, or wakes (R110, R121). -/
def execS3DormantStep (s : State) : Res :=
  .next (
    if halted s then s
    else match s.pwr.toSleep, s.pwr.toWake with
      | k :: rest, _ =>
        sleepItem k (updPwr (fun p => { p with toSleep := rest, asleep := p.asleep ++ [k] }) (tickBy 1000000 s))
      | [], k :: rest => wakeItem k (updPwr (fun p => { p with toWake := rest }) (tickBy 1000000 s))
      | [], [] => s)

/-! ### Sensors (Table 15-1, activity 0) -/

/-- The highest of some readings, or what stood when there is none. -/
def hottest (l : List Int) (d : Int) : Int :=
  match l with
  | [] => d
  | a :: t => t.foldl max a

/-- Thresholds of the die temperature for S1 to S4, and the trip (Table 15-8). -/
def dieThresholds : List Int := [100, 103, 105, 110]

/-- The level that the die temperature asks, with the withdrawal 5 °C below each threshold. -/
def dieLevel (t : Int) (was : Nat) : Nat :=
  ((List.range 4).filter (fun k =>
    let h := dieThresholds.getD k 0
    h ≤ t || (k < was && h - 5 < t))).foldl (fun m k => max m (k + 1)) 0

/-- The level that the stack temperatures ask. -/
def hbmLevel (l : List Int) (was : Nat) : Nat := if l.any (fun t => 95 ≤ t || (0 < was && 90 ≤ t)) then 2 else 0

/-- Stacks whose refresh is doubled (R437). -/
def doubledRefresh (was : Nat) (l : List Int) : Nat :=
  (List.range 4).foldl (fun n k => n + b2n (85 ≤ l.getD k 0 || (bit was k == 1 && 80 ≤ l.getD k 0)) * 2 ^ k) 0

/-- Report the thresholds that a sensor crosses upward. -/
def crossings (sensor : Nat) (thresholds : List Int) (was now : Int) (s : State) : State :=
  thresholds.foldl (fun s h =>
    if was < h && h ≤ now then raiseEvent Ev.thermal sensor (unsignedOf 32 now) (unsignedOf 64 h) s else s) s

/-- A Hum activity's record. -/
def humOf (id : Nat) (s : State) : Hum := s.pwr.hum.getD id (State.resetHum 0)

/-- Change a Hum activity's record. -/
def updHum (id : Nat) (f : Hum → Hum) (s : State) : State := updPwr (fun p => { p with hum := p.hum.modify id f }) s

/-- A record at an elapsed instant: a pass whose end has come is counted, with what it fixed (Table 15-14). -/
def humAt (now : Nat) (h : Hum) : Hum :=
  match h.current with
  | none => h
  | some (e, t, fixes) =>
    if now < e then h else { h with passes := h.passes + 1, fixes := h.fixes + fixes, lastEnd := t, current := none }

/-- A pass of an activity still runs. -/
def humBusy (id : Nat) (s : State) : Bool := (humAt s.elapsed (humOf id s)).current.isSome

/-- Count a pass that ends at the instant it starts: a sample, or the last MiB of the DDR4 scrub. -/
def humDone (id : Nat) (s : State) : State := updHum id (fun h => { h with passes := h.passes + 1, lastEnd := s.tempo.now }) s

/-- A pass of a Hum activity has started, and what it fixes; how long it runs is unstated: a free value of place 31 (log 18). -/
def humPass (id fixes : Nat) (s : State) : State :=
  let ns := unstatedAt 31 s
  updHum id (fun h => { humAt s.elapsed h with current := some (s.elapsed + ns, s.tempo.now + ns * tuPerNs, fixes) }) (drawn s)

/-- EV_HUM_OVERRUN of an activity, at most once per hour (R527). -/
def humOverrun (id : Nat) (s : State) : State :=
  if (humOf id s).overrunAt.any (fun t => decide (s.elapsed < t + 3600000000000)) then s
  else raiseEvent Ev.humOverrun id 0 0 (updHum id (fun h => { h with overrunAt := some s.elapsed }) s)

/-- An activity's start instant: its pass starts, unless the one before still runs; then that one continues (R527). -/
def humStart (id periodNs : Nat) (pass : State → State) (s : State) : State :=
  let s1 := nextInstant periodNs s
  if humBusy id s1 then humOverrun id s1 else pass s1

/-- The core rail's request is withdrawn once the rail has been in range for 1 s. -/
def railStep (mv : Nat) (s : State) : State :=
  if !s.pwr.railLow then s
  else if mv < 720 then updPwr (fun p => { p with railOkSince := none }) s
  else match s.pwr.railOkSince with
    | none => updPwr (fun p => { p with railOkSince := some s.elapsed }) s
    | some t => if t + 1000000000 ≤ s.elapsed then updPwr (fun p => { p with railLow := false, railOkSince := none }) s else s

/-- `SENSOR_SAMPLE`: the eight sensors of FD, then the eight of QD; the four stacks; the core rail in mV. -/
def execSensorSample (dies hbm : List Int) (rail : Nat) (s : State) : Res :=
  .next (if !awake s then s
    else
      let s1 := nextInstant 1000000 s
      let fd := hottest (dies.take 8) s1.pwr.tempFd
      let qd := hottest ((dies.drop 8).take 8) s1.pwr.tempQd
      let hot := (List.range 4).map (fun k => hbm.getD k (s1.mem.temps.getD k 0))
      let p0 := s1.pwr
      let t0 := s1.mem.temps
      let s2 := updPwr (fun p => { p with
        tempFd := fd, tempQd := qd, rail := rail, dieAsk := dieLevel (max fd qd) p.dieAsk, hbmAsk := hbmLevel hot p.hbmAsk })
        { s1 with mem := { s1.mem with temps := hot, doubled := doubledRefresh s1.mem.doubled hot } }
      let s3 := railStep rail (if s2.pwr.level = 0 then humDone 5 (humDone 0 s2) else humDone 0 s2)
      if 5 ≤ s3.pwr.level then s3
      else
        let trip := dieThresholds ++ [115]
        let s4 := crossings 1 trip p0.tempQd qd (crossings 0 trip p0.tempFd fd s3)
        let s5 := (List.range 4).foldl (fun s k => crossings (2 + k) [95] (t0.getD k 0) (hot.getD k 0) s) s4
        settleShed s5)

/-! ### The Knell (R548 to R550) -/

/-- First address of a slot. -/
def knellBase (k : Nat) : Nat := 0x30000 + 512 * k

/-- A slot's 512 bytes. -/
def knellSlot (k : Nat) (s : State) : List Byte := flashRead (knellBase k) 512 s

/-- A record is valid: MAGIC and CRC check. -/
def knellGood (r : List Byte) : Bool := rd r 0 4 == 0x414C4B4E && rd r 496 4 == crc32c (r.take 496)

/-- Valid records by slot, highest SEQ first. -/
def knellRecords (s : State) : List (Nat × List Byte) :=
  sortBy (fun a b => rd b.2 4 4 < rd a.2 4 4)
    (((List.range 256).map (fun k => (k, knellSlot k s))).filter (fun x => knellGood x.2))

/-- The slot that the next record takes. -/
def knellNext (s : State) : Nat :=
  match knellRecords s with
  | [] => 0
  | x :: _ => (x.1 + 1) % 256

/-- Every byte of a range of flash is erased. -/
def erased (a n : Nat) (s : State) : Bool := s.fw.flash.all (fun x => x.1 < a || a + n ≤ x.1)

/-- The next slot opens a sector that is not erased. -/
def knellSectorDue (s : State) : Bool := knellNext s % 128 == 0 && !erased (knellBase (knellNext s)) 65536 s

/-- Erase that sector (R549). -/
def eraseKnell (s : State) : State := if knellSectorDue s then flashErase (knellBase (knellNext s)) 65536 s else s

/-- `KNELL_SECTOR_ERASE`: Teruo erases the sector in advance. -/
def execKnellSectorErase (s : State) : Res :=
  .next (if s.mgmt.ready && !s.mgmt.rom && !s.mgmt.restarting && flashUsable s then eraseKnell s else s)

/-- A flash erase or program is in progress. -/
def flashBusy (s : State) : Bool :=
  s.fw.copy.isSome || s.mgmt.running.any (fun r => match r.waits with
    | .flash => true
    | .setting _ _ => true
    | .fuse => true
    | _ => false)

/-- A fault-log record's 32 bytes (R553). -/
def faultBytes (f : FaultRec) : List Byte :=
  le 2 f.code ++ le 1 f.cls ++ zeros 1 ++ le 6 (secOf f.tempo) ++ le 4 (nsOf f.tempo) ++ zeros 2 ++ le 8 f.arg1 ++ le 8 f.arg2

/-- SHED_HISTORY: level, and ms before now, of the last 8 changes. -/
def historyBytes (s : State) : List Byte :=
  fit 32 (s.pwr.history.flatMap (fun h => le 4 (h.1 * 536870912 + (s.elapsed - h.2) / 1000000 % 536870912)))

/-- SEQ of the next Knell record; the first one has none before it: a free value of place 42 (log 18). -/
def knellSeq (s : State) : Nat :=
  match knellRecords s with
  | [] => unstatedAt 42 s % 4294967296
  | x :: _ => (rd x.2 4 4 + 1) % 4294967296

/-- The 512 bytes of a Knell record, REPORTED left erased (Table 15-12). -/
def knellBytes (cause : Nat) (s : State) : List Byte :=
  let flags := b2n (flashBusy s) + b2n s.mgmt.restarting * 2 + b2n (!s.commits.isEmpty) * 4 + b2n s.glb.fatal * 8
  let temp := fun (t : Int) => le 1 (unsignedOf 8 t)
  let body := le 4 0x414C4B4E ++ le 4 (knellSeq s) ++ le 1 cause ++ le 1 s.pwr.level ++ le 2 flags ++ le 4 (runVersion s) ++
    le 8 s.glb.serial ++ le 6 (secOf s.tempo.now) ++ le 4 (nsOf s.tempo.now) ++ le 1 (tmpStatus s % 128) ++
    le 1 ((ownPosition s).getD 0xFF) ++ le 4 s.mgmt.restarts ++ le 8 s.tempo.epoch ++ le 4 s.tempo.cseq ++ le 1 s.prot.state ++
    le 1 (uState s) ++ zeros 2 ++ le 6 (secOf s.toll.lastReached) ++ le 4 (nsOf s.toll.lastReached) ++ zeros 2 ++
    le 4 s.mgmt.eventSeq ++ le 8 s.mgmt.journalNext ++ temp s.pwr.tempFd ++ temp s.pwr.tempQd ++
    (List.range 4).flatMap (fun k => temp (s.mem.temps.getD k 0)) ++ zeros 2 ++ historyBytes s ++ le 4 s.qdm.stored.length ++
    le 4 (pagesHeld s).length ++ le 4 s.mgmt.running.length ++ le 4 (stagedUnits s) ++
    (match s.pwr.faults with
      | [] => zeros 32
      | f :: _ => faultBytes f) ++ zeros 328
  body ++ le 4 (crc32c body) ++ zeros 4 ++ le 4 0xFFFFFFFF ++ zeros 4

/-- Teruo has reached step 6 of its start: it runs, or restarts (R548). -/
def knellArmed (s : State) : Bool := (s.mgmt.ready || s.mgmt.restarting) && !s.mgmt.rom && flashUsable s

/-- Write the Knell record into the next slot, when that slot is erased. -/
def writeKnell (cause : Nat) (s : State) : State :=
  let k := knellNext s
  if knellArmed s && erased (knellBase k) 512 s then drawn (flashWrite (knellBase k) (knellBytes cause s) s) else s

/-! ### S5 (R547, R548) -/

/-- Every transmitter is off, and Teruo has stopped. -/
def goQuiet (s : State) : State :=
  let s1 := updFn 1 (fun f => { f with busMaster := false, linkUp := false }) (updFn 0 (fun f => { f with busMaster := false, linkUp := false }) s)
  { s1 with mgmt := { s1.mgmt with ready := false, restarting := false, held := [], restartDue := none },
            crl := { s1.crl with enable := false }, bus := { s1.bus with enable := false },
            fw := { s1.fw with copy := none, verifying := false } }

/-- Enter S5: the record is written, the data plane stops, nothing is sent any more. -/
def enterS5 (cause : Nat) (s : State) : State :=
  if 5 ≤ s.pwr.level then s
  else
    let s1 := writeKnell cause s
    let s2 := updPwr (fun p => { p with level := 5, belowSince := none, toSleep := [], toWake := [] }) s1
    goQuiet (if halted s1 then s2 else haltData s2)

/-- PWR_FAIL_N has been accepted, or acts as if. -/
def powerFails (s : State) : State := enterS5 0 (updPwr (fun p => { p with powerFail := true }) s)

/-- `PWR_FAIL_N_ACCEPTED`: the pin was low for 1 µs. -/
def execPwrFailNAccepted (s : State) : Res := .next (if awake s then powerFails s else s)

/-- `THERMAL_TRIP`: 115 °C for 1 ms; THERMTRIP_N is driven low until the power-on reset (R606). -/
def execThermalTrip (s : State) : Res :=
  .next (if awake s && !s.pwr.thermalTrip then emit (.pin .thermTripN false) (enterS5 1 (updPwr (fun p => { p with thermalTrip := true }) s)) else s)

/-! ### Commands (Table 15-14) -/

/-- Set FLOOR and S3_KEEP_RANK: at S3 the plan of what goes dormant follows, and the level follows the requests (R546). -/
def setShed (floor keepRank : Nat) (s : State) : State :=
  let s1 := updPwr (fun p => { p with floor := floor, keepRank := keepRank }) s
  settleShed (if s1.pwr.level = 3 then updPwr (fun p => { p with toSleep := sleepPlan s1 }) s1 else s1)

/-- `power.shed.config` (R546). -/
def powerShedConfig (h : HeldCmd) (s : State) : Verdict :=
  if 4 < par h 0 1 || 16 < par h 1 1 || !parZero h 2 2 then .refuse St.invalidParam
  else .done St.ok [] (setShed (par h 0 1) (par h 1 1) s)

/-- What `power.shed.config` and `hum.config` set is not kept across a start, a management restart among them (R497, R546, Table 15-14; log 28). -/
def forgetPowerSettings (s : State) : State :=
  setShed 0 8 (updPwr (fun p => { p with
    hum := (p.hum.modify 7 (fun x => { x with enabled := true, period := 60 })).modify 8 (fun x => { x with enabled := true, period := 86400 }) }) s)

def specPowerShedConfig : CmdSpec := ⟨4, .effect, powerShedConfig⟩
def execPowerShedConfig (c : Cmd) (s : State) : Res := runCmd 0x0E01 specPowerShedConfig c s

/-- A counter's total since reset, what register reads took out added back (R440, Table 15-14). -/
def lifeCtr (id : Nat) (s : State) : Nat := ctr id s + agetD s.glb.cleared id 0

/-- `power.status`. -/
def powerStatus (_ : HeldCmd) (s : State) : Verdict :=
  let p := s.pwr
  .done St.ok (le 4 (pwrStatus s) ++ le 1 (unsignedOf 8 p.tempFd) ++ le 1 (unsignedOf 8 p.tempQd) ++
    (List.range 4).flatMap (fun k => le 1 (unsignedOf 8 (s.mem.temps.getD k 0))) ++ le 2 p.rail ++ zeros 4 ++
    (List.range 4).flatMap (fun k => le 4 (lifeCtr (ctrId 9 0 k) s)) ++
    le 6 (secOf p.lastChange) ++ le 4 (nsOf p.lastChange) ++ zeros 6) s

def specPowerStatus : CmdSpec := ⟨0, .query, powerStatus⟩
def execPowerStatus (c : Cmd) (s : State) : Res := runCmd 0x0E02 specPowerStatus c s

/-- `knell.read` (R550). -/
def knellRead (h : HeldCmd) (s : State) : Verdict :=
  if 255 < par h 0 1 || !parZero h 1 3 then .refuse St.invalidParam
  else if !flashUsable s then .refuse St.flashError
  else match (knellRecords s)[par h 0 1]? with
    | none => .refuse St.notFound
    | some x => .done St.ok (le 4 x.1 ++ zeros 4 ++ x.2) s

def specKnellRead : CmdSpec := ⟨4, .query, knellRead⟩
def execKnellRead (c : Cmd) (s : State) : Res := runCmd 0x0E05 specKnellRead c s

end Sys2Proof.Machine
end

