-- ==== Sys2Proof/Machine/Faults.lean ====
section
/-! DEFINITION. Errors in on-die memories and their containment (R537 to R539, Table 15-6), injected errors among them (R591). -/

namespace Sys2Proof.Machine
open Sys2Proof

/-! ### Packets in error (packet memory) -/

/-- A packet lost to an error of its memory is counted in buf.error. -/
def bufError (s : State) : State := tally (ctrId 22 0 0) s

/-- The packet is the stored copy `n`. -/
def isStored (n : Nat) (p : Pkt) : Bool := p.store == some n

/-- Discard the packets of a VOQ that are the stored copy `n`. -/
def loseInVoq (n v : Nat) (s : State) : State :=
  let q := voq v s
  let gone := (q.head ++ q.backlog ++ q.tail).filter (isStored n)
  if gone.isEmpty then s
  else
    let keep := fun (l : List Pkt) => l.filter (fun p => !isStored n p)
    let cut := q.backlog.head?.any (isStored n)
    let s1 := updVoq v (fun q => { q with head := keep q.head, backlog := keep q.backlog, tail := keep q.tail }) s
    let s2 := if cut then updVoq v (fun q => { q with written := 0 }) (setSegment v q.segStart (q.segEnd - q.written) s1) else s1
    settleCredit v (checkUnspill v (gone.foldl (fun s p => discardVoq v St.bufError p s) s2))

/-- Discard the packets of a leaf queue that are the stored copy `n`. -/
def loseInLeaf (n l : Nat) (s : State) : State :=
  let gone := (leafQueue l s).filter (isStored n)
  if gone.isEmpty then s
  else gone.foldl (fun s p => directDone p (endPkt p St.bufError ((leafMac l s).getD 0) (dropCause St.bufError s)))
    (setLeaf l ((leafQueue l s).filter (fun p => !isStored n p)) s)

/-- Discard the packets of a punt queue that are the stored copy `n`. -/
def loseInPunt (n q : Nat) (s : State) : State :=
  let ps := agetD s.qdm.punts q []
  let gone := ps.filter (fun p => p.store == some n)
  if gone.isEmpty then s
  else gone.foldl (fun s p => unref p.store (dropCause St.bufError s))
    { s with qdm := { s.qdm with punts := aset s.qdm.punts q (ps.filter (fun p => p.store != some n)) } }

/-- A transfer on the bridge carries the stored copy `n`. -/
def carries (n : Nat) : Xfer → Bool
  | .toVoq p => isStored n p
  | .toPunt _ p => p.store == some n
  | .toLeaf _ p => isStored n p
  | .toEgress _ _ p => isStored n p
  | .toHost _ _ _ _ _ p => p.store == some n

/-- Discard the transfers that carry the stored copy `n`. -/
def loseOnBridge (n : Nat) (s : State) : State :=
  let b := s.bridge
  let gone := (b.toQd ++ b.toFd ++ b.atQd ++ b.atFd).filter (carries n)
  let keep := fun (l : List Xfer) => l.filter (fun x => !carries n x)
  gone.foldl (fun s x => dropXfer St.bufError x s)
    { s with bridge := { b with toQd := keep b.toQd, toFd := keep b.toFd, atQd := keep b.atQd, atFd := keep b.atFd } }

/-- Discard the frames of a port's transmit queues that are the stored copy `n`. -/
def loseInTxq (n m : Nat) (s : State) : State :=
  match mac? m s with
  | none => s
  | some x =>
    let gone := ((avals x.txq).flatMap id).filter (fun f => isStored n f.pkt)
    if gone.isEmpty then s
    else gone.foldl (fun s f => endPkt f.pkt St.bufError m (dropCause St.bufError s))
      (updMac m (fun x => { x with txq := x.txq.map (fun q => (q.1, q.2.filter (fun f => !isStored n f.pkt))) }) s)

/-- The stored copy `n` is in error: every packet that refers to it is discarded. -/
def loseStored (n : Nat) (s : State) : State :=
  let s1 := (akeys s.qdm.voqs).foldl (fun s v => loseInVoq n v s) s
  let s2 := (akeys s1.sched.queues).foldl (fun s l => loseInLeaf n l s) s1
  let s3 := (akeys s2.qdm.punts).foldl (fun s q => loseInPunt n q s) s2
  (akeys s3.macs).foldl (fun s m => loseInTxq n m s) (loseOnBridge n s3)

/-- The head packet of a receive FIFO's sub-queue is in error; `item`: MAC × 8 + sub-queue. -/
def loseRx (item : Nat) (s : State) : State :=
  match mac? (item / 8) s with
  | none => s
  | some x => match agetD x.rx (item % 8) [] with
    | [] => s
    | _ :: t => checkXoff (item / 8) (updMac (item / 8) (fun x => { x with rx := aset x.rx (item % 8) t }) (dropCause St.bufError s))

/-- The head frame of a transmit queue is in error; `item`: MAC × 4 + queue. -/
def loseTx (item : Nat) (s : State) : State :=
  match mac? (item / 4) s with
  | none => s
  | some x => match agetD x.txq (item % 4) [] with
    | [] => s
    | f :: t => endPkt f.pkt St.bufError (item / 4) (dropCause St.bufError
        (updMac (item / 4) (fun x => { x with txq := aset x.txq (item % 4) t }) s))

/-- The first packet of a VOQ's read-back data is in error. -/
def loseReadBack (v : Nat) (s : State) : State :=
  match (voq v s).head.find? (fun p => p.store.isNone) with
  | none => s
  | some p => settleCredit v (checkUnspill v (discardVoq v St.bufError p (updVoq v (fun q => { q with head := q.head.erase p }) s)))

/-- Packet memory in error: 0 a stored copy, 1 a receive FIFO, 2 a transmit queue, 3 the read stage. -/
def losePacket (kind item : Nat) (s : State) : State :=
  bufError (if kind = 1 then loseRx item s else if kind = 2 then loseTx item s else if kind = 3 then loseReadBack item s else loseStored item s)

/-! ### The other memories -/

/-- Policer bucket (0) refilled to BURST, or sampler countdown (1) reloaded with N. -/
def refillState (kind item : Nat) (s : State) : State :=
  if kind = 0 then
    let b : Bucket := { level := (policerOf s.cfg item).burst * policerUnit (policerOf s.cfg item), at' := s.elapsed }
    { s with fwd := { s.fwd with policers := aset s.fwd.policers item b } }
  else { s with fwd := { s.fwd with samplers := aset s.fwd.samplers item (samplerOf s.cfg item).n } }

/-- A counter loses its delta: it falls back to its total at the last Toll instant, unless a register read has cleared it since, and is
flagged (R566). -/
def loseDelta (id : Nat) (s : State) : State :=
  { s with ctrs := aset s.ctrs id (min (ctr id s) (agetD s.toll.snap id 0)), toll := { s.toll with flagged := aset s.toll.flagged id () } }

/-- A flow context in error: `item` is its place, bucket × 8 + position (R226). -/
def loseContext (t item : Nat) (s : State) : State :=
  match s.fwd.flows.find? (fun f => f.table == t && f.bucket * 8 + f.slot == item) with
  | none => s
  | some f => raiseEvent Ev.flowEcc t 0 0 (tally (ctrId 18 t 3) (dropFlow f s))

/-- A cell of a stream is lost from the reorder store. -/
def loseCell (key seq : Nat) (s : State) : State :=
  match aget s.fab.streams key with
  | none => s
  | some x => match aget x.cells seq with
    | none => s
    | some c => settleStream key { x with cells := adel x.cells seq }
        { s with fab := { s.fab with reorderFill := s.fab.reorderFill - c.payload.length } }

/-- A queue's state is in error: the queue is flushed and re-initialised (0 VOQ, 1 leaf, 2 punt). -/
def loseQueue (kind item : Nat) (s : State) : State :=
  if kind = 0 then
    let n := (voqAll (voq item s)).length
    raiseEvent Ev.queueError 0 item n (checkHbmIdle (emptyVoqOf St.bufError item (bump (ctrId 22 0 0) n s)))
  else if kind = 1 then
    let ps := leafQueue item s
    let s1 := ps.foldl (fun s p => directDone p (endPkt p St.bufError ((leafMac item s).getD 0) (dropCause St.bufError s))) (setLeaf item [] s)
    raiseEvent Ev.queueError 1 item ps.length (bump (ctrId 22 0 0) ps.length s1)
  else if kind = 2 then
    let n := (agetD s.qdm.punts item []).length
    raiseEvent Ev.queueError 2 item n (emptyPunt St.bufError item (bump (ctrId 22 0 0) n s))
  else s

/-- A shaper's credit and deficit become zero (levels 0 to 3), or a grant-rate bucket (4). -/
def zeroSched (kind item : Nat) (s : State) : State :=
  if kind < 4 then setShaper kind item { credit := 0, at' := s.elapsed, deficit := 0 } s
  else { s with sched := { s.sched with grantTokens := aset s.sched.grantTokens item { level := 0, at' := s.elapsed } } }

/-- What an uncorrectable word of a memory makes the part do (Table 15-6). -/
def containWord (e : SramError) (s : State) : State :=
  match e.memory with
  | 0 => updPwr (fun p => { p with badWords := p.badWords ++ [(e.kind, e.word, e.item)] }) s
  | 1 => refillState e.kind e.item s
  | 2 => loseDelta e.item s
  | 3 => loseContext e.kind e.item s
  | 4 => losePacket e.kind e.item s
  | 5 => loseCell e.kind e.item s
  | 6 => loseQueue e.kind e.item s
  | 7 => zeroSched e.kind e.item s
  | 8 => beginRestart 0 s
  | 9 => fatalReport Ev.sramUe s
  | _ => s

/-! ### Errors (R538) -/

/-- Count an uncorrectable error: a memory with more than 64 in one Tempo second makes a fatal report. -/
def countUe (memory : Nat) (s : State) : State :=
  let sec := secOf s.tempo.now
  let l := if s.pwr.ueSec = sec then s.pwr.ueSecond else List.replicate 10 0
  let n := l.getD memory 0 + 1
  let s1 := updPwr (fun p => { p with ueSec := sec, ueSecond := l.set memory n }) s
  if 64 < n then fatalReport Ev.sramUe s1 else s1

/-- An error of an on-die memory is met. -/
def sramError (e : SramError) (s : State) : State :=
  let inst := e.memory * 2 + e.die % 2
  if 9 < e.memory then s
  else if !e.uncorrectable then tally (ctrId 29 inst 0) s
  else countUe e.memory (containWord e (raiseEvent Ev.sramUe e.memory (e.die % 2) e.word (tally (ctrId 29 inst 1) s)))

/-! ### Injection (R591) -/

/-- The armed injection acts on the next word that the part writes: from here the error stands in the memory (log 26). -/
def storeInjection (s : State) : State :=
  match s.glb.inject with
  | none => s
  | some (m, d, ue) => { s with glb := { s.glb with
      inject := none, injectStatus := 2 + m * 256 + d * 4096, injected := s.glb.injected ++ [(m, d, ue)] } }

/-- The stored errors as the scrub finds them; which word they stand in is internal to the part: free values of place 43 (log 18). -/
def foundInjected (s : State) : List SramError :=
  s.glb.injected.map (fun i =>
    { memory := i.1, die := i.2.1, uncorrectable := i.2.2, word := unstatedAt 43 s, kind := unstatedAt 43 s / 65536, item := unstatedAt 43 s % 65536 })

end Sys2Proof.Machine
end

