-- ==== Sys2Proof/Machine/Hum.lean ====
section
/-! DEFINITION. Hum and the audit engine (R522 to R533, R538, R549, R552): the passes, the audit contexts, and the commands of groups 0x0E and 0x0F about them. -/

namespace Sys2Proof.Machine
open Sys2Proof

/-! ### When an activity runs (Table 15-1) -/

/-- A hardware activity that pauses at S1 to S3 and runs during a restart. -/
def hardwareRuns (s : State) : Bool := awake s && s.pwr.level = 0

/-- A Teruo activity: it pauses at S1 to S3 and during a restart. -/
def teruoRunsHum (s : State) : Bool := awake s && s.pwr.level = 0 && s.mgmt.ready && !s.mgmt.rom && !s.mgmt.restarting

/-! ### Hardware passes -/

/-- `TCAM_SCRUB_PASS`: every entry is compared with its copy; those that failed to match, and the others that differ, are rewritten and
counted (R175). -/
def execTcamScrubPass (fixed : List Nat) (s : State) : Res :=
  .next (if !awake s || 4 ≤ s.pwr.level then s
    else humStart 1 50000000 (fun s =>
      let n := s.fwd.missing.length + s.fwd.missingSel.length + fixed.length
      humPass 1 n (bump (ctrId 12 0 4) n { s with fwd := { s.fwd with missing := [], missingSel := [] } })) s)

/-- `SRAM_SCRUB_PASS`: every word of every protected memory is read, corrections counted, errors contained (R523, R538). -/
def execSramScrubPass (errors : List SramError) (s : State) : Res :=
  .next (if !hardwareRuns s then s
    else humStart 2 10000000000 (fun s =>
      let s1 := storeInjection s
      let all := errors ++ foundInjected s1
      let fixed := all.countP (fun e => !e.uncorrectable && e.memory ≤ 9)
      let s2 := { drawn s1 with glb := { s1.glb with injected := [] } }
      humPass 2 fixed (bump (ctrId 12 0 8) fixed (all.foldl (fun s e => sramError e s) s2))) s)

/-- Stored copies that something refers to. -/
def storesIn (s : State) : List Nat :=
  let ofPkts := fun (l : List Pkt) => l.filterMap (·.store)
  let xfer := fun (x : Xfer) => match x with
    | .toVoq p => p.store
    | .toPunt _ p => p.store
    | .toLeaf _ p => p.store
    | .toEgress _ _ p => p.store
    | .toHost _ _ _ _ _ p => p.store
  let b := s.bridge
  (avals s.qdm.voqs).flatMap (fun q => ofPkts (voqAll q)) ++ (avals s.sched.queues).flatMap ofPkts ++
  (avals s.qdm.punts).flatMap (fun l => l.filterMap (·.store)) ++
  s.qdm.waiting.flatMap (fun w => w.pkt.store.toList ++ (w.punt.bind (fun p => p.2.store)).toList) ++
  (b.toQd ++ b.toFd ++ b.atQd ++ b.atFd).filterMap xfer ++ (avals s.fwd.injectPath).flatMap ofPkts ++
  (avals s.fwd.recirc).flatMap ofPkts ++ ofPkts (s.fwd.stalled.map (·.2.1)) ++
  (avals s.macs).flatMap (fun m => ofPkts ((avals m.rx).flatMap id) ++ ofPkts (((avals m.txq).flatMap id).map (·.pkt)))

/-- `BUFFER_AUDIT_PASS`: buffers without a reference return to their pools (R524). -/
def execBufferAuditPass (s : State) : Res :=
  .next (if !hardwareRuns s then s
    else humStart 6 10000000000 (fun s1 =>
      let used := storesIn s1
      let lost := s1.qdm.stored.filter (fun x => !used.contains x.1)
      let s2 := lost.foldl (fun s x => setRefs x.1 0 s) (bump (ctrId 22 0 1) lost.length s1)
      let s3 := (poolIds s2).foldl (fun s p =>
        let n := lost.countP (fun x => x.2.pool == p)
        if n = 0 then s else raiseEvent Ev.bufReclaimed p n 0 s) s2
      humPass 6 lost.length s3) s)

/-! ### Rewrites by Teruo (R174, R538) -/

/-- `TCAM_ENTRY_REWRITE`: the entry (direction × 131,072 + index) and its copy are written again, and it matches again. -/
def execTcamEntryRewrite (entry : Nat) (s : State) : Res :=
  .next (if !s.mgmt.ready || s.mgmt.rom || s.mgmt.restarting then s
    else match entryAtIndex (entry / 131072) (entry % 131072) s with
      | none => s
      | some (true, id, _) =>
        { s with fwd := { s.fwd with removedSel := adel s.fwd.removedSel id, missingSel := adel s.fwd.missingSel id } }
      | some (false, id, _) => { s with fwd := { s.fwd with removed := adel s.fwd.removed id, missing := adel s.fwd.missing id } })

/-- `CONFIG_WORD_REWRITE`: the word is written again from its image. -/
def execConfigWordRewrite (table word : Nat) (s : State) : Res :=
  .next (if !s.mgmt.ready || s.mgmt.rom || s.mgmt.restarting then s
    else updPwr (fun p => { p with badWords := p.badWords.filter (fun w => !(w.1 == table && w.2.1 == word)) }) s)

/-! ### The audit engine (R528 to R533) -/

/-- A context. -/
def auditCtx (c : Nat) (s : State) : AuditCtx := s.pwr.contexts.getD c { algo := 0, value := 0, running := false }

/-- Set a context. -/
def setCtx (c : Nat) (x : AuditCtx) (s : State) : State := updPwr (fun p => { p with contexts := p.contexts.set c x }) s

/-- The initial value of an algorithm (Table 15-2). -/
def auditInit (algo : Nat) : Nat := if algo = 0 then 0xFFFFFFFF else 0

/-- Running values of an algorithm lie below this. -/
def auditMod (algo : Nat) : Nat := if algo = 0 then 4294967296 else 18446744073709551616

/-- The running value after more bytes. -/
def auditRun (algo v : Nat) (b : List Byte) : Nat := if algo = 0 then crc32cRun v b else crc64Run v b

/-- RESULT: the running value after the final XOR. -/
def auditResult (algo v : Nat) : Nat := if algo = 0 then v ^^^ 0xFFFFFFFF else v

/-- A context found a mismatch: its bit of AUD_MISMATCH, the vector of AUD_IRQ, EV_AUDIT_MISMATCH (R531). -/
def auditMismatch (c result start : Nat) (s : State) : State :=
  let s1 := updPwr (fun p => { p with mismatch := p.mismatch ||| 2 ^ c }) s
  let s2 := if bit s.pwr.mismatch c = 0 && bit s.pwr.irq 16 = 1 then sendMsix (bit s.pwr.irq 31) (s.pwr.irq % 2048) s1 else s1
  raiseEvent Ev.auditMismatch c (result % 4294967296) start s2

/-- A mismatch in a context of Teruo's: its RESULT and START follow an image that the spec does not lay out: free values of place 41 (log 18). -/
def teruoMismatch (c : Nat) (s : State) : State := auditMismatch c (unstatedAt 41 s) (unstatedAt 41 (drawn s)) (drawn (drawn s))

/-- A context of Teruo's after a pass: its running value is free too. -/
def teruoContext (c algo : Nat) (s : State) : State :=
  setCtx c { algo := algo, value := unstatedAt 41 s % auditMod algo, running := false } (drawn s)

/-- `CONFIG_AUDIT_PASS`: `bad` are the tables that did not agree with their recorded value, with the words that were rewritten (R525). -/
def execConfigAuditPass (bad : List (Nat × Nat)) (s : State) : Res :=
  .next (if !teruoRunsHum s || !(humOf 7 s).enabled || (humOf 7 s).period = 0 then s
    else humStart 7 ((humOf 7 s).period * 1000000000) (fun s =>
      let s1 := teruoContext 0 1 s
      let words := bad.foldl (fun n x => n + x.2) 0
      let s2 := bad.foldl (fun s x => raiseEvent Ev.auditTable x.1 x.2 0 (teruoMismatch 0 s)) (bump (ctrId 12 0 7) words s1)
      humPass 7 words s2) s)

/-- A slot holds no image: its header is erased. -/
def slotEmptyImage (k : Nat) (s : State) : Bool := rd (slotHeader k s) 0 4 == 0xFFFFFFFF

/-- A slot that fails its verification. -/
def patrolSlot (k : Nat) (s : State) : State :=
  if slotEmptyImage k s then s
  else
    let st := verifyImage k s
    if st = St.ok then s else raiseEvent Ev.fwSlotBad k st 0 s

/-- A copy of the settings or of the update record that carries its MAGIC and fails its CRC. -/
def patrolCopies (s : State) : List Bool :=
  (List.range 2).map (fun k => rd (snapHead k s) 0 4 == 0x414C5354 && !snapGood k s) ++
  (List.range 2).map (fun k => rd (recCopy k s) 0 4 == 0x414C5552 && !recGood (recCopy k s))

/-- `FLASH_PATROL` (R526). -/
def execFlashPatrol (s : State) : Res :=
  .next (if !teruoRunsHum s || !(humOf 8 s).enabled || (humOf 8 s).period = 0 || !flashUsable s then s
    else humStart 8 ((humOf 8 s).period * 1000000000) (fun s =>
      let s1 := teruoContext 1 1 s
      let s2 := (List.range 3).foldl (fun s k => patrolSlot k s) s1
      humPass 8 0 ((patrolCopies s1).foldl (fun s bad => if bad then teruoMismatch 1 s else s) s2)) s)

/-! ### audit.scan -/

/-- Installed DDR4 in bytes (Table 12-1). -/
def ddrBytes (s : State) : Nat :=
  let org := bits s.glb.strap 6 4
  (if org = 1 || org = 2 || org = 5 then 16 else 8) * 1073741824 * 8

/-- A region lies outside its space (R530). -/
def outsideSpace (space start len : Nat) (s : State) : Bool :=
  if space = 0 then ddrBytes s < start + len else if space = 1 then s.fw.flashSize < start + len else false

/-- The response of a scan (R530). -/
def scanResp (units result : Nat) (matched : Bool) : List Byte := le 4 units ++ zeros 4 ++ le 8 result ++ le 1 (b2n matched) ++ zeros 7

/-- `audit.scan` (R530). -/
def auditScan (h : HeldCmd) (s : State) : Verdict :=
  let c := par h 0 1
  let algo := par h 1 1
  let flags := par h 2 1
  let space := par h 3 1
  let start := par h 8 8
  let len := par h 16 8
  if 3 < c || 1 < algo || 3 < flags || 3 < space || !parZero h 4 4 || start % 64 != 0 || len % 64 != 0 || len < 64 ||
      0x3FFFFFFFC0 < len || (bit flags 1 == 1 && algo == 0 && par h 28 4 != 0) || (space == 3 && !fnExists 1 s) then .refuse St.invalidParam
  else if c < 2 || (auditCtx c s).running then .refuse St.auditBusy
  else if outsideSpace space start len s then .refuse St.auditSpace
  else
    let v := if bit flags 0 = 1 then (auditCtx c s).value % auditMod algo else auditInit algo
    let x : Scan := { context := c, algo := algo, compare := bit flags 1 == 1, space := space, start := start, length := len,
                      expected := par h 24 8, done := 0 }
    .wait (.scan c) (scanResp 0 (auditResult algo v) false)
      (updPwr (fun p => { p with scans := p.scans ++ [x] }) (setCtx c { algo := algo, value := v, running := true } s))

def specAuditScan : CmdSpec := ⟨32, .bulk, auditScan⟩
def execAuditScan (c : Cmd) (s : State) : Res := runCmd 0x0F01 specAuditScan c s

/-- A scan is over: its context no longer runs. -/
def endScan (c : Nat) (s : State) : State :=
  updPwr (fun p => { p with scans := p.scans.filter (fun x => x.context != c) })
    (setCtx c { auditCtx c s with running := false } s)

/-- Terminal statuses of a bulk command that leave an effect to journal (R402). -/
def leavesEffect (status : Nat) : Bool := [St.ok, St.aborted, St.timedOut, St.restarted].contains status

/-- A scan's command ends. -/
def finishScan (c status : Nat) (resp : List Byte) (s : State) : State :=
  finishWaiting (fun w => w == .scan c) status (fun _ => resp) (leavesEffect status) 0 (rd resp 0 4) (endScan c s)

/-- The status of a scan whose read failed (R532). -/
def scanError (space : Nat) : Nat := if space = 0 then St.memError else if space = 1 then St.flashError else St.dmaError

/-- A scan's command ends with the units done and the context's running value (R532). -/
def stopScan (x : Scan) (status : Nat) (s : State) : State :=
  finishScan x.context status (scanResp x.done (auditResult x.algo (auditCtx x.context s).value) false) s

/-- A context's scan ends early. -/
def stopContext (c status : Nat) (s : State) : State :=
  match s.pwr.scans.find? (fun x => x.context == c) with
  | none => s
  | some x => stopScan x status s

/-- A scan has reached the end of its region: RESULT, compared when COMPARE is set (R530, R531). -/
def endOfScan (x : Scan) (s : State) : State :=
  let result := auditResult x.algo (auditCtx x.context s).value
  let ok := result == x.expected
  if x.compare && !ok then
    finishScan x.context St.auditMismatch (scanResp (x.length / 64) result false) (auditMismatch x.context result x.start s)
  else finishScan x.context St.ok (scanResp (x.length / 64) result x.compare) s

/-- The units that a scan reads next: flash as it stands, DDR4 and host memory as the read returns them; none beyond its region. -/
def scanUnits (x : Scan) (r : ScanRead) (s : State) : List Byte :=
  let n := min r.bytes.length (x.length - 64 * x.done) / 64 * 64
  if x.space = 1 then flashRead (x.start + 64 * x.done) n s else r.bytes.take n

/-- `AUDIT_SCAN_COMPLETE`: units of a scan's region are read; it ends at the region's end, or where a read fails. -/
def execAuditScanComplete (context : Nat) (r : ScanRead) (s : State) : Res :=
  .next (if s.mgmt.restarting then s else match s.pwr.scans.find? (fun x => x.context == context) with
    | none => s
    | some x =>
      let failed := r.failed || (x.space == 1 && !flashUsable s)
      let b := if x.space = 1 && !flashUsable s then [] else scanUnits x r s
      let y := { x with done := x.done + b.length / 64 }
      let s1 := setCtx context { algo := x.algo, value := auditRun x.algo (auditCtx context s).value b, running := true }
        (updPwr (fun p => { p with scans := p.scans.map (fun z => if z.context == context then y else z) }) s)
      if 64 * y.done = y.length then endOfScan y s1
      else if failed then stopScan y (scanError x.space) s1
      else s1)

/-! ### Commands (Table 15-14) -/

/-- `hum.config`. -/
def humConfig (h : HeldCmd) (s : State) : Verdict :=
  let id := par h 0 1
  let period := par h 4 4
  if (id != 7 && id != 8) || 1 < par h 1 1 || !parZero h 2 2 ||
      (if id = 7 then period < 10 || 3600 < period else period < 3600 || 604800 < period) then .refuse St.invalidParam
  else .done St.ok [] (updPwr (fun p => { p with hum := p.hum.modify id (fun x => { x with enabled := par h 1 1 == 1, period := period }) }) s)

def specHumConfig : CmdSpec := ⟨8, .effect, humConfig⟩
def execHumConfig (c : Cmd) (s : State) : Res := runCmd 0x0E03 specHumConfig c s

/-- The sector of Table 14-1 with the most erases, the lowest among equals: count and sector. -/
def mostWorn (s : State) : Nat × Nat := s.fw.wear.foldl (fun b x => if b.1 < x.2 then (x.2, x.1) else b) (0, 0)

/-- RUNNING of an activity: the DDR4 scrub is continuous. -/
def humRunning (id : Nat) (s : State) : Bool := (id == 3 && hardwareRuns s) || humBusy id s

/-- `hum.status`. -/
def humStatus (_ : HeldCmd) (s : State) : Verdict :=
  let rec1 := fun id =>
    let x := humAt s.elapsed (humOf id s)
    le 1 id ++ le 1 (b2n (humRunning id s) + b2n x.enabled * 2) ++ zeros 2 ++ le 4 x.passes ++ le 8 x.fixes ++
      le 6 (secOf x.lastEnd) ++ le 4 (nsOf x.lastEnd) ++ zeros 6
  .done St.ok ((List.range 9).flatMap rec1 ++ le 4 (mostWorn s).1 ++ le 4 (65536 * (mostWorn s).2)) s

def specHumStatus : CmdSpec := ⟨0, .query, humStatus⟩
def execHumStatus (c : Cmd) (s : State) : Res := runCmd 0x0E04 specHumStatus c s

/-- A context runs: 0 and 1 while a configuration audit or a flash patrol does (R529). -/
def ctxRuns (c : Nat) (s : State) : Bool := (auditCtx c s).running || (c == 0 && humBusy 7 s) || (c == 1 && humBusy 8 s)

/-- `audit.context.read`. -/
def auditContextRead (h : HeldCmd) (s : State) : Verdict :=
  if 3 < par h 0 1 || !parZero h 1 3 then .refuse St.invalidParam
  else
    let x := auditCtx (par h 0 1) s
    .done St.ok (le 1 x.algo ++ le 1 (b2n (ctxRuns (par h 0 1) s)) ++ zeros 6 ++ le 8 x.value) s

def specAuditContextRead : CmdSpec := ⟨4, .query, auditContextRead⟩
def execAuditContextRead (c : Cmd) (s : State) : Res := runCmd 0x0F02 specAuditContextRead c s

/-- `audit.context.write` (R529). -/
def auditContextWrite (h : HeldCmd) (s : State) : Verdict :=
  let c := par h 0 1
  if 3 < c || 1 < par h 1 1 || !parZero h 2 6 then .refuse St.invalidParam
  else if c < 2 || (auditCtx c s).running then .refuse St.auditBusy
  else .done St.ok [] (setCtx c { algo := par h 1 1, value := par h 8 8, running := false } s)

def specAuditContextWrite : CmdSpec := ⟨16, .effect, auditContextWrite⟩
def execAuditContextWrite (c : Cmd) (s : State) : Res := runCmd 0x0F03 specAuditContextWrite c s

/-- AUD_STATUS (Table 15-16). -/
def audStatus (s : State) : Nat :=
  (List.range 4).foldl (fun n c => n + b2n (ctxRuns c s) * 2 ^ c + (auditCtx c s).algo % 2 * 2 ^ (8 + c)) 0

/-- `audit.status`. -/
def auditStatus (_ : HeldCmd) (s : State) : Verdict :=
  .done St.ok (le 4 (audStatus s) ++ le 4 s.pwr.mismatch ++
    (List.range 4).flatMap (fun c => le 1 (auditCtx c s).algo ++ zeros 7 ++ le 8 (auditCtx c s).value)) s

def specAuditStatus : CmdSpec := ⟨0, .query, auditStatus⟩
def execAuditStatus (c : Cmd) (s : State) : Res := runCmd 0x0F04 specAuditStatus c s

/-- `diag.fault.query`. -/
def diagFaultQuery (_ : HeldCmd) (s : State) : Verdict :=
  .done St.ok (le 4 s.pwr.faultCount ++ zeros 4 ++ s.pwr.faults.flatMap faultBytes) s

def specDiagFaultQuery : CmdSpec := ⟨0, .query, diagFaultQuery⟩
def execDiagFaultQuery (c : Cmd) (s : State) : Res := runCmd 0x0F07 specDiagFaultQuery c s

end Sys2Proof.Machine
end

