-- ==== Sys2Proof/Machine/Memories.lean ====
section
/-! DEFINITION. DDR4 and HBM3 (R410 to R442): re-centring, scrubbing, errors by requester, row disturbance, HBM training, `mem.status` and `mem.retired.query`. -/

namespace Sys2Proof.Machine
open Sys2Proof

/-- A channel that exists, is trained and has its power. -/
def ddrUp (n : Nat) (s : State) : Bool := n < 8 && (ddrOf n s).state == 2 && awake s && s.pwr.level < 5

/-! ### Re-centring (R414, R415) -/

/-- A channel runs its pass: always at S0 and in a restart, otherwise when it counted more than 16 corrected errors. -/
def recenters (n : Nat) (s : State) : Bool := s.pwr.level = 0 || s.mgmt.restarting || 16 < (ddrOf n s).ceInterval

/-- One channel's pass with its eye margins, and EV_DDR_MARGIN where the worst falls below 8/64 UI. -/
def recenter (n : Nat) (m : Nat × Nat) (s : State) : State :=
  let d := ddrOf n s
  let was := min d.readMargin d.writeMargin
  let now' := min m.1 m.2
  let forced := s.pwr.level != 0 && !s.mgmt.restarting
  let s1 := updDdr n (fun d => { d with readMargin := m.1 % 256, writeMargin := m.2 % 256, forced := forced }) s
  if now' < 8 && (8 ≤ was || d.readMargin + d.writeMargin = 0) then raiseEvent Ev.ddrMargin n (m.1 % 256 * 256 + m.2 % 256) 0 s1 else s1

/-- `DDR_RECENTER`: the read and write margins that each channel's pass finds. -/
def execDdrRecenter (margins : List (Nat × Nat)) (s : State) : Res :=
  .next (if !awake s || 5 ≤ s.pwr.level then s
    else
      let s1 := nextInstant 100000000 s
      let run := (List.range 8).filter (fun n => ddrUp n s1 && recenters n s1)
      let s2 := (if humBusy 4 s1 then [] else run).foldl (fun s n => match margins[n]? with
        | some m => recenter n m s
        | none => s) s1
      let s3 := (List.range 8).foldl (fun s n => updDdr n (fun d => { d with ceInterval := 0 }) s) s2
      if run.isEmpty then s3 else if humBusy 4 s1 then humOverrun 4 s3 else humPass 4 0 s3)

/-! ### Errors (R425, R426, Table 12-3) -/

/-- The staged changes that no decided commit has taken are discarded, and the vote on the next commit is withheld (TBL). -/
def loseStaging (s : State) : State :=
  let kept := fun (x : Staged) => match x.sealedBy with
    | some (car, q) => s.commits.any (fun c => c.carillon == car && c.seq == q && (c.decided || c.phase == .armed || c.phase == .switched))
    | none => false
  let gone := (s.staged.filter (fun x => !kept x)).foldl (fun n x => n + x.units) 0
  let s1 := { s with staged := s.staged.filter kept }
  let open1 := fun (c : Commit) => !c.decided && (c.phase == .preparing || c.phase == .prepared)
  let s2 := match s1.commits.find? open1 with
    | some c => updCommit c.carillon c.seq (fun c => { c with lost := true, votes := c.votes - c.votes % 2 }) s1
    | none => { s1 with mgmt := { s1.mgmt with stagingLost := true } }
  raiseEvent Ev.stagingLost 0 gone 0 s2

/-- A request for a context's line failed (CTX, Table 12-3): that of a modified context in the cache is its write-back, which leaves the
last stored value; any other is a read, whose context is removed (R226). -/
def loseContexts (address : Nat) (s : State) : State :=
  let hit := fun (f : FlowCtx) => Config.contextLine f.table f.bucket f.slot == address / 128
  (s.fwd.flows.filter hit).foldl (fun s f =>
    match s.fwd.cache.find? (fun c => lineOf f.table f.key c && c.modified) with
    | some c => writeBackFailed c s
    | none => raiseEvent Ev.flowEcc f.table 0 0 (tally (ctrId 18 f.table 3) (dropFlow f s))) s

/-- The totals of a line restart from their deltas, flagged (CNT, R566). -/
def restartTotals (address : Nat) (s : State) : State :=
  (akeys s.ctrs).foldl (fun s id =>
    if Config.counterLine id = address / 64 then
      { s with ctrs := aset s.ctrs id (ctr id s - agetD s.toll.snap id 0), toll := { s.toll with flagged := aset s.toll.flagged id () } }
    else s) s

/-- A failed read of a function's dump image: its next value is written as zero and flagged (HST, R566). -/
def zeroDumped (n : Nat) (s : State) : State :=
  let l := (pciFn n s).tollPending
  match l.find? (fun r => rd r 10 1 == 0xD1) with
  | none => s
  | some r =>
    let bad := patch (patch r 9 (le 1 (rd r 9 1 ||| 1))) 16 (zeros 8)
    let sum := fun (l : List (List Byte)) => crc32c ((l.filter (fun x => rd x 10 1 == 0xD1)).flatMap id)
    let new := l.map (fun x => if x = r then bad else if rd x 10 1 = 0xD0 then patch x 8 (le 1 (rd x 8 1 ||| 4)) else x)
    let sealed' := new.map (fun x => if rd x 10 1 = 0xD2 then patch x 12 (le 4 (rd x 12 4 ^^^ sum l ^^^ sum new)) else x)
    raiseEvent Ev.tollError (ctrParts (rd r 0 4)).1 (rd r 0 4) (((pciFn n s).tollDump).getD 0)
      (tally (ctrId 28 0 2) (updFn n (fun f => { f with tollPending := sealed' }) s))

/-- A running scan of DDR4 that meets the address ends MEM_ERROR with the units before it; one that a restart holds ends after it (R397). The running value after units that no
`AUDIT_SCAN_COMPLETE` has brought is unstated: a free value of place 44 (log 18). -/
def failScan (address : Nat) (s : State) : State :=
  if s.mgmt.restarting then s else match s.pwr.scans.find? (fun x => x.space == 0 && x.start + 64 * x.done ≤ address && address < x.start + x.length) with
  | none => s
  | some x =>
    let units := (address - x.start) / 64
    let v := if units = x.done then (auditCtx x.context s).value else unstatedAt 44 s % auditMod x.algo
    finishScan x.context St.memError (scanResp units (auditResult x.algo v) false)
      (setCtx x.context { algo := x.algo, value := v, running := true } (drawn s))

/-- Requests of a channel that reach their deadline are counted, each once (R416): the reads that wait, and the requests that a full write
queue holds; a write that the queue has accepted is complete. -/
def countLate (n : Nat) (s : State) : State :=
  let due := fun (w : DdrWait) => !w.late && portTarget w.req.port ≤ s.elapsed - w.at'
  let mark := fun (w : DdrWait) => if due w then { w with late := true } else w
  ((ddrOf n s).reads ++ (ddrOf n s).held).foldl (fun s w => if due w then tally (ddrCtr n (6 + w.req.port)) s else s)
    (updDdr n (fun d => { d with reads := d.reads.map mark, held := d.held.map mark }) s)

/-- What the requester does with an error (Table 12-3). -/
def requesterError (port address : Nat) (s : State) : State :=
  match port with
  | 0 => loseContexts address s
  | 1 => beginRestart 0 s
  | 2 => if 0xF0000000 ≤ address then (if (pciFn 0 s).tollDump.isSome then zeroDumped 0 s else zeroDumped 1 s)
    else if address < 0x80000000 then { s with mem := { s.mem with journalBad := true } }
    else if address < 0xA0000000 then { s with mem := { s.mem with flowBad := true } }
    else s
  | 3 => loseStaging s
  | 4 => restartTotals address s
  | 5 => failScan address s
  | _ => s

/-- A read of a port and its outcome at the requester (R425, R426). -/
def readFor (n port address : Nat) (flips again : List Nat) (s : State) : State :=
  let r := ddrRead n port address flips again s
  if r.1 then requesterError port address r.2 else r.2

/-- The requests that wait at a channel without the read of a port at an address. -/
def withdrawRead (n port address : Nat) (s : State) : State :=
  updDdr n (fun d => { d with reads := d.reads.eraseP (fun w => w.req.port == port && w.req.address == address) }) s

/-- `DDR_REQUEST_TIMEOUT`: no response for 20 µs; the first time the request is retried, the second it fails (R421). -/
def execDdrRequestTimeout (channel port address : Nat) (retried : Bool) (s : State) : Res :=
  .next (if !ddrUp channel s || 5 < port then s
    else
      let s1 := countLate channel (tickBy 20000 s)
      if !retried then s1
      else requesterError port address
        (raiseEvent Ev.ddrTimeout channel port address (tally (ddrCtr channel 3) (withdrawRead channel port address s1))))

/-! ### Scrubbing (R427) -/

/-- MiB of a channel. -/
def channelMiB (s : State) : Nat := ddrBytes s / 8388608

/-- A word that the scrubber finds in error: corrected words are counted as its own (Table 12-6), an uncorrectable one as of port AUD. -/
def scrubWord (n : Nat) (again : List (Nat × List Nat)) (s : State) (e : Nat × List Nat) : State :=
  let r := ddrRead n 5 e.1 e.2 (((again.find? (fun x => x.1 == e.1)).map (·.2)).getD []) s
  if r.1 || e.2.isEmpty then r.2
  else updHum 3 (fun h => { h with fixes := h.fixes + 1 }) (tally (ddrCtr n 5) r.2)

/-- `DDR_SCRUB`: the next MiB of a channel, with the addresses of the words in error, the bits that reading each finds flipped, and those
that a second read finds. -/
def execDdrScrub (channel : Nat) (errors : List (Nat × List Nat)) (again : List (Nat × List Nat)) (s : State) : Res :=
  .next (if !ddrUp channel s || !hardwareRuns s then s
    else
      let s1 := errors.foldl (scrubWord channel again) s
      let s2 := updDdr channel (fun d => { d with scrubPos := d.scrubPos + 1 }) s1
      if s2.mem.ddr.all (fun d => channelMiB s2 ≤ d.scrubPos) then
        humDone 3 { s2 with mem := { s2.mem with
          scrubPasses := s2.mem.scrubPasses + 1, ddr := s2.mem.ddr.map (fun d => { d with scrubPos := 0 }) } }
      else s2)

/-! ### Row disturbance (R422) -/

/-- Rows of a bank that the counts track. -/
def bankRows (rows : Assoc Nat) (bank : Nat) : Assoc Nat := rows.filter (fun r => r.1 / 1048576 == bank)

/-- The tracked row of a bank with the lowest count. -/
def lowestRow (rows : Assoc Nat) : Option (Nat × Nat) :=
  rows.foldl (fun b r => match b with
    | none => some r
    | some x => if r.2 < x.2 then some r else some x) none

/-- `n` activates of a row: what it counts from, and the rows that stay tracked. -/
def startCount (rows : Assoc Nat) (row : Nat) : Nat × Assoc Nat :=
  match aget rows row with
  | some c => (c, rows)
  | none =>
    let mine := bankRows rows (row / 1048576)
    if mine.length < 64 then (0, rows)
    else match lowestRow mine with
      | some x => (x.2, adel rows x.1)
      | none => (0, rows)

/-- Activates of a channel's row: targeted refreshes are counted, and each resets the row's count. The row stays open (R418); the refresh of
its neighbours closes it. -/
def activate (n row k : Nat) (s : State) : State :=
  let st := startCount (ddrOf n s).rows row
  let total := st.1 + k
  let t := s.mem.rhThreshold
  let refreshes := if t = 0 then 0 else total / t
  let bank := row / 1048576
  bump (ddrCtr n 4) refreshes (updDdr n (fun d => { d with
    rows := aset st.2 row (total - refreshes * t), hits := adel d.hits bank,
    openRows := if 0 < refreshes && total = refreshes * t then adel d.openRows bank else aset d.openRows bank (row % 1048576) }) s)

/-- `ROW_WINDOW_START`: the activates up to the boundary (channel, bank × 2^20 + row, count), then every count is cleared. -/
def execRowWindowStart (activates : List (Nat × Nat × Nat)) (s : State) : Res :=
  .next (if !awake s || 5 ≤ s.pwr.level then s
    else
      let s1 := activates.foldl (fun s x => if ddrUp x.1 s && 0 < x.2.2 then activate x.1 x.2.1 x.2.2 s else s) s
      let s2 := nextInstant 64000000 s1
      { s2 with mem := { s2.mem with ddr := s2.mem.ddr.map (fun d => { d with rows := [] }) } })

/-! ### HBM training (R431, R436) -/

/-- Train the stacks: `failed` has a bit for each that fails. Once each is READY or FAILED, HBM_READY is 1 when some is READY. -/
def trainStacks (failed : Nat) (s : State) : State :=
  let due := (List.range 4).filter (fun k => (s.mem.hbmStacks.getD k (0, 0)).1 ≤ 1)
  if due.isEmpty then s
  else
    let s1 := { s with mem := { s.mem with hbmStacks := (List.range 4).map (fun k =>
      if due.contains k then (if bit failed k = 1 then (4, 1) else (2, 0)) else s.mem.hbmStacks.getD k (0, 0)) } }
    let s2 := { s1 with qdm := { s1.qdm with hbmReady := !(readyStacks s1).isEmpty } }
    let s3 := (due.filter (fun k => bit failed k == 1)).foldl (fun s k => raiseEvent Ev.hbmStackFailed k 1 0 s) s2
    let s4 := reportHbm s3
    if halted s4 then hbmPowerDown s4 else checkHbmIdle (enableSpill (s.mem.powerDowns.any (0 < ·)) s4)

/-- `HBM_TRAINING_DONE`. -/
def execHbmTrainingDone (failed : Nat) (s : State) : Res := .next (if awake s && s.pwr.level < 5 then trainStacks failed s else s)

/-! ### Registers and commands (Tables 12-5 to 12-10) -/

/-- Channels of a state, as bits. -/
def ddrBits (st : Nat) (s : State) : Nat := (List.range 8).foldl (fun n k => n + b2n ((ddrOf k s).state == st) * 2 ^ k) 0

/-- DDR_STATUS. -/
def ddrStatus (s : State) : Nat :=
  bits s.glb.strap 9 8 + bits s.glb.strap 6 4 * 16 + b2n (ddrBits 2 s == 255) * 256 + b2n s.mem.deferred * 512 + ddrBits 3 s * 65536

/-- DDR_CH_STATUS. -/
def ddrChStatus (n : Nat) (s : State) : Nat :=
  let d := ddrOf n s
  d.state * 1073741824 + d.step * 16777216 + b2n d.forced * 65536

/-- DDR_CH_MARGIN. -/
def ddrChMargin (n : Nat) (s : State) : Nat := (ddrOf n s).readMargin * 256 + (ddrOf n s).writeMargin

/-- HBM_STATUS. -/
def hbmStatus (s : State) : Nat := stackBits 2 s + stackBits 4 s * 16 + stackBits 3 s * 256

/-- HBM_STACK_STATUS. -/
def hbmStackStatus (k : Nat) (s : State) : Nat :=
  let x := s.mem.hbmStacks.getD k (0, 0)
  x.1 * 536870912 + x.2 * 16777216 + unsignedOf 8 (s.mem.temps.getD k 0) * 256

/-- Retired pages of a stack. -/
def stackRetired (k : Nat) (s : State) : Nat := s.mem.retired.countP (fun r => r.2.1 == k)

/-- `mem.status` (R440). -/
def memStatus (_ : HeldCmd) (s : State) : Verdict :=
  .done St.ok (le 4 (ddrStatus s) ++ le 4 (hbmStatus s) ++
    (List.range 8).flatMap (fun n => le 4 (ddrChStatus n s) ++ le 4 (ddrChMargin n s) ++ le 8 (lifeCtr (ddrCtr n 0) s) ++
      le 8 (lifeCtr (ddrCtr n 1) s) ++ le 4 (lifeCtr (ddrCtr n 3) s) ++ le 4 (lifeCtr (ddrCtr n 4) s)) ++
    (List.range 4).flatMap (fun k => le 4 (hbmStackStatus k s) ++ le 4 (stackRetired k s) ++ le 8 (lifeCtr (ctrId 7 k 0) s) ++
      le 8 (lifeCtr (ctrId 7 k 1) s) ++ le 4 (s.mem.powerDowns.getD k 0) ++ zeros 4)) s

def specMemStatus : CmdSpec := ⟨0, .query, memStatus⟩
def execMemStatus (c : Cmd) (s : State) : Res := runCmd 0x0F05 specMemStatus c s

/-- Retired pages that are listed: those of stacks that have not FAILED. -/
def retiredList (s : State) : List (Nat × Nat × Nat × Nat × Bool) :=
  s.mem.retired.filter (fun r => (s.mem.hbmStacks.getD r.2.1 (0, 0)).1 != 4)

/-- `mem.retired.query` (R441). -/
def memRetiredQuery (h : HeldCmd) (s : State) : Verdict :=
  let start := par h 0 4
  let count := par h 4 2
  let l := retiredList s
  if count < 1 || 4096 < count || !parZero h 6 2 || l.length < start then .refuse St.invalidParam
  else .done St.ok (le 4 l.length ++ zeros 4 ++ ((l.drop start).take count).flatMap (fun r =>
    le 4 r.2.2.2.1 ++ le 4 (r.1 % 16777216 + r.2.2.1 % 2 * 536870912 + r.2.1 % 4 * 1073741824))) s

def specMemRetiredQuery : CmdSpec := ⟨8, .query, memRetiredQuery⟩
def execMemRetiredQuery (c : Cmd) (s : State) : Res := runCmd 0x0F06 specMemRetiredQuery c s

end Sys2Proof.Machine
end

