-- ==== Sys2Proof/Machine/Flags.lean ====
section
/-! DEFINITION. Status words of the registers (Tables 02-3 to 17-7) and the register map of BAR0: what an offset names, and the word it reads (R580, R581). -/

namespace Sys2Proof.Machine
open Sys2Proof

/-! ### GLB, MBX, HIF, CRL, PRS, TBL and CNT words -/

/-- The boot ROM runs, in recovery mode or in start-up; it has not begun at the deassertion of PORST_N itself (Table 17-3, R492). -/
def romRuns (s : State) : Bool := s.mgmt.rom || (s.fw.image.isEmpty && 0 < s.elapsed)

/-- GLB_STATUS (Table 17-3). -/
def glbStatus (s : State) : Nat :=
  b2n s.mgmt.ready * 2 ^ 31 + b2n (romRuns s) * 2 ^ 30 + b2n s.mgmt.restarting * 2 ^ 29 + b2n s.glb.fatal * 2 ^ 28 +
  s.pwr.level * 2 ^ 24 + b2n s.glb.bridgeFailed * 2 ^ 23 + b2n (ddrBits 2 s == 255) * 2 ^ 22 + b2n s.qdm.hbmReady * 2 ^ 21 + s.glb.lastReset

/-- A GLB register (Table 17-3). -/
def glbWord (off : Nat) (s : State) : Nat :=
  match off with
  | 0x00 => 0x1640B000 + s.glb.form
  | 0x04 => s.glb.serial % 4294967296
  | 0x08 => s.glb.serial / 4294967296 % 4294967296
  | 0x0C => bit s.glb.strap 0 + bits s.glb.strap 6 4 * 16 + bits s.glb.strap 9 8 * 256 + bit s.glb.strap 12 * 4096
  | 0x10 => glbStatus s
  | 0x18 => s.glb.error
  | 0x1C => s.glb.errorAddr
  | 0x20 => s.glb.intStatus
  | 0x24 => s.glb.intEnable
  | 0x28 => s.glb.intVector
  | 0x2C => s.glb.scratch
  | _ => 0

/-- STATE code of MBX_STATUS. -/
def mbxCode : MbxState → Nat
  | .idle => 0 | .pending => 1 | .running => 2 | .done => 3

/-- MBX_STATUS (Table 11-6). -/
def mbxStatusWord (s : State) : Nat :=
  mbxCode s.mgmt.mbx * 2 ^ 30 + b2n s.mgmt.ready * 2 ^ 29 + b2n s.mgmt.rom * 2 ^ 28 + b2n s.mgmt.restarting * 2 ^ 27 + s.mgmt.mbxStatus

/-- An MBX register (Table 11-6). -/
def mbxWord (off : Nat) (s : State) : Nat :=
  if off < 0x400 then agetD s.mgmt.mbxCmd off 0
  else if off < 0x800 then rd s.mgmt.mbxResp (off - 0x400) 4
  else match off with
    | 0x804 => mbxStatusWord s
    | 0x808 => s.mgmt.mbxRespBytes
    | 0x80C => s.mgmt.mbxError
    | 0x810 => s.mgmt.mbxIrq
    | _ => 0

/-- HIF_LINK (Table 10-14). -/
def hifLink (s : State) : Nat :=
  bit s.glb.strap 0 * 2 ^ 31 + s.host.pf0.width % 16 * 2 ^ 24 + s.host.pf0.rate % 16 * 2 ^ 20 + s.host.pf1.width % 16 * 2 ^ 16 +
  s.host.pf1.rate % 16 * 2 ^ 12 + b2n s.host.pf1.busMaster * 2 + b2n s.host.pf0.busMaster

/-- An HIF register. -/
def hifWord (off : Nat) (s : State) : Nat :=
  match off with
  | 0x00 => hifLink s
  | 0x04 => s.host.error
  | 0x08 => s.host.errorRing
  | 0x0C => storeFree s
  | 0x10 => (avals s.host.rings).foldl (fun n x => n + x.begun) 0
  | _ => 0

/-- A PWR register (Table 15-15). -/
def pwrWord (off : Nat) (s : State) : Nat :=
  match off with
  | 0x00 => pwrStatus s
  | 0x04 => unsignedOf 8 s.pwr.tempFd * 256 + unsignedOf 8 s.pwr.tempQd
  | 0x08 => (List.range 4).foldl (fun n k => n + unsignedOf 8 (s.mem.temps.getD k 0) * 256 ^ k) 0
  | 0x0C => s.pwr.rail % 65536
  | 0x10 => s.pwr.fault
  | _ => 0

/-- An AUD register (Table 15-16). -/
def audWord (off : Nat) (s : State) : Nat :=
  match off with
  | 0x00 => audStatus s
  | 0x04 => s.pwr.mismatch
  | 0x08 => s.pwr.irq
  | _ => if 0x10 ≤ off && off < 0x30 then (auditCtx ((off - 0x10) / 8) s).value / 4294967296 ^ (off / 4 % 2) % 4294967296 else 0

/-- CNT_STATUS (Table 16-10). -/
def cntStatus (s : State) : Nat :=
  b2n s.toll.running * 2 ^ 31 + b2n s.host.pf0.tollDump.isSome * 2 ^ 30 + b2n s.host.pf1.tollDump.isSome * 2 ^ 29 +
  b2n s.toll.noCounter * 65536 + s.toll.period / 10

/-- A CNT register. -/
def cntWord (off : Nat) (s : State) : Nat :=
  match off with
  | 0x00 => cntStatus s
  | 0x04 => s.toll.sel
  | 0x08 => s.toll.val % 4294967296
  | 0x0C => s.toll.val / 4294967296 % 4294967296
  | 0x10 => s.toll.last % 4294967296
  | 0x14 => s.toll.last / 4294967296 % 65536
  | 0x18 => nsOf s.toll.lastTempo
  | 0x1C => secOf s.toll.lastTempo % 4294967296
  | _ => 0

/-- State of a carillon port in CRL_PORT_STATUS. -/
def crlPortState (p : CrlPort) : Nat := if !p.pcs then 0 else if p.miswire then 3 else if p.neighbour.isSome then 2 else 1

/-- A CRL register (Table 13-9). -/
def crlWord (off : Nat) (s : State) : Nat :=
  let c := s.crl
  let pos := fun (p : CrlPort) => (p.neighbour.map (fun n => n.position % 8)).getD 0
  match off with
  | 0x00 => roleCode c.role * 2 ^ 29 + b2n c.ring * 2 ^ 28 + c.position % 8 * 2 ^ 24 + c.members.length % 16 * 65536 + c.term % 65536
  | 0x04 => crlPortState c.up + crlPortState c.down * 4 + pos c.up * 256 + pos c.down * 4096
  | 0x08 => c.headSerial % 4294967296
  | 0x0C => c.headSerial / 4294967296 % 4294967296
  | 0x10 => s.prot.state * 2 ^ 28 + b2n (exposed s) * 2 ^ 27 + b2n s.prot.lockout * 2 ^ 26 + s.prot.pair % 4 * 2 ^ 24 + min (wtrLeft s) 4095
  | 0x14 => b2n s.bus.enable * 2 ^ 31 + b2n (!s.bus.holding.isEmpty) * 2 ^ 30 + busNode s % 64
  | _ => 0

/-- A PRS register (Table 17-5). -/
def prsWord (off : Nat) (s : State) : Nat :=
  if off = 0 then b2n (s.fwd.muffled != 0) * 2 ^ 31 + s.fwd.muffled % 256
  else if off = 4 then s.cfg.profiles.length
  else if off = 8 then s.cfg.selects.length
  else if 0x10 ≤ off && off < 0x24 then (List.range 4).foldl (fun n j => n + s.cfg.layout.getD (off - 0x10 + j) 0 * 256 ^ j) 0
  else 0

/-- A TBL register (Table 17-6); a descriptor is processed within one command, so BUSY reads 0. -/
def tblWord (off : Nat) (s : State) : Nat :=
  match off with
  | 0x00 => stagedUnits s % 8388608
  | 0x04 => s.fwd.unitsLast
  | 0x08 => routeUnitCapacity - unitsHeld (heldConfs s)
  | 0x0C => entryCapacity - entriesHeld (heldConfs s)
  | _ => 0

/-- A QDM register (Table 07-14). -/
def qdmWord (off : Nat) (s : State) : Nat :=
  match off with
  | 0x00 => qdmStatus s
  | 0x04 => spilledCount s
  | 0x08 => hbmFree s
  | 0x0C => hbmPages s
  | 0x10 => spillBacklog s / 256
  | _ => if 0x100 ≤ off && off < 0x170 then (poolWords ((off - 0x100) / 16) s).getD (off / 4 % 4) 0 else 0

/-- A DBG register (Table 17-7). -/
def dbgWord (off : Nat) (s : State) : Nat :=
  if off < 0x10 then agetD s.glb.dbgScratch off 0 else if off = 0x14 then s.glb.injectStatus else 0

/-! ### Instances -/

/-- A DDR register of the global instance or a channel (Tables 12-5, 12-6). -/
def ddrWord (off : Nat) (s : State) : Nat :=
  let o := off % 1024
  let i := off / 1024
  if i = 0 then
    match o with
    | 0x00 => ddrStatus s
    | 0x04 => s.mem.rhThreshold % 65536
    | 0x08 => (ddrOf 0 s).scrubPos % 16384
    | 0x0C => s.mem.scrubPasses
    | _ => 0
  else if i ≤ 8 then
    match o with
    | 0x00 => ddrChStatus (i - 1) s
    | 0x04 => ddrChMargin (i - 1) s
    | 0x08 => (ddrOf (i - 1) s).ueAddr % 4294967296
    | 0x0C => bits (ddrOf (i - 1) s).ueAddr 36 32 + (ddrOf (i - 1) s).uePort % 8 * 65536
    | _ => 0
  else 0

/-- An HBM register (Tables 12-7, 12-8). -/
def hbmWord (off : Nat) (s : State) : Nat :=
  let o := off % 1024
  let i := off / 1024
  if i = 0 then (if o = 0 then hbmStatus s else if o = 4 then s.mem.retired.length else 0)
  else if i ≤ 4 then (if o = 0 then hbmStackStatus (i - 1) s else if o = 4 then stackRetired (i - 1) s else 0)
  else 0

/-- A PRT register of a port or client (Table 03-6). -/
def prtWord (m o : Nat) (s : State) : Nat :=
  if o = 0 then prtStatus m s
  else if o = 4 then ctStatus m s
  else match mac? m s with
    | none => 0
    | some x =>
      if o = 8 then x.tsFifo.length
      else if o = 0x208 then x.secTempo % 4294967296
      else if o = 0x20C then x.secTempo / 4294967296 % 65536
      else if 0x210 ≤ o && o < 0x224 then x.secLatched.getD ((o - 0x210) / 4) 0 % 4294967296
      else 0

/-- An FLX line register (Table 04-10). -/
def flxLineWord (p o : Nat) (s : State) : Nat :=
  if o = 0 then lineStatus p s
  else if o = 4 then lineSkew p s % 65536
  else if o = 8 then lineGroup p s
  else match aget s.flexe.lines p with
    | none => 0
    | some l =>
      if o = 0x200 then l.secTempo % 4294967296
      else if o = 0x204 then l.secTempo / 4294967296 % 65536
      else if 0x208 ≤ o && o < 0x218 then l.secLatched.getD ((o - 0x208) / 4) 0 % 4294967296
      else 0

/-- An FLX group register (Table 04-11). -/
def flxGroupWord (g o : Nat) (s : State) : Nat :=
  if o = 0 then groupStatus g s
  else if o = 4 then groupSkew g s
  else match flxGroup g s with
    | none => 0
    | some x =>
      if o = 0x200 then x.secTempo % 4294967296
      else if o = 0x204 then x.secTempo / 4294967296 % 65536
      else if 0x208 ≤ o && o < 0x210 then x.secLatched.getD ((o - 0x208) / 4) 0 % 4294967296
      else 0

/-- A FAB global register (Table 09-14). -/
def fabWord (o : Nat) (s : State) : Nat :=
  if o = 0 then fabStatus s else if o = 4 then s.fab.reorderFill / 256 % 65536 else if o = 8 then s.fab.exposed.length % 8192 else 0

/-- A word of a function's MSI-X span: the table, whose vector control word is 1 at reset, and the pending bits (PCIe Base Specification, log 6). -/
def msixWord (fn o : Nat) (s : State) : Nat :=
  let f := pciFn fn s
  if o < 0x8000 then agetD f.msix o (if o % 16 = 12 then 1 else 0)
  else if o < 0x8100 then (List.range 32).foldl (fun n k => n + b2n (ahas f.pba ((o - 0x8000) * 8 + k)) * 2 ^ k) 0
  else 0

/-! ### The map (Table 17-1) -/

/-- Where an offset lies: the counter that its _LO word reads, or none. -/
def counterAt (off : Nat) : Option Nat :=
  let at' := fun (cls inst n o : Nat) => if 0x100 ≤ o && o < 0x100 + 8 * n && o % 8 = 0 then some (ctrId cls inst ((o - 0x100) / 8)) else none
  if off < 0x10000 then
    let o := off % 0x1000
    match off / 0x1000 with
    | 3 => at' 5 0 7 o
    | 4 => at' 9 0 4 o
    | 6 => at' 28 0 3 o
    | 7 => at' 8 0 9 o
    | _ => none
  else if off < 0x20000 then
    let i := (off - 0x10000) / 0x400
    if 1 ≤ i && i ≤ 8 then at' 6 (i - 1) 12 (off % 0x400) else none
  else if off < 0x30000 then
    let i := (off - 0x20000) / 0x400
    if 1 ≤ i && i ≤ 4 then at' 7 (i - 1) 2 (off % 0x400) else none
  else if off < 0x100000 then none
  else if off < 0x120000 then (if (off - 0x100000) / 0x400 < 80 then at' 0 ((off - 0x100000) / 0x400) 33 (off % 0x400) else none)
  else if off < 0x200000 then none
  else if off < 0x220000 then (if (off - 0x200000) / 0x400 < 80 then at' 1 ((off - 0x200000) / 0x400) 4 (off % 0x400) else none)
  else if off < 0x240000 then (if (off - 0x220000) / 0x400 < 16 then at' 2 ((off - 0x220000) / 0x400) 3 (off % 0x400) else none)
  else if off < 0x280000 then (if (off - 0x240000) / 0x400 < 128 then at' 0 (128 + (off - 0x240000) / 0x400) 33 (off % 0x400) else none)
  else if off < 0x300000 then none
  else if off < 0x300400 then at' 3 0 10 (off % 0x400)
  else if 0x310000 ≤ off && off < 0x32C000 then at' 4 ((off - 0x310000) / 0x400) 8 (off % 0x400)
  else none

/-- The word that an offset reads when it is no counter and no latched member; zero where it names no register. -/
def plainWord (off : Nat) (s : State) : Nat :=
  if off < 0x10000 then
    let o := off % 0x1000
    match off / 0x1000 with
    | 0 => glbWord o s
    | 1 => mbxWord o s
    | 2 => tmpWord o s
    | 3 => hifWord o s
    | 4 => pwrWord o s
    | 5 => audWord o s
    | 6 => cntWord o s
    | 7 => crlWord o s
    | 8 => prsWord o s
    | 9 => tblWord o s
    | 10 => qdmWord o s
    | 15 => dbgWord o s
    | _ => 0
  else if off < 0x20000 then ddrWord (off - 0x10000) s
  else if off < 0x30000 then hbmWord (off - 0x20000) s
  else if off < 0x100000 then 0
  else if off < 0x114000 then prtWord ((off - 0x100000) / 0x400) (off % 0x400) s
  else if off < 0x200000 then 0
  else if off < 0x214000 then flxLineWord ((off - 0x200000) / 0x400) (off % 0x400) s
  else if off < 0x220000 then 0
  else if off < 0x224000 then flxGroupWord ((off - 0x220000) / 0x400) (off % 0x400) s
  else if off < 0x240000 then 0
  else if off < 0x260000 then prtWord (128 + (off - 0x240000) / 0x400) (off % 0x400) s
  else if off < 0x300000 then 0
  else if off < 0x300400 then fabWord (off % 0x400) s
  else if 0x310000 ≤ off && off < 0x32C000 then
    let n := (off - 0x310000) / 0x400
    (if off % 0x400 = 0 then laneStatus n s else if off % 0x400 = 4 then lanePeerWord n s else 0)
  else if 0x800000 ≤ off && off < 0x810000 then msixWord 0 (off - 0x800000) s
  else if 0x810000 ≤ off && off < 0x820000 then msixWord 1 (off - 0x810000) s
  else 0

/-- Lowest offset of each latched group of a block with its words, by the offset within an instance (R42). The model's choice (log 56):
the group that TMP_EPOCH_LO latches is 0x20 to 0x24. -/
def groupWords (base o : Nat) : List (Nat × Nat) :=
  if base = 0 then [(4, 2)]
  else if base = 0x2000 then [(0, 4), (0x18, 2), (0x20, 2), (0x30, 3)]
  else if base = 0x5000 then [(0x10, 2), (0x18, 2), (0x20, 2), (0x28, 2)]
  else if base = 0x6000 then [(8, 2), (0x10, 4)]
  else if base = 0x7000 then [(8, 2)]
  else if base = 0x10000 then (if o < 0x400 then [] else [(8, 2)])
  else if base = 0x100000 || base = 0x240000 then [(0x208, 7)]
  else if base = 0x200000 then [(0x200, 6)]
  else if base = 0x220000 then [(0x200, 4)]
  else []

/-- Base of the block of an offset, instance arrays of FLX apart. -/
def blockBase (off : Nat) : Nat :=
  if off < 0x10000 then off / 0x1000 * 0x1000
  else if off < 0x30000 then off / 0x10000 * 0x10000
  else if 0x100000 ≤ off && off < 0x114000 then 0x100000
  else if 0x200000 ≤ off && off < 0x214000 then 0x200000
  else if 0x220000 ≤ off && off < 0x224000 then 0x220000
  else if 0x240000 ≤ off && off < 0x260000 then 0x240000
  else 0x300000

/-- The latched group an offset belongs to: its lowest offset and its words. -/
def groupAt (off : Nat) : Option (Nat × Nat) :=
  let base := blockBase off
  let inst := if base < 0x10000 then base else off - off % 0x400
  ((groupWords base (off - base)).find? (fun g => inst + g.1 ≤ off && off < inst + g.1 + 4 * g.2)).map (fun g => (inst + g.1, g.2))

/-- An offset lies in no span that Table 17-1 gives a function (R581, R582). -/
def unassigned (fn off : Nat) : Bool :=
  !(off < 0xB000 || (0xF000 ≤ off && off < 0x30000) || (0x100000 ≤ off && off < 0x120000) || (0x200000 ≤ off && off < 0x280000) ||
    (0x300000 ≤ off && off < 0x340000) || (0x800000 + fn * 0x10000 ≤ off && off < 0x810000 + fn * 0x10000))

end Sys2Proof.Machine
end

