-- ==== Sys2Proof/Machine/Regs.lean ====
section
/-! DEFINITION. Accesses to BAR0 (R9 to R11, R42, R112, R402, R573, R581 to R592): reads, latches, clears, stores and injections. -/

namespace Sys2Proof.Machine
open Sys2Proof

/-- Change what the GLB and DBG blocks hold. -/
def updGlb (f : Glb → Glb) (s : State) : State := { s with glb := f s.glb }

/-! ### Reads -/

/-- An access that reaches a function completes: `live` where BAR0 is served, all ones from an accepted power failure and in a warm
reset (R588, R592), and nothing where no link or power carries it. -/
def readThrough (fn : Nat) (live : State → State) (s : State) : State :=
  if !fnExists fn s then s
  else if barServed s then live s
  else if s.crl.parked || s.pwr.dead || (5 ≤ s.pwr.level && !s.pwr.powerFail) then s
  else emit (.readData 0xFFFFFFFF) s

/-- A write that reaches a function acts where BAR0 is served and is discarded elsewhere. -/
def writeThrough (fn : Nat) (act : State → State) (s : State) : State := if fnExists fn s && barServed s then act s else s

/-- Read a counter's _LO word (R112, R113): while Toll runs the total of the last instant and no clear; otherwise the count, which
restarts at what was counted in the same cycle (R11). -/
def clearingRead (off id counted : Nat) (s : State) : State :=
  let v := readCounter id s
  let kept := if s.toll.running then bump id counted s
    else { s with ctrs := aset s.ctrs id counted,
                  glb := { s.glb with cleared := aset s.glb.cleared id (agetD s.glb.cleared id 0 + v) } }
  emit (.readData (v % 4294967296)) (updGlb (fun g => { g with hiCopy := aset g.hiCopy (off + 4) (v / 4294967296) }) kept)

/-- Latch the counter that CNT_SEL names; the spec states no value where it names none: a free value of place 45 (log 18). -/
def latchCounter (s : State) : State :=
  let named := namesCounter s.toll.sel
  let v := if named then readCounter s.toll.sel s else unstatedAt 45 s % 18446744073709551616
  let s1 := { s with toll := { s.toll with val := v, noCounter := !named } }
  emit (.readData (v % 4294967296)) (if named then s1 else drawn s1)

/-- Latch a group: every word of it keeps its value until the next read of its lowest register (R42). -/
def latchGroupAt (base n : Nat) (s : State) : State :=
  updGlb (fun g => { g with latch := (List.range n).foldl (fun t k => aset t (base + 4 * k) (plainWord (base + 4 * k) s)) g.latch }) s

/-- The word that a read of an offset returns without an effect of the read. -/
def readWord (off : Nat) (s : State) : Nat :=
  match counterAt off, groupAt off with
  | some id, _ => readCounter id s % 4294967296
  | none, some g =>
    if off = g.1 || off = 0x600C then plainWord off s else agetD s.glb.latch off (if off = 8 then plainWord 8 s else 0)
  | none, none => if 4 ≤ off && (counterAt (off - 4)).isSome then agetD s.glb.hiCopy off 0 else plainWord off s

/-- Read a register of BAR0. -/
def readReg (off : Nat) (s : State) : State :=
  match counterAt off with
  | some id => clearingRead off id 0 s
  | none =>
    if off = 0x6008 then latchCounter s
    else match groupAt off with
      | some g => emit (.readData (readWord off s)) (if off = g.1 then latchGroupAt g.1 g.2 s else s)
      | none => emit (.readData (readWord off s)) s

/-- `COUNTER_CLEARING_READ`; `counted` events of the counter fall in the same cycle. -/
def execCounterClearingRead (fn offset counted : Nat) (s : State) : Res :=
  .next (match counterAt offset with
    | some id => readThrough fn (clearingRead offset id counted) s
    | none => s)

/-- An offset of a register that the function reads: aligned, in a span of its view. -/
def readableAt (fn off : Nat) : Bool := off % 4 = 0 && !unassigned fn off

/-- `GROUP_LATCH_READ`: the read of any register; the lowest of a group latches it. -/
def execGroupLatchRead (fn offset : Nat) (s : State) : Res :=
  .next (if readableAt fn offset then readThrough fn (readReg offset) s else s)

/-- `CNT_VAL_READ`. -/
def execCntValRead (fn : Nat) (s : State) : Res := .next (readThrough fn latchCounter s)

/-! ### W1C -/

/-- Clear the bits written as ones; a bit set in the same cycle stays set (R11). -/
def clearBits (v ones sets : Nat) : Nat := (v &&& (0xFFFFFFFF - ones % 4294967296)) ||| sets

/-- AUD_MISMATCH becomes `v`: a bit that becomes 1 signals the vector of AUD_IRQ. -/
def setMismatch (v sets : Nat) (s : State) : State :=
  let fresh := sets &&& (0xFFFFFFFF - s.pwr.mismatch % 4294967296)
  let s1 := updPwr (fun p => { p with mismatch := v }) s
  if fresh != 0 && bit s.pwr.irq 16 == 1 then sendMsix (bit s.pwr.irq 31) (s.pwr.irq % 2048) s1 else s1

/-- A write of ones to a W1C register with the bits that the part sets in that cycle (R11). -/
def writeOnes (off ones sets : Nat) (s : State) : State :=
  match off with
  | 0x18 =>
    let s1 := updGlb (fun g => { g with error := clearBits g.error ones (sets % 8) }) s
    if (sets % 8) &&& (0xFFFFFFFF - s.glb.error % 4294967296) = 0 then s1 else raiseGlb 16 s1
  | 0x20 =>
    let s1 := raiseGlb (sets % 64) s
    updGlb (fun g => { g with intStatus := clearBits s.glb.intStatus ones (sets % 64) }) s1
  | 0x3004 => { s with host := { s.host with error := clearBits s.host.error ones (sets % 32) } }
  | 0x180C => { s with mgmt := { s.mgmt with mbxError := clearBits s.mgmt.mbxError ones (sets % 4) } }
  | 0x5004 => setMismatch (clearBits s.pwr.mismatch ones (sets % 16)) (sets % 16) s
  | 0x2010 =>
    let v := bit (clearBits (b2n s.tempo.stepped * 8192) ones (bit sets 13 * 8192)) 13
    { s with tempo := { s.tempo with stepped := v == 1 } }
  | _ => s

/-- `W1C_CLEAR`: `sets` are the bits that the part sets in the cycle of the write. -/
def execW1cClear (fn offset : Nat) (ones sets : Word) (s : State) : Res :=
  .next (writeThrough fn (writeOnes offset ones.toNat sets.toNat) s)

/-! ### Stored registers -/

/-- The record of a captured register write (Table 11-10). -/
def regRecord (fn off v : Nat) (s : State) : JRec :=
  { seq := 0, tempo := s.tempo.now, source := 8 + fn, kind := 3, op := 0, status := 0, tag := 0, origin := off, detail0 := v,
    detail1 := 0, paramCrc := 0 }

/-- Append a record that keeps its own Tempo. -/
def journalAs (j : JRec) (s : State) : State :=
  { s with mgmt := { s.mgmt with
      journal := ({ j with seq := s.mgmt.journalNext } :: s.mgmt.journal).take 1048576, journalNext := s.mgmt.journalNext + 1 } }

/-- Capture a write (R402): journalled where Teruo runs, otherwise in the hardware log of 256 entries; in recovery mode nothing. -/
def captureWrite (fn off v : Nat) (s : State) : State :=
  if s.mgmt.rom then s
  else if s.mgmt.ready && !s.mgmt.restarting then journalAs (regRecord fn off v s) s
  else if s.mgmt.regLog.length < 256 then { s with mgmt := { s.mgmt with regLog := s.mgmt.regLog ++ [regRecord fn off v s] } }
  else { s with mgmt := { s.mgmt with regLost := s.mgmt.regLost + 1 } }

/-- Teruo empties the hardware log (R402). -/
def flushRegLog (s : State) : State :=
  let s1 := s.mgmt.regLog.foldl (fun s j => journalAs j s) { s with mgmt := { s.mgmt with regLog := [], regLost := 0 } }
  if s.mgmt.regLost = 0 then s1 else raiseEvent Ev.journalLost 0 s.mgmt.regLost 0 s1

/-- Fields of GLB_INT_VECTOR, and of MBX_IRQ and AUD_IRQ. -/
def vectorMask : Nat := 0x800007FF
def irqMask : Nat := 0x800107FF

/-- Store a word of a function's MSI-X table; a vector that it unmasks sends its pending message (PCIe Base Specification, log 6). -/
def writeMsix (fn o v : Nat) (s : State) : State :=
  let keep := if o % 16 = 0 then v / 4 * 4 else if o % 16 = 12 then v % 2 else v
  let s1 := updFn fn (fun f => { f with msix := aset f.msix o keep }) s
  if o % 16 = 12 && v % 2 = 0 && (pciFn fn s1).busMaster && ahas (pciFn fn s1).pba (o / 16) then
    sendMsix fn (o / 16) (updFn fn (fun f => { f with pba := adel f.pba (o / 16) }) s1)
  else s1

/-- Store a value in a register with no row of its own; none where the offset names no such register. -/
def storeReg (off v : Nat) (s : State) : Option State :=
  if off = 0x28 then some (updGlb (fun g => { g with intVector := v &&& vectorMask }) s)
  else if off = 0x2C then some (updGlb (fun g => { g with scratch := v }) s)
  else if 0x1000 ≤ off && off < 0x1400 then
    some { s with mgmt := { s.mgmt with mbxCmd := aset s.mgmt.mbxCmd (off - 0x1000) v } }
  else if off = 0x1810 then some { s with mgmt := { s.mgmt with mbxIrq := v &&& irqMask } }
  else if off = 0x5008 then some (updPwr (fun p => { p with irq := v &&& irqMask }) s)
  else if off = 0x6004 then some { s with toll := { s.toll with sel := v } }
  else none

/-- A stored write: RW and RWS registers are journalled, DBG_SCRATCH and the MSI-X table are not (R402, R591). -/
def writeReg (fn off v : Nat) (s : State) : State :=
  match storeReg off v s with
  | some s1 => captureWrite fn off v s1
  | none =>
    if 0xF000 ≤ off && off < 0xF010 then updGlb (fun g => { g with dbgScratch := aset g.dbgScratch (off - 0xF000) v }) s
    else if 0x800000 + fn * 0x10000 ≤ off && off < 0x808000 + fn * 0x10000 then writeMsix fn (off - 0x800000 - fn * 0x10000) v s
    else s

/-- `REGISTER_WRITE`: a register with no row of its own; RO and RC registers ignore it (R10). -/
def execRegisterWrite (fn offset : Nat) (value : Word) (s : State) : Res :=
  .next (if readableAt fn offset then writeThrough fn (writeReg fn offset value.toNat) s else s)

/-- `GLB_INT_ENABLE_WRITE`: an enable bit that it sets over a status bit already 1 sends the message at once (R587). -/
def execGlbIntEnableWrite (fn : Nat) (value : Word) (s : State) : Res :=
  .next (writeThrough fn (fun s =>
    let v := value.toNat % 64
    let s1 := captureWrite fn 0x24 value.toNat (updGlb (fun g => { g with intEnable := v }) s)
    if v &&& (63 - s.glb.intEnable % 64) &&& s.glb.intStatus = 0 then s1
    else sendMsix (bit s.glb.intVector 31) (s.glb.intVector % 2048) s1) s)

/-- A threshold of R423: 1,024 to 16,384 in steps of 256. -/
def goodThreshold (v : Nat) : Bool := 1024 ≤ v && v ≤ 16384 && v % 256 = 0

/-- `DDR_RH_THRESHOLD_WRITE`: the field is bits 15:0. -/
def execDdrRhThresholdWrite (fn : Nat) (value : Word) (s : State) : Res :=
  .next (writeThrough fn (fun s =>
    let v := value.toNat % 65536
    if goodThreshold v then captureWrite fn 0x10004 value.toNat { s with mem := { s.mem with rhThreshold := v } } else s) s)

/-! ### Injections (R591) -/

/-- Arm an injection, or disarm with a memory code above 9. -/
def armInjection (v : Nat) (s : State) : State :=
  let code := v % 16
  if 9 < code then updGlb (fun g => { g with inject := none, injectStatus := g.injectStatus / 2 * 2 }) s
  else updGlb (fun g => { g with inject := some (code, bit v 8, bit v 15 == 1),
                                 injectStatus := 1 + code * 256 + bit v 8 * 4096 }) s

/-- `DBG_INJECT`: a wrong KEY is recorded as BAD_KEY. -/
def execDbgInject (fn : Nat) (value : Word) (s : State) : Res :=
  .next (writeThrough fn (fun s =>
    if value.toNat / 65536 = 0x494A then armInjection value.toNat s else recordAccess 4 fn 0xF010 true s) s)

/-! ### Accesses that name no register -/

/-- `BAR0_BAD_ACCESS` (R9): a write is discarded, a read returns all ones, and the access is recorded as ACCESS_SIZE. -/
def execBar0BadAccess (fn offset : Nat) (write : Bool) (s : State) : Res :=
  .next (
    let rec1 := fun s => recordAccess 1 fn offset write s
    if write then writeThrough fn rec1 s else readThrough fn (fun s => emit (.readData 0xFFFFFFFF) (rec1 s)) s)

/-- `UNMAPPED_ACCESS` (R581): a read returns zero, a write is discarded, and the access is recorded as UNMAPPED. -/
def execUnmappedAccess (fn offset : Nat) (write : Bool) (s : State) : Res :=
  .next (
    let rec1 := fun s => recordAccess 2 fn offset write s
    if !unassigned fn offset then s
    else if write then writeThrough fn rec1 s else readThrough fn (fun s => emit (.readData 0) (rec1 s)) s)

end Sys2Proof.Machine
end

