-- ==== Sys2Proof/Machine/Reset.lean ====
section
/-! DEFINITION. Resets and starts (R36, R342, R467, R468, R492, R550, R588, R601, R606): power-on, warm reset, parking, the pins, and the start sequence to READY. -/

namespace Sys2Proof.Machine
open Sys2Proof

/-! ### PCIe links (R338, R606) -/

/-- A function's link trains; the width and rate it reaches are not the part's choice alone: free values of places 46 and 47 (log 18). -/
def trainLink (n : Nat) (s : State) : State :=
  if fnExists n s && !(pciFn n s).perstLow then
    drawn (updFn n (fun f => { f with linkUp := true, width := unstatedAt 46 s % 16, rate := unstatedAt 47 s % 16 }) s)
  else s

/-- A function's link goes down: a reset of R342. -/
def linkDown (n : Nat) (s : State) : State :=
  updFn n (fun f => { f with linkUp := false, width := 0, rate := 0 }) (functionReset n s)

/-- `PERST`: the level of PERSTn_N; PERST1_N is ignored with PCIE_SPLIT at 0. -/
def execPerst (fn : Nat) (low : Bool) (s : State) : Res :=
  .next (if !fnExists fn s then s
    else
      let s1 := updFn fn (fun f => { f with perstLow := low }) s
      if low then linkDown fn s1
      else if awake s && s.pwr.level < 5 && !(pciFn fn s).linkUp then trainLink fn s1 else s1)

/-! ### Power-on reset -/

/-- Everything that the reset input puts back: the state of R36 and the Reset columns, with the straps sampled. What lies outside the
part or in its flash and fuses stays. -/
def coreReset (straps : Nat) (s : State) : State :=
  let r := State.reset
  { r with
    pending := s.pending, fresh := s.fresh, out := s.out, hostMem := s.hostMem,
    host := { r.host with pf0 := { r.host.pf0 with perstLow := s.host.pf0.perstLow }, pf1 := { r.host.pf1 with perstLow := s.host.pf1.perstLow } },
    glb := { r.glb with serial := s.glb.serial, form := s.glb.form, strap := straps },
    fw := { r.fw with flash := s.fw.flash, flashOk := s.fw.flashOk, flashSize := s.fw.flashSize, fuseCounter := s.fw.fuseCounter,
                      revoked := s.fw.revoked, wear := s.fw.wear } }

/-- Output pins during reset: THERMTRIP_N is released, PPS_OUT is low (R604, R606). -/
def releasePins (s : State) : State :=
  let s1 := if s.pwr.ppsOutUntil.isSome then emit (.pin .ppsOut false) s else s
  if s.pwr.thermalTrip then emit (.pin .thermTripN true) s1 else s1

/-- The part starts: memories begin to train and PCIe links train (Table 14-4, steps 1 to 4). `wait`: PWR_FAIL_N is low. -/
def powerOn (straps : Nat) (wait : Bool) (s : State) : State :=
  let s1 := coreReset straps (releasePins s)
  let s2 := { s1 with mem := { s1.mem with ddr := List.replicate 8 { State.resetDdr with state := 1 }, hbmStacks := List.replicate 4 (1, 0) },
                      pwr := { s1.pwr with waitFail := wait } }
  trainLink 1 (trainLink 0 s2)

/-- `POWER_ON_RESET`: `straps` is the word of GLB_STRAP, with bit 31 for a PWR_FAIL_N that is low at the rise of PORST_N (R605, R606);
FL_RESET_N is low for 10 µs after the rise (R608). -/
def execPowerOnReset (straps : Nat) (s : State) : Res :=
  .next (emit (.pulse .flResetN false 10000) (powerOn (straps % 8192) (bit straps 31 == 1) s))

/-- `PWR_FAIL_N_RISE`: a boot ROM that waits goes on. -/
def execPwrFailNRise (s : State) : Res := .next (updPwr (fun p => { p with waitFail := false }) s)

/-- `RAIL_FAULT` (R601). -/
def execRailFault (rail : Rail) (s : State) : Res :=
  .next (if !awake s then s
    else match rail with
      | .core => settleShed (updPwr (fun p => { p with railLow := true, railOkSince := none }) s)
      | .management =>
        let s1 := coreReset s.glb.strap (releasePins s)
        { s1 with pwr := { s1.pwr with dead := true } }
      | .other => if s.pwr.powerFail then s else powerFails s)

/-! ### Parking (R467, R468) -/

/-- Flush every port (R108). -/
def flushPorts (s : State) : State := (akeys s.macs).foldl (fun s m => flush m s) s

/-- `PARK_ENTRY`: 100 ms after `carillon.park`. All but flash, fuses and the wake detector is lost; the detector keeps the package's
node address, which stands in NODE_BASE while parked. -/
def execParkEntry (s : State) : Res :=
  .next (match s.crl.parkAt with
    | none => s
    | some t =>
      if !awake s then s
      else
        let s1 := releasePins (haltData (flushPorts (advanceTo t s)))
        let s2 := coreReset s.glb.strap s1
        { s2 with elapsed := s1.elapsed, crl := { s2.crl with parked := true }, bus := { s2.bus with nodeBase := busNode s } })

/-- A frame that the wake-pattern detector matches (R468); the WAKE payload begins with SERIAL (Table 13-8). -/
def wakes (f : List Byte) (s : State) : Bool :=
  let m := msgOf f
  let serial := rdBe m.payload 0 8
  (f.take 6 == busMac s.bus.nodeBase || f.take 6 == busMac 0xFF) && slice f 12 2 == [0x88, 0xB5] && m.version == 1 && m.domain == 1 &&
  m.typ == 0x05 && (serial == s.glb.serial || serial == 0xFFFFFFFFFFFFFFFF) && fcsGood f

/-- `WAKE`: a parked package starts as after power-on reset. -/
def execWake (frame : List Byte) (s : State) : Res := .next (if s.crl.parked && !s.pwr.dead && wakes frame s then powerOn s.glb.strap false s else s)

/-! ### Warm reset (R588) -/

/-- What a function keeps: its link, its configuration space. -/
def warmFn (f : PciFn) : PciFn :=
  { State.resetFunction with width := f.width, rate := f.rate, linkUp := f.linkUp, perstLow := f.perstLow, busMaster := f.busMaster }

/-- Tempo goes on; the grid and the epoch are those of a start (R36, R43, R45), and commands that waited for Tempo are lost. -/
def warmTempo (s : State) : Tempo :=
  { s.tempo with stepWaiting := none, stepped := false, skewAlarm := false, anchor := 0, anchorAt := 0,
                 lastDownbeat := tempoNs s / 1000000, skips := [], epoch := 0, cseq := 0 }

/-- Counters of the memories, whose totals run since power-on reset (R440). -/
def memoryTotals (s : State) : Assoc Nat :=
  let keep := fun (id : Nat) => id / 134217728 == 6 || id / 134217728 == 7
  (akeys s.ctrs).foldl (fun t id => if keep id then aset t id (lifeCtr id s) else t) (s.glb.cleared.filter (fun x => keep x.1))

/-- The state of the part after a warm reset. -/
def warmed (s : State) : State :=
  let r := State.reset
  let p := s.pwr
  { r with
    pending := s.pending, elapsed := s.elapsed, fresh := s.fresh, out := s.out, hostMem := s.hostMem, tempo := warmTempo s,
    mgmt := { r.mgmt with eventSeq := s.mgmt.eventSeq, restarts := s.mgmt.restarts },
    host := { r.host with pf0 := warmFn s.host.pf0, pf1 := warmFn s.host.pf1 },
    glb := { r.glb with serial := s.glb.serial, form := s.glb.form, strap := s.glb.strap, scratch := s.glb.scratch, lastReset := 1,
                        warmUntil := s.elapsed + 1000000, cleared := memoryTotals s },
    qdm := { r.qdm with hbmReady := s.qdm.hbmReady, spillEnabled := s.qdm.hbmReady && p.level < 2 },
    mem := { s.mem with ddr := s.mem.ddr.map (fun d => { d with reads := [], writes := [], drain := none, held := [], hits := [] }), rhThreshold := 4096,
                        journalBad := false, flowBad := false },
    fw := { r.fw with flash := s.fw.flash, flashOk := s.fw.flashOk, flashSize := s.fw.flashSize, fuseCounter := s.fw.fuseCounter,
                      revoked := s.fw.revoked, wear := s.fw.wear, started := s.fw.started, failedStarts := s.fw.failedStarts,
                      probationAt := s.fw.probationAt },
    pwr := { r.pwr with level := p.level, board := p.board, railLow := p.railLow, railOkSince := p.railOkSince, dieAsk := p.dieAsk,
                        hbmAsk := p.hbmAsk, tempFd := p.tempFd, tempQd := p.tempQd, rail := p.rail, belowSince := p.belowSince,
                        lastChange := p.lastChange, history := p.history, faults := p.faults, faultCount := p.faultCount,
                        ppsOutUntil := p.ppsOutUntil } }

/-- A warm reset: a follower's time source is gone with its neighbours, and the shed level follows the requests that remain. -/
def warmReset (s : State) : State :=
  settleShed (checkHbmIdle (leaveCarillonTime (warmed s)))

/-- `WARM_RESET`: a write of GLB_CTRL; a wrong KEY is recorded as BAD_KEY. -/
def execWarmReset (fn : Nat) (value : Word) (s : State) : Res :=
  .next (writeThrough fn (fun s =>
    if value.toNat / 65536 != 0x5752 then recordAccess 4 fn 0x14 true s
    else if bit value.toNat 0 = 1 then warmReset s else s) s)

/-! ### The start sequence (Table 14-4) -/

/-- A strap that stops start-up at DDR4 training (R411). -/
def badDdrStrap (s : State) : Bool := bits s.glb.strap 9 8 == 3 || 6 ≤ bits s.glb.strap 6 4

/-- End the training of one channel: `failed` names the channels that fail and their step. With a bad strap every channel fails, and
the spec names no step for one that `failed` does not: a free value of place 48. A trained channel's eye margins are free values of places 49 and 50 (log 18). -/
def trainChannel (failed : List (Nat × Nat)) (bad : Bool) (s : State) (n : Nat) (d : DdrChan) : DdrChan :=
  if 2 ≤ d.state then d
  else match failed.find? (fun p => p.1 == n) with
    | some p => { d with state := 3, step := p.2 % 16 }
    | none =>
      if bad then { d with state := 3, step := unstatedAt 48 s % 16 }
      else { d with state := 2, step := 0, readMargin := Config.unstated 49 (s.fresh + n) % 256, writeMargin := Config.unstated 50 (s.fresh + n) % 256 }

/-- DDR4 training ends (R413). -/
def trainDdr (failed : List (Nat × Nat)) (s : State) : State :=
  let l := (List.range 8).map (fun n => trainChannel failed (badDdrStrap s) s n (ddrOf n s))
  { s with fresh := s.fresh + 8, mem := { s.mem with ddr := l } }

/-- Report Knell records: REPORTED is programmed in every valid record in which it is erased, and the newest is reported (R550). -/
def reportKnell (s : State) : State :=
  if !flashUsable s then s
  else match (knellRecords s).filter (fun x => rd x.2 504 4 == 0xFFFFFFFF) with
    | [] => s
    | x :: l =>
      let s1 := (x :: l).foldl (fun s y => flashWrite (knellBase y.1 + 504) (zeros 4) s) s
      raiseEvent Ev.knellFound (rd x.2 8 1) (rd x.2 4 4) (rd x.2 24 6) s1

/-- Teruo has started: READY, the watchdog, and what hardware kept for it. -/
def nowReady (s : State) : State :=
  flushRegLog { s with mgmt := { s.mgmt with ready := true, watchdogAt := s.elapsed } }

/-- Steps 5 to 7: image, Teruo, settings, Knell, READY; an image whose migration failed reverts at once. -/
def startTeruo (s : State) : State :=
  let s1 := bootImage s
  if s1.mgmt.rom then s1
  else
    let r := teruoRuns s1
    let s2 := nowReady (reportKnell (eraseKnell r.2))
    if r.1 then beginRestart 3 s2 else s2

/-- A start is due: the part has its power, no boot ROM waits, and nothing runs yet. -/
def startDue (s : State) : Bool :=
  awake s && s.pwr.level < 5 && !s.pwr.waitFail && !s.mgmt.ready && !s.mgmt.rom && !s.mgmt.restarting

/-- `START_READY`: `ddr` lists the channels that fail to train and their step. FORCE_RECOVERY counts at power-on reset, when DDR4 is not yet trained (R511). -/
def execStartReady (ddr : List (Nat × Nat)) (s : State) : Res :=
  .next (if !startDue s then s
    else
      let forced := bit s.glb.strap 12 == 1 && s.mem.ddr.any (fun d => d.state < 2)
      let s1 := if s.mem.ddr.any (fun d => d.state < 2) then trainDdr ddr s else s
      if forced then enterRecovery s1 else startTeruo s1)

end Sys2Proof.Machine
end

