-- ==== Sys2Proof/Machine/Abort.lean ====
section
/-! DEFINITION. Commands that end before their decision point (R387 to R391, R397): abort, timeout, restart, and the query of a command. -/

namespace Sys2Proof.Machine
open Sys2Proof

/-- The RUNNING command that a source, ORIGIN and tag name. -/
def namedRunning (source origin tag : Nat) (s : State) : Option Running :=
  s.mgmt.running.find? (fun r => r.cmd.source == source && r.cmd.origin == origin && r.cmd.tag == tag)

/-- End the activation schedule after the packages that are already being activated (R502). -/
def stopActivation (s : State) : State :=
  match s.fw.schedule with
  | none => s
  | some d => updFw (fun f => { f with schedule := if d.active.isEmpty then none else some { d with todo := [], stopped := true } }) s

/-- The packages that an activation schedule has done. -/
def scheduleCount (s : State) : Nat := (s.fw.schedule.map (·.done.length)).getD 0

/-- A verification with no command left that asked for it: VERIFY_PENDING is cleared, unless the end is a restart, after which it is
taken up again (R498). -/
def endVerify (status : Nat) (s : State) : State :=
  if status = St.restarted || s.mgmt.running.any (fun r => r.waits == .verify) || !s.fw.verifying then s
  else updFw (fun f => { f with verifying := false }) (writeRec (setFlag 2 false (updRec s)) s)

/-- End a RUNNING command before its decision point with ABORTED, TIMED_OUT or RESTARTED: its partial effect is withdrawn, and a bulk
command keeps what it has done (R387, R397). A command that only waits for MIRROR_ACK is decided, and stays. -/
def endEarly (status : Nat) (r : Running) (s : State) : State :=
  let plain := fun s => finishRunning r status [] false 0 0 s
  match r.waits with
  | .commit car seq =>
    match s.commits.find? (fun c => c.carillon == car && c.seq == seq && !c.decided) with
    | some c => abandonCommit c status s
    | none => plain s
  | .calendar g => endSwitch g status s
  | .timeOfDay _ => plain s
  | .tempoStep _ => plain s
  | .ringDisable n => plain (updRing n (fun x => { x with disabling := false }) s)
  | .relay _ _ => plain s
  | .flash => finishRunning r status (le 4 0) true 0 0 s
  | .setting _ _ => plain s
  | .verify => endVerify status (plain s)
  | .distribute => plain (updFw (fun f => { f with dist := none }) s)
  | .activate => finishRunning r status (le 4 (scheduleCount s)) true 0 (scheduleCount s) (stopActivation s)
  | .fuse => plain s
  | .scan c => stopContext c status s
  | .tollStop => plain s
  | .switchOver _ => plain (updProt (fun p => { p with switching := none }) s)
  | .mirror _ => s

/-- `COMMAND_TIMEOUT`: TIMEOUT expires before the decision point (R389). -/
def execCommandTimeout (source origin tag : Nat) (s : State) : Res :=
  .next (match namedRunning source origin tag s with
    | none => s
    | some r => if s.mgmt.restarting || !s.mgmt.ready then s else endEarly St.timedOut r (advanceTo r.deadline s))

/-- The command that the parameters of Table 11-4 name, among those that reached DONE. -/
def namedDone (source origin tag : Nat) (s : State) : Option DoneCmd :=
  s.mgmt.done.find? (fun d => d.source == source && d.origin == origin && d.tag == tag)

/-- The form of Table 11-4. -/
def nameBad (h : HeldCmd) : Bool := 5 < par h 0 1 || !parZero h 1 1

/-- `sys.abort` (R390). -/
def sysAbort (h : HeldCmd) (s : State) : Verdict :=
  if nameBad h then .refuse St.invalidParam
  else match namedRunning (par h 0 1) (par h 2 2) (par h 4 4) s with
    | some r => if waitsMirror r.waits then .refuse St.abortTooLate else .done St.ok [] (endEarly St.aborted r s)
    | none => .refuse (if (namedDone (par h 0 1) (par h 2 2) (par h 4 4) s).isSome then St.abortTooLate else St.notFound)

def specSysAbort : CmdSpec := ⟨8, .effect, sysAbort⟩
def execSysAbort (c : Cmd) (s : State) : Res := runCmd 0x0102 specSysAbort c s

/-- `sys.cmd.query` (R391, Table 11-5). -/
def sysCmdQuery (h : HeldCmd) (s : State) : Verdict :=
  if nameBad h then .refuse St.invalidParam
  else match namedRunning (par h 0 1) (par h 2 2) (par h 4 4) s, namedDone (par h 0 1) (par h 2 2) (par h 4 4) s with
    | some r, _ => .done St.ok (le 1 1 ++ zeros 1 ++ le 2 r.cmd.op ++ zeros 12) s
    | none, some d => .done St.ok (le 1 2 ++ zeros 1 ++ le 2 d.op ++ le 2 d.status ++ zeros 2 ++ le 8 d.journalSeq) s
    | none, none => .done St.ok (zeros 16) s

def specSysCmdQuery : CmdSpec := ⟨8, .query, sysCmdQuery⟩
def execSysCmdQuery (c : Cmd) (s : State) : Res := runCmd 0x0103 specSysCmdQuery c s

end Sys2Proof.Machine
end

