-- ==== Sys2Proof/Machine/Tables.lean ====
section
/-! DEFINITION. Table-update descriptors (R202 to R209, R222 to R224) and the route, identifier and flow-table commands (Table 06-19). -/

namespace Sys2Proof.Machine
open Sys2Proof

/-- What a table operation decides. -/
inductive TVerdict where
  /-- Refused with a status, and RELEASE for ID_QUARANTINED; nothing changes. -/
  | refuse (status release : Nat)
  /-- A configuration change, staged at its change units. -/
  | stage (units : Nat) (ch : Change)
  /-- An immediate operation has acted. -/
  | acted (status : Nat) (s : State)

/-- A table operation: its rules on the descriptor's bytes, what ADDR returns, the function of the ring, and the state; the
identifier its completion names; and the capacity FREE reports (Table 06-13). -/
structure TableOp where
  body : List Byte → Option (List Byte) → Nat → State → TVerdict
  id : List Byte → Nat
  free : List Byte → State → Nat

/-- Header bytes that are reserved are zero (Table 06-9). -/
def headerZero (d : List Byte) : Bool := bits (rd d 1 1) 7 1 == 0 && rd d 2 2 == 0

/-- A range of descriptor bytes is zero. -/
def descZero (d : List Byte) (off n : Nat) : Bool := allZero (slice d off n)

/-! ### Routes and labels -/

/-- A descriptor's family, length, VRF and prefix as a number; `none` when they are out of range (Table 06-11, R204). -/
def routeOf (d : List Byte) : Option (Bool × Nat × Nat × Nat) :=
  let len := rd d 9 1
  let w := if rd d 8 1 = 6 then 128 else 32
  let v := rdBe d 16 (w / 8)
  if (rd d 8 1 != 4 && rd d 8 1 != 6) || w < len || !descZero d 12 4 || (w == 32 && !descZero d 20 12) || v % 2 ^ (w - len) != 0 ||
      !descZero d 40 24 then none
  else some (w == 128, len, rd d 10 2, v)

/-- A result names an identifier that is not LIVE or STAGED_ALLOC in the next epoch (R204). -/
def resultDangling (r : Nat) (s : State) : Bool :=
  (bits r 63 61 == 0 && !idNext 0 (resId r) s) || (bits r 63 61 == 1 && !idNext 1 (resId r) s)

/-- Values that hold resources with one more change staged. -/
def heldWith (ch : Change) (s : State) : List Conf := heldConfs s ++ [applyChange (nextConf s) ch]

def routeAddBody (d : List Byte) (_ : Option (List Byte)) (_ : Nat) (s : State) : TVerdict :=
  match routeOf d with
  | none => .refuse St.invalidParam 0
  | some (v6, len, vrf, v) =>
    let host := len = (if v6 then 128 else 32)
    let ch := Change.route (routeKey v6 vrf len v) (some (rd d 32 8))
    if !resultOk (if host then .host else .net) (rd d 32 8) then .refuse St.invalidParam 0
    else if resultDangling (rd d 32 8) s then .refuse St.noSuchId 0
    else if host then
      if entryCapacity < entriesHeld (heldWith ch s) then .refuse St.emFull 0 else .stage 1 ch
    else if routeUnitCapacity < unitsHeld (heldWith ch s) then .refuse St.fibFull 0
    else .stage 1 ch

/-- FREE of a route operation: route units, or exact-match entries for a host route. -/
def routeFree (d : List Byte) (s : State) : Nat :=
  if rd d 9 1 = (if rd d 8 1 = 6 then 128 else 32) then entryCapacity - entriesHeld (heldConfs s)
  else routeUnitCapacity - unitsHeld (heldConfs s)

def opRouteAdd : TableOp := ⟨routeAddBody, fun _ => 0, routeFree⟩

def routeDeleteBody (d : List Byte) (_ : Option (List Byte)) (_ : Nat) (s : State) : TVerdict :=
  match routeOf d with
  | none => .refuse St.invalidParam 0
  | some (v6, len, vrf, v) =>
    if rd d 32 8 != 0 then .refuse St.invalidParam 0
    else if !ahas (nextConf s).routes (routeKey v6 vrf len v) then .refuse St.notFound 0
    else .stage 1 (.route (routeKey v6 vrf len v) none)

def opRouteDelete : TableOp := ⟨routeDeleteBody, fun _ => 0, routeFree⟩

/-- FREE of a label operation. -/
def labelFree (_ : List Byte) (s : State) : Nat := entryCapacity - entriesHeld (heldConfs s)

def labelAddBody (d : List Byte) (_ : Option (List Byte)) (_ : Nat) (s : State) : TVerdict :=
  let ch := Change.label (rd d 8 4) (some (rd d 32 8))
  if 1048576 ≤ rd d 8 4 || !descZero d 12 20 || !descZero d 40 24 || !resultOk .label (rd d 32 8) then .refuse St.invalidParam 0
  else if resultDangling (rd d 32 8) s then .refuse St.noSuchId 0
  else if entryCapacity < entriesHeld (heldWith ch s) then .refuse St.emFull 0
  else .stage 1 ch

def opLabelAdd : TableOp := ⟨labelAddBody, fun _ => 0, labelFree⟩

def labelDeleteBody (d : List Byte) (_ : Option (List Byte)) (_ : Nat) (s : State) : TVerdict :=
  if 1048576 ≤ rd d 8 4 || !descZero d 12 52 then .refuse St.invalidParam 0
  else if !ahas (nextConf s).labels (rd d 8 4) then .refuse St.notFound 0
  else .stage 1 (.label (rd d 8 4) none)

def opLabelDelete : TableOp := ⟨labelDeleteBody, fun _ => 0, labelFree⟩

/-! ### Identifiers -/

/-- A SET of an identifier: refused while its free is sealed or its quarantine stands (Table 06-14). -/
def setId (kind id units : Nat) (ch : Change) (s : State) : TVerdict :=
  match setRefused kind id s with
  | some rel => .refuse St.idQuarantined rel
  | none => .stage units ch

/-- A FREE of an identifier (R204, R209). -/
def freeId (kind id : Nat) (ch : Change) (s : State) : TVerdict :=
  if !idNext kind id s then .refuse St.noSuchId 0
  else if 0 < refsIn kind id (nextConf s) then .refuse St.idInUse 0
  else .stage 1 ch

/-- The identifier word of a descriptor. -/
def descId (d : List Byte) : Nat := rd d 8 4

/-- The next hop of a descriptor (Table 06-12). -/
def nextHopOf (d : List Byte) : NextHop :=
  { kind := rd d 12 1, reason := rd d 13 1, dest := rd d 14 2, template := rd d 16 4, dmac := slice d 20 6, val0 := rd d 28 4,
    val1 := rd d 32 4 }

/-- The form checks of NH_SET (R194). -/
def nextHopBad (d : List Byte) : Bool :=
  let n := nextHopOf d
  nextHopCapacity ≤ descId d || 2 < n.kind || templateCapacity ≤ n.template || !descZero d 26 2 || !descZero d 36 28 ||
  (n.kind != 0 && (n.dest != 0 || n.template != 0)) || (n.kind != 2 && n.reason != 0) || (n.kind == 2 && n.reason < 64)

def nhSetBody (d : List Byte) (_ : Option (List Byte)) (_ : Nat) (s : State) : TVerdict :=
  if nextHopBad d then .refuse St.invalidParam 0
  else if (nextHopOf d).kind == 0 && !idNext 2 (nextHopOf d).template s then .refuse St.noSuchId 0
  else setId 0 (descId d) 1 (.nextHop (descId d) (some (nextHopOf d))) s

def opNhSet : TableOp := ⟨nhSetBody, descId, fun _ s => idsFree 0 s⟩

def nhFreeBody (d : List Byte) (_ : Option (List Byte)) (_ : Nat) (s : State) : TVerdict :=
  if nextHopCapacity ≤ descId d || !descZero d 12 52 then .refuse St.invalidParam 0
  else freeId 0 (descId d) (.nextHop (descId d) none) s

def opNhFree : TableOp := ⟨nhFreeBody, descId, fun _ s => idsFree 0 s⟩

/-- Free ECMP slots (R193). -/
def slotsFree (s : State) : Nat := slotCapacity - slotsUsed s - slotsStaged (batches s)

def ecmpSetBody (d : List Byte) (data : Option (List Byte)) (_ : Nat) (s : State) : TVerdict :=
  let n := rd d 12 2
  if groupCapacity ≤ descId d || n < 1 || 512 < n || !descZero d 14 2 || !descZero d 24 40 then .refuse St.invalidParam 0
  else match data with
    | none => .refuse St.dmaError 0
    | some b =>
      let l := (List.range n).map (fun k => rd b (4 * k) 4)
      let ch := Change.ecmp (descId d) (some l)
      if l.any (fun x => nextHopCapacity ≤ x) then .refuse St.invalidParam 0
      else if l.any (fun x => !idNext 0 x s) then .refuse St.noSuchId 0
      else match setRefused 1 (descId d) s with
        | some rel => .refuse St.idQuarantined rel
        | none =>
          if slotCapacity < slotsUsed s + slotsStaged (batchesWith ch s) then .refuse St.ecmpFull 0
          else .stage (1 + (n + 15) / 16) ch

def opEcmpSet : TableOp := ⟨ecmpSetBody, descId, fun _ s => slotsFree s⟩

def ecmpFreeBody (d : List Byte) (_ : Option (List Byte)) (_ : Nat) (s : State) : TVerdict :=
  if groupCapacity ≤ descId d || !descZero d 12 52 then .refuse St.invalidParam 0
  else freeId 1 (descId d) (.ecmp (descId d) none) s

def opEcmpFree : TableOp := ⟨ecmpFreeBody, descId, fun _ s => slotsFree s⟩

/-- The chain of templates outside `t` in an epoch, cut after `fuel`. -/
def chainFrom (c : Conf) : Nat → List Byte → List (List Byte)
  | 0, _ => []
  | fuel + 1, t => match tChain t with
    | none => []
    | some n => match aget c.templates n with
      | none => []
      | some u => u :: chainFrom c fuel u

/-- Some chain of an epoch is too long, loops, or chains a template that pops (R199). -/
def chainsBad (c : Conf) : Bool :=
  c.templates.any (fun p => let l := chainFrom c 4 p.2; 2 < l.length || l.any (fun u => tPopLen u != 0))

def templateSetBody (d : List Byte) (data : Option (List Byte)) (_ : Nat) (s : State) : TVerdict :=
  if templateCapacity ≤ descId d || !descZero d 12 4 || !descZero d 24 40 then .refuse St.invalidParam 0
  else match data with
    | none => .refuse St.dmaError 0
    | some b =>
      let t := fit 64 b
      let ch := Change.template (descId d) (some t)
      if templateMalformed t || chainsBad (applyChange (nextConf s) ch) then .refuse St.invalidParam 0
      else if (match tChain t with
               | some n => !idNext 2 n s && n != descId d
               | none => false) then .refuse St.noSuchId 0
      else setId 2 (descId d) 1 ch s

def opTemplateSet : TableOp := ⟨templateSetBody, descId, fun _ s => idsFree 2 s⟩

def templateFreeBody (d : List Byte) (_ : Option (List Byte)) (_ : Nat) (s : State) : TVerdict :=
  if templateCapacity ≤ descId d || !descZero d 12 52 then .refuse St.invalidParam 0
  else freeId 2 (descId d) (.template (descId d) none) s

def opTemplateFree : TableOp := ⟨templateFreeBody, descId, fun _ s => idsFree 2 s⟩

/-! ### Flow operations (R222 to R224) -/

/-- TABLE, FLAGS and the reserved bytes of a flow operation (Table 06-16). -/
def flowDescBad (d : List Byte) (flags : Nat) : Bool :=
  15 < rd d 8 1 || flags < rd d 9 1 || !descZero d 10 6 || !descZero d 24 40

/-- Contexts that a table could still take. -/
def flowFree (d : List Byte) (s : State) : Nat :=
  match flowTable (rd d 8 1) s with
  | some ft => ft.contexts - (flowsOf (rd d 8 1) s).length
  | none => 0

/-- Locked contexts of the package (R223). -/
def lockCount (s : State) : Nat := s.fwd.flows.countP (·.lock.isSome)

def flowReadBody (d : List Byte) (data : Option (List Byte)) (fn : Nat) (s : State) : TVerdict :=
  let t := rd d 8 1
  if flowDescBad d 1 then .refuse St.invalidParam 0
  else if (flowTable t s).isNone then .refuse St.noSuchTable 0
  else match data with
    | none => .refuse St.dmaError 0
    | some b =>
      match findFlow t (slice b 8 48) s with
      | none => .refuse St.flowAbsent 0
      | some f =>
        if rd d 9 1 = 0 then .acted St.ok (dmaWrite fn (rd d 16 8) (ctxBytes f) s)
        else if f.lock.isSome then .refuse St.flowLocked 0
        else if 1024 ≤ lockCount s then .refuse St.lockFull 0
        else
          let g := { f with lock := some s.elapsed, keptPackets := 0, keptBytes := 0, keptLast := 0, lapsed := false }
          .acted St.ok (dmaWrite fn (rd d 16 8) (ctxBytes g) (updFlow t f.key (fun _ => g) s))

def opFlowRead : TableOp := ⟨flowReadBody, fun _ => 0, flowFree⟩

/-- A host insertion (R222): FIRST is the time of the host write (Table 06-18). -/
def flowInsert (t : Nat) (ft : FlowTable) (evict : Bool) (g : FlowCtx) (s : State) : TVerdict :=
  let b := flowBucketOf t ft g.key
  match makeRoom evict t ft b s with
  | none => .refuse St.flowBucketFull 0
  | some (k, s1) => .acted St.ok (storeFlow { g with bucket := b, slot := k, first := s.tempo.now } s1)

/-- FLOW_WRITE: UNLOCK acts in mode REPLACE (R224). -/
def flowWriteBody (d : List Byte) (data : Option (List Byte)) (_ : Nat) (s : State) : TVerdict :=
  let t := rd d 8 1
  let mode := rd d 9 1 % 4
  let unlock := bit (rd d 9 1) 2 == 1 && mode == 1
  if flowDescBad d 15 || mode == 3 then .refuse St.invalidParam 0
  else match flowTable t s, data with
    | none, _ => .refuse St.noSuchTable 0
    | _, none => .refuse St.dmaError 0
    | some ft, some b =>
      let g := ctxOf t b
      match findFlow t g.key s with
        | none => if mode == 1 then .refuse St.flowAbsent 0 else flowInsert t ft (bit (rd d 9 1) 3 == 1) g s
        | some f =>
          if mode == 0 then .refuse St.flowExists 0
          else if unlock && f.lapsed then .acted St.lockExpired s
          else if f.lock.isSome then
            if unlock then .acted St.ok (writeFlow f (fun f => unlockCtx f g) s) else .refuse St.flowLocked 0
          else .acted St.ok (writeFlow f (fun f => rewriteCtx f g) s)

def opFlowWrite : TableOp := ⟨flowWriteBody, fun _ => 0, flowFree⟩

def flowDeleteBody (d : List Byte) (data : Option (List Byte)) (_ : Nat) (s : State) : TVerdict :=
  let t := rd d 8 1
  if flowDescBad d 0 then .refuse St.invalidParam 0
  else match flowTable t s, data with
    | none, _ => .refuse St.noSuchTable 0
    | _, none => .refuse St.dmaError 0
    | some _, some b =>
      match findFlow t (slice b 8 48) s with
      | none => .refuse St.flowAbsent 0
      | some f => .acted St.ok (dropFlow f s)

def opFlowDelete : TableOp := ⟨flowDeleteBody, fun _ => 0, flowFree⟩

/-- The operations by their OP (Table 06-10). -/
def tableOpOf : Nat → Option TableOp
  | 0x01 => some opRouteAdd | 0x02 => some opRouteDelete | 0x03 => some opLabelAdd | 0x04 => some opLabelDelete
  | 0x05 => some opNhSet | 0x06 => some opNhFree | 0x07 => some opEcmpSet | 0x08 => some opEcmpFree
  | 0x09 => some opTemplateSet | 0x0A => some opTemplateFree | 0x10 => some opFlowRead | 0x11 => some opFlowWrite
  | 0x12 => some opFlowDelete
  | _ => none

/-! ### The table engine -/

/-- Note one immediate flow operation of a ring for the journal record of its second (R402). -/
def noteFlowWork (ring index tag : Nat) (s : State) : State :=
  let w := agetD s.mgmt.flowWork ring { tag := tag, first := index, last := index, count := 0 }
  { s with mgmt := { s.mgmt with flowWork := aset s.mgmt.flowWork ring { w with tag := tag, last := index, count := w.count + 1 } } }

/-- Count change units processed (TBL_RATE). -/
def noteUnits (n : Nat) (s : State) : State := { s with fwd := { s.fwd with unitsNow := s.fwd.unitsNow + n } }

/-- A staged change of the limit of R207. -/
def stagingFull (units : Nat) (s : State) : Bool := 4194304 < stagedUnits s + units

/-- Write or hold back a table completion (R208, R471). -/
def tableDone (x : Ring) (d : List Byte) (op status id release free : Nat) (held : Option Nat) (s : State) : State :=
  let rec32 := tableBytes (rd d 4 4) x.partIndex status op id release free
  if rd d 1 1 % 2 == 1 || status != St.ok then
    match held with
    | some seq => { s with prot := { s.prot with mirrorHeld := s.prot.mirrorHeld ++ [(seq, x.cq, rec32)] } }
    | none => postCompletion x.cq rec32 s
  else s

/-- What the completion of a staging descriptor, just given, waits for: one that asks for none has none (R60, R208). -/
def tableDue (x : Ring) (d : List Byte) (held : Option Nat) (s : State) : Due :=
  if rd d 1 1 % 2 = 1 then (match held with
    | some q => .mirror q
    | none => recordDue x.cq s)
  else .written

/-- It is a ring's turn (R206): the table-update rings that have a descriptor are served in ascending order, one descriptor at a time. -/
def tableTurn (r : Nat) (s : State) : Bool :=
  nextTurn s.fwd.lastTable ((s.host.rings.filter (fun x =>
    x.2.typ == .table && mayBegin x.2 s && (x.1 == r || !x.2.fetched.isEmpty))).map (·.1)) == some r

/-- Process a table-update descriptor whose OP is the row's (R206): refused with no change, or staged, or done; its completion follows.
An OP that Table 06-10 does not name is refused whichever row brings it (R204). -/
def runTable (op : Nat) (t : TableOp) (d : Desc) (s : State) : State :=
  match ring? d.ring s with
  | none => s
  | some x =>
    let b := fit 64 d.bytes
    let code := rd b 0 1
    if x.typ != .table || !mayBegin x s || !tableTurn d.ring s || ((tableOpOf code).isSome && code != op) then s
    else if (tableOpOf code).isNone then
      tableDone x b code St.invalidParam 0 0 0 none (consume d.ring { s with fwd := { s.fwd with lastTable := some d.ring } })
    else
      let s1 := noteUnits 1 (consume d.ring { s with fwd := { s.fwd with lastTable := some d.ring } })
      let s2 := if 0x10 ≤ op then noteFlowWork d.ring x.partIndex (rd b 4 4) s1 else s1
      let refuse := fun st rel s => tableDone x b op st (t.id b) rel (t.free b s) none (if st = St.dmaError then tally (hifCtr 0x108) s else s)
      if !headerZero b then refuse St.invalidParam 0 s2
      else match t.body b d.data x.fn s2 with
        | .refuse st rel => 
          if op < 0x10 && standsBy s2 && !earlyRefusal st then refuse St.protectStandby 0 s2 else refuse st rel s2
        | .acted st s3 =>
          if st = St.ok && s2.mem.flowBad then refuse St.memError 0 { s2 with mem := { s2.mem with flowBad := false } }
          else tableDone x b op st (t.id b) 0 (t.free b s3) none s3
        | .stage units ch =>
          if standsBy s2 then refuse St.protectStandby 0 s2
          else if stagingFull units s2 then refuse St.stagingFull 0 s2
          else
            let s3 := noteUnits (units - 1) { s2 with staged := s2.staged ++ [{ change := ch, units := units, sealedBy := none,
                                                                                src := some (x.fn, d.ring, x.partIndex, rd b 4 4) }] }
            let s4 := mirrorCfg 1 (b ++ (d.data.getD [])) s3
            let held := if mirrors s4 then some s3.prot.mirrorSeq else none
            let s5 := tableDone x b op St.ok (t.id b) 0 (t.free b s3) held (releaseUnmirrored s4)
            markDue s2.staged.length (tableDue x b held s5) s5

def execRouteAdd (d : Desc) (s : State) : Res := .next (runTable 0x01 opRouteAdd d s)
def execRouteDelete (d : Desc) (s : State) : Res := .next (runTable 0x02 opRouteDelete d s)
def execLabelAdd (d : Desc) (s : State) : Res := .next (runTable 0x03 opLabelAdd d s)
def execLabelDelete (d : Desc) (s : State) : Res := .next (runTable 0x04 opLabelDelete d s)
def execNhSet (d : Desc) (s : State) : Res := .next (runTable 0x05 opNhSet d s)
def execNhFree (d : Desc) (s : State) : Res := .next (runTable 0x06 opNhFree d s)
def execEcmpSet (d : Desc) (s : State) : Res := .next (runTable 0x07 opEcmpSet d s)
def execEcmpFree (d : Desc) (s : State) : Res := .next (runTable 0x08 opEcmpFree d s)
def execTemplateSet (d : Desc) (s : State) : Res := .next (runTable 0x09 opTemplateSet d s)
def execTemplateFree (d : Desc) (s : State) : Res := .next (runTable 0x0A opTemplateFree d s)
def execFlowRead (d : Desc) (s : State) : Res := .next (runTable 0x10 opFlowRead d s)
def execFlowWrite (d : Desc) (s : State) : Res := .next (runTable 0x11 opFlowWrite d s)
def execFlowDelete (d : Desc) (s : State) : Res := .next (runTable 0x12 opFlowDelete d s)

/-! ### Failed reads (R205, R373) -/

/-- A read that a descriptor or command needs fails: it ends DMA_ERROR and the ring continues (R373). -/
def descReadFailed (r : Nat) (d : List Byte) (s : State) : State :=
  match ring? r s with
  | none => s
  | some x =>
    if x.state != .enabled then s
    else
      let s1 := consume r (tally (hifCtr 0x108) s)
      match x.typ with
      | .inject => postCompletion x.cq (injectBytes (rd d 4 4) x.partIndex St.dmaError none false (rd d 2 2) 0) s1
      | .table => postCompletion x.cq (tableBytes (rd d 4 4) x.partIndex St.dmaError (rd d 0 1)
        (((tableOpOf (rd d 0 1)).map (fun t => t.id d)).getD 0) 0 (((tableOpOf (rd d 0 1)).map (fun t => t.free d s1)).getD 0)) s1
      | .command =>
        postCompletion x.cq (le 4 0 ++ le 4 x.partIndex ++ le 2 St.dmaError ++ le 1 0xC0 ++ zeros 9 ++
          le 4 (nsOf s.tempo.now) ++ le 4 (secOf s.tempo.now) ++ zeros 4) s1
      | _ => s

def execDmaReadError (ring : Nat) (kind : ReadKind) (desc : List Byte) (s : State) : Res :=
  .next (match kind with
    | .data => descReadFailed ring desc s
    | .ringMemory => ringReadFailed ring s)

/-! ### Commands (Table 06-19) -/

/-- `fib.vrf.config` (R186). -/
def fibVrfConfig (h : HeldCmd) (s : State) : Verdict :=
  if 1 < par h 2 1 || !parZero h 3 1 then .refuse St.invalidParam else staged [] (.vrfMiss (par h 0 2) (par h 2 1)) s

def specFibVrfConfig : CmdSpec := ⟨4, .config, fibVrfConfig⟩
def execFibVrfConfig (c : Cmd) (s : State) : Res := runCmd 0x0501 specFibVrfConfig c s

/-- A 12-byte capacity record: used, staged, free. -/
def capRecord (used stg cap : Nat) : List Byte := le 4 used ++ le 4 stg ++ le 4 (cap - used - stg)

/-- A capacity held by live and not-yet-released values, and the rest that staged values add. -/
def capOf (f : List Conf → Nat) (s : State) : Nat × Nat :=
  let used := f (s.commits.filterMap (·.retained) ++ [s.cfg])
  (used, f (heldConfs s) - used)

/-- `fib.status` (R193, Table 06-21). -/
def fibStatus (_ : HeldCmd) (s : State) : Verdict :=
  let r := fun f cap => capRecord (capOf f s).1 (capOf f s).2 cap
  let i := fun k cap => capRecord (idsTaken k s).1 (idsTaken k s).2 cap
  .done St.ok (r unitsHeld routeUnitCapacity ++ r entriesHeld entryCapacity ++ i 0 nextHopCapacity ++ i 1 groupCapacity ++
    capRecord (slotsUsed s) (slotsStaged (batches s)) slotCapacity ++ i 2 templateCapacity) s

def specFibStatus : CmdSpec := ⟨0, .query, fibStatus⟩
def execFibStatus (c : Cmd) (s : State) : Res := runCmd 0x0502 specFibStatus c s

/-- Identifiers of a kind of Table 06-15. -/
def idCapacity : Nat → Nat
  | 0 => nextHopCapacity
  | 1 => groupCapacity
  | 2 => templateCapacity
  | 3 => 524288
  | 4 => 131072
  | 5 => 65536
  | _ => 0

/-- `id.query` (R210, Table 06-15). -/
def idQuery (h : HeldCmd) (s : State) : Verdict :=
  let kind := par h 0 1
  let id := par h 4 4
  if !parZero h 1 3 || idCapacity kind ≤ id then .refuse St.invalidParam
  else
    let q := if idState kind id s = 4 then aget s.quar (quarKey kind id) else none
    .done St.ok (le 1 (idState kind id s) ++ zeros 3 ++ le 4 (refsIn kind id (nextConf s)) ++
      le 8 ((q.map (·.freedBy)).getD 0) ++ le 8 ((q.map (fun q => releaseDownbeat q s)).getD 0)) s

def specIdQuery : CmdSpec := ⟨8, .query, idQuery⟩
def execIdQuery (c : Cmd) (s : State) : Res := runCmd 0x0503 specIdQuery c s

/-- `ecmp.hash.seed` (R196). -/
def ecmpHashSeed (h : HeldCmd) (s : State) : Verdict := staged [] (.hashSeed (par h 0 4)) s

def specEcmpHashSeed : CmdSpec := ⟨4, .config, ecmpHashSeed⟩
def execEcmpHashSeed (c : Cmd) (s : State) : Res := runCmd 0x0504 specEcmpHashSeed c s

/-- `flow.table.create` (R211). -/
def flowTableCreate (h : HeldCmd) (s : State) : Verdict :=
  let t := par h 0 1
  let n := par h 4 4
  if 15 < t || 1 < par h 1 1 || 31 < par h 2 1 || !parZero h 3 1 || n == 0 || n % 65536 != 0 || 4194304 < n || 86400 < par h 8 4 ||
      ctxActionBad (par h 12 4) (par h 16 4) then .refuse St.invalidParam
  else
    let others := s.fwd.flowTables.foldl (fun a p => if p.1 = t then a else a + p.2.contexts) 0
    let ft : FlowTable := { policy := par h 1 1, flags := par h 2 1, contexts := n, idle := par h 8 4, learnAction := par h 12 4,
                            learnNh := par h 16 4 }
    if (flowTable t s).any (fun o => o.contexts != n) && !(flowsOf t s).isEmpty then .refuse St.tableInUse
    else if 4194304 < others + n then .refuse St.noResource
    else .done St.ok [] { s with fwd := { s.fwd with flowTables := aset s.fwd.flowTables t ft } }

def specFlowTableCreate : CmdSpec := ⟨20, .effect, flowTableCreate⟩
def execFlowTableCreate (c : Cmd) (s : State) : Res := runCmd 0x0520 specFlowTableCreate c s

/-- A live or staged rule action, or a table's DEFAULT, names a flow table (R212). -/
def flowNamed (t : Nat) (s : State) : Bool :=
  liveOrStaged (fun c => ((avals c.rules).map (·.action) ++ (avals c.ruleTables).map (·.dflt)).any
    (fun a => aFlow a && aFlowTable a == t)) s

/-- `flow.table.delete` (R212). -/
def flowTableDelete (h : HeldCmd) (s : State) : Verdict :=
  let t := par h 0 1
  if 15 < t || !parZero h 1 3 then .refuse St.invalidParam
  else if (flowTable t s).isNone then .refuse St.noSuchTable
  else if flowNamed t s then .refuse St.tableInUse
  else
    let s1 := (flowsOf t s).foldl (fun s f => dropFlow f s) s
    .done St.ok [] { s1 with fwd := { s1.fwd with flowTables := adel s1.fwd.flowTables t } }

def specFlowTableDelete : CmdSpec := ⟨4, .effect, flowTableDelete⟩
def execFlowTableDelete (c : Cmd) (s : State) : Res := runCmd 0x0521 specFlowTableDelete c s

/-- `flow.table.flush` (R212): bulk. -/
def flowTableFlush (h : HeldCmd) (s : State) : Verdict :=
  let t := par h 0 1
  if 15 < t || 1 < par h 1 1 || !parZero h 2 2 then .refuse St.invalidParam
  else if (flowTable t s).isNone then .refuse St.noSuchTable
  else
    let gone := (flowsOf t s).filter (fun f => f.lock.isNone && (!f.isStatic || par h 1 1 == 1))
    .done St.ok (le 4 gone.length) (gone.foldl (fun s f => dropFlow f s) s)

def specFlowTableFlush : CmdSpec := ⟨4, .bulk, flowTableFlush⟩
def execFlowTableFlush (c : Cmd) (s : State) : Res := runCmd 0x0522 specFlowTableFlush c s

/-- The record of one table in `flow.status` (Table 06-21). -/
def flowStatusRecord (s : State) (t : Nat) : List Byte :=
  match flowTable t s with
  | none => zeros 48
  | some ft =>
    let (n, l, st, k) := flowCounts t s
    le 1 t ++ le 1 ft.policy ++ le 1 ft.flags ++ zeros 1 ++ le 4 ft.contexts ++ le 4 ft.idle ++ le 4 ft.learnAction ++
      le 4 ft.learnNh ++ le 1 1 ++ zeros 3 ++ le 4 n ++ le 4 l ++ le 4 st ++ le 4 k ++ zeros 8

/-- `flow.status` (R212). -/
def flowStatus (_ : HeldCmd) (s : State) : Verdict :=
  .done St.ok ((List.range 16).flatMap (flowStatusRecord s)) s

def specFlowStatus : CmdSpec := ⟨0, .query, flowStatus⟩
def execFlowStatus (c : Cmd) (s : State) : Res := runCmd 0x0523 specFlowStatus c s

end Sys2Proof.Machine
end

