-- ==== Sys2Proof/Machine/Catalogue.lean ====
section
/-! DEFINITION. The catalogue of the commands by opcode (R14), for commands that arrive as a block. -/

namespace Sys2Proof.Machine
open Sys2Proof

/-- A line of the catalogue. -/
abbrev CatLine := Nat × CmdSpec

/-- Group 0x01. -/
def catalogue01 : List CatLine :=
  [(0x0101, specSysInfo), (0x0102, specSysAbort), (0x0103, specSysCmdQuery),
   (0x0104, specSysRestart), (0x0105, specEventBind), (0x0106, specJournalRead)]

/-- Group 0x02. -/
def catalogue02 : List CatLine :=
  [(0x0201, specPortConfig), (0x0202, specPortDelete), (0x0203, specPortAdmin),
   (0x0204, specPortQuery), (0x0205, specPortDegrade), (0x0206, specPortMacSet)]

/-- Group 0x03. -/
def catalogue03 : List CatLine :=
  [(0x0301, specFlexeGroupConfig), (0x0302, specFlexeGroupDelete), (0x0303, specFlexeGroupAdmin),
   (0x0304, specFlexeClientConfig), (0x0305, specFlexeClientDelete), (0x0306, specFlexeClientAdmin),
   (0x0307, specFlexeCalendarStage), (0x0308, specFlexeCalendarSwitch), (0x0309, specFlexeQuery)]

/-- Group 0x04. -/
def catalogue04 : List CatLine :=
  [(0x0401, specParseSelectLayout), (0x0402, specProfileWrite), (0x0403, specProfileDelete),
   (0x0404, specProfileSelectAdd), (0x0405, specProfileSelectDelete), (0x0406, specParseClassMapSet),
   (0x0407, specRuleTableCreate), (0x0408, specRuleTableDelete), (0x0409, specRuleAdd),
   (0x040A, specRuleDelete), (0x040B, specRuleModify), (0x040C, specRuleOverlaps),
   (0x040D, specRuleQuery), (0x040E, specExceptionConfig), (0x040F, specTcamStatus)]

/-- Group 0x05. -/
def catalogue05 : List CatLine :=
  [(0x0501, specFibVrfConfig), (0x0502, specFibStatus), (0x0503, specIdQuery),
   (0x0504, specEcmpHashSeed), (0x0510, specTableCommit), (0x0511, specTableCommitQuery),
   (0x0520, specFlowTableCreate), (0x0521, specFlowTableDelete), (0x0522, specFlowTableFlush),
   (0x0523, specFlowStatus)]

/-- Group 0x06. -/
def catalogue06 : List CatLine :=
  [(0x0601, specVoqDestSet), (0x0602, specVoqDestDelete), (0x0603, specVoqProfileSet),
   (0x0604, specVoqEplistSet), (0x0605, specPealListSet), (0x0606, specPealListDelete),
   (0x0607, specBufPoolLayout), (0x0608, specBufPoolConfig), (0x0609, specSamplerConfig),
   (0x060A, specPuntQueueConfig), (0x060B, specVoqQuery), (0x060C, specBufStatus)]

/-- Group 0x07. -/
def catalogue07 : List CatLine :=
  [(0x0701, specSchedPortConfig), (0x0702, specSchedNodeSet), (0x0703, specSchedNodeDelete),
   (0x0706, specGateListSet), (0x0707, specGateListClear), (0x0708, specCreditConfig),
   (0x0709, specCreditPealSet), (0x070A, specPolicerConfig), (0x070B, specSchedQuery),
   (0x070C, specPolicerQuery)]

/-- Group 0x08. -/
def catalogue08 : List CatLine :=
  [(0x0801, specFabricConfig), (0x0802, specFabricQuery), (0x0803, specFabricLaneQuery)]

/-- Group 0x09. -/
def catalogue09 : List CatLine :=
  [(0x0901, specRingIndexConfig), (0x0902, specRingCreate), (0x0903, specRingEnable),
   (0x0904, specRingDisable), (0x0905, specRingDestroy), (0x0906, specRingQuery),
   (0x0907, specRxGroupConfig), (0x0908, specPuntQueueBind)]

/-- Group 0x0A. -/
def catalogue0A : List CatLine :=
  [(0x0A01, specTempoSourceSet), (0x0A02, specTempoTodSet), (0x0A03, specTempoAdjust),
   (0x0A04, specTempoStep), (0x0A05, specTempoQuery), (0x0A06, specTempoGridSet),
   (0x0A07, specTempoMaxAgeSet)]

/-- Group 0x0B. -/
def catalogue0B : List CatLine :=
  [(0x0B01, specCarillonConfig), (0x0B02, specCarillonStatus), (0x0B03, specCarillonPark),
   (0x0B04, specMgmtBusConfig), (0x0B05, specProtectPairSet), (0x0B06, specProtectPairDelete),
   (0x0B07, specProtectSwitch), (0x0B08, specProtectQuery)]

/-- Group 0x0C. -/
def catalogue0C : List CatLine :=
  [(0x0C01, specFwDownload), (0x0C02, specFwVerify), (0x0C03, specFwDistribute),
   (0x0C04, specFwActivate), (0x0C05, specFwConfirm), (0x0C06, specFwRevert),
   (0x0C07, specFwStatus), (0x0C08, specSettingsRead), (0x0C09, specSettingsWrite),
   (0x0C0A, specKeyRevoke), (0x0C0B, specAttestQuote)]

/-- Group 0x0D. -/
def catalogue0D : List CatLine :=
  [(0x0D01, specTollConfig), (0x0D02, specTollSelect), (0x0D03, specTollStart),
   (0x0D04, specTollStop), (0x0D05, specCounterRead), (0x0D06, specTollStatus)]

/-- Group 0x0E. -/
def catalogue0E : List CatLine :=
  [(0x0E01, specPowerShedConfig), (0x0E02, specPowerStatus), (0x0E03, specHumConfig),
   (0x0E04, specHumStatus), (0x0E05, specKnellRead)]

/-- Group 0x0F. -/
def catalogue0F : List CatLine :=
  [(0x0F01, specAuditScan), (0x0F02, specAuditContextRead), (0x0F03, specAuditContextWrite),
   (0x0F04, specAuditStatus), (0x0F05, specMemStatus), (0x0F06, specMemRetiredQuery),
   (0x0F07, specDiagFaultQuery)]

/-- Every command that the part implements. -/
def catalogue : List CatLine :=
  catalogue01 ++ catalogue02 ++ catalogue03 ++ catalogue04 ++ catalogue05 ++ catalogue06 ++ catalogue07 ++ catalogue08 ++ catalogue09 ++ catalogue0A ++ catalogue0B ++ catalogue0C ++ catalogue0D ++ catalogue0E ++ catalogue0F

/-- The command of an opcode, none where the part does not implement it. -/
def specOf (op : Nat) : Option CmdSpec := (catalogue.find? (fun x => x.1 == op)).map (·.2)

/-- Teruo begins a command of any opcode: one that is not implemented is refused with UNKNOWN_OPCODE and changes nothing (R14). -/
def beginAny (h : HeldCmd) (s : State) : State :=
  match specOf h.op with
  | some spec => beginCmd spec h s
  | none => refuse h St.unknownOpcode s

/-- `UNKNOWN_OPCODE`. -/
def execUnknownOpcode (opcode : Nat) (c : Cmd) (s : State) : Res := .next (enter beginAny (heldOf opcode c) s)

end Sys2Proof.Machine
end

