-- ==== Sys2Proof/Machine/DdrQueue.lean ====
section
/-! DEFINITION. The requests of a DDR4 channel: urgency, selection of reads, open rows, and the write queue with its drains and matches (R416 to R420). -/

namespace Sys2Proof.Machine
open Sys2Proof

/-- Urgency level of a request from its age as a fraction of its port's target (R416). -/
def urgency (now : Nat) (w : DdrWait) : Nat :=
  let percent := (now - w.at') * 100 / portTarget w.req.port
  if percent < 50 then 0 else if percent < 75 then 1 else if percent < 90 then 2 else if percent < 100 then 3 else 4

/-- The request that comes first by a measure; the first listed of equal ones. -/
def firstBy (f : DdrWait → Nat) : List DdrWait → Option DdrWait
  | [] => none
  | w :: l => match firstBy f l with
    | none => some w
    | some v => if f v < f w then some v else some w

/-- A request to the row that is open in its bank (R418). -/
def rowHit (d : DdrChan) (w : DdrWait) : Bool := aget d.openRows w.req.bank == some w.req.row

/-- A read to another row of a bank than the open one waits. -/
def otherRowWaits (d : DdrChan) (bank : Nat) : Bool := d.reads.any (fun w => w.req.bank == bank && !rowHit d w)

/-- The next read of a channel (R417): of the highest urgency level; at levels 2 to 4 the oldest; at levels 0 and 1 one whose bank has served
16 row hits while it waits, else a row hit, else any, by port and then by arrival. -/
def nextRead (now : Nat) (d : DdrChan) : Option DdrWait :=
  let top := d.reads.foldl (fun m w => max m (urgency now w)) 0
  let l := d.reads.filter (fun w => urgency now w == top)
  if 2 ≤ top then firstBy (·.no) l
  else
    let passed := l.filter (fun w => !rowHit d w && 16 ≤ agetD d.hits w.req.bank 0)
    let hits := l.filter (rowHit d)
    firstBy (·.req.port) (if !passed.isEmpty then passed else if !hits.isEmpty then hits else l)

/-- Two requests to one 64-byte line (R420). -/
def sameLine (a b : DdrWait) : Bool := a.req.address / 64 == b.req.address / 64

/-- A read that waits for a write queued before it (R420). -/
def blocked (d : DdrChan) (w : DdrWait) : Bool := d.writes.any (fun x => sameLine x w && x.no < w.no)

/-- The access needs its bank: a row hit is counted while a read to another row of the bank waits; any other access opens its row (R417, R418). -/
def accessRow (n : Nat) (w : DdrWait) (s : State) : State :=
  let d := ddrOf n s
  let bank := w.req.bank
  if rowHit d w then
    updDdr n (fun d => { d with hits := if otherRowWaits d bank then aset d.hits bank (agetD d.hits bank 0 + 1) else adel d.hits bank }) s
  else activate n (bank * 1048576 + w.req.row) 1 s

/-- A read is served (R417, R425, R426). -/
def serveRead (n : Nat) (w : DdrWait) (flips again : List Nat) (s : State) : State :=
  readFor n w.req.port w.req.address flips again (accessRow n w (updDdr n (fun d => { d with reads := d.reads.erase w }) s))

/-- Requests that a full write queue holds go on in their order while an entry is free (R419): a write into the queue, a read to those that
wait; a requester behind its own held request stays held. -/
def admitHeld (d : DdrChan) : DdrChan :=
  d.held.foldl (fun d w =>
    if d.held.any (fun x => x.req.port == w.req.port) || (w.req.write && 64 ≤ d.writes.length) then { d with held := d.held ++ [w] }
    else if w.req.write then { d with writes := d.writes ++ [w] }
    else { d with reads := d.reads ++ [w] }) { d with held := [] }

/-- The oldest queued write reaches the devices; the words of its line can be read again (R426). A read of the same requester and line that
came before it is served first (R420). -/
def serveWrite (n : Nat) (flips again : List Nat) (s : State) : State :=
  let d := ddrOf n s
  match d.writes with
  | [] => s
  | w :: rest =>
    match d.reads.find? (fun r => sameLine r w && r.no < w.no && r.req.port == w.req.port) with
    | some r => serveRead n r flips again s
    | none =>
      updDdr n (fun d => admitHeld { d with
        writes := rest, badWords := d.badWords.filter (fun b => b / 8 != w.req.address / 64),
        drain := d.drain.bind (fun x => if rest.length ≤ x.floor then none else some { x with since := x.since + 1 }) }) (accessRow n w s)

/-- A drain begins: it runs until 16 entries remain; one of 16 or fewer empties the queue (R419). -/
def beginDrain (d : DdrChan) : DdrChan :=
  if d.drain.isSome || d.writes.isEmpty then d
  else { d with drain := some { floor := if d.writes.length ≤ 16 then 0 else 16, since := 0 } }

/-- A drain is due (R419): 48 entries, no read that waits, or an oldest entry of 10 µs. -/
def drainDue (now : Nat) (d : DdrChan) : Bool :=
  48 ≤ d.writes.length || d.reads.isEmpty || d.writes.head?.any (fun w => w.at' + 10000 ≤ now)

/-- One access of a channel (R417, R419, R420). In a drain it is a write, but a read at level 4 after every 16 writes; otherwise the read that
is selected, or the oldest write where that read waits for a queued one. -/
def serveOne (n : Nat) (flips again : List Nat) (s0 : State) : State :=
  let s := if drainDue s0.elapsed (ddrOf n s0) then updDdr n beginDrain s0 else s0
  let d := ddrOf n s
  let next := nextRead s.elapsed d
  match d.drain, next with
  | some x, some r =>
    if 16 ≤ x.since && urgency s.elapsed r = 4 && !blocked d r then
      serveRead n r flips again (updDdr n (fun d => { d with drain := some { x with since := 0 } }) s)
    else serveWrite n flips again s
  | some _, none => serveWrite n flips again s
  | none, some r => if blocked d r then serveWrite n flips again s else serveRead n r flips again s
  | none, none => s

/-- A request arrives (R416, R419): a read waits; a write is accepted where an entry is free, and 48 entries begin a drain. -/
def arrive (n : Nat) (r : DdrRequest) (s : State) : State :=
  updDdr n (fun d =>
    let d1 := admitHeld { d with arrived := d.arrived + 1, held := d.held ++ [{ no := d.arrived, req := r, at' := s.elapsed, late := false }] }
    if 48 ≤ d1.writes.length then beginDrain d1 else d1) s

/-- One thing that happens at a channel; a refresh closes the rows of its rank (R418). -/
def ddrEvent (n : Nat) (s : State) : DdrEvent → State
  | .request r => if r.port ≤ 5 then arrive n r s else s
  | .serve flips again => serveOne n flips again s
  | .wait ns => countLate n (tickBy ns s)
  | .refresh rank => updDdr n (fun d => { d with
      openRows := d.openRows.filter (fun x => x.1 / 16 != rank), hits := d.hits.filter (fun x => x.1 / 16 != rank) }) s

/-- Accesses until the drain in progress ends, at most `k`. -/
def runDrain (n : Nat) : Nat → State → State
  | 0, s => s
  | k + 1, s => if (ddrOf n s).drain.isSome then runDrain n k (serveOne n [] [] s) else s

/-- `DDR_WRITE_QUEUE_AGE`: what happens at the channel until its oldest queued write has waited 10 µs, and then the drain, with reads and
writes that find no error (R419). -/
def execDdrWriteQueueAge (channel : Nat) (events : List DdrEvent) (s : State) : Res :=
  .next (if !ddrUp channel s then s
    else
      let s1 := events.foldl (ddrEvent channel) s
      match (ddrOf channel s1).writes.head? with
      | none => s1
      | some w =>
        let s2 := countLate channel (tickBy (w.at' + 10000 - s1.elapsed) s1)
        runDrain channel ((ddrOf channel s2).writes.length + (ddrOf channel s2).reads.length) (updDdr channel beginDrain s2))

end Sys2Proof.Machine
end

