-- ==== Sys2Proof/Machine/Seconds.lean ====
section
/-! DEFINITION. The Tempo second boundary (R75, R114, R143, R402, R604), the 1PPS output, and the instants of the gate lists (R282, R285). -/

namespace Sys2Proof.Machine
open Sys2Proof

/-- Latch a MAC's per-second counts (R114). -/
def latchMac (sec m : Nat) (s : State) : State :=
  match mac? m s with
  | none => s
  | some x =>
    let ns := x.secNow.getD 2 0 + (match x.failSince with
      | some t => s.elapsed - t
      | none => 0)
    updMac m (fun x => { x with
      secLatched := [x.secNow.getD 3 0, x.secNow.getD 4 0, x.secNow.getD 0 0, x.secNow.getD 1 0, ns / 1000000], secTempo := sec,
      secNow := [0, 0, 0, 0, 0], failSince := x.failSince.map (fun _ => s.elapsed) }) s

/-- Latch a line's per-second counts (R143). -/
def latchLine (sec p : Nat) (s : State) : State :=
  updLine p (fun l =>
    let ns := l.defectNs + (match l.defectSince with
      | some t => s.elapsed - t
      | none => 0)
    { l with secLatched := [l.secNow.getD 0 0, ns / 1000000, l.secNow.getD 1 0, l.secNow.getD 2 0], secTempo := sec,
             secNow := [0, 0, 0], defectNs := 0, defectSince := l.defectSince.map (fun _ => s.elapsed) }) s

/-- Latch a group's per-second counts. -/
def latchGroup (sec g : Nat) (s : State) : State :=
  updGroup g (fun x =>
    let ns := x.downNs + (match x.downSince with
      | some t => s.elapsed - t
      | none => 0)
    { x with secLatched := [ns / 1000000, x.skewMax], secTempo := sec, downNs := 0, skewMax := blocksNs x.skewBlocks,
             downSince := x.downSince.map (fun _ => s.elapsed) }) s

/-- Journal the flow operations of each table ring of the second (R402). -/
def journalFlows (s : State) : State :=
  let s1 := s.mgmt.flowWork.foldl (fun s w =>
    journal { seq := 0, tempo := 0, source := 6 + ((ring? w.1 s).map (·.fn)).getD 0, kind := 2, op := 0, status := 0,
              tag := w.2.tag, origin := w.1, detail0 := w.2.count, detail1 := 0, paramCrc := 0 } s) s
  { s1 with mgmt := { s1.mgmt with flowWork := [] } }

/-- PPS_OUT is driven: not at S5, not while parked (R604). -/
def ppsDriven (s : State) : Bool := s.pwr.level < 5 && !s.crl.parked

/-- Latches and the pulse of a boundary above the last one that latched. -/
def latchSecond (sec : Nat) (s : State) : State :=
  let s1 := (akeys s.macs).foldl (fun s m => latchMac sec m s) s
  let s2 := (akeys s1.flexe.lines).foldl (fun s p => latchLine sec p s) s1
  let s3 := (akeys s2.flexe.groups).foldl (fun s g => latchGroup sec g s) s2
  let s4 := { s3 with tempo := { s3.tempo with lastSecond := sec } }
  if ppsDriven s4 then
    emit (.pin .ppsOut true) { s4 with pwr := { s4.pwr with ppsOutUntil := some (s4.elapsed + 100000000) } }
  else s4

/-- The second `sec` begins: the change units of the one before are kept (Table 17-6). -/
def openSecond (sec : Nat) (s : State) : State :=
  { s with tempo := { s.tempo with nextSecond := sec + 1 }, fwd := { s.fwd with unitsLast := s.fwd.unitsNow, unitsNow := 0 } }

/-- `TEMPO_SECOND_BOUNDARY`. -/
def execTempoSecondBoundary (s : State) : Res :=
  .next (
    let sec := s.tempo.nextSecond
    let s1 := advanceTempo (tempoAt sec 0) s
    let s2 := openSecond sec s1
    let s3 := if s2.tempo.lastSecond < sec then latchSecond sec s2 else s2
    applySteps (journalFlows s3))

/-- `PPS_OUT_END`: the output falls 100 ms after it rose. -/
def execPpsOutEnd (s : State) : Res :=
  .next (match s.pwr.ppsOutUntil with
    | none => s
    | some t => emit (.pin .ppsOut false) { advanceTo t s with pwr := { s.pwr with ppsOutUntil := none } })

/-- `GATE_ENTRY_BOUNDARY`: the next instant at which a port's list runs another entry. -/
def execGateEntryBoundary (mac : Nat) (s : State) : Res :=
  .next (if (gateRun mac s).list.isNone then s
    else settleMac mac (advanceTempo (s.tempo.now + (gatesAt (gateRun mac s) s.tempo.now).2) s))

/-- `GATE_LIST_START`: the pending change of a port's list takes effect at S. -/
def execGateListStart (mac : Nat) (s : State) : Res :=
  .next (match (gateRun mac s).pending with
    | none => s
    | some (t, l) =>
      let s1 := settleMac mac (advanceTempo (t * tuPerNs) s)
      let run := gateRun mac s1
      let new : GateRun := { list := l, startedAt := t, gates := (gatesAt { run with pending := none } s1.tempo.now).1, pending := none }
      raiseEvent Ev.gateListStarted mac (t % 1000000000) (t / 1000000000)
        { s1 with sched := { s1.sched with gates := aset s1.sched.gates mac new } })

end Sys2Proof.Machine
end

