-- ==== Sys2Proof/Machine/Transport.lean ====
section
/-! DEFINITION. How commands reach Teruo: the register window, the management bus, the relay and the mirror (R388, R393 to R397, R459, R462 to R465, R471); and the end of a management restart. -/

namespace Sys2Proof.Machine
open Sys2Proof

/-! ### Blocks and the register window -/

/-- The command of a block (Table 11-2) from a source; `len` is the length that the transport gives it. Its fields are
little-endian inside a carillon or bus message too: the model's choice (log 57). -/
def parseBlock (source origin id len : Nat) (data : Option (List Byte)) (b : List Byte) : HeldCmd :=
  { op := rd b 0 2, source := source, origin := origin, tag := rd b 4 4, paramLen := rd b 2 2, timeout := rd b 8 2, target := rd b 10 1,
    flags := rd b 11 1, reserved := rd b 12 4, cmdLen := len, params := b.drop 16, respAddr := id, respLen := 0, data := data }

/-- The bytes of MBX_CMD. -/
def windowBytes (s : State) : List Byte := (List.range 256).flatMap (fun k => le 4 (agetD s.mgmt.mbxCmd (4 * k) 0))

/-- `MBX_SUBMIT`: the block in MBX_CMD; `data` is what its read of host memory returns, where it makes one (R393, R394). -/
def execMbxSubmit (fn : Nat) (data : Option (List Byte)) (s : State) : Res :=
  .next (if 1 < fn then s
    else
      let b := windowBytes s
      enter beginAny (parseBlock (2 + fn) 0 0 (16 + rd b 2 2) data b) s)

/-- `MBX_ABORT`: as `sys.abort` on the window's RUNNING command; in any other state it is ignored (R394). -/
def execMbxAbort (fn : Nat) (s : State) : Res :=
  .next (writeThrough fn (fun s =>
    if s.mgmt.mbx != .running || s.mgmt.restarting || !s.mgmt.ready then s
    else match s.mgmt.running.find? (fun r => r.cmd.source == 2 + s.mgmt.mbxFn) with
      | some r => endEarly St.aborted r s
      | none => s) s)

/-! ### The management bus (R462 to R465) -/

/-- ACK: MSG_ID, STATE and the fragments that are missing (Table 13-2). -/
def busAck (node id state : Nat) (missing : List Nat) (s : State) : State :=
  busSend 0x02 node (be 4 id ++ be 1 state ++ zeros 3 ++
    (List.range 9).map (fun k => BitVec.ofNat 8 ((List.range 8).foldl (fun n j => n + b2n (missing.contains (8 * k + j)) * 2 ^ j) 0))) s

/-- Fragments of a message still missing. -/
def missingParts (m : Msg) (s : State) : List Nat :=
  match s.crl.partials.find? (fun p => p.bus && p.src == m.src && p.msgId == m.msgId) with
  | none => []
  | some p => (List.range p.count).filter (fun k => !ahas p.parts k)

/-- A COMMAND fragment (R464): a repeated MSG_ID is answered from the last RESPONSE, a RUNNING one acknowledged, a complete message enters Teruo. -/
def commandFragment (m : Msg) (s : State) : State :=
  let last := m.fragCount ≤ m.fragIndex + 1
  match aget s.bus.lastResp m.src with
  | some (id, p) =>
    if id = m.msgId then (if last then busSendId 0x03 m.src id p s else s)
    else fresh last
  | none => fresh last
where
  fresh (last : Bool) : State :=
    if s.bus.running.any (fun r => r.1 == m.src && r.2.1 == m.msgId) then (if last then busAck m.src m.msgId 1 [] s else s)
    else match assemble true m s with
      | (none, s1) => if last then busAck m.src m.msgId 0 (missingParts m s1) s1 else s1
      | (some w, s1) =>
        enter beginAny (parseBlock 4 m.src m.msgId w.payload.length none w.payload) (busAck m.src m.msgId 1 [] s1)

/-- Payload bytes in the hold buffer. -/
def holdBytes (s : State) : Nat := s.bus.holding.foldl (fun n x => n + (msgOf x.2.2).length) 0

/-- Keep a fragment in the hold buffer of 64 KiB (R465): whether it is a relay's, its port, its frame. -/
def holdFragment (relay : Bool) (port : Nat) (f : List Byte) (s : State) : State :=
  if 65536 < holdBytes s + (msgOf f).length then s
  else { s with bus := { s.bus with holding := s.bus.holding ++ [(relay, port, f)] } }

/-- `COMMAND`. -/
def execCommand (msg : List Byte) (s : State) : Res :=
  .next (match busFragment 0x01 msg s with
    | (none, s1) => s1
    | (some m, s1) => if s1.mgmt.restarting then holdFragment false 0 msg s1 else commandFragment m s1)

/-- A RELAY_CMD fragment at its target: the whole block is executed with source CARILLON (R459). -/
def relayFragment (m : Msg) (s : State) : State :=
  match assemble false m s with
  | (none, s1) => s1
  | (some w, s1) => enter beginAny (parseBlock 5 m.src m.msgId w.payload.length none w.payload) s1

/-- `RELAY_CMD`. -/
def execRelayCmd (port : Nat) (msg : List Byte) (s : State) : Res :=
  .next (match crlFragment port 0x20 msg s with
    | (none, s1) => s1
    | (some m, s1) => if s1.mgmt.restarting then holdFragment true port msg s1 else relayFragment m s1)

/-- Process what the hold buffer kept, oldest first (R465). -/
def releaseHeld (s : State) : State :=
  s.bus.holding.foldl (fun s x => if x.1 then relayFragment (msgOf x.2.2) s else commandFragment (msgOf x.2.2) s)
    { s with bus := { s.bus with holding := [] } }

/-- `BUS_COLLISION` (R462): jam and backoff, and the frame again; after 16 attempts it is discarded, and the first of a second is reported. -/
def execBusCollision (s : State) : Res :=
  .next (match s.bus.sending with
    | none => s
    | some f =>
      if !s.bus.enable then s
      else
        let n := s.bus.attempts + 1
        let s1 := tally (ctrId 8 0 6) s
        if n < 16 then
          let slots := Config.random s.fresh % 2 ^ min n 10
          emit (.bus f) (drawn { s1 with bus := { s1.bus with attempts := n, retryAt := s.elapsed + 3200 + slots * 51200 } })
        else
          let sec := secOf s.tempo.now
          let s2 := tally (ctrId 8 0 7) { s1 with bus := { s1.bus with sending := none, attempts := 0 } }
          if s2.bus.excessSec = some sec then s2
          else raiseEvent Ev.mgmtBusExcess 0 1 0 { s2 with bus := { s2.bus with excessSec := some sec } })

/-! ### The mirror (R471, R474) -/

/-- Stage a mirrored configuration command. -/
def applyMirrorCmd (b : List Byte) (s : State) : State :=
  let h := parseBlock 10 0 0 b.length none b
  match specOf h.op with
  | none => s
  | some spec =>
    if spec.kind != .config || headerBad spec.minLen h then s
    else match spec.body h s with
      | .done _ _ s1 => s1
      | _ => s

/-- Stage a mirrored table-update descriptor: its 64 bytes, then the data that its ADDR returned. -/
def applyMirrorDesc (b : List Byte) (s : State) : State :=
  let d := b.take 64
  match tableOpOf (rd d 0 1) with
  | none => s
  | some t =>
    match t.body d (if b.length ≤ 64 then none else some (b.drop 64)) 0 s with
    | .stage units ch => noteUnits units (stage units ch s)
    | _ => s

/-- `MIRROR_CFG`: KIND 0 a command, 1 a descriptor, 2 the record that starts a resynchronisation, whose layout the spec does not give (log 22). -/
def execMirrorCfg (port : Nat) (msg : List Byte) (s : State) : Res :=
  .next (match crlReceive port 0x41 msg s with
    | (none, s1) => s1
    | (some m, s1) =>
      let kind := rdBe m.payload 0 1
      let seq := rdBe m.payload 4 4
      let b := m.payload.drop 8
      if mirrorInTurn seq (kind == 2) s1 then
        mirrorDone seq (
          if kind = 0 then applyMirrorCmd b s1
          else if kind = 1 then applyMirrorDesc b s1
          else if kind = 2 then updProt (fun p => { p with resync := true }) s1
          else s1)
      else if standsBy s1 then sendMirrorAck s1 else s1)

/-! ### The end of a management restart (R397, Table 15-7) -/

/-- Write what waited on die, and count what was lost (R400). -/
def flushDelayed (s : State) : State :=
  let l := s.mgmt.restartEvents
  let s1 := { s with mgmt := { s.mgmt with restartEvents := [], restartLost := 0, restartLostFirst := 0 } }
  let s2 := l.foldl (fun s e => busEvent e (giveEvent e 1 (giveEvent e 0 s))) s1
  if s.mgmt.restartLost = 0 then s2 else raiseEvent Ev.eventsLost 0 s.mgmt.restartLost s.mgmt.restartLostFirst s2

/-- End every command that was RUNNING, in order of acceptance, with RESTARTED. -/
def endRestarted (s : State) : State := s.mgmt.running.foldl (fun s r => endEarly St.restarted r s) s

/-- RUNNING commands that a restart ends. -/
def restartedCount (s : State) : Nat := s.mgmt.running.countP (fun r => !waitsMirror r.waits)

/-- Step 4 of Table 15-7; a schedule or a distribution of the head does not outlive the Teruo that ran it. -/
def restartOver (s : State) : State :=
  let n := restartedCount s
  let s1 := flushDelayed { s with mgmt := { s.mgmt with restarting := false, ready := true, watchdogAt := s.elapsed } }
  let s3 := raiseGlb 4 (raiseEvent Ev.mgmtRestart s.mgmt.restartCause n (s.elapsed - s.mgmt.restartAt) (endRestarted s1))
  let s4 := if s3.prot.state = 7 then protTo 1 s3 else s3
  let s5 := { s4 with fw := { s4.fw with schedule := none, dist := none } }
  releaseHeld (sendMember (flushRegLog (forgetPowerSettings s5)))

/-- `MANAGEMENT_RESTART_END`: one later than 3 s counts as a failed start (R543); an image whose migration failed reverts at once. -/
def execManagementRestartEnd (s : State) : Res :=
  .next (if !s.mgmt.restarting || s.mgmt.rom then s
    else
      let r := teruoRuns s
      let s0 := if s.mgmt.restartAt + 3000000000 < s.elapsed then updFw (fun f => { f with failedStarts := s.fw.failedStarts + 1 }) r.2 else r.2
      let s1 := restartOver s0
      if r.1 then beginRestart 3 s1 else s1)

/-! ### Held commands (R388) -/

/-- A POSTED command that Teruo may begin now. -/
def mayBeginHeld (h : HeldCmd) (s : State) : Bool :=
  if h.source ≤ 1 then (ring? h.origin s).any (fun x => mayBegin x s) else true

/-- The next POSTED command: the first of the next source in rotation. -/
def nextHeld (s : State) : Option HeldCmd :=
  let rotated := (List.range 6).map (fun k => (s.mgmt.lastSource + 1 + k) % 6)
  rotated.foldl (fun r src => match r with
    | some h => some h
    | none => s.mgmt.held.find? (fun h => h.source == src && mayBeginHeld h s)) none

/-- Begin one POSTED command, when Teruo can. -/
def beginHeld (s : State) : Option State :=
  if !canAccept s then none
  else match nextHeld s with
    | none => none
    | some h => some (beginAny h { s with mgmt := { s.mgmt with held := s.mgmt.held.erase h, lastSource := h.source } })

end Sys2Proof.Machine
end

