-- ==== Sys2Proof/Machine/Dispatch.lean ====
section
/-! DEFINITION. One arm per command: the meaning of each, or its rejection by name. -/

namespace Sys2Proof.Machine
open Sys2Proof

def exec (i : Instr) (s : State) : Host.Outcome State Fault Refusal :=
  match i with
  | .sysInfo c => Sys2Proof.Machine.execSysInfo c s
  | .sysAbort c => Sys2Proof.Machine.execSysAbort c s
  | .sysCmdQuery c => Sys2Proof.Machine.execSysCmdQuery c s
  | .sysRestart c => Sys2Proof.Machine.execSysRestart c s
  | .eventBind c => Sys2Proof.Machine.execEventBind c s
  | .journalRead c => Sys2Proof.Machine.execJournalRead c s
  | .unknownOpcode opcode c => Sys2Proof.Machine.execUnknownOpcode opcode c s
  | .portConfig c => Sys2Proof.Machine.execPortConfig c s
  | .portDelete c => Sys2Proof.Machine.execPortDelete c s
  | .portAdmin c => Sys2Proof.Machine.execPortAdmin c s
  | .portQuery c => Sys2Proof.Machine.execPortQuery c s
  | .portDegrade c => Sys2Proof.Machine.execPortDegrade c s
  | .portMacSet c => Sys2Proof.Machine.execPortMacSet c s
  | .flexeGroupConfig c => Sys2Proof.Machine.execFlexeGroupConfig c s
  | .flexeGroupDelete c => Sys2Proof.Machine.execFlexeGroupDelete c s
  | .flexeGroupAdmin c => Sys2Proof.Machine.execFlexeGroupAdmin c s
  | .flexeClientConfig c => Sys2Proof.Machine.execFlexeClientConfig c s
  | .flexeClientDelete c => Sys2Proof.Machine.execFlexeClientDelete c s
  | .flexeClientAdmin c => Sys2Proof.Machine.execFlexeClientAdmin c s
  | .flexeCalendarStage c => Sys2Proof.Machine.execFlexeCalendarStage c s
  | .flexeCalendarSwitch c => Sys2Proof.Machine.execFlexeCalendarSwitch c s
  | .flexeQuery c => Sys2Proof.Machine.execFlexeQuery c s
  | .parseSelectLayout c => Sys2Proof.Machine.execParseSelectLayout c s
  | .profileWrite c => Sys2Proof.Machine.execProfileWrite c s
  | .profileDelete c => Sys2Proof.Machine.execProfileDelete c s
  | .profileSelectAdd c => Sys2Proof.Machine.execProfileSelectAdd c s
  | .profileSelectDelete c => Sys2Proof.Machine.execProfileSelectDelete c s
  | .parseClassMapSet c => Sys2Proof.Machine.execParseClassMapSet c s
  | .ruleTableCreate c => Sys2Proof.Machine.execRuleTableCreate c s
  | .ruleTableDelete c => Sys2Proof.Machine.execRuleTableDelete c s
  | .ruleAdd c => Sys2Proof.Machine.execRuleAdd c s
  | .ruleDelete c => Sys2Proof.Machine.execRuleDelete c s
  | .ruleModify c => Sys2Proof.Machine.execRuleModify c s
  | .ruleOverlaps c => Sys2Proof.Machine.execRuleOverlaps c s
  | .ruleQuery c => Sys2Proof.Machine.execRuleQuery c s
  | .exceptionConfig c => Sys2Proof.Machine.execExceptionConfig c s
  | .tcamStatus c => Sys2Proof.Machine.execTcamStatus c s
  | .fibVrfConfig c => Sys2Proof.Machine.execFibVrfConfig c s
  | .fibStatus c => Sys2Proof.Machine.execFibStatus c s
  | .idQuery c => Sys2Proof.Machine.execIdQuery c s
  | .ecmpHashSeed c => Sys2Proof.Machine.execEcmpHashSeed c s
  | .tableCommit c => Sys2Proof.Machine.execTableCommit c s
  | .tableCommitQuery c => Sys2Proof.Machine.execTableCommitQuery c s
  | .flowTableCreate c => Sys2Proof.Machine.execFlowTableCreate c s
  | .flowTableDelete c => Sys2Proof.Machine.execFlowTableDelete c s
  | .flowTableFlush c => Sys2Proof.Machine.execFlowTableFlush c s
  | .flowStatus c => Sys2Proof.Machine.execFlowStatus c s
  | .voqDestSet c => Sys2Proof.Machine.execVoqDestSet c s
  | .voqDestDelete c => Sys2Proof.Machine.execVoqDestDelete c s
  | .voqProfileSet c => Sys2Proof.Machine.execVoqProfileSet c s
  | .voqEplistSet c => Sys2Proof.Machine.execVoqEplistSet c s
  | .pealListSet c => Sys2Proof.Machine.execPealListSet c s
  | .pealListDelete c => Sys2Proof.Machine.execPealListDelete c s
  | .bufPoolLayout c => Sys2Proof.Machine.execBufPoolLayout c s
  | .bufPoolConfig c => Sys2Proof.Machine.execBufPoolConfig c s
  | .samplerConfig c => Sys2Proof.Machine.execSamplerConfig c s
  | .puntQueueConfig c => Sys2Proof.Machine.execPuntQueueConfig c s
  | .voqQuery c => Sys2Proof.Machine.execVoqQuery c s
  | .bufStatus c => Sys2Proof.Machine.execBufStatus c s
  | .schedPortConfig c => Sys2Proof.Machine.execSchedPortConfig c s
  | .schedNodeSet c => Sys2Proof.Machine.execSchedNodeSet c s
  | .schedNodeDelete c => Sys2Proof.Machine.execSchedNodeDelete c s
  | .gateListSet c => Sys2Proof.Machine.execGateListSet c s
  | .gateListClear c => Sys2Proof.Machine.execGateListClear c s
  | .creditConfig c => Sys2Proof.Machine.execCreditConfig c s
  | .creditPealSet c => Sys2Proof.Machine.execCreditPealSet c s
  | .policerConfig c => Sys2Proof.Machine.execPolicerConfig c s
  | .schedQuery c => Sys2Proof.Machine.execSchedQuery c s
  | .policerQuery c => Sys2Proof.Machine.execPolicerQuery c s
  | .fabricConfig c => Sys2Proof.Machine.execFabricConfig c s
  | .fabricQuery c => Sys2Proof.Machine.execFabricQuery c s
  | .fabricLaneQuery c => Sys2Proof.Machine.execFabricLaneQuery c s
  | .ringIndexConfig c => Sys2Proof.Machine.execRingIndexConfig c s
  | .ringCreate c => Sys2Proof.Machine.execRingCreate c s
  | .ringEnable c => Sys2Proof.Machine.execRingEnable c s
  | .ringDisable c => Sys2Proof.Machine.execRingDisable c s
  | .ringDestroy c => Sys2Proof.Machine.execRingDestroy c s
  | .ringQuery c => Sys2Proof.Machine.execRingQuery c s
  | .rxGroupConfig c => Sys2Proof.Machine.execRxGroupConfig c s
  | .puntQueueBind c => Sys2Proof.Machine.execPuntQueueBind c s
  | .tempoSourceSet c => Sys2Proof.Machine.execTempoSourceSet c s
  | .tempoTodSet c => Sys2Proof.Machine.execTempoTodSet c s
  | .tempoAdjust c => Sys2Proof.Machine.execTempoAdjust c s
  | .tempoStep c => Sys2Proof.Machine.execTempoStep c s
  | .tempoQuery c => Sys2Proof.Machine.execTempoQuery c s
  | .tempoGridSet c => Sys2Proof.Machine.execTempoGridSet c s
  | .tempoMaxAgeSet c => Sys2Proof.Machine.execTempoMaxAgeSet c s
  | .carillonConfig c => Sys2Proof.Machine.execCarillonConfig c s
  | .carillonStatus c => Sys2Proof.Machine.execCarillonStatus c s
  | .carillonPark c => Sys2Proof.Machine.execCarillonPark c s
  | .mgmtBusConfig c => Sys2Proof.Machine.execMgmtBusConfig c s
  | .protectPairSet c => Sys2Proof.Machine.execProtectPairSet c s
  | .protectPairDelete c => Sys2Proof.Machine.execProtectPairDelete c s
  | .protectSwitch c => Sys2Proof.Machine.execProtectSwitch c s
  | .protectQuery c => Sys2Proof.Machine.execProtectQuery c s
  | .fwDownload c => Sys2Proof.Machine.execFwDownload c s
  | .fwVerify c => Sys2Proof.Machine.execFwVerify c s
  | .fwDistribute c => Sys2Proof.Machine.execFwDistribute c s
  | .fwActivate c => Sys2Proof.Machine.execFwActivate c s
  | .fwConfirm c => Sys2Proof.Machine.execFwConfirm c s
  | .fwRevert c => Sys2Proof.Machine.execFwRevert c s
  | .fwStatus c => Sys2Proof.Machine.execFwStatus c s
  | .settingsRead c => Sys2Proof.Machine.execSettingsRead c s
  | .settingsWrite c => Sys2Proof.Machine.execSettingsWrite c s
  | .keyRevoke c => Sys2Proof.Machine.execKeyRevoke c s
  | .attestQuote c => Sys2Proof.Machine.execAttestQuote c s
  | .tollConfig c => Sys2Proof.Machine.execTollConfig c s
  | .tollSelect c => Sys2Proof.Machine.execTollSelect c s
  | .tollStart c => Sys2Proof.Machine.execTollStart c s
  | .tollStop c => Sys2Proof.Machine.execTollStop c s
  | .counterRead c => Sys2Proof.Machine.execCounterRead c s
  | .tollStatus c => Sys2Proof.Machine.execTollStatus c s
  | .powerShedConfig c => Sys2Proof.Machine.execPowerShedConfig c s
  | .powerStatus c => Sys2Proof.Machine.execPowerStatus c s
  | .humConfig c => Sys2Proof.Machine.execHumConfig c s
  | .humStatus c => Sys2Proof.Machine.execHumStatus c s
  | .knellRead c => Sys2Proof.Machine.execKnellRead c s
  | .auditScan c => Sys2Proof.Machine.execAuditScan c s
  | .auditContextRead c => Sys2Proof.Machine.execAuditContextRead c s
  | .auditContextWrite c => Sys2Proof.Machine.execAuditContextWrite c s
  | .auditStatus c => Sys2Proof.Machine.execAuditStatus c s
  | .memStatus c => Sys2Proof.Machine.execMemStatus c s
  | .memRetiredQuery c => Sys2Proof.Machine.execMemRetiredQuery c s
  | .diagFaultQuery c => Sys2Proof.Machine.execDiagFaultQuery c s
  | .routeAdd d => Sys2Proof.Machine.execRouteAdd d s
  | .routeDelete d => Sys2Proof.Machine.execRouteDelete d s
  | .labelAdd d => Sys2Proof.Machine.execLabelAdd d s
  | .labelDelete d => Sys2Proof.Machine.execLabelDelete d s
  | .nhSet d => Sys2Proof.Machine.execNhSet d s
  | .nhFree d => Sys2Proof.Machine.execNhFree d s
  | .ecmpSet d => Sys2Proof.Machine.execEcmpSet d s
  | .ecmpFree d => Sys2Proof.Machine.execEcmpFree d s
  | .templateSet d => Sys2Proof.Machine.execTemplateSet d s
  | .templateFree d => Sys2Proof.Machine.execTemplateFree d s
  | .flowRead d => Sys2Proof.Machine.execFlowRead d s
  | .flowWrite d => Sys2Proof.Machine.execFlowWrite d s
  | .flowDelete d => Sys2Proof.Machine.execFlowDelete d s
  | .injectPipeline d => Sys2Proof.Machine.execInjectPipeline d s
  | .injectDirect d => Sys2Proof.Machine.execInjectDirect d s
  | .bufferPost d => Sys2Proof.Machine.execBufferPost d s
  | .newWork fn ring host => Sys2Proof.Machine.execNewWork fn ring host s
  | .invalidate fn ring host => Sys2Proof.Machine.execInvalidate fn ring host s
  | .doorbellDiscard fn offset size value => Sys2Proof.Machine.execDoorbellDiscard fn offset size value s
  | .mbxSubmit fn data => Sys2Proof.Machine.execMbxSubmit fn data s
  | .mbxAbort fn => Sys2Proof.Machine.execMbxAbort fn s
  | .warmReset fn value => Sys2Proof.Machine.execWarmReset fn value s
  | .dbgInject fn value => Sys2Proof.Machine.execDbgInject fn value s
  | .ddrRhThresholdWrite fn value => Sys2Proof.Machine.execDdrRhThresholdWrite fn value s
  | .glbIntEnableWrite fn value => Sys2Proof.Machine.execGlbIntEnableWrite fn value s
  | .w1cClear fn offset ones sets => Sys2Proof.Machine.execW1cClear fn offset ones sets s
  | .counterClearingRead fn offset counted => Sys2Proof.Machine.execCounterClearingRead fn offset counted s
  | .groupLatchRead fn offset => Sys2Proof.Machine.execGroupLatchRead fn offset s
  | .cntValRead fn => Sys2Proof.Machine.execCntValRead fn s
  | .registerWrite fn offset value => Sys2Proof.Machine.execRegisterWrite fn offset value s
  | .bar0BadAccess fn offset write => Sys2Proof.Machine.execBar0BadAccess fn offset write s
  | .unmappedAccess fn offset write => Sys2Proof.Machine.execUnmappedAccess fn offset write s
  | .functionReset fn => Sys2Proof.Machine.execFunctionReset fn s
  | .busMasterEnable fn enable hosts => Sys2Proof.Machine.execBusMasterEnable fn enable hosts s
  | .powerOnReset straps => Sys2Proof.Machine.execPowerOnReset straps s
  | .perst fn low => Sys2Proof.Machine.execPerst fn low s
  | .pwrFailNAccepted => Sys2Proof.Machine.execPwrFailNAccepted s
  | .shedRequestChange board => Sys2Proof.Machine.execShedRequestChange board s
  | .shedLevelDecay => Sys2Proof.Machine.execShedLevelDecay s
  | .s3DormantStep => Sys2Proof.Machine.execS3DormantStep s
  | .thermalTrip => Sys2Proof.Machine.execThermalTrip s
  | .railFault rail => Sys2Proof.Machine.execRailFault rail s
  | .sensorSample dies hbm rail => Sys2Proof.Machine.execSensorSample dies hbm rail s
  | .ppsInEdge arrival => Sys2Proof.Machine.execPpsInEdge arrival s
  | .ppsLoss => Sys2Proof.Machine.execPpsLoss s
  | .hostAdjustSilence => Sys2Proof.Machine.execHostAdjustSilence s
  | .tempoSecondBoundary => Sys2Proof.Machine.execTempoSecondBoundary s
  | .ppsOutEnd => Sys2Proof.Machine.execPpsOutEnd s
  | .downbeat => Sys2Proof.Machine.execDownbeat s
  | .muffleEnd => Sys2Proof.Machine.execMuffleEnd s
  | .preparationDone => Sys2Proof.Machine.execPreparationDone s
  | .prepare port msg => Sys2Proof.Machine.execPrepare port msg s
  | .vote port msg => Sys2Proof.Machine.execVote port msg s
  | .go port msg => Sys2Proof.Machine.execGo port msg s
  | .defer port msg => Sys2Proof.Machine.execDefer port msg s
  | .abort port msg => Sys2Proof.Machine.execAbort port msg s
  | .ack port msg => Sys2Proof.Machine.execAck port msg s
  | .confirm port msg => Sys2Proof.Machine.execConfirm port msg s
  | .revert port msg => Sys2Proof.Machine.execRevert port msg s
  | .tollInstant => Sys2Proof.Machine.execTollInstant s
  | .tollDumpWrite fn => Sys2Proof.Machine.execTollDumpWrite fn s
  | .gateEntryBoundary mac => Sys2Proof.Machine.execGateEntryBoundary mac s
  | .gateListStart mac => Sys2Proof.Machine.execGateListStart mac s
  | .portLinkOk mac => Sys2Proof.Machine.execPortLinkOk mac s
  | .portLinkFail mac pcsLost localFault remoteFault => Sys2Proof.Machine.execPortLinkFail mac pcsLost localFault remoteFault s
  | .upDebounceEnd mac => Sys2Proof.Machine.execUpDebounceEnd mac s
  | .holdTimerExpiry mac => Sys2Proof.Machine.execHoldTimerExpiry mac s
  | .degWindowEnd counts => Sys2Proof.Machine.execDegWindowEnd counts s
  | .frameReceived mac frame codeError => Sys2Proof.Machine.execFrameReceived mac frame codeError s
  | .pauseRefresh mac => Sys2Proof.Machine.execPauseRefresh mac s
  | .macControlFrameRx mac frame => Sys2Proof.Machine.execMacControlFrameRx mac frame s
  | .pauseExpiry mac priority => Sys2Proof.Machine.execPauseExpiry mac priority s
  | .flexeOhFrameRx f => Sys2Proof.Machine.execFlexeOhFrameRx f s
  | .flexeMarkerMissed port inst => Sys2Proof.Machine.execFlexeMarkerMissed port inst s
  | .flexeCrSet group => Sys2Proof.Machine.execFlexeCrSet group s
  | .flexeCBitChange group => Sys2Proof.Machine.execFlexeCBitChange group s
  | .flexeNoAck group => Sys2Proof.Machine.execFlexeNoAck group s
  | .ingressPass pipe selFaults faults => Sys2Proof.Machine.execIngressPass pipe selFaults faults s
  | .egressPass pipe faults => Sys2Proof.Machine.execEgressPass pipe faults s
  | .stageTimeout pipe => Sys2Proof.Machine.execStageTimeout pipe s
  | .flowCacheFill pipe read => Sys2Proof.Machine.execFlowCacheFill pipe read s
  | .bridgeTransfer toQd failures => Sys2Proof.Machine.execBridgeTransfer toQd failures s
  | .bridgeStall toQd => Sys2Proof.Machine.execBridgeStall toQd s
  | .voqAdmission => Sys2Proof.Machine.execVoqAdmission s
  | .bufAllocRetry => Sys2Proof.Machine.execBufAllocRetry s
  | .bufExhaust => Sys2Proof.Machine.execBufExhaust s
  | .losslessReoffer voq => Sys2Proof.Machine.execLosslessReoffer voq s
  | .spillWrite voq => Sys2Proof.Machine.execSpillWrite voq s
  | .readBack voq errors => Sys2Proof.Machine.execReadBack voq errors s
  | .rerequest voq => Sys2Proof.Machine.execRerequest voq s
  | .request lane unit => Sys2Proof.Machine.execRequest lane unit s
  | .grantIssue turn => Sys2Proof.Machine.execGrantIssue turn s
  | .grant lane unit => Sys2Proof.Machine.execGrant lane unit s
  | .deny lane unit => Sys2Proof.Machine.execDeny lane unit s
  | .denyHoldoffEnd voq => Sys2Proof.Machine.execDenyHoldoffEnd voq s
  | .voqDequeue voq => Sys2Proof.Machine.execVoqDequeue voq s
  | .ageDrain voq => Sys2Proof.Machine.execAgeDrain voq s
  | .dualStreamSwitch voq => Sys2Proof.Machine.execDualStreamSwitch voq s
  | .cell lane unit => Sys2Proof.Machine.execCell lane unit s
  | .reassemblyGap source dual => Sys2Proof.Machine.execReassemblyGap source dual s
  | .announce lane unit => Sys2Proof.Machine.execAnnounce lane unit s
  | .announceRepeat dest => Sys2Proof.Machine.execAnnounceRepeat dest s
  | .withdrawalLapse dest => Sys2Proof.Machine.execWithdrawalLapse dest s
  | .link lane unit => Sys2Proof.Machine.execLink lane unit s
  | .linkSend lane => Sys2Proof.Machine.execLinkSend lane s
  | .reach lane unit => Sys2Proof.Machine.execReach lane unit s
  | .reachChunkExpiry lane chunk => Sys2Proof.Machine.execReachChunkExpiry lane chunk s
  | .fc lane unit => Sys2Proof.Machine.execFc lane unit s
  | .unitHeaderFailure lane => Sys2Proof.Machine.execUnitHeaderFailure lane s
  | .fabricLaneAligned lane => Sys2Proof.Machine.execFabricLaneAligned lane s
  | .fabricLaneLoss lane => Sys2Proof.Machine.execFabricLaneLoss lane s
  | .fabricLaneConfirmed lane => Sys2Proof.Machine.execFabricLaneConfirmed lane s
  | .linkSilence lane => Sys2Proof.Machine.execLinkSilence lane s
  | .schedulerSelection group => Sys2Proof.Machine.execSchedulerSelection group s
  | .frameTransmit mac ends underrun => Sys2Proof.Machine.execFrameTransmit mac ends underrun s
  | .directInjectEnqueue leaf => Sys2Proof.Machine.execDirectInjectEnqueue leaf s
  | .puntDelivery => Sys2Proof.Machine.execPuntDelivery s
  | .descriptorFetch ring first descs => Sys2Proof.Machine.execDescriptorFetch ring first descs s
  | .hostIndexPoll hosts => Sys2Proof.Machine.execHostIndexPoll hosts s
  | .dmaReadError ring kind desc => Sys2Proof.Machine.execDmaReadError ring kind desc s
  | .dmaTimeout ring => Sys2Proof.Machine.execDmaTimeout ring s
  | .completionHeldFlush ring => Sys2Proof.Machine.execCompletionHeldFlush ring s
  | .interruptModeration ring => Sys2Proof.Machine.execInterruptModeration ring s
  | .commandTimeout source origin tag => Sys2Proof.Machine.execCommandTimeout source origin tag s
  | .watchdogExpiry => Sys2Proof.Machine.execWatchdogExpiry s
  | .managementRestart cause => Sys2Proof.Machine.execManagementRestart cause s
  | .managementRestartEnd => Sys2Proof.Machine.execManagementRestartEnd s
  | .heartbeatSend => Sys2Proof.Machine.execHeartbeatSend s
  | .heartbeat port msg => Sys2Proof.Machine.execHeartbeat port msg s
  | .neighbourLost port pcs => Sys2Proof.Machine.execNeighbourLost port pcs s
  | .headBeacon port msg => Sys2Proof.Machine.execHeadBeacon port msg s
  | .headLost => Sys2Proof.Machine.execHeadLost s
  | .claim port msg => Sys2Proof.Machine.execClaim port msg s
  | .electionSettle => Sys2Proof.Machine.execElectionSettle s
  | .electionRetry => Sys2Proof.Machine.execElectionRetry s
  | .position port msg => Sys2Proof.Machine.execPosition port msg s
  | .member port msg => Sys2Proof.Machine.execMember port msg s
  | .relayCmd port msg => Sys2Proof.Machine.execRelayCmd port msg s
  | .relayResp port msg => Sys2Proof.Machine.execRelayResp port msg s
  | .fragmentTimeout bus src msgId => Sys2Proof.Machine.execFragmentTimeout bus src msgId s
  | .imageChunk port msg => Sys2Proof.Machine.execImageChunk port msg s
  | .imageAck port msg => Sys2Proof.Machine.execImageAck port msg s
  | .command msg => Sys2Proof.Machine.execCommand msg s
  | .busCollision => Sys2Proof.Machine.execBusCollision s
  | .parkEntry => Sys2Proof.Machine.execParkEntry s
  | .wake frame => Sys2Proof.Machine.execWake frame s
  | .pairBeat bus port msg => Sys2Proof.Machine.execPairBeat bus port msg s
  | .pairBeatSend => Sys2Proof.Machine.execPairBeatSend s
  | .peerLost => Sys2Proof.Machine.execPeerLost s
  | .relinquish port msg => Sys2Proof.Machine.execRelinquish port msg s
  | .relinquishWaitExpiry => Sys2Proof.Machine.execRelinquishWaitExpiry s
  | .wtrExpiry => Sys2Proof.Machine.execWtrExpiry s
  | .pairingTimeout => Sys2Proof.Machine.execPairingTimeout s
  | .mirrorCfg port msg => Sys2Proof.Machine.execMirrorCfg port msg s
  | .mirrorFlow port msg => Sys2Proof.Machine.execMirrorFlow port msg s
  | .mirrorAck port msg => Sys2Proof.Machine.execMirrorAck port msg s
  | .flowLockLapse table key => Sys2Proof.Machine.execFlowLockLapse table key s
  | .flowAging table => Sys2Proof.Machine.execFlowAging table s
  | .tcamEntryRewrite entry => Sys2Proof.Machine.execTcamEntryRewrite entry s
  | .tcamScrubPass fixed => Sys2Proof.Machine.execTcamScrubPass fixed s
  | .sramScrubPass errors => Sys2Proof.Machine.execSramScrubPass errors s
  | .bufferAuditPass => Sys2Proof.Machine.execBufferAuditPass s
  | .configAuditPass bad => Sys2Proof.Machine.execConfigAuditPass bad s
  | .flashPatrol => Sys2Proof.Machine.execFlashPatrol s
  | .ddrRecenter margins => Sys2Proof.Machine.execDdrRecenter margins s
  | .ddrScrub channel errors again => Sys2Proof.Machine.execDdrScrub channel errors again s
  | .ddrRequestTimeout channel port address retried => Sys2Proof.Machine.execDdrRequestTimeout channel port address retried s
  | .ddrWriteQueueAge channel events => Sys2Proof.Machine.execDdrWriteQueueAge channel events s
  | .rowWindowStart activates => Sys2Proof.Machine.execRowWindowStart activates s
  | .flashCopyChecked good => Sys2Proof.Machine.execFlashCopyChecked good s
  | .probationLimit => Sys2Proof.Machine.execProbationLimit s
  | .settingsCompaction => Sys2Proof.Machine.execSettingsCompaction s
  | .knellSectorErase => Sys2Proof.Machine.execKnellSectorErase s
  | .retiredPageRecord => Sys2Proof.Machine.execRetiredPageRecord s
  | .secondConfirmation lane => Sys2Proof.Machine.execSecondConfirmation lane s
  | .hbmTrainingDone failed => Sys2Proof.Machine.execHbmTrainingDone failed s
  | .startReady ddr => Sys2Proof.Machine.execStartReady ddr s
  | .flashOperationTimeout erase address => Sys2Proof.Machine.execFlashOperationTimeout erase address s
  | .flashWriteDone => Sys2Proof.Machine.execFlashWriteDone s
  | .verificationComplete => Sys2Proof.Machine.execVerificationComplete s
  | .auditScanComplete context read => Sys2Proof.Machine.execAuditScanComplete context read s
  | .configWordRewrite table word => Sys2Proof.Machine.execConfigWordRewrite table word s
  | .clockLockLoss => Sys2Proof.Machine.execClockLockLoss s
  | .refusedPacketAge => Sys2Proof.Machine.execRefusedPacketAge s
  | .pwrFailNRise => Sys2Proof.Machine.execPwrFailNRise s

end Sys2Proof.Machine
end

