-- ==== Sys2Proof/Machine/Idle.lean ====
section
/-! DEFINITION. What the block does with no command waiting: Teruo begins a POSTED command, completions held for the mirror are released, or 1 ns passes (log 1). -/

namespace Sys2Proof.Machine
open Sys2Proof

/-- Something is held for a standby that this member no longer mirrors to (R471). -/
def mirrorStale (s : State) : Bool :=
  !mirrors s && (!s.prot.mirrorHeld.isEmpty || s.mgmt.running.any (fun r => waitsMirror r.waits))

/-- 1 ns passes; an armed injection reaches its memory (log 26). -/
def tick (s : State) : State := storeInjection (tickBy 1 s)

/-- The step of an empty queue. -/
def idleStep (s : State) : State :=
  match beginHeld s with
  | some t => t
  | none => if mirrorStale s then releaseMirror s else tick s

end Sys2Proof.Machine
end

