-- ==== Sys2Proof/Safety.lean ====
section
/-! DEFINITION. What counts as a safe step, and when a command row's command is taken, in the terms that claims use. -/

namespace Sys2Proof.Machine
open Sys2Proof

/-- A step that goes on: it answers a next state, neither a fault nor a refusal. -/
def goesOn (s : State) : Prop := ∃ t, step s = .next t

/-! ### A command that Teruo takes (R346, R388, R394, R459, R464) -/

/-- No command that the same source and ORIGIN sent before is still POSTED (R388). -/
def firstOfSource (c : Cmd) (s : State) : Prop := ∀ q ∈ s.mgmt.held, ¬ (q.source = c.source ∧ q.origin = c.origin)

/-- The source of a command can hand it to Teruo now: a COMMAND ring that may begin a descriptor (R341, R356), the free register window with
a block that fits it (R394), or the management bus or a relay (R459, R464); a ring, the bus and a relay hand over in order (R388). -/
def sourceOffers (c : Cmd) (s : State) : Prop :=
  if c.source ≤ 1 then
    firstOfSource c s ∧
      ∃ x, ring? c.origin s = some x ∧ x.typ = .command ∧ x.fn = c.source ∧ x.state = .enabled ∧ mayBegin x s = true
  else if c.source ≤ 3 then
    fnExists (c.source - 2) s = true ∧ barServed s = true ∧ s.mgmt.mbx ≠ .pending ∧ s.mgmt.mbx ≠ .running ∧ 16 + c.paramLen ≤ 1024
  else firstOfSource c s ∧ c.source ≤ 5 ∧ s.crl.parked = false ∧ s.pwr.dead = false ∧ s.pwr.level < 5

/-- The state that Teruo's checks see: the window pending, or the remote command noted (R393, R459, R464). -/
def arrived (op : Nat) (c : Cmd) (s : State) : State :=
  if c.source ≤ 1 then s
  else if c.source ≤ 3 then { s with mgmt := { s.mgmt with mbx := .pending, mbxFn := c.source - 2 } }
  else noteRemote (heldOf op c) s

/-- The state that the command's own rules see: the descriptor consumed, the window RUNNING (R350, R393). -/
def taken (op : Nat) (c : Cmd) (s : State) : State :=
  windowRunning (heldOf op c) (consumeCmd (heldOf op c) (arrived op c s))

/-- Teruo takes the command for itself: its source offers it, Teruo is READY with a free place, and the header passes R380 to R385. -/
def accepted (op minLen : Nat) (c : Cmd) (s : State) : Prop :=
  sourceOffers c s ∧ canAccept s = true ∧ s.mgmt.rom = false ∧ tagInUse (heldOf op c) s = false ∧
  headerBad minLen (heldOf op c) = false ∧ (c.target = 0xFF ∨ ownPosition s = some c.target)

/-- The same for a configuration command: the member neither stands by nor mirrors (R471). -/
def configAccepted (op minLen : Nat) (c : Cmd) (s : State) : Prop :=
  accepted op minLen c s ∧ standsBy s = false ∧ mirroring s = false

/-- A command reached DONE: `t` with its completion given. A change it staged is sealed by no commit before that completion is written (R60). -/
def closed (op : Nat) (c : Cmd) (s t : State) : State := markDue s.staged.length (cmdDue (heldOf op c) t) t

/-- The command is DONE with status OK and a response, from the state `t` that holds its effect; `eff` says that it is journalled (R386, R402). -/
def completed (op : Nat) (c : Cmd) (s : State) (resp : List Byte) (eff : Bool) (t : State) : State :=
  closed op c s (finish (heldOf op c) (cmdIndex (heldOf op c) s) St.ok resp eff 0 0 t)

/-- The command is accepted and RUNNING until its decision point (R385, Table 11-3). -/
def runs (op : Nat) (c : Cmd) (s : State) (w : WaitFor) (resp : List Byte) (t : State) : State :=
  running (heldOf op c) (cmdIndex (heldOf op c) s) w resp t

/-- Teruo takes the command for itself, and `u` is the state its own rules see. -/
def takes (op minLen : Nat) (c : Cmd) (s u : State) : Prop := accepted op minLen c s ∧ u = taken op c s

/-- The same for a configuration command of a member that neither stands by nor mirrors. -/
def takesConfig (op minLen : Nat) (c : Cmd) (s u : State) : Prop := configAccepted op minLen c s ∧ u = taken op c s

/-- A little-endian field of the command's parameters. -/
def arg (c : Cmd) (off n : Nat) : Nat := rd (fit c.paramLen c.params) off n

/-- A range of the bytes of the command's parameters. -/
def argBytes (c : Cmd) (off n : Nat) : List Byte := slice (fit c.paramLen c.params) off n

/-- A range of the command's parameters is zero. -/
abbrev argZero (c : Cmd) (off n : Nat) : Prop := allZero (argBytes c off n) = true

/-- A command answers a next state in which it is DONE with OK and no response, over the state `t` that its effect left. -/
def effects (op : Nat) (i : Instr) (c : Cmd) (s t : State) : Prop := exec i s = .next (completed op c s [] true t)

/-- The same with a response. -/
def effectsWith (op : Nat) (i : Instr) (c : Cmd) (s t : State) (resp : List Byte) : Prop :=
  exec i s = .next (completed op c s resp true t)

/-- A configuration command completes OK with one change of the next epoch staged after those staged before (R48, R57). -/
def stages (op : Nat) (i : Instr) (c : Cmd) (s u : State) (ch : Change) : Prop :=
  exec i s = .next (completed op c s [] true { u with staged := u.staged ++ [{ change := ch, units := 1, sealedBy := none }] })

/-- A query answers a next state in which it is DONE with OK and its response, and nothing else changed. -/
def queries (op : Nat) (i : Instr) (c : Cmd) (s : State) (resp : List Byte) : Prop :=
  exec i s = .next (completed op c s resp false (taken op c s))

/-! ### A table-update descriptor that the engine takes (R206) -/

/-- The bytes of a descriptor. -/
def bytesOf64 (d : Desc) : List Byte := fit 64 d.bytes

/-- The state with the descriptor consumed by the engine, which served its ring last, and its change unit counted (R206, R402). -/
def consumedTable (d : Desc) (s : State) : State :=
  noteUnits 1 (consume d.ring { s with fwd := { s.fwd with lastTable := some d.ring } })

/-- The table engine takes a descriptor of ring `x`, whose turn it is and whose OP is `op`, and `u` is the state that the operation's own rules
see: the descriptor consumed, its change unit counted, and an immediate operation noted for the journal (R204, R206, R402). No context that an
immediate operation reads holds an uncorrectable error (R434). -/
def takesTable (op : Nat) (d : Desc) (s : State) (x : Ring) (u : State) : Prop :=
  ring? d.ring s = some x ∧ x.typ = .table ∧ mayBegin x s = true ∧ tableTurn d.ring s = true ∧ rd (bytesOf64 d) 0 1 = op ∧
  headerZero (bytesOf64 d) = true ∧ (0x10 ≤ op → s.mem.flowBad = false) ∧
  u = (if 0x10 ≤ op then noteFlowWork d.ring x.partIndex (rd (bytesOf64 d) 4 4) (consumedTable d s) else consumedTable d s)

/-- A table-update change is staged: no commit has sealed it, and its ring, INDEX and TAG go with it (R203, R206). -/
def stagedFrom (d : Desc) (x : Ring) (units : Nat) (ch : Change) (u : State) : State :=
  noteUnits (units - 1) { u with staged := u.staged ++ [{ change := ch, units := units, sealedBy := none,
                                                          src := some (x.fn, d.ring, x.partIndex, rd (bytesOf64 d) 4 4) }] }

/-- A table-update descriptor is DONE: a change it staged is sealed by no commit before its completion is written (R60). -/
def closedFrom (d : Desc) (x : Ring) (u t : State) : State := markDue u.staged.length (tableDue x (bytesOf64 d) none t) t

/-- A staging descriptor of a member outside a pair answers a next state: the change staged, the completion with OK and the identifier. -/
def stagesFrom (op : Nat) (i : Instr) (d : Desc) (s : State) (x : Ring) (u : State) (units id : Nat) (ch : Change) : Prop :=
  ∃ free, exec i s =
    .next (closedFrom d x u (tableDone x (bytesOf64 d) op St.ok id 0 free none (releaseUnmirrored (stagedFrom d x units ch u))))

/-- An immediate descriptor answers a next state: its effect `t`, and the completion with OK. -/
def actsFrom (op : Nat) (i : Instr) (d : Desc) (s : State) (x : Ring) (t : State) : Prop :=
  ∃ free, exec i s = .next (tableDone x (bytesOf64 d) op St.ok 0 0 free none t)

/-! ### The commands of the catalogue by kind -/

/-- A command of the catalogue: its opcode, the length of its fixed parameters and its row (R379, Table 11-1 and the tables of the chapters). -/
def isCommand (p : Nat × Nat × (Cmd → Instr)) : Prop :=
  p ∈ (
   [(0x0101, 0, .sysInfo), (0x0102, 8, .sysAbort), (0x0103, 8, .sysCmdQuery), (0x0104, 4, .sysRestart), (0x0105, 8, .eventBind),
    (0x0106, 16, .journalRead), (0x0201, 44, .portConfig), (0x0202, 4, .portDelete), (0x0203, 4, .portAdmin), (0x0204, 4, .portQuery),
    (0x0205, 16, .portDegrade), (0x0206, 8, .portMacSet), (0x0301, 24, .flexeGroupConfig), (0x0302, 4, .flexeGroupDelete),
    (0x0303, 4, .flexeGroupAdmin), (0x0304, 44, .flexeClientConfig), (0x0305, 4, .flexeClientDelete), (0x0306, 4, .flexeClientAdmin),
    (0x0307, 4, .flexeCalendarStage), (0x0308, 4, .flexeCalendarSwitch), (0x0309, 4, .flexeQuery), (0x0401, 18, .parseSelectLayout),
    (0x0402, 192, .profileWrite), (0x0403, 4, .profileDelete), (0x0404, 48, .profileSelectAdd), (0x0405, 4, .profileSelectDelete),
    (0x0406, 65, .parseClassMapSet), (0x0407, 36, .ruleTableCreate), (0x0408, 4, .ruleTableDelete), (0x0409, 200, .ruleAdd),
    (0x040A, 8, .ruleDelete), (0x040B, 40, .ruleModify), (0x040C, 12, .ruleOverlaps), (0x040D, 8, .ruleQuery),
    (0x040E, 12, .exceptionConfig), (0x040F, 4, .tcamStatus), (0x0501, 4, .fibVrfConfig), (0x0502, 0, .fibStatus), (0x0503, 8, .idQuery),
    (0x0504, 4, .ecmpHashSeed), (0x0510, 16, .tableCommit), (0x0511, 8, .tableCommitQuery), (0x0520, 20, .flowTableCreate),
    (0x0521, 4, .flowTableDelete), (0x0522, 4, .flowTableFlush), (0x0523, 0, .flowStatus), (0x0601, 28, .voqDestSet),
    (0x0602, 4, .voqDestDelete), (0x0603, 56, .voqProfileSet), (0x0604, 4, .voqEplistSet), (0x0605, 8, .pealListSet),
    (0x0606, 4, .pealListDelete), (0x0607, 4, .bufPoolLayout), (0x0608, 28, .bufPoolConfig), (0x0609, 12, .samplerConfig),
    (0x060A, 8, .puntQueueConfig), (0x060B, 4, .voqQuery), (0x060C, 0, .bufStatus), (0x0701, 16, .schedPortConfig),
    (0x0702, 32, .schedNodeSet), (0x0703, 8, .schedNodeDelete), (0x0706, 64, .gateListSet), (0x0707, 4, .gateListClear),
    (0x0708, 8, .creditConfig), (0x0709, 36, .creditPealSet), (0x070A, 16, .policerConfig), (0x070B, 8, .schedQuery),
    (0x070C, 4, .policerQuery), (0x0801, 40, .fabricConfig), (0x0802, 4, .fabricQuery), (0x0803, 4, .fabricLaneQuery),
    (0x0901, 24, .ringIndexConfig), (0x0902, 32, .ringCreate), (0x0903, 8, .ringEnable), (0x0904, 4, .ringDisable),
    (0x0905, 4, .ringDestroy), (0x0906, 4, .ringQuery), (0x0907, 12, .rxGroupConfig), (0x0908, 8, .puntQueueBind),
    (0x0A01, 4, .tempoSourceSet), (0x0A02, 8, .tempoTodSet), (0x0A03, 12, .tempoAdjust), (0x0A04, 12, .tempoStep),
    (0x0A05, 0, .tempoQuery), (0x0A06, 4, .tempoGridSet), (0x0A07, 4, .tempoMaxAgeSet), (0x0B01, 8, .carillonConfig),
    (0x0B02, 0, .carillonStatus), (0x0B03, 4, .carillonPark), (0x0B04, 8, .mgmtBusConfig), (0x0B05, 32, .protectPairSet),
    (0x0B06, 4, .protectPairDelete), (0x0B07, 4, .protectSwitch), (0x0B08, 4, .protectQuery), (0x0C01, 24, .fwDownload),
    (0x0C02, 4, .fwVerify), (0x0C03, 4, .fwDistribute), (0x0C04, 4, .fwActivate), (0x0C05, 4, .fwConfirm), (0x0C06, 4, .fwRevert),
    (0x0C07, 0, .fwStatus), (0x0C08, 4, .settingsRead), (0x0C09, 4, .settingsWrite), (0x0C0A, 8, .keyRevoke), (0x0C0B, 64, .attestQuote),
    (0x0D01, 12, .tollConfig), (0x0D02, 16, .tollSelect), (0x0D03, 4, .tollStart), (0x0D04, 4, .tollStop), (0x0D05, 8, .counterRead),
    (0x0D06, 0, .tollStatus), (0x0E01, 4, .powerShedConfig), (0x0E02, 0, .powerStatus), (0x0E03, 8, .humConfig), (0x0E04, 0, .humStatus),
    (0x0E05, 4, .knellRead), (0x0F01, 32, .auditScan), (0x0F02, 4, .auditContextRead), (0x0F03, 16, .auditContextWrite),
    (0x0F04, 0, .auditStatus), (0x0F05, 0, .memStatus), (0x0F06, 8, .memRetiredQuery), (0x0F07, 0, .diagFaultQuery)] : List (Nat × Nat × (Cmd → Instr)))

/-- The row of a query: it changes nothing, and nothing of it is journalled (R402). -/
def isQuery (f : Cmd → Instr) : Prop :=
  f ∈ (
   [.sysCmdQuery, .carillonStatus, .tableCommitQuery, .flexeQuery, .fwStatus, .attestQuote, .settingsRead, .humStatus,
    .auditContextRead, .auditStatus, .diagFaultQuery, .memStatus, .memRetiredQuery, .ruleOverlaps, .ruleQuery, .tcamStatus,
    .portQuery, .powerStatus, .knellRead, .protectQuery, .voqQuery, .bufStatus, .fabricQuery, .fabricLaneQuery, .ringQuery,
    .schedQuery, .policerQuery, .sysInfo, .fibStatus, .idQuery, .flowStatus, .tempoQuery, .counterRead, .tollStatus] : List (Cmd → Instr))

/-- A configuration command: its opcode, its rules and its row; its change is staged for the next epoch (R48) and mirrored in a pair (R471). -/
def isConfig (p : Nat × CmdSpec × (Cmd → Instr)) : Prop :=
  p ∈ (
   [(0x0401, specParseSelectLayout, .parseSelectLayout), (0x0402, specProfileWrite, .profileWrite),
    (0x0403, specProfileDelete, .profileDelete), (0x0404, specProfileSelectAdd, .profileSelectAdd),
    (0x0405, specProfileSelectDelete, .profileSelectDelete), (0x0406, specParseClassMapSet, .parseClassMapSet),
    (0x0407, specRuleTableCreate, .ruleTableCreate), (0x0408, specRuleTableDelete, .ruleTableDelete), (0x0409, specRuleAdd, .ruleAdd),
    (0x040A, specRuleDelete, .ruleDelete), (0x040B, specRuleModify, .ruleModify), (0x040E, specExceptionConfig, .exceptionConfig),
    (0x0601, specVoqDestSet, .voqDestSet), (0x0602, specVoqDestDelete, .voqDestDelete), (0x0603, specVoqProfileSet, .voqProfileSet),
    (0x0604, specVoqEplistSet, .voqEplistSet), (0x0605, specPealListSet, .pealListSet), (0x0606, specPealListDelete, .pealListDelete),
    (0x0608, specBufPoolConfig, .bufPoolConfig), (0x0609, specSamplerConfig, .samplerConfig),
    (0x060A, specPuntQueueConfig, .puntQueueConfig), (0x0701, specSchedPortConfig, .schedPortConfig),
    (0x0702, specSchedNodeSet, .schedNodeSet), (0x0703, specSchedNodeDelete, .schedNodeDelete), (0x0706, specGateListSet, .gateListSet),
    (0x0707, specGateListClear, .gateListClear), (0x0708, specCreditConfig, .creditConfig), (0x0709, specCreditPealSet, .creditPealSet),
    (0x070A, specPolicerConfig, .policerConfig), (0x0501, specFibVrfConfig, .fibVrfConfig), (0x0504, specEcmpHashSeed, .ecmpHashSeed),
    (0x0A06, specTempoGridSet, .tempoGridSet), (0x0A07, specTempoMaxAgeSet, .tempoMaxAgeSet)] : List (Nat × CmdSpec × (Cmd → Instr)))

/-! ### Frames -/

/-- What no command's bookkeeping touches: everything but Teruo's own records (`mgmt`), the rings (`host`), host memory, the counters, the
ports (a completion may free a timestamp), the counter of free values, the peers' message state (`crl`, `bus`) and what was sent. -/
def sameData (s t : State) : Prop :=
  t.pending = s.pending ∧ t.elapsed = s.elapsed ∧ t.tempo = s.tempo ∧ t.cfg = s.cfg ∧ t.staged = s.staged ∧
  t.commits = s.commits ∧ t.outcomes = s.outcomes ∧ t.nextPackageSeq = s.nextPackageSeq ∧ t.nextOrder = s.nextOrder ∧ t.quar = s.quar ∧
  t.toll = s.toll ∧ t.glb = s.glb ∧ t.fwd = s.fwd ∧ t.qdm = s.qdm ∧ t.sched = s.sched ∧ t.fab = s.fab ∧ t.bridge = s.bridge ∧
  t.flexe = s.flexe ∧ t.mem = s.mem ∧ t.prot = s.prot ∧ t.fw = s.fw ∧ t.pwr = s.pwr

/-- Staged changes, but for what the completion of each waits for (R60). -/
def undue (l : List Staged) : List Staged := l.map (fun x => { x with due := .written })

/-- The same of a configuration command: changes may be staged after those staged before, numbered in
their order, and mirrored to a standby; the completions that staged changes wait for may be written (R60, R471). -/
def onlyStages (s t : State) : Prop :=
  undue s.staged <+: undue t.staged ∧ ∃ p n, sameData { s with staged := t.staged, prot := p, nextOrder := n } t

/-! ### The sound states -/

/-- Host memory in its canonical form: addresses strictly rising; an address that is not listed reads as nothing (R7). -/
def Memory.wf (m : List Host.Cell) : Bool := awf m

/-- Flash in its canonical form: addresses strictly rising, and no byte listed that an erased one reads as (R486). -/
def Flash.wf (m : List Host.Cell) : Bool := awf m && m.all (fun x => x.2 != 0xFF)

/-- Every log and store of a bounded size is within it: 4,096 ended commands (R390), 1,048,576 journal records (R403), 256 captured register
writes (R402), 1,024 events of a restart and 8,192 of a function (R400), 64 fault records (R553). -/
def bounded (s : State) : Prop :=
  s.mgmt.done.length ≤ 4096 ∧ s.mgmt.journal.length ≤ 1048576 ∧ s.mgmt.regLog.length ≤ 256 ∧ s.mgmt.restartEvents.length ≤ 1024 ∧
  s.host.pf0.evPending.length ≤ 8192 ∧ s.host.pf1.evPending.length ≤ 8192 ∧ s.pwr.faults.length ≤ 64

/-- Every shed request and the level are legal: the pins ask up to S3, commands and die temperatures up to S4, stack temperatures up to
S2, and the level is at most S5 (Tables 15-8 and 15-9). -/
def legalShed (s : State) : Prop :=
  s.pwr.board ≤ 3 ∧ s.pwr.floor ≤ 4 ∧ s.pwr.dieAsk ≤ 4 ∧ s.pwr.hbmAsk ≤ 2 ∧ s.pwr.level ≤ 5

/-- A sound state: memories and counters in canonical form, bounded logs, legal shed levels, the fuse counter within its 64 steps and
revocations of the three keys only (R490, R491). -/
def sound (s : State) : Prop :=
  Memory.wf s.hostMem = true ∧ Flash.wf s.fw.flash = true ∧ awf s.ctrs = true ∧ bounded s ∧ legalShed s ∧
  s.fw.fuseCounter ≤ 64 ∧ s.fw.revoked < 8

end Sys2Proof.Machine
end

