-- ==== Sys2Proof/Certificates/Slice0/Obligations.lean ====
section
/-! DEFINITION. The statements for the provers. The completion statements say, for every command, that its meaning answers a next state and
which one; then come the statements about steps, frames, refusals, invariants and single rules. -/

open Sys2Proof Sys2Proof.Machine

/-- R391, R398, R402 to R406: the system commands, once Teruo takes them, complete with the effect or the response that the rules give. -/
def Obligations.SystemCommandsComplete : Prop :=
  (∀ c s u, takes 0x0101 0 c s u → ∃ rest : List Byte, rest.length = 36 ∧
    queries 0x0101 (.sysInfo c) c s (le 2 0x1640 ++ le 1 0xB0 ++ le 1 u.glb.form ++ rest)) ∧
  (∀ c s u r, takes 0x0102 8 c s u → arg c 0 1 ≤ 5 → argZero c 1 1 →
    namedRunning (arg c 0 1) (arg c 2 2) (arg c 4 4) u = some r → waitsMirror r.waits = false →
    effects 0x0102 (.sysAbort c) c s (endEarly St.aborted r u)) ∧
  (∀ c s u r, takes 0x0103 8 c s u → arg c 0 1 ≤ 5 → argZero c 1 1 →
    namedRunning (arg c 0 1) (arg c 2 2) (arg c 4 4) u = some r →
    queries 0x0103 (.sysCmdQuery c) c s (le 1 1 ++ zeros 1 ++ le 2 r.cmd.op ++ zeros 12)) ∧
  (∀ c s u d, takes 0x0103 8 c s u → arg c 0 1 ≤ 5 → argZero c 1 1 →
    namedRunning (arg c 0 1) (arg c 2 2) (arg c 4 4) u = none →
    namedDone (arg c 0 1) (arg c 2 2) (arg c 4 4) u = some d →
    queries 0x0103 (.sysCmdQuery c) c s (le 1 2 ++ zeros 1 ++ le 2 d.op ++ le 2 d.status ++ zeros 2 ++ le 8 d.journalSeq)) ∧
  (∀ c s u, takes 0x0104 4 c s u → argZero c 0 4 →
    effects 0x0104 (.sysRestart c) c s
      { u with mgmt := { u.mgmt with restartDue := some (u.elapsed + 10000000) } }) ∧
  (∀ c s u r, takes 0x0105 8 c s u → arg c 0 1 ≤ 1 → fnExists (arg c 0 1) u = true → argZero c 1 1 →
    arg c 4 2 % 2 = 0 → argZero c 6 2 → tollRingOf (arg c 0 1) (arg c 2 2) u = some r →
    ∃ n, effects 0x0105 (.eventBind c) c s (flushEvents n (arg c 0 1)
      (updFn (arg c 0 1) (fun f => { f with evRing := r, evMute := arg c 4 2 }) u))) ∧
  (∀ c s u, takes 0x0106 16 c s u → 1 ≤ arg c 8 2 → arg c 8 2 ≤ 1000 → argZero c 10 6 → arg c 0 8 ≤ u.mgmt.journalNext →
    u.mem.journalBad = false → ∃ recs : List JRec, recs.length ≤ arg c 8 2 ∧ (∀ j ∈ recs, j ∈ u.mgmt.journal) ∧
      queries 0x0106 (.journalRead c) c s
        (le 8 (u.mgmt.journalNext - u.mgmt.journal.length) ++ le 8 u.mgmt.journalNext ++
          recs.flatMap journalBytes)) ∧
  (∀ c s u, takes 0x0106 16 c s u → 1 ≤ arg c 8 2 → arg c 8 2 ≤ 1000 → argZero c 10 6 → arg c 0 8 ≤ u.mgmt.journalNext →
    u.mem.journalBad = true → exec (.journalRead c) s = .next (closed 0x0106 c s (finish (heldOf 0x0106 c) (cmdIndex (heldOf 0x0106 c) s)
      St.memError [] false 0 0 { u with mem := { u.mem with journalBad := false } }))) ∧
  (∀ op c s, sourceOffers c s → canAccept s = true → (∀ x ∈ catalogue, x.1 ≠ op) →
    exec (.unknownOpcode op c) s = .next (refuse (heldOf op c) St.unknownOpcode (arrived op c s)))

/-- R79 to R82, R142, R613: the port commands complete: a new port takes its settings and is ADMIN_DOWN, another keeps what the settings do not
name; an administrative state, a source address and a degrade rule are set, and a query answers. -/
def Obligations.PortCommandsComplete : Prop :=
  (∀ c s u, takes 0x0201 44 c s u → arg c 0 2 < 80 → mac? (arg c 0 2) u = none →
    comboOk (portCfgOf (heldOf 0x0201 c)).speed (portCfgOf (heldOf 0x0201 c)).lanes (portCfgOf (heldOf 0x0201 c)).laneRate
      (portCfgOf (heldOf 0x0201 c)).fec = true →
    ((portCfgOf (heldOf 0x0201 c)).flexePhy = false →
      macParamsBad (heldOf 0x0201 c) (speedGbps (portCfgOf (heldOf 0x0201 c)).speed) = false ∧ portNodes u < 192) →
    ((portCfgOf (heldOf 0x0201 c)).flexePhy = true → phyType (portCfgOf (heldOf 0x0201 c)).speed = true) →
    (arg c 0 2 % 10) % (portCfgOf (heldOf 0x0201 c)).lanes = 0 → arg c 0 2 % 10 + (portCfgOf (heldOf 0x0201 c)).lanes ≤ 10 →
    (∀ p ∈ u.macs, p.1 < 80 → p.1 ≠ arg c 0 2 → lanesMeet (arg c 0 2) (portCfgOf (heldOf 0x0201 c)).lanes p.1 p.2.cfg.lanes = false) →
    effects 0x0201 (.portConfig c) c s
      { u with macs := aset u.macs (arg c 0 2) (newMac (portCfgOf (heldOf 0x0201 c)) (speedGbps (portCfgOf (heldOf 0x0201 c)).speed) u) }) ∧
  (∀ c s u x, takes 0x0202 4 c s u → arg c 0 2 < 80 → argZero c 2 2 → mac? (arg c 0 2) u = some x → phyGroup (arg c 0 2) u = none →
    x.link = .adminDown → nodeInUse (arg c 0 2) u = false →
    effects 0x0202 (.portDelete c) c s (dropMac (arg c 0 2) { u with flexe := { u.flexe with lines := adel u.flexe.lines (arg c 0 2) } })) ∧
  (∀ c s u x, takes 0x0203 4 c s u → arg c 0 2 < 80 → arg c 2 1 ≤ 2 → argZero c 3 1 → mac? (arg c 0 2) u = some x →
    phyGroup (arg c 0 2) u = none → effects 0x0203 (.portAdmin c) c s (adminTo (arg c 2 1) (arg c 0 2) u)) ∧
  (∀ c s u x, takes 0x0204 4 c s u → arg c 0 2 < 80 → argZero c 2 2 → mac? (arg c 0 2) u = some x →
    ∃ rest : List Byte, queries 0x0204 (.portQuery c) c s
      (le 2 (arg c 0 2) ++ le 1 x.cfg.speed ++ le 1 x.cfg.lanes ++ le 1 x.cfg.laneRate ++ le 1 x.cfg.fec ++ macCfgBytes x.cfg ++
        le 4 (prtStatus (arg c 0 2) u) ++ rest)) ∧
  (∀ c s u x, takes 0x0205 16 c s u → arg c 0 2 < 80 → arg c 2 1 ≤ 2 → 1 ≤ arg c 3 1 → arg c 3 1 ≤ 16 → 1 ≤ arg c 4 1 → argZero c 5 3 →
    arg c 12 4 ≤ arg c 8 4 → mac? (arg c 0 2) u = some x → x.degrade.declared = false →
    effects 0x0205 (.portDegrade c) c s (linkChange (arg c 0 2) (updMac (arg c 0 2) (fun x => { x with degrade :=
      { x.degrade with action := arg c 2 1, set := arg c 8 4, clear := arg c 12 4, windowsSet := arg c 3 1, windowsClear := arg c 4 1,
                       badRun := 0, goodRun := 0 } }) ) u)) ∧
  (∀ c s u x, takes 0x0206 8 c s u → (arg c 0 2 < 80 ∨ (128 ≤ arg c 0 2 ∧ arg c 0 2 < 256)) → bit (arg c 2 1) 0 = 0 →
    mac? (arg c 0 2) u = some x → x.cfg.flexePhy = false →
    effects 0x0206 (.portMacSet c) c s (updMac (arg c 0 2) (fun x => { x with sa := argBytes c 2 6 }) u))

/-- R118, R119, R122 to R129, R140, R145: the FlexE commands complete: groups and clients are made, changed and deleted, calendars not in use are
written, a switch of an UP group runs, and a query answers. -/
def Obligations.FlexeCommandsComplete : Prop :=
  (∀ c s u g, takes 0x0301 24 c s u → groupConfigBad (heldOf 0x0301 c) u = false →
    (distinct ((phyList (heldOf 0x0301 c)).map (fun p => p.1 / 10))).length = 1 →
    (∀ p ∈ phyList (heldOf 0x0301 c), phyGroup p.1 u = none) → flxGroup (arg c 0 1) u = none →
    g = newFlxGroup (arg c 2 1) (arg c 3 1) (arg c 4 4) (phyList (heldOf 0x0301 c)) →
    effects 0x0301 (.flexeGroupConfig c) c s ((phyList (heldOf 0x0301 c)).foldl (fun s p => toAdminDown p.1 s)
      { u with flexe := { u.flexe with groups := aset u.flexe.groups (arg c 0 1) g } })) ∧
  (∀ c s u x, takes 0x0302 4 c s u → arg c 0 1 < 16 → argZero c 1 3 → flxGroup (arg c 0 1) u = some x → x.state = .adminDown →
    clientsOf (arg c 0 1) u = [] →
    effects 0x0302 (.flexeGroupDelete c) c s { u with flexe := { u.flexe with groups := adel u.flexe.groups (arg c 0 1) } }) ∧
  (∀ c s u x, takes 0x0303 4 c s u → arg c 0 1 < 16 → arg c 1 1 ≤ 2 → argZero c 2 2 → flxGroup (arg c 0 1) u = some x →
    heldGroup (arg c 0 1) u = false →
    effects 0x0303 (.flexeGroupAdmin c) c s (if arg c 1 1 = 0 then groupAdminDown (arg c 0 1) u
      else if arg c 1 1 = 1 then groupDown (arg c 0 1) u else groupDormant false (arg c 0 1) u)) ∧
  (∀ c s u x k, takes 0x0304 44 c s u → arg c 0 2 < 128 → arg c 2 1 < 16 → argZero c 3 1 → 1 ≤ arg c 4 2 → arg c 4 2 ≤ 0xFFFE →
    (macParams (heldOf 0x0304 c)).flexePhy = false → macParamsBad (heldOf 0x0304 c) (clientSize (arg c 0 2) u) = false →
    flxGroup (arg c 2 1) u = some x → (∀ p ∈ u.flexe.clients, p.2.group = arg c 2 1 → p.2.clientId ≠ arg c 4 2) →
    aget u.flexe.clients (arg c 0 2) = none → portNodes u < 192 →
    k = { group := arg c 2 1, clientId := arg c 4 2, badRun := 0, mismatch := false } →
    effects 0x0304 (.flexeClientConfig c) c s { u with
      macs := aset u.macs (128 + arg c 0 2) (newMac (macParams (heldOf 0x0304 c)) 0 u),
      flexe := { u.flexe with clients := aset u.flexe.clients (arg c 0 2) k } }) ∧
  (∀ c s u, takes 0x0305 4 c s u → arg c 0 2 < 128 → argZero c 2 2 → ahas u.flexe.clients (arg c 0 2) = true →
    holdsSlot (arg c 0 2) u = false → (∀ y, mac? (128 + arg c 0 2) u = some y → y.link = .adminDown) → nodeInUse (128 + arg c 0 2) u = false →
    effects 0x0305 (.flexeClientDelete c) c s
      (dropMac (128 + arg c 0 2) { u with flexe := { u.flexe with clients := adel u.flexe.clients (arg c 0 2) } })) ∧
  (∀ c s u, takes 0x0306 4 c s u → arg c 0 2 < 128 → arg c 2 1 ≤ 2 → argZero c 3 1 → ahas u.flexe.clients (arg c 0 2) = true →
    effects 0x0306 (.flexeClientAdmin c) c s (adminTo (arg c 2 1) (128 + arg c 0 2) u)) ∧
  (∀ c s u x cal, takes 0x0307 4 c s u → cal = (List.range (arg c 2 2)).map (fun k => arg c (4 + k) 1) → arg c 0 1 < 16 → arg c 1 1 ≤ 3 →
    4 + arg c 2 2 ≤ c.paramLen → flxGroup (arg c 0 1) u = some x → arg c 2 2 = slotCount x → x.switch = none →
    (∀ e ∈ cal, e = 0xFF ∨ (∃ k, aget u.flexe.clients e = some k ∧ k.group = arg c 0 1)) →
    (∀ e ∈ distinct cal, e = 0xFF ∨ slotsOk (cal.countP (· == e)) = true) →
    (bit (arg c 1 1) 0 = 1 → ∀ k ∈ clientsOf (arg c 0 1) u, (mac? (128 + k) u).any (fun y => y.link != .adminDown) = true →
      (txCal x x.txB).contains k = true → cal.contains k = true) →
    effects 0x0307 (.flexeCalendarStage c) c s (updGroup (arg c 0 1) (fun x =>
      let y := if !(bit (arg c 1 1) 0 == 1) then x else if x.txB then { x with txCalA := cal } else { x with txCalB := cal }
      if !(bit (arg c 1 1) 1 == 1) then y else if y.rxB then { y with rxCalA := cal } else { y with rxCalB := cal }) u)) ∧
  (∀ c s u x, takes 0x0308 4 c s u → arg c 0 1 < 16 → argZero c 1 3 → flxGroup (arg c 0 1) u = some x → x.state = .up → x.switch = none →
    exec (.flexeCalendarSwitch c) s = .next (runs 0x0308 c s (.calendar (arg c 0 1)) []
      (updGroup (arg c 0 1) (fun x => { x with switch := some { startedAt := u.elapsed, crAt := none } }) u))) ∧
  (∀ c s u x, takes 0x0309 4 c s u → arg c 0 1 < 16 → argZero c 1 3 → flxGroup (arg c 0 1) u = some x →
    ∃ rest : List Byte, queries 0x0309 (.flexeQuery c) c s
      (le 4 (groupStatus (arg c 0 1) u) ++ le 2 (groupSkew (arg c 0 1) u) ++ le 2 (slotCount x) ++ le 1 x.phys.length ++ zeros 7 ++ rest))

/-- R149 to R159, R166, R167, R181: the parse and rule commands stage one change of the next epoch, and the queries answer from it. -/
def Obligations.ParseCommandsComplete : Prop :=
  (∀ c s u, takesConfig 0x0401 18 c s u → (∀ k < 18, arg c k 1 ≤ 63) →
    stages 0x0401 (.parseSelectLayout c) c s u (.layout ((List.range 18).map (fun k => arg c k 1)))) ∧
  (∀ c s u, takesConfig 0x0402 192 c s u → profileMalformed (argBytes c 0 192) = false →
    pIngTable (argBytes c 0 192) = 0xFF → pEgrTable (argBytes c 0 192) = 0xFF →
    keyBits (argBytes c 0 192) (pFlow (argBytes c 0 192)) ≤ 384 →
    stages 0x0402 (.profileWrite c) c s u
      (.profile (rd (argBytes c 0 192) 0 2) (some (argBytes c 0 192)))) ∧
  (∀ c s u, takesConfig 0x0403 4 c s u → arg c 0 2 ≤ 511 → argZero c 2 2 → liveOrStaged (fun g => ahas g.profiles (arg c 0 2)) u = true →
    liveOrStaged (fun g => (avals g.selects).any (fun e => e.profile == arg c 0 2)) u = false →
    stages 0x0403 (.profileDelete c) c s u (.profile (arg c 0 2) none)) ∧
  (∀ c s u, takesConfig 0x0405 4 c s u → liveOrStaged (fun g => ahas g.selects (arg c 0 4)) u = true →
    stages 0x0405 (.profileSelectDelete c) c s u (.select (arg c 0 4) none)) ∧
  (∀ c s u, takesConfig 0x0406 65 c s u → arg c 0 1 ≤ 15 → (∀ k < 64, arg c (1 + k) 1 ≤ 7) →
    stages 0x0406 (.parseClassMapSet c) c s u (.classMap (arg c 0 1) ((List.range 64).map (fun k => arg c (1 + k) 1)))) ∧
  (∀ c s u, takesConfig 0x0407 36 c s u → arg c 0 1 ≤ 1 → arg c 1 1 ≤ 254 → arg c 2 1 ≤ 2 → arg c 3 1 ∈ [1, 4, 8, 16, 32, 64] →
    actionRefused (arg c 0 1) (arg c 1 1) (argBytes c 4 32) u = none → tablesNamed (arg c 0 1) (arg c 1 1) u = [] →
    stages 0x0407 (.ruleTableCreate c) c s u (.ruleTable (tableKey (arg c 0 1) (arg c 1 1))
      (some { width := arg c 2 1, hole := arg c 3 1, dflt := argBytes c 4 32 }))) ∧
  (∀ c s u, takesConfig 0x0408 4 c s u → arg c 0 1 ≤ 1 → arg c 1 1 ≤ 254 → argZero c 2 2 → tablesNamed (arg c 0 1) (arg c 1 1) u ≠ [] →
    tableHoldsRule (arg c 0 1) (arg c 1 1) u = false → tableNamed (arg c 0 1) (arg c 1 1) u = false →
    stages 0x0408 (.ruleTableDelete c) c s u (.ruleTable (tableKey (arg c 0 1) (arg c 1 1)) none)) ∧
  (∀ c s u, takesConfig 0x040E 12 c s u → argZero c 1 1 → arg c 2 2 ≤ 4095 →
    (arg c 4 2 = 0 ∨ (64 ≤ arg c 4 2 ∧ arg c 4 2 ≤ 512 ∧ arg c 4 2 % 64 = 0)) → arg c 6 2 ≠ 0 → arg c 8 4 ≤ 200000000 →
    stages 0x040E (.exceptionConfig c) c s u
      (.exception (arg c 0 1) { queue := arg c 2 2, truncate := arg c 4 2, burst := arg c 6 2, rate := arg c 8 4 }))

/-- R150, R151, R167 to R170, R181, R558: an added rule or selection entry takes an identifier that no held rule or entry has, its key and mask as
given, in the place that keeps its table in order, with the moves that this needs; a rule is deleted or given another action in the next
epoch; the rule and TCAM queries answer. The identifier and the choice among free places are the model's free values (log 13). -/
def Obligations.RuleCommandsComplete : Prop :=
  (∀ c s u e id index moves, takesConfig 0x0404 48 c s u → arg c 4 2 ≤ 511 → argZero c 6 2 →
    beVal (argBytes c 8 20) ||| beVal (argBytes c 28 20) = beVal (argBytes c 28 20) →
    bits (beVal (argBytes c 8 20)) 148 144 = 0 → liveOrStaged (fun g => ahas g.profiles (arg c 4 2)) u = true →
    e = { prio := arg c 0 4, profile := arg c 4 2, key := beVal (argBytes c 8 20), mask := beVal (argBytes c 28 20),
          order := u.nextOrder, index := 0 } →
    pickId 2048 (fun k => !selectHeld u k) u = some id → selectPlace e u = some (index, moves) →
    (selectIndices u).length + selectCopies u + moves.length + 1 ≤ 2048 →
    effectsWith 0x0404 (.profileSelectAdd c) c s { drawn u with
      nextOrder := u.nextOrder + 1,
      staged := u.staged ++ [{ change := .select id (some { e with index := index }), units := 1, sealedBy := none, moves := moves }] } (le 4 id)) ∧
  (∀ c s u tb r id index moves, takesConfig 0x0409 200 c s u → arg c 0 1 ≤ 1 → arg c 1 1 ≤ 254 → argZero c 2 2 →
    beVal (argBytes c 8 80) ||| beVal (argBytes c 88 80) = beVal (argBytes c 88 80) →
    rd (argBytes c 8 80) 0 1 = arg c 1 1 → rd (argBytes c 88 80) 0 1 = 0xFF →
    actionMalformed (argBytes c 168 32) = false →
    aget (nextConf u).ruleTables (tableKey (arg c 0 1) (arg c 1 1)) = some tb →
    allZero ((argBytes c 8 80).drop (20 * 2 ^ tb.width)) = true →
    allZero ((argBytes c 88 80).drop (20 * 2 ^ tb.width)) = true →
    actionRefused (arg c 0 1) (arg c 1 1) (argBytes c 168 32) u = none →
    r = { table := arg c 1 1, prio := arg c 4 4, key := argBytes c 8 80, mask := argBytes c 88 80, action := argBytes c 168 32,
          order := u.nextOrder, index := 0 } →
    pickId (ruleIds (arg c 0 1)) (fun id => !ruleHeld u (ruleKey (arg c 0 1) id)) u = some id →
    rulePlace (arg c 0 1) tb r u = some (index, moves) →
    entriesUsed (arg c 0 1) u + ruleCopies (arg c 0 1) none u + (moves.length + 1) * 2 ^ tb.width ≤ ruleCapacity (arg c 0 1) →
    effectsWith 0x0409 (.ruleAdd c) c s { drawn u with
      nextOrder := u.nextOrder + 1,
      staged := u.staged ++ [{ change := .rule (ruleKey (arg c 0 1) id) (some { r with index := index }), units := 1, sealedBy := none,
                               moves := moves }] } (le 4 id)) ∧
  (∀ c s u, takesConfig 0x040A 8 c s u → arg c 0 1 ≤ 1 → argZero c 1 3 → arg c 4 4 < ruleIds (arg c 0 1) →
    ahas (nextConf u).rules (ruleKey (arg c 0 1) (arg c 4 4)) = true →
    stages 0x040A (.ruleDelete c) c s u (.rule (ruleKey (arg c 0 1) (arg c 4 4)) none)) ∧
  (∀ c s u r, takesConfig 0x040B 40 c s u → arg c 0 1 ≤ 1 → argZero c 1 3 → arg c 4 4 < ruleIds (arg c 0 1) →
    actionMalformed (argBytes c 8 32) = false →
    aget (nextConf u).rules (ruleKey (arg c 0 1) (arg c 4 4)) = some r →
    actionRefused (arg c 0 1) r.table (argBytes c 8 32) u = none →
    stages 0x040B (.ruleModify c) c s u (.ruleAction (ruleKey (arg c 0 1) (arg c 4 4)) (argBytes c 8 32))) ∧
  (∀ c s u r, takes 0x040C 12 c s u → arg c 0 1 ≤ 1 → argZero c 1 3 → arg c 4 4 < ruleIds (arg c 0 1) →
    (standingRules u).find? (fun q => q.1 == ruleKey (arg c 0 1) (arg c 4 4)) = some (ruleKey (arg c 0 1) (arg c 4 4), r) →
    queries 0x040C (.ruleOverlaps c) c s (le 4 (overlapsOf (ruleKey (arg c 0 1) (arg c 4 4)) r u).length ++ zeros 4 ++
      (((overlapsOf (ruleKey (arg c 0 1) (arg c 4 4)) r u).drop (arg c 8 4)).take 256).flatMap
        (fun q => le 4 (q.1 % 131072) ++ le 4 q.2.prio ++ le 1 (b2n (ruleBefore q.2 r)) ++ zeros 3))) ∧
  (∀ c s u r, takes 0x040D 8 c s u → arg c 0 1 ≤ 1 → argZero c 1 3 → arg c 4 4 < ruleIds (arg c 0 1) →
    ruleHeld u (ruleKey (arg c 0 1) (arg c 4 4)) = true → ruleRecord u (ruleKey (arg c 0 1) (arg c 4 4)) = some r →
    ∃ rest : List Byte, exec (.ruleQuery c) s = .next (completed 0x040D c s
      (le 1 r.table ++ le 1 (ruleState u (ruleKey (arg c 0 1) (arg c 4 4))) ++ rest) false (drawn u))) ∧
  (∀ c s u, takes 0x040F 4 c s u → arg c 0 1 ≤ 1 → argZero c 1 3 →
    ∃ used stg tables : Nat, ∃ rest : List Byte, queries 0x040F (.tcamStatus c) c s
      (le 4 used ++ le 4 stg ++ le 4 ((if arg c 0 1 = 0 then 131072 else 65536) - used - stg) ++ le 4 tables ++ rest))

/-- R186, R193, R196, R210 to R212: the route, identifier and flow-table commands complete, and the queries answer. -/
def Obligations.TableCommandsComplete : Prop :=
  (∀ c s u, takesConfig 0x0501 4 c s u → arg c 2 1 ≤ 1 → argZero c 3 1 →
    stages 0x0501 (.fibVrfConfig c) c s u (.vrfMiss (arg c 0 2) (arg c 2 1))) ∧
  (∀ c s u, takes 0x0502 0 c s u → ∃ rest : List Byte, rest.length = 60 ∧
    queries 0x0502 (.fibStatus c) c s (capRecord (capOf unitsHeld u).1 (capOf unitsHeld u).2 10485760 ++ rest)) ∧
  (∀ c s u, takes 0x0503 8 c s u → argZero c 1 3 → arg c 4 4 < idCapacity (arg c 0 1) →
    ∃ rest : List Byte, rest.length = 16 ∧ queries 0x0503 (.idQuery c) c s
      (le 1 (idState (arg c 0 1) (arg c 4 4) u) ++ zeros 3 ++ le 4 (refsIn (arg c 0 1) (arg c 4 4) (nextConf u)) ++ rest)) ∧
  (∀ c s u, takesConfig 0x0504 4 c s u → stages 0x0504 (.ecmpHashSeed c) c s u (.hashSeed (arg c 0 4))) ∧
  (∀ c s u ft, takes 0x0520 20 c s u → arg c 0 1 ≤ 15 → arg c 1 1 ≤ 1 → arg c 2 1 ≤ 31 → argZero c 3 1 → arg c 4 4 ≠ 0 →
    arg c 4 4 % 65536 = 0 → arg c 8 4 ≤ 86400 → ctxActionBad (arg c 12 4) (arg c 16 4) = false → flowTable (arg c 0 1) u = none →
    u.fwd.flowTables.foldl (fun a p => if p.1 = arg c 0 1 then a else a + p.2.contexts) 0 + arg c 4 4 ≤ 4194304 →
    ft = { policy := arg c 1 1, flags := arg c 2 1, contexts := arg c 4 4, idle := arg c 8 4, learnAction := arg c 12 4, learnNh := arg c 16 4 } →
    effects 0x0520 (.flowTableCreate c) c s { u with fwd := { u.fwd with flowTables := aset u.fwd.flowTables (arg c 0 1) ft } }) ∧
  (∀ c s u f, takes 0x0521 4 c s u → arg c 0 1 ≤ 15 → argZero c 1 3 → flowTable (arg c 0 1) u = some f → flowNamed (arg c 0 1) u = false →
    flowsOf (arg c 0 1) u = [] →
    effects 0x0521 (.flowTableDelete c) c s { u with fwd := { u.fwd with flowTables := adel u.fwd.flowTables (arg c 0 1) } }) ∧
  (∀ c s u f gone, takes 0x0522 4 c s u → arg c 0 1 ≤ 15 → arg c 1 1 ≤ 1 → argZero c 2 2 → flowTable (arg c 0 1) u = some f →
    gone = (flowsOf (arg c 0 1) u).filter (fun f => f.lock.isNone && (!f.isStatic || arg c 1 1 == 1)) →
    exec (.flowTableFlush c) s = .next (closed 0x0522 c s (finish (heldOf 0x0522 c) (cmdIndex (heldOf 0x0522 c) s) St.ok
      (le 4 gone.length) true 0 (rd (le 4 gone.length) 0 4) (gone.foldl (fun s f => dropFlow f s) u)))) ∧
  (∀ c s u, takes 0x0523 0 c s u → queries 0x0523 (.flowStatus c) c s ((List.range 16).flatMap (flowStatusRecord u)))

/-- R202 to R209: a route, label, next-hop, group or template descriptor of a table-update ring stages its change for the next epoch, at
its change units, and its completion carries OK. -/
def Obligations.TableDescriptorsStage : Prop :=
  (∀ d s x u v6 len vrf v, takesTable 0x01 d s x u → standsBy u = false → mirroring u = false → stagingFull 1 u = false →
    routeOf (bytesOf64 d) = some (v6, len, vrf, v) →
    resultOk (if len = (if v6 then 128 else 32) then .host else .net) (rd (bytesOf64 d) 32 8) = true → resultDangling (rd (bytesOf64 d) 32 8) u = false →
    entriesHeld (heldWith (.route (routeKey v6 vrf len v) (some (rd (bytesOf64 d) 32 8))) u) ≤ entryCapacity →
    unitsHeld (heldWith (.route (routeKey v6 vrf len v) (some (rd (bytesOf64 d) 32 8))) u) ≤ routeUnitCapacity →
    stagesFrom 0x01 (.routeAdd d) d s x u 1 0 (.route (routeKey v6 vrf len v) (some (rd (bytesOf64 d) 32 8)))) ∧
  (∀ d s x u v6 len vrf v, takesTable 0x02 d s x u → standsBy u = false → mirroring u = false → stagingFull 1 u = false →
    routeOf (bytesOf64 d) = some (v6, len, vrf, v) → rd (bytesOf64 d) 32 8 = 0 → ahas (nextConf u).routes (routeKey v6 vrf len v) = true →
    stagesFrom 0x02 (.routeDelete d) d s x u 1 0 (.route (routeKey v6 vrf len v) none)) ∧
  (∀ d s x u, takesTable 0x03 d s x u → standsBy u = false → mirroring u = false → stagingFull 1 u = false →
    rd (bytesOf64 d) 8 4 < 1048576 → descZero (bytesOf64 d) 12 20 = true → descZero (bytesOf64 d) 40 24 = true →
    resultOk .label (rd (bytesOf64 d) 32 8) = true → resultDangling (rd (bytesOf64 d) 32 8) u = false →
    entriesHeld (heldWith (.label (rd (bytesOf64 d) 8 4) (some (rd (bytesOf64 d) 32 8))) u) ≤ entryCapacity →
    stagesFrom 0x03 (.labelAdd d) d s x u 1 0 (.label (rd (bytesOf64 d) 8 4) (some (rd (bytesOf64 d) 32 8)))) ∧
  (∀ d s x u, takesTable 0x04 d s x u → standsBy u = false → mirroring u = false → stagingFull 1 u = false →
    rd (bytesOf64 d) 8 4 < 1048576 → descZero (bytesOf64 d) 12 52 = true → ahas (nextConf u).labels (rd (bytesOf64 d) 8 4) = true →
    stagesFrom 0x04 (.labelDelete d) d s x u 1 0 (.label (rd (bytesOf64 d) 8 4) none)) ∧
  (∀ d s x u, takesTable 0x05 d s x u → standsBy u = false → mirroring u = false → stagingFull 1 u = false → nextHopBad (bytesOf64 d) = false →
    ((nextHopOf (bytesOf64 d)).kind = 0 → idNext 2 (nextHopOf (bytesOf64 d)).template u = true) → setRefused 0 (descId (bytesOf64 d)) u = none →
    stagesFrom 0x05 (.nhSet d) d s x u 1 (descId (bytesOf64 d)) (.nextHop (descId (bytesOf64 d)) (some (nextHopOf (bytesOf64 d))))) ∧
  (∀ d s x u, takesTable 0x06 d s x u → standsBy u = false → mirroring u = false → stagingFull 1 u = false →
    descId (bytesOf64 d) < nextHopCapacity → descZero (bytesOf64 d) 12 52 = true → idNext 0 (descId (bytesOf64 d)) u = true →
    refsIn 0 (descId (bytesOf64 d)) (nextConf u) = 0 →
    stagesFrom 0x06 (.nhFree d) d s x u 1 (descId (bytesOf64 d)) (.nextHop (descId (bytesOf64 d)) none)) ∧
  (∀ d s x u b l, takesTable 0x07 d s x u → standsBy u = false → mirroring u = false → d.data = some b →
    l = (List.range (rd (bytesOf64 d) 12 2)).map (fun k => rd b (4 * k) 4) →
    descId (bytesOf64 d) < groupCapacity → 1 ≤ rd (bytesOf64 d) 12 2 → rd (bytesOf64 d) 12 2 ≤ 512 → descZero (bytesOf64 d) 14 2 = true →
    descZero (bytesOf64 d) 24 40 = true → (∀ k ∈ l, k < nextHopCapacity ∧ idNext 0 k u = true) → setRefused 1 (descId (bytesOf64 d)) u = none →
    slotsUsed u + slotsStaged (batchesWith (.ecmp (descId (bytesOf64 d)) (some l)) u) ≤ slotCapacity →
    stagingFull (1 + (rd (bytesOf64 d) 12 2 + 15) / 16) u = false →
    stagesFrom 0x07 (.ecmpSet d) d s x u (1 + (rd (bytesOf64 d) 12 2 + 15) / 16) (descId (bytesOf64 d)) (.ecmp (descId (bytesOf64 d)) (some l))) ∧
  (∀ d s x u, takesTable 0x08 d s x u → standsBy u = false → mirroring u = false → stagingFull 1 u = false →
    descId (bytesOf64 d) < groupCapacity → descZero (bytesOf64 d) 12 52 = true → idNext 1 (descId (bytesOf64 d)) u = true →
    refsIn 1 (descId (bytesOf64 d)) (nextConf u) = 0 →
    stagesFrom 0x08 (.ecmpFree d) d s x u 1 (descId (bytesOf64 d)) (.ecmp (descId (bytesOf64 d)) none)) ∧
  (∀ d s x u b, takesTable 0x09 d s x u → standsBy u = false → mirroring u = false → stagingFull 1 u = false → d.data = some b →
    descId (bytesOf64 d) < templateCapacity → descZero (bytesOf64 d) 12 4 = true → descZero (bytesOf64 d) 24 40 = true →
    templateMalformed (fit 64 b) = false → tChain (fit 64 b) = none →
    chainsBad (applyChange (nextConf u) (.template (descId (bytesOf64 d)) (some (fit 64 b)))) = false →
    setRefused 2 (descId (bytesOf64 d)) u = none →
    stagesFrom 0x09 (.templateSet d) d s x u 1 (descId (bytesOf64 d)) (.template (descId (bytesOf64 d)) (some (fit 64 b)))) ∧
  (∀ d s x u, takesTable 0x0A d s x u → standsBy u = false → mirroring u = false → stagingFull 1 u = false →
    descId (bytesOf64 d) < templateCapacity → descZero (bytesOf64 d) 12 52 = true → idNext 2 (descId (bytesOf64 d)) u = true →
    refsIn 2 (descId (bytesOf64 d)) (nextConf u) = 0 →
    stagesFrom 0x0A (.templateFree d) d s x u 1 (descId (bytesOf64 d)) (.template (descId (bytesOf64 d)) none))

/-- R222 to R224: a flow operation acts at once: FLOW_READ returns the context, and locks it where asked; FLOW_WRITE writes one that is not
locked; FLOW_DELETE removes one. -/
def Obligations.FlowDescriptorsAct : Prop :=
  (∀ d s x u b ft f, takesTable 0x10 d s x u → flowDescBad (bytesOf64 d) 1 = false → flowTable (rd (bytesOf64 d) 8 1) u = some ft → d.data = some b →
    findFlow (rd (bytesOf64 d) 8 1) (slice b 8 48) u = some f → rd (bytesOf64 d) 9 1 = 0 →
    actsFrom 0x10 (.flowRead d) d s x (dmaWrite x.fn (rd (bytesOf64 d) 16 8) (ctxBytes f) u)) ∧
  (∀ d s x u b ft f g, takesTable 0x10 d s x u → flowDescBad (bytesOf64 d) 1 = false → flowTable (rd (bytesOf64 d) 8 1) u = some ft → d.data = some b →
    findFlow (rd (bytesOf64 d) 8 1) (slice b 8 48) u = some f → rd (bytesOf64 d) 9 1 = 1 → f.lock = none → lockCount u < 1024 →
    g = { f with lock := some u.elapsed, keptPackets := 0, keptBytes := 0, keptLast := 0, lapsed := false } →
    actsFrom 0x10 (.flowRead d) d s x
      (dmaWrite x.fn (rd (bytesOf64 d) 16 8) (ctxBytes g) (updFlow (rd (bytesOf64 d) 8 1) f.key (fun _ => g) u))) ∧
  (∀ d s x u b ft f, takesTable 0x11 d s x u → flowDescBad (bytesOf64 d) 15 = false → rd (bytesOf64 d) 9 1 % 4 = 2 →
    flowTable (rd (bytesOf64 d) 8 1) u = some ft → d.data = some b →
    findFlow (rd (bytesOf64 d) 8 1) (ctxOf (rd (bytesOf64 d) 8 1) b).key u = some f → f.lock = none →
    actsFrom 0x11 (.flowWrite d) d s x (writeFlow f (fun f => rewriteCtx f (ctxOf (rd (bytesOf64 d) 8 1) b)) u)) ∧
  (∀ d s x u b ft k v, takesTable 0x11 d s x u → flowDescBad (bytesOf64 d) 15 = false → rd (bytesOf64 d) 9 1 % 4 ≠ 1 → rd (bytesOf64 d) 9 1 % 4 ≠ 3 →
    flowTable (rd (bytesOf64 d) 8 1) u = some ft → d.data = some b →
    findFlow (rd (bytesOf64 d) 8 1) (ctxOf (rd (bytesOf64 d) 8 1) b).key u = none →
    makeRoom (bit (rd (bytesOf64 d) 9 1) 3 == 1) (rd (bytesOf64 d) 8 1) ft
      (flowBucketOf (rd (bytesOf64 d) 8 1) ft (ctxOf (rd (bytesOf64 d) 8 1) b).key) u = some (k, v) →
    actsFrom 0x11 (.flowWrite d) d s x (storeFlow { ctxOf (rd (bytesOf64 d) 8 1) b with
      bucket := flowBucketOf (rd (bytesOf64 d) 8 1) ft (ctxOf (rd (bytesOf64 d) 8 1) b).key, slot := k, first := u.tempo.now } v)) ∧
  (∀ d s x u b ft f, takesTable 0x12 d s x u → flowDescBad (bytesOf64 d) 0 = false → flowTable (rd (bytesOf64 d) 8 1) u = some ft → d.data = some b →
    findFlow (rd (bytesOf64 d) 8 1) (slice b 8 48) u = some f → actsFrom 0x12 (.flowDelete d) d s x (dropFlow f u))

/-- R229 to R231, R234, R235, R239, R255, R257, R259, R262, R265: the queue and buffer commands stage their change, or write the layout at once,
and the queries answer. -/
def Obligations.QueueCommandsComplete : Prop :=
  (∀ c s u, takesConfig 0x0601 28 c s u → destBad (heldOf 0x0601 c) u = false →
    (arg c 2 1 = 1 → ahas (nextConf u).epLists (arg c 6 2) = true ∧ ahas (nextConf u).pealLists (arg c 16 4) = true) →
    (∀ k < 8, setRefused 3 (8 * arg c 0 2 + k) u = none) →
    stages 0x0601 (.voqDestSet c) c s u (.dest (arg c 0 2) (some {
      kind := arg c 2 1, endpoint := arg c 4 2, epList := arg c 6 2,
      localPort := arg c 8 1, leafBase := arg c 12 4, pealList := arg c 16 4, profiles := (List.range 8).map (fun k => arg c (20 + k) 1) }))) ∧
  (∀ c s u, takesConfig 0x0602 4 c s u → argZero c 2 2 → ahas (nextConf u).dests (arg c 0 2) = true →
    stages 0x0602 (.voqDestDelete c) c s u (.dest (arg c 0 2) none)) ∧
  (∀ c s u curve, takesConfig 0x0603 56 c s u → curve = (List.range 4).map (fun k => (arg c (24 + 8 * k) 4, arg c (28 + 8 * k) 4)) →
    arg c 1 1 ≤ 15 → argZero c 2 2 → (∀ o ∈ [4, 8, 12, 16, 20], arg c o 4 % 256 = 0) → arg c 20 4 ≤ 262144 →
    arg c 20 4 ≤ arg c 16 4 → arg c 16 4 ≤ arg c 12 4 → arg c 12 4 ≤ arg c 8 4 → arg c 8 4 ≤ arg c 4 4 →
    chain (fun a b => a ≤ b) (curve.map (·.1)) = true → chain (fun a b => a ≤ b) (curve.map (·.2)) = true →
    (∀ p ∈ curve, p.1 ≤ arg c 4 4 ∧ p.2 ≤ 65536) →
    stages 0x0603 (.voqProfileSet c) c s u (.voqProfile (arg c 0 1) {
      flags := arg c 1 1, tailLimit := arg c 4 4, ondieLimit := arg c 8 4,
      spillHigh := arg c 12 4, spillLow := arg c 16 4, headKeep := arg c 20 4, curve := curve })) ∧
  (∀ c s u l, takesConfig 0x0604 4 c s u → l = (List.range (arg c 2 2)).map (fun k => arg c (4 + 2 * k) 2) → arg c 0 2 ≤ 4095 →
    1 ≤ arg c 2 2 → arg c 2 2 ≤ 64 → 4 + 2 * arg c 2 2 ≤ c.paramLen → (∀ d ∈ l, ∃ e, aget (nextConf u).dests d = some e ∧ e.kind = 2) →
    noRepeat (l.filterMap (fun d => (aget (nextConf u).dests d).map (·.endpoint))) = true →
    stages 0x0604 (.voqEplistSet c) c s u (.epList (arg c 0 2) l)) ∧
  (∀ c s u l, takesConfig 0x0605 8 c s u → l = (List.range (arg c 2 2)).map (fun k => arg c (8 + 8 * k) 8) → arg c 2 2 ≤ 256 → argZero c 4 4 →
    8 + 8 * arg c 2 2 ≤ c.paramLen →
    (∀ t ∈ l, bits t 62 51 = 0 ∧ bits t 31 17 = 0 ∧ (bit t 63 = 1 → idNext 2 (bits t 50 32) u = true) ∧
      ahas (nextConf u).leaves (bits t 16 0) = true) →
    setRefused 5 (arg c 0 2) u = none → targetsUsed u + targetsStaged (batchesWith (.pealList (arg c 0 2) (some l)) u) ≤ targetCapacity →
    stages 0x0605 (.pealListSet c) c s u (.pealList (arg c 0 2) (some l))) ∧
  (∀ c s u, takesConfig 0x0606 4 c s u → argZero c 2 2 → ahas (nextConf u).pealLists (arg c 0 2) = true →
    (∀ d ∈ avals (nextConf u).dests, d.kind = 1 → d.pealList ≠ arg c 0 2) →
    stages 0x0606 (.pealListDelete c) c s u (.pealList (arg c 0 2) none)) ∧
  (∀ c s u ps, takes 0x0607 4 c s u → ps = (List.range (arg c 0 1)).map (fun k => (arg c (4 + 8 * k) 4, arg c (8 + 8 * k) 4)) →
    1 ≤ arg c 0 1 → arg c 0 1 ≤ 7 → argZero c 1 3 → 4 + 8 * arg c 0 1 ≤ c.paramLen → chain (fun a b => a < b) (ps.map (·.1)) = true →
    (∀ p ∈ ps, p.1 % 256 = 0 ∧ 256 ≤ p.1 ∧ p.1 ≤ 16384 ∧ p.2 % 128 = 0 ∧ 128 ≤ p.2) → (ps.map (·.1)).getLast? = some 16384 →
    ps.foldl (fun a p => a + p.1 * p.2) 0 ≤ 134217728 → u.qdm.stored = [] → (∀ m ∈ avals u.macs, linkHolds m = false) →
    effects 0x0607 (.bufPoolLayout c) c s (reportLevels { u with
      qdm := { u.qdm with pools := (List.range (arg c 0 1)).map (fun k =>
        { State.resetPool (ps.getD k (0, 0)).1 (ps.getD k (0, 0)).2 with level := (u.qdm.pools.map (·.level)).getD k 0 }) },
      cfg := { u.cfg with pools := [] },
      staged := u.staged.filter (fun x => !isPool x.change),
      commits := u.commits.map (fun c => { c with retained := c.retained.map (fun c => { c with pools := [] }) }) })) ∧
  (∀ c s u, takesConfig 0x0608 28 c s u → arg c 0 1 < u.qdm.pools.length → argZero c 1 3 → arg c 8 4 < arg c 4 4 → arg c 12 4 < arg c 8 4 →
    0 < arg c 12 4 → 8 * arg c 16 4 + arg c 20 4 + arg c 24 4 ≤ (pool (arg c 0 1) u).count / 2 →
    stages 0x0608 (.bufPoolConfig c) c s u (.pool (arg c 0 1) {
      warn1 := arg c 4 4, warn2 := arg c 8 4, warn3 := arg c 12 4,
      resLg := arg c 16 4, resEgress := arg c 20 4, resHost := arg c 24 4 })) ∧
  (∀ c s u, takesConfig 0x0609 12 c s u → arg c 0 2 ≤ 4095 → arg c 2 1 ≤ 1 → (arg c 3 1 = 24 ∨ 64 ≤ arg c 3 1) → 1 ≤ arg c 4 4 →
    arg c 4 4 ≤ 16777216 → 64 ≤ arg c 8 2 → arg c 8 2 ≤ 512 → arg c 8 2 % 64 = 0 → argZero c 10 2 →
    stages 0x0609 (.samplerConfig c) c s u (.sampler (arg c 0 2) { mode := arg c 2 1, reason := arg c 3 1, n := arg c 4 4, truncate := arg c 8 2 })) ∧
  (∀ c s u, takesConfig 0x060A 8 c s u → arg c 0 2 ≤ 4095 → argZero c 2 2 → arg c 4 4 % 256 = 0 → 65536 ≤ arg c 4 4 → arg c 4 4 ≤ 67108864 →
    stages 0x060A (.puntQueueConfig c) c s u (.puntLimit (arg c 0 2) (arg c 4 4))) ∧
  (∀ c s u, takes 0x060B 4 c s u → arg c 0 4 < 524288 → ∃ ts, queries 0x060B (.voqQuery c) c s
    (le 1 (if (destOf u.cfg (arg c 0 4)).isNone then 0 else if (voq (arg c 0 4) u).spilled then 2 else 1) ++ le 1 (voqProfileNo (arg c 0 4) u) ++
      zeros 2 ++ le 4 (voqAll (voq (arg c 0 4) u)).length ++ le 8 (onDie (voq (arg c 0 4) u)) ++
      le 8 ((voq (arg c 0 4) u).segEnd - (voq (arg c 0 4) u).segStart) ++ le 4 (nsOf ts) ++ le 4 (secOf ts))) ∧
  (∀ c s u, takes 0x060C 0 c s u → queries 0x060C (.bufStatus c) c s
    (le 4 (qdmStatus u) ++ le 4 (spilledCount u) ++ le 4 (hbmFree u) ++ le 4 (hbmPages u) ++ le 4 (spillBacklog u / 256) ++ zeros 4 ++
      (List.range 7).flatMap (fun p => (poolWords p u).flatMap (le 4))))

/-- R270 to R272, R278, R281, R292 to R294, R297, R298: the scheduler and policer commands stage their change of the next epoch, and the queries
answer. -/
def Obligations.SchedulerCommandsComplete : Prop :=
  (∀ c s u, takesConfig 0x0701 16 c s u → hasMac (arg c 0 2) u = true → argZero c 2 2 → rateOk (arg c 4 4) = true → arg c 8 4 ≤ 16777215 →
    overheadOk (arg c 12 1) = true → argZero c 13 3 →
    stages 0x0701 (.schedPortConfig c) c s u
      (.portSched (arg c 0 2) { rate := arg c 4 4, burst := arg c 8 4, overhead := signed 8 (arg c 12 1) })) ∧
  (∀ c s u, takesConfig 0x0702 32 c s u → nodeBad (heldOf 0x0702 c) = false → parentNext (arg c 0 1) (arg c 8 4) u = true →
    nodeIn (nextConf u) (arg c 0 1) (arg c 4 4) = none → (arg c 0 1 = 3 → setRefused 4 (arg c 4 4) u = none) →
    stages 0x0702 (.schedNodeSet c) c s u (nodeChange (arg c 0 1) (arg c 4 4) (some {
      prio := arg c 1 1, weight := arg c 2 2,
      parent := arg c 8 4, cls := arg c 12 1, gate := if arg c 0 1 == 3 && arg c 13 1 == 0 then arg c 12 1 else arg c 13 1,
      overhead := if arg c 14 1 = 0 then 20 else signed 8 (arg c 14 1), rate := arg c 16 4, burst := arg c 20 4,
      grantStop := if arg c 0 1 == 3 && arg c 24 4 == 0 then 262144 else arg c 24 4 }))) ∧
  (∀ c s u n, takesConfig 0x0703 8 c s u → 1 ≤ arg c 0 1 → arg c 0 1 ≤ 3 → argZero c 1 3 → arg c 4 4 < nodeCount (arg c 0 1) →
    nodeIn (nextConf u) (arg c 0 1) (arg c 4 4) = some n → (arg c 0 1 < 3 → hasChild (arg c 0 1) (arg c 4 4) u = false) →
    (arg c 0 1 = 3 → leafNamed (arg c 4 4) u = false) →
    stages 0x0703 (.schedNodeDelete c) c s u (nodeChange (arg c 0 1) (arg c 4 4) none)) ∧
  (∀ c s u b es, takesConfig 0x0706 64 c s u → 1 ≤ arg c 2 2 → arg c 2 2 ≤ 256 → 10000 ≤ arg c 4 4 → arg c 4 4 ≤ 1000000000 →
    arg c 8 8 < 281474976710656 → arg c 16 4 ≤ 999999999 → arg c 20 4 ≤ 100000 → (∀ k < 8, arg c (24 + 4 * k) 4 ≤ 1000000) →
    hasMac (arg c 0 2) u = true → c.data = some b → (∀ k < arg c 2 2, rd b (8 * k + 5) 3 = 0) →
    es = (List.range (arg c 2 2)).map (fun k => (rd b (8 * k) 4, rd b (8 * k + 4) 1)) → (∀ e ∈ es, 100 ≤ e.1) →
    es.foldl (fun a e => a + e.1) 0 = arg c 4 4 →
    stages 0x0706 (.gateListSet c) c s u (.gateList (arg c 0 2) (some {
      cycle := arg c 4 4, base := arg c 8 8 * 1000000000 + arg c 16 4,
      lead := if arg c 20 4 = 0 then 1000 else arg c 20 4, guards := (List.range 8).map (fun k => arg c (24 + 4 * k) 4), entries := es }))) ∧
  (∀ c s u, takesConfig 0x0707 4 c s u → argZero c 2 2 → destEncoded (arg c 0 2) = true →
    liveOrStaged (fun g => ahas g.gateLists (arg c 0 2)) u = true → stages 0x0707 (.gateListClear c) c s u (.gateList (arg c 0 2) none)) ∧
  (∀ c s u b r, takesConfig 0x0708 8 c s u → b = (if arg c 0 4 = 0 then 4096 else arg c 0 4) → r = (if arg c 4 2 = 0 then 1056 else arg c 4 2) →
    b % 256 = 0 → 256 ≤ b → b ≤ 65536 → 1024 ≤ r → r ≤ 1280 → argZero c 6 2 → stages 0x0708 (.creditConfig c) c s u (.credit b r)) ∧
  (∀ c s u d, takesConfig 0x0709 36 c s u → argZero c 2 2 →
    aget (nextConf u).dests (arg c 0 2) = some d → d.kind = 2 → d.endpoint = u.fab.endpoint →
    stages 0x0709 (.creditPealSet c) c s u (.creditPeal (arg c 0 2) ((List.range 8).map (fun k => arg c (4 + 4 * k) 4)))) ∧
  (∀ c s u b, takesConfig 0x070A 16 c s u →
    b = (if arg c 12 4 = 0 then (if bit (arg c 4 1) 1 = 1 then 1 else 64) else arg c 12 4) → arg c 0 4 < 524288 → arg c 4 1 ≤ 3 →
    overheadOk (arg c 5 1) = true → argZero c 6 2 → arg c 8 4 ≤ (if bit (arg c 4 1) 1 = 1 then 2000000000 else 4000000000) →
    b ≤ 16777215 → (bit (arg c 4 1) 1 = 0 → 64 ≤ b) →
    stages 0x070A (.policerConfig c) c s u
      (.policer (arg c 0 4) { flags := arg c 4 1, overhead := signed 8 (arg c 5 1), rate := arg c 8 4, burst := b })) ∧
  (∀ c s u x, takes 0x070B 8 c s u → arg c 0 1 ≤ 3 → argZero c 1 3 → (arg c 0 1 = 0 → destEncoded (arg c 4 4) = true) →
    (arg c 0 1 ≠ 0 → arg c 4 4 < nodeCount (arg c 0 1)) → nodeKnown (arg c 0 1) (arg c 4 4) u = some x →
    ∃ rest : List Byte, queries 0x070B (.schedQuery c) c s (nodeSettings (arg c 0 1) (arg c 4 4) x ++ rest)) ∧
  (∀ c s u, takes 0x070C 4 c s u → arg c 0 4 < 524288 → ∃ level : Nat, queries 0x070C (.policerQuery c) c s
    (le 4 (arg c 0 4) ++ le 1 (policerOf u.cfg (arg c 0 4)).flags ++ le 1 (unsignedOf 8 (policerOf u.cfg (arg c 0 4)).overhead) ++ zeros 2 ++
      le 4 (policerOf u.cfg (arg c 0 4)).rate ++ le 4 (policerOf u.cfg (arg c 0 4)).burst ++ le 8 level ++
      (List.range 4).flatMap (fun k => le 8 (ctr (ctrId 26 (arg c 0 4) k) u))))

/-- R302, R304, R313, R320, R331: `fabric.config` writes the mode, the endpoint and the lane masks and brings the lanes to them; the fabric
queries answer. -/
def Obligations.FabricCommandsComplete : Prop :=
  (∀ c s u, takes 0x0801 40 c s u → arg c 0 1 ≤ 2 → arg c 2 2 < 4096 → argZero c 22 2 → argZero c 38 2 → arg c 2 2 = u.fab.endpoint →
    (u.fab.mode = 0 ∨ arg c 0 1 = 0 ∨ (arg c 0 1 = u.fab.mode ∧ arg c 4 4 = u.fab.systemId)) →
    effects 0x0801 (.fabricConfig c) c s (lookReach (applyLanes u.fab.planeB (arg c 0 1 != u.fab.mode) { u with fab := { u.fab with
      mode := arg c 0 1, dual := arg c 1 1, endpoint := arg c 2 2, systemId := arg c 4 4, laneEnable := arg c 8 14, planeB := arg c 24 14 } }))) ∧
  (∀ c s u, takes 0x0801 40 c s u → arg c 0 1 ≤ 2 → arg c 2 2 < 4096 → argZero c 22 2 → argZero c 38 2 → arg c 2 2 ≠ u.fab.endpoint →
    (u.fab.mode = 0 ∨ arg c 0 1 = 0) →
    effects 0x0801 (.fabricConfig c) c s (lookReach (applyLanes u.fab.planeB (arg c 0 1 != u.fab.mode) (changeEndpoint { u with fab := { u.fab with
      mode := arg c 0 1, dual := arg c 1 1, endpoint := arg c 2 2, systemId := arg c 4 4, laneEnable := arg c 8 14, planeB := arg c 24 14 } })))) ∧
  (∀ c s u, takes 0x0802 4 c s u → arg c 0 2 < 4096 → argZero c 2 2 → ∃ rest : List Byte, rest.length = 20 ∧
    queries 0x0802 (.fabricQuery c) c s (le 4 (fabStatus u) ++ rest)) ∧
  (∀ c s u, takes 0x0803 4 c s u → arg c 0 1 < 112 → argZero c 1 3 → ∃ rest : List Byte, rest.length = 520 ∧
    queries 0x0803 (.fabricLaneQuery c) c s (le 4 (laneStatus (arg c 0 1) u) ++ le 4 (lanePeerWord (arg c 0 1) u) ++ rest))

/-- R346 to R348, R355, R356, R369, R370, R377: the ring commands complete: index blocks are placed, a ring is created DISABLED, enabled at its
start index, disabled, destroyed and queried; pools and punt queues are bound. -/
def Obligations.RingCommandsComplete : Prop :=
  (∀ c s u, takes 0x0901 24 c s u → fnExists (arg c 0 1) u = true → arg c 1 1 ≤ 2 → argZero c 2 6 → arg c 8 8 % 4096 = 0 → arg c 16 8 % 4096 = 0 →
    (∀ x ∈ avals u.host.rings, x.fn = arg c 0 1 → x.state ≠ .enabled ∧ x.state ≠ .stopped) →
    effects 0x0901 (.ringIndexConfig c) c s (updFn (arg c 0 1) (fun f => { f with
      indexValid := true, stride := (if arg c 1 1 = 0 then 8 else if arg c 1 1 = 1 then 16 else 64), hib := arg c 8 8, pib := arg c 16 8 }) u)) ∧
  (∀ c s u t, takes 0x0902 32 c s u → ringTypeOf (arg c 2 1) = some t → ringCreateBad t (heldOf 0x0902 c) u = false →
    ((t = .inject ∨ t = .table ∨ t = .command) → ∃ q, ring? (arg c 16 2 % 32768) u = some q ∧ q.typ = .completion ∧ q.fn = arg c 3 1) →
    ring? (arg c 0 2) u = none →
    effects 0x0902 (.ringCreate c) c s (publish (arg c 0 2) (setRing (arg c 0 2) { newRing t (heldOf 0x0902 c) with made := u.host.made }
      { u with host := { u.host with made := u.host.made + 1 } }))) ∧
  (∀ c s u x v, takes 0x0903 8 c s u → arg c 0 2 ≤ 32767 → argZero c 2 2 → ring? (arg c 0 2) u = some x → x.state = .disabled →
    (pciFn x.fn u).indexValid = true →
    v = updRing (arg c 0 2) (fun x => { x with
      state := .enabled, partIndex := arg c 4 4, hostIndex := arg c 4 4, fetched := [], fetchStopped := false, armed := !x.noIrq,
      unsignalled := 0, modDeadline := none }) u →
    (c.data = none → partWritten x.typ = false → effects 0x0903 (.ringEnable c) c s (publish (arg c 0 2) v)) ∧
    (∀ b, c.data = some b → partWritten x.typ = false →
      effects 0x0903 (.ringEnable c) c s (publish (arg c 0 2) (hostIndexRead (arg c 0 2) (rd b 0 4) v))) ∧
    (c.data = none → partWritten x.typ = true → effects 0x0903 (.ringEnable c) c s (drainRing (arg c 0 2) (publish (arg c 0 2) v))) ∧
    (∀ b, c.data = some b → partWritten x.typ = true → effects 0x0903 (.ringEnable c) c s
      (drainRing (arg c 0 2) (publish (arg c 0 2) (hostIndexRead (arg c 0 2) (rd b 0 4) v))))) ∧
  (∀ c s u x, takes 0x0904 4 c s u → arg c 0 2 ≤ 32767 → argZero c 2 2 → ring? (arg c 0 2) u = some x → x.state ≠ .disabled → x.begun = 0 →
    effects 0x0904 (.ringDisable c) c s (ringDisabled (arg c 0 2) u)) ∧
  (∀ c s u x, takes 0x0904 4 c s u → arg c 0 2 ≤ 32767 → argZero c 2 2 → ring? (arg c 0 2) u = some x → x.state ≠ .disabled → x.begun ≠ 0 →
    exec (.ringDisable c) s = .next (runs 0x0904 c s (.ringDisable (arg c 0 2)) []
      (updRing (arg c 0 2) (fun x => { x with disabling := true, fetched := [] }) (dropPosted (arg c 0 2) u)))) ∧
  (∀ c s u x, takes 0x0905 4 c s u → arg c 0 2 ≤ 32767 → argZero c 2 2 → ring? (arg c 0 2) u = some x → x.state = .disabled →
    (x.typ = .inject ∨ x.typ = .table ∨ x.typ = .command) →
    ∃ t, effects 0x0905 (.ringDestroy c) c s t ∧ t.host.rings = adel u.host.rings (arg c 0 2) ∧ t.cfg = u.cfg ∧ t.macs = u.macs) ∧
  (∀ c s u x, takes 0x0906 4 c s u → arg c 0 2 ≤ 32767 → argZero c 2 2 → ring? (arg c 0 2) u = some x →
    queries 0x0906 (.ringQuery c) c s (ringQueryResp (arg c 0 2) x u)) ∧
  (∀ c s u, takes 0x0906 4 c s u → arg c 0 2 ≤ 32767 → argZero c 2 2 → ring? (arg c 0 2) u = none →
    queries 0x0906 (.ringQuery c) c s (zeros 64)) ∧
  (∀ c s u x pools, takes 0x0907 12 c s u → pools = (List.range (arg c 2 1)).map (fun k => arg c (4 + 2 * k) 2) → arg c 0 2 ≤ 32767 →
    1 ≤ arg c 2 1 → arg c 2 1 ≤ 4 → argZero c 3 1 → argZero c (4 + 2 * arg c 2 1) (8 - 2 * arg c 2 1) → ring? (arg c 0 2) u = some x →
    x.typ = .receive → x.state = .disabled →
    (∀ p ∈ pools, ∃ q, ring? p u = some q ∧ q.typ = .buffer ∧ q.fn = x.fn ∧ q.state = .disabled) →
    rising ((pools.filterMap (fun p => ring? p u)).map (fun q => q.bufSize)) = true →
    (∀ g ∈ u.host.groups, g.1 ≠ arg c 0 2 → ∀ p ∈ pools, p ∉ g.2.pools) →
    effects 0x0907 (.rxGroupConfig c) c s { u with host := { u.host with groups := aset u.host.groups (arg c 0 2) { pools := pools } } }) ∧
  (∀ c s u x, takes 0x0908 8 c s u → arg c 0 2 ≤ 4095 → bit (arg c 2 2) 15 = 1 → arg c 4 1 ≠ 0 → argZero c 5 3 →
    ring? (arg c 2 2 % 32768) u = some x → x.typ = .receive →
    effects 0x0908 (.puntQueueBind c) c s
      { u with host := { u.host with binds := aset u.host.binds (arg c 0 2) { ring := arg c 2 2 % 32768, weight := arg c 4 1 } } }) ∧
  (∀ c s u, takes 0x0908 8 c s u → arg c 0 2 ≤ 4095 → bit (arg c 2 2) 15 = 0 → argZero c 5 3 →
    effects 0x0908 (.puntQueueBind c) c s { u with host := { u.host with binds := adel u.host.binds (arg c 0 2) } })

/-- R38 to R42, R45, R54, R407: the Tempo commands, on a package that is no follower, select a source, wait for their edge or second, adjust,
stage the grid and the maximum age, and report. -/
def Obligations.TempoCommandsComplete : Prop :=
  (∀ c s u, takes 0x0A01 4 c s u → arg c 0 1 < 3 → argZero c 1 3 → follower u = false →
    effects 0x0A01 (.tempoSourceSet c) c s
      (selectSource (if arg c 0 1 = 0 then .freeRun else if arg c 0 1 = 1 then .pps else .host) u)) ∧
  (∀ c s u, takes 0x0A02 8 c s u → arg c 6 2 = 0 → u.tempo.source = .pps → follower u = false →
    exec (.tempoTodSet c) s = .next (runs 0x0A02 c s (.timeOfDay (arg c 0 6)) [] u)) ∧
  (∀ c s u, takes 0x0A03 12 c s u → (signed 32 (arg c 0 4)).natAbs ≤ 200000000 → (signed 32 (arg c 4 4)).natAbs ≤ 10000 →
    bits (arg c 8 1) 7 1 = 0 → argZero c 9 3 → u.tempo.source = .host → follower u = false →
    effects 0x0A03 (.tempoAdjust c) c s (hostAdjust (signed 32 (arg c 0 4)) (signed 32 (arg c 4 4)) (bit (arg c 8 1) 0 == 1) u)) ∧
  (∀ c s u d, takes 0x0A04 12 c s u → d = signed 64 (arg c 0 8) * 1000000000 + signed 32 (arg c 8 4) → (signed 32 (arg c 8 4)).natAbs ≤ 999999999 →
    ¬ (0 < signed 64 (arg c 0 8) ∧ signed 32 (arg c 8 4) < 0) → ¬ (signed 64 (arg c 0 8) < 0 ∧ 0 < signed 32 (arg c 8 4)) →
    u.tempo.source = .host → follower u = false →
    stepResultOk (((u.tempo.nextSecond * 1000000000 : Nat) : Int) + waitingSum u + d) = true → u.commits = [] →
    exec (.tempoStep c) s = .next (runs 0x0A04 c s (.tempoStep d) [] u)) ∧
  (∀ c s u, takes 0x0A05 0 c s u → ∃ rest : List Byte,
    exec (.tempoQuery c) s = .next (completed 0x0A05 c s ((List.range 15).flatMap (fun k => le 4 (tmpWord (4 * k) u)) ++ rest) false (drawn u))) ∧
  (∀ c s u, takesConfig 0x0A06 4 c s u → 1 ≤ arg c 0 2 → arg c 0 2 ≤ 400 → argZero c 2 2 → follower u = false →
    stages 0x0A06 (.tempoGridSet c) c s u (.grid (arg c 0 2))) ∧
  (∀ c s u, takesConfig 0x0A07 4 c s u → 10 ≤ arg c 0 2 → arg c 0 2 ≤ 500 → argZero c 2 2 → follower u = false →
    stages 0x0A07 (.tempoMaxAgeSet c) c s u (.maxAge (arg c 0 2)))

/-- R59 to R62, R71, R72: `table.commit` of package scope seals every change whose staging is complete into a new outstanding commit for its target and runs until
its decision; the query reports an outstanding commit, or the outcome of one that ended. -/
def Obligations.CommitCommandsComplete : Prop :=
  (∀ c s u d, takes 0x0510 16 c s u → bit (arg c 8 4) 0 = 0 → commitMalformed (heldOf 0x0510 c) u = false → standsBy u = false → mirrors u = false →
    d = (if arg c 0 8 = 0 then earliestTarget false u else arg c 0 8) → u.tempo.lastDownbeat + 3 ≤ d → u.commits.length < 4 →
    (∀ k ∈ u.commits, k.carillon = false ∧ k.pair = false) → spaced false d u = true →
    ∃ t k, exec (.tableCommit c) s = .next (runs 0x0510 c s (.commit false u.nextPackageSeq) [] t) ∧ t.commits = u.commits ++ [k] ∧
      k.carillon = false ∧ k.seq = u.nextPackageSeq ∧ k.target = d ∧ k.phase = .preparing ∧ k.decided = false ∧
      t.staged = u.staged.map (fun x => if sealable u x then { x with sealedBy := some (false, u.nextPackageSeq) } else x) ∧ t.cfg = u.cfg) ∧
  (∀ c s u k, takes 0x0511 8 c s u → bits (arg c 4 1) 7 1 = 0 → argZero c 5 3 → findCommit (bit (arg c 4 1) 0 == 1) (arg c 0 4) u = some k →
    ∃ rest : List Byte, queries 0x0511 (.tableCommitQuery c) c s
      (le 1 (if k.phase == CommitPhase.switched then 3 else if k.decided then 2 else 1) ++ zeros 1 ++ le 2 St.ok ++ le 4 k.seq ++ le 8 k.target ++ rest)) ∧
  (∀ c s u, takes 0x0511 8 c s u → bits (arg c 4 1) 7 1 = 0 → argZero c 5 3 → findCommit (bit (arg c 4 1) 0 == 1) (arg c 0 4) u = none →
    u.outcomes = [] → queries 0x0511 (.tableCommitQuery c) c s (zeros 24))

/-- R567 to R577: the commands of Toll, once Teruo takes them. A `toll.stop` with a dump in progress waits for it and is completed by the
record that ends it (`Obligations.TimeRowsComplete`). -/
def Obligations.TollCommandsComplete : Prop :=
  (∀ c s u a b, takes 0x0D01 12 c s u → arg c 0 4 % 10 = 0 → 20 ≤ arg c 0 4 → arg c 0 4 ≤ 60000 → argZero c 8 4 →
    tollRingOf 0 (arg c 4 2) u = some a → tollRingOf 1 (arg c 6 2) u = some b → u.toll.running = false →
    effects 0x0D01 (.tollConfig c) c s
      (updFn 1 (fun f => { f with tollRing := b }) (updFn 0 (fun f => { f with tollRing := a })
        { u with toll := { u.toll with period := arg c 0 4 } }))) ∧
  (∀ c s u ids, takes 0x0D02 16 c s u → fnExists (arg c 0 1) u = true → arg c 2 2 = 0 → argZero c 1 1 → argZero c 4 4 → ids = [] →
    effectsWith 0x0D02 (.tollSelect c) c s (updFn (arg c 0 1) (fun f => { f with tollSel := ids }) u) (le 4 0)) ∧
  (∀ c s u b ids, takes 0x0D02 16 c s u → fnExists (arg c 0 1) u = true → 1 ≤ arg c 2 2 → arg c 2 2 ≤ 1024 → argZero c 1 1 → argZero c 4 4 →
    c.data = some b →
    (∀ k, k < arg c 2 2 → entryIds (fit 16 (b.drop (16 * k))) ≠ []) →
    ids = (List.range (arg c 2 2)).flatMap (fun k => entryIds (fit 16 (b.drop (16 * k)))) → ids.length ≤ 4194304 →
    effectsWith 0x0D02 (.tollSelect c) c s (updFn (arg c 0 1) (fun f => { f with tollSel := ids }) u) (le 4 ids.length)) ∧
  (∀ c s u, takes 0x0D03 4 c s u → argZero c 0 4 → u.toll.running = false →
    ∃ t, effects 0x0D03 (.tollStart c) c s t ∧ t.toll.running = true ∧ t.toll.next = (tempoNs u / periodNs u + 1) * periodNs u ∧
      t.toll.snap = u.ctrs ∧ (u.bus.enable = false → t.ctrs = u.ctrs)) ∧
  (∀ c s u, takes 0x0D04 4 c s u → argZero c 0 4 → u.toll.running = false → effects 0x0D04 (.tollStop c) c s u) ∧
  (∀ c s u, takes 0x0D04 4 c s u → argZero c 0 4 → u.toll.running = true → dumpsDone u = true →
    effects 0x0D04 (.tollStop c) c s (tollStopped u)) ∧
  (∀ c s u, takes 0x0D04 4 c s u → argZero c 0 4 → u.toll.running = true → dumpsDone u = false →
    exec (.tollStop c) s = .next (runs 0x0D04 c s .tollStop [] u)) ∧
  (∀ c s u t, takes 0x0D05 8 c s u → 1 ≤ arg c 4 2 → arg c 0 4 % 64 + arg c 4 2 ≤ 64 → argZero c 6 2 → namesCounter (arg c 0 4) = true →
    t = (if u.toll.running then u.toll.lastTempo else u.tempo.now) →
    queries 0x0D05 (.counterRead c) c s
      (le 6 (secOf t) ++ le 4 (nsOf t) ++ le 6 (secOf t) ++ le 4 (nsOf t) ++ le 1 (b2n u.toll.running) ++ zeros 3 ++
        le 8 (if u.toll.running then u.toll.last else 0) ++
        (List.range (arg c 4 2)).flatMap (fun k =>
          le 8 (if namesCounter (arg c 0 4 + k) then readCounter (arg c 0 4 + k) u else 0)))) ∧
  (∀ c s u, takes 0x0D06 0 c s u →
    queries 0x0D06 (.tollStatus c) c s (le 1 (b2n u.toll.running) ++ zeros 3 ++ le 4 u.toll.period ++ le 8 u.toll.last ++
      tollFnStatus 0 u ++ tollFnStatus 1 u))

/-- R440, R441, R522 to R533, R546, R550: the commands about power, Hum, the audit engine, the memories and the faults, once Teruo takes them.
An `audit.scan` runs until `AUDIT_SCAN_COMPLETE` (`Obligations.HumPassesComplete`). -/
def Obligations.UpkeepCommandsComplete : Prop :=
  (∀ c s u u1, takes 0x0E01 4 c s u → arg c 0 1 ≤ 4 → arg c 1 1 ≤ 16 → argZero c 2 2 → u.pwr.level ≠ 3 →
    u1 = updPwr (fun p => { p with floor := arg c 0 1, keepRank := arg c 1 1 }) u →
    effects 0x0E01 (.powerShedConfig c) c s (settleShed u1)) ∧
  (∀ c s u u1, takes 0x0E01 4 c s u → arg c 0 1 ≤ 4 → arg c 1 1 ≤ 16 → argZero c 2 2 → u.pwr.level = 3 →
    u1 = updPwr (fun p => { p with floor := arg c 0 1, keepRank := arg c 1 1 }) u →
    effects 0x0E01 (.powerShedConfig c) c s (settleShed (updPwr (fun p => { p with toSleep := sleepPlan u1 }) u1))) ∧
  (∀ c s u, takes 0x0E02 0 c s u → ∃ rest : List Byte, rest.length = 42 ∧
    queries 0x0E02 (.powerStatus c) c s
      (le 4 (pwrStatus u) ++ le 1 (unsignedOf 8 u.pwr.tempFd) ++ le 1 (unsignedOf 8 u.pwr.tempQd) ++ rest)) ∧
  (∀ c s u, takes 0x0E03 8 c s u → (arg c 0 1 = 7 ∧ 10 ≤ arg c 4 4 ∧ arg c 4 4 ≤ 3600) ∨ (arg c 0 1 = 8 ∧ 3600 ≤ arg c 4 4 ∧ arg c 4 4 ≤ 604800) →
    arg c 1 1 ≤ 1 → argZero c 2 2 →
    effects 0x0E03 (.humConfig c) c s
      (updPwr (fun p => { p with hum := p.hum.modify (arg c 0 1) (fun x => { x with enabled := arg c 1 1 == 1, period := arg c 4 4 }) }) u)) ∧
  (∀ c s u, takes 0x0E04 0 c s u → ∃ recs : List Byte, recs.length = 288 ∧
    queries 0x0E04 (.humStatus c) c s (recs ++ le 4 (mostWorn u).1 ++ le 4 (65536 * (mostWorn u).2))) ∧
  (∀ c s u x, takes 0x0E05 4 c s u → argZero c 1 3 → flashUsable u = true → (knellRecords u)[arg c 0 1]? = some x →
    queries 0x0E05 (.knellRead c) c s (le 4 x.1 ++ zeros 4 ++ x.2)) ∧
  (∀ c s u v, takes 0x0F01 32 c s u → arg c 0 1 = 2 ∨ arg c 0 1 = 3 → arg c 1 1 ≤ 1 → arg c 2 1 = 0 → arg c 3 1 ≤ 2 → argZero c 4 4 →
    arg c 8 8 % 64 = 0 → arg c 16 8 % 64 = 0 → 64 ≤ arg c 16 8 → arg c 16 8 ≤ 0x3FFFFFFFC0 →
    (auditCtx (arg c 0 1) u).running = false → outsideSpace (arg c 3 1) (arg c 8 8) (arg c 16 8) u = false → v = auditInit (arg c 1 1) →
    exec (.auditScan c) s = .next (runs 0x0F01 c s (.scan (arg c 0 1)) (scanResp 0 (auditResult (arg c 1 1) v) false)
      (updPwr (fun p => { p with scans := p.scans ++ [{ context := arg c 0 1, algo := arg c 1 1, compare := false, space := arg c 3 1,
                                                        start := arg c 8 8, length := arg c 16 8, expected := arg c 24 8, done := 0 }] })
        (setCtx (arg c 0 1) { algo := arg c 1 1, value := v, running := true } u)))) ∧
  (∀ c s u x, takes 0x0F02 4 c s u → arg c 0 1 ≤ 3 → argZero c 1 3 → x = auditCtx (arg c 0 1) u →
    queries 0x0F02 (.auditContextRead c) c s (le 1 x.algo ++ le 1 (b2n (ctxRuns (arg c 0 1) u)) ++ zeros 6 ++ le 8 x.value)) ∧
  (∀ c s u, takes 0x0F03 16 c s u → arg c 0 1 = 2 ∨ arg c 0 1 = 3 → arg c 1 1 ≤ 1 → argZero c 2 6 → (auditCtx (arg c 0 1) u).running = false →
    effects 0x0F03 (.auditContextWrite c) c s (setCtx (arg c 0 1) { algo := arg c 1 1, value := arg c 8 8, running := false } u)) ∧
  (∀ c s u, takes 0x0F04 0 c s u →
    queries 0x0F04 (.auditStatus c) c s (le 4 (audStatus u) ++ le 4 u.pwr.mismatch ++
      (List.range 4).flatMap (fun k => le 1 (auditCtx k u).algo ++ zeros 7 ++ le 8 (auditCtx k u).value))) ∧
  (∀ c s u, takes 0x0F05 0 c s u → ∃ rest : List Byte, queries 0x0F05 (.memStatus c) c s (le 4 (ddrStatus u) ++ le 4 (hbmStatus u) ++ rest)) ∧
  (∀ c s u l, takes 0x0F06 8 c s u → 1 ≤ arg c 4 2 → arg c 4 2 ≤ 4096 → argZero c 6 2 → l = retiredList u → arg c 0 4 ≤ l.length →
    ∃ items : List Byte, queries 0x0F06 (.memRetiredQuery c) c s (le 4 l.length ++ zeros 4 ++ items) ∧
      items.length = 8 * min (arg c 4 2) (l.length - arg c 0 4)) ∧
  (∀ c s u, takes 0x0F07 0 c s u →
    queries 0x0F07 (.diagFaultQuery c) c s (le 4 u.pwr.faultCount ++ zeros 4 ++ u.pwr.faults.flatMap faultBytes))

/-- R467, R469 to R482: the commands of the carillon, the management bus and the protection pairs, once Teruo takes them. What changes a
stored setting runs until its record is committed (`FLASH_WRITE_DONE`), an ordered switch until the member is ACTIVE. -/
def Obligations.PeerCommandsComplete : Prop :=
  (∀ c s u, takes 0x0B01 8 c s u → arg c 0 1 ≤ 1 → argZero c 2 2 → arg c 4 4 ≠ 0 → arg c 4 4 ≠ 0xFFFFFFFF →
    (∀ k ∈ u.commits, k.carillon = false) → u.fw.dist = none → u.fw.rxTransfer = none → flashUsable u = true → journalFits 8 u = true →
    exec (.carillonConfig c) s = .next (runs 0x0B01 c s (.setting 1 (some (argBytes c 0 8))) [] u)) ∧
  (∀ c s u, takes 0x0B02 0 c s u →
    queries 0x0B02 (.carillonStatus c) c s (le 1 (roleCode u.crl.role) ++ le 1 (ownSrc u) ++ le 2 u.crl.term ++ le 1 u.crl.members.length ++
      le 1 (b2n u.crl.ring + b2n (u.crl.role == .excluded) * 2) ++ zeros 2 ++ le 8 u.crl.headSerial ++ memberRecords u)) ∧
  (∀ c s u, takes 0x0B03 4 c s u → argZero c 0 4 → u.prot.state ≠ 6 →
    effects 0x0B03 (.carillonPark c) c s { u with crl := { u.crl with parkAt := some (u.elapsed + 100000000) } }) ∧
  (∀ c s u, takes 0x0B04 8 c s u → arg c 0 1 ≤ 1 → 1 ≤ arg c 1 1 → arg c 1 1 ≤ 0x37 → argZero c 3 1 → argZero c 6 2 →
    flashUsable u = true → journalFits 8 u = true →
    exec (.mgmtBusConfig c) s = .next (runs 0x0B04 c s (.setting 2 (some (argBytes c 0 8))) [] u)) ∧
  (∀ c s u u1, takes 0x0B05 32 c s u → pairSetBad (heldOf 0x0B05 c) = false → u.prot.state = 0 → isMember u = true →
    u1 = updProt (fun p => { p with
      pair := arg c 0 1, flags := arg c 1 1, wtr := if arg c 2 2 = 0 then 5 else arg c 2 2, peerSerial := arg c 8 8, portMask := arg c 16 10,
      state := 1, since := u.elapsed, inSync := false, lockout := false, peerAt := none, peerBeat := [], wtrAt := none, switching := none,
      resync := false, next := none }) u →
    effects 0x0B05 (.protectPairSet c) c s (if forwarding u1 then u1 else enterHold u1)) ∧
  (∀ c s u, takes 0x0B06 4 c s u → arg c 0 1 ≤ 3 → argZero c 1 3 → u.prot.state = 6 → u.prot.pair = arg c 0 1 →
    effects 0x0B06 (.protectPairDelete c) c s (releaseMirror { u with prot := State.resetProt })) ∧
  (∀ c s u, takes 0x0B07 4 c s u → arg c 0 1 ≤ 3 → arg c 1 1 = 3 → argZero c 2 2 → u.prot.state ≠ 0 → u.prot.pair = arg c 0 1 →
    effects 0x0B07 (.protectSwitch c) c s (updProt (fun p => { p with lockout := false }) u)) ∧
  (∀ c s u, takes 0x0B07 4 c s u → arg c 0 1 ≤ 3 → arg c 1 1 = 0 → argZero c 2 2 → u.prot.state = 4 → u.prot.pair = arg c 0 1 →
    standsBy u = true → u.prot.inSync = true → lockedOut u = false →
    exec (.protectSwitch c) s = .next (runs 0x0B07 c s (.switchOver 0) [] (triggerSwitch 2 u))) ∧
  (∀ c s u, takes 0x0B08 4 c s u → arg c 0 1 ≤ 3 → argZero c 1 3 → u.prot.state ≠ 0 → u.prot.pair = arg c 0 1 →
    ∃ rest : List Byte, queries 0x0B08 (.protectQuery c) c s (beatRecord (fit 44 u.prot.ownBeat) ++ beatRecord (fit 44 u.prot.peerBeat) ++ le 4 (wtrLeft u) ++
      le 4 u.prot.mirrorQueue.length ++ le 1 u.prot.lastCause ++ zeros 3 ++ rest) ∧ rest.length = 12)

/-- R490, R498 to R509, R519, R520: the commands of firmware, settings and keys, once Teruo takes them. A download, a verification, a
distribution, a carillon activation and a changed setting run until the row that ends them. -/
def Obligations.FirmwareCommandsComplete : Prop :=
  (∀ c s u, takes 0x0C01 24 c s u → downloadBad (heldOf 0x0C01 c) u = false → stagingBusy u = false → bit (arg c 8 1) 1 = 1 → arg c 0 4 = 0 →
    flashUsable u = true → downloadData (heldOf 0x0C01 c) ≠ none →
    exec (.fwDownload c) s = .next (runs 0x0C01 c s .flash (le 4 0) (updFw (fun f => { f with rxTransfer := none }) (beginStaging (arg c 12 4) u)))) ∧
  (∀ c s u, takes 0x0C01 24 c s u → downloadBad (heldOf 0x0C01 c) u = false → stagingBusy u = false → bit (arg c 8 1) 1 = 0 →
    arg c 0 4 = u.fw.contig → flashUsable u = true → downloadData (heldOf 0x0C01 c) ≠ none →
    exec (.fwDownload c) s = .next (runs 0x0C01 c s .flash (le 4 0) u)) ∧
  (∀ c s u, takes 0x0C02 4 c s u → argZero c 0 4 → stagingBusy u = false → uStage u = 2 ∨ uStage u = 3 → flashUsable u = true →
    exec (.fwVerify c) s = .next (runs 0x0C02 c s .verify [] (beginVerify u))) ∧
  (∀ c s u d, takes 0x0C03 4 c s u → bits (arg c 1 1) 7 2 = 0 → argZero c 2 2 → bit (arg c 1 1) 0 = 1 → stagingBusy u = false →
    u.fw.dist = none → uStage u = 3 →
    d = { transfer := u.crl.msgId, positions := arg c 0 1, neighbour := some (bit (arg c 1 1) 1), contig := [], results := [], sent := 0 } →
    exec (.fwDistribute c) s = .next (runs 0x0C03 c s .distribute [] (distributeFrom 0 (updFw (fun f => { f with dist := some d }) u)))) ∧
  (∀ c s u, takes 0x0C04 4 c s u → arg c 0 1 = 0 → bits (arg c 1 1) 7 1 = 0 → arg c 3 1 ≤ 8 → activateRefusal u = none → u.mgmt.rom = false →
    effects 0x0C04 (.fwActivate c) c s (activatePackage (bit (arg c 1 1) 0 == 1) u)) ∧
  (∀ c s u, takes 0x0C05 4 c s u → arg c 0 1 = 0 → argZero c 2 2 → uState u = Upd.probation → uMigrated u = true →
    effects 0x0C05 (.fwConfirm c) c s (finishConfirm (moveRec Upd.confirmed (fun r => setRec 26 1 (min 64 (rd r 24 1)) r) u))) ∧
  (∀ c s u, takes 0x0C06 4 c s u → argZero c 0 4 → uState u = Upd.probation →
    effects 0x0C06 (.fwRevert c) c s (beginRestart 3 (toReverting 1 u))) ∧
  (∀ c s u, takes 0x0C06 4 c s u → argZero c 0 4 → uState u = Upd.copyActive ∨ uState u = Upd.armed →
    effects 0x0C06 (.fwRevert c) c s (startCopy 1 0 false (toReverting 1 u))) ∧
  (∀ c s u, takes 0x0C07 0 c s u → ∃ rest : List Byte,
    queries 0x0C07 (.fwStatus c) c s (updRec u ++ slotRecord 0 u ++ slotRecord 1 u ++ slotRecord 2 u ++ le 1 u.fw.fuseCounter ++
      le 1 u.fw.revoked ++ rest)) ∧
  (∀ c s u v, takes 0x0C08 4 c s u → argZero c 2 2 → settingValue (arg c 0 2) u = some v →
    queries 0x0C08 (.settingsRead c) c s (le 2 v.length ++ zeros 2 ++ le 4 (liveGen u) ++ v)) ∧
  (∀ c s u, takes 0x0C09 4 c s u → arg c 0 2 = 3 ∨ arg c 0 2 = 5 ∨ (0x100 ≤ arg c 0 2 ∧ arg c 0 2 ≤ 0x13F) → 4 + arg c 2 2 ≤ c.paramLen →
    settingBad (arg c 0 2) (arg c 2 2) (arg c 4 4) = false → flashUsable u = true → journalFits (arg c 2 2) u = true →
    exec (.settingsWrite c) s = .next (runs 0x0C09 c s (.setting (arg c 0 2) (some (argBytes c 4 (arg c 2 2)))) [] u)) ∧
  (∀ c s u, takes 0x0C0A 8 c s u → arg c 0 1 ≤ 2 → argZero c 1 3 → arg c 4 4 = 0x5245564B →
    (∀ k, k = 0 ∨ (k = 2 ∧ uStage u = 3) → headerChecks (slotHeader k u) = true → rd (slotHeader k u) 6 1 ≠ arg c 0 1) →
    (∃ j, j < 3 ∧ j ≠ arg c 0 1 ∧ bit u.fw.revoked j = 0) →
    effects 0x0C0A (.keyRevoke c) c s (raiseEvent Ev.keyRevoked (arg c 0 1) 0 0
      { u with fw := { u.fw with revoked := u.fw.revoked ||| 2 ^ arg c 0 1 } })) ∧
  (∀ c s u, takes 0x0C0B 64 c s u → ∃ rest : List Byte,
    queries 0x0C0B (.attestQuote c) c s (le 8 u.glb.serial ++ argBytes c 0 64 ++ le 6 (secOf u.tempo.now) ++ le 4 (nsOf u.tempo.now) ++
      le 1 u.fw.fuseCounter ++ le 1 u.fw.revoked ++ le 1 (uState u) ++ zeros 3 ++ rest))

/-- R338 to R375: the descriptors of the inject and receive rings and the rows of the host interface carry out their own effect: a frame
enters its inject path, a posted buffer is fetched, a doorbell is read, held completions and moderated interrupts go out, and a packet
for the host crosses to FD and is delivered. -/
def Obligations.HostRowsComplete : Prop :=
  (∀ (d : Desc) s x n b credits, ring? d.ring s = some x → x.typ = .inject → mayBegin x s = true → ringBlocked d.ring s = false →
    begunTotal s < 2048 → injectBad 0 d = false → injectLen d = .inl n → n ≤ 15996 → injectTurn d.ring n s = some credits → d.data = some b →
    exec (.injectPipeline d) s =
      .next (pipelineFrame d (injectFrame n b) (bump (hifCtr 0x130) n { s with host := { s.host with injectCredits := credits } }))) ∧
  (∀ (d : Desc) s x n b m y credits, ring? d.ring s = some x → x.typ = .inject → mayBegin x s = true → ringBlocked d.ring s = false →
    begunTotal s < 2048 → injectBad 1 d = false → injectLen d = .inl n → d.data = some b → ahas s.cfg.leaves (rd d.bytes 20 4) = true →
    leafMac (rd d.bytes 20 4) s = some m → mac? m s = some y → n ≤ y.cfg.maxFrame - 4 →
    injectTurn d.ring n s = some credits →
    exec (.injectDirect d) s =
      .next (directFrame d (injectFrame n b) (bump (hifCtr 0x130) n { s with host := { s.host with injectCredits := credits } }))) ∧
  (∀ (d : Desc) s x, ring? d.ring s = some x → x.typ = .buffer → x.state = .enabled → (pciFn x.fn s).busMaster = true → 0 < fetchRoom x →
    exec (.bufferPost d) s = .next (updRing d.ring (fun x => { x with fetched := x.fetched ++ [fit 64 d.bytes] }) s)) ∧
  (∀ fn r h s x, ring? r s = some x → x.fn = fn → x.state = .enabled → (pciFn fn s).busMaster = true → partWritten x.typ = false →
    exec (.newWork fn r (some h)) s = .next (hostIndexRead r h (updRing r (fun x => { x with fetchStopped := false }) s))) ∧
  (∀ fn r h s x, ring? r s = some x → x.fn = fn → x.state = .enabled → (pciFn fn s).busMaster = true → partWritten x.typ = true →
    exec (.newWork fn r (some h)) s = .next (drainRing r (rearm r (hostIndexRead r h s)))) ∧
  (∀ fn r host s x, ring? r s = some x → x.fn = fn → x.state = .enabled → partWritten x.typ = false → x.begun = 0 →
    exec (.invalidate fn r host) s =
      .next (invalidated r 1 (updRing r (fun x => { x with fetched := [], fetchStopped := true }) (dropPosted r s)))) ∧
  (∀ fn off size value s k, doorbellCause fn off size value s = some k →
    ∃ t, exec (.doorbellDiscard fn off size value) s = .next t ∧ t.host.error = s.host.error ||| 2 ^ k ∧
      t.host.errorRing = fn * 2147483648 + off / 32 % 32768 ∧ t.host.rings = s.host.rings ∧ t.hostMem = s.hostMem) ∧
  (∀ r first ds s x, ring? r s = some x → x.state = .enabled → partWritten x.typ = false → x.fetchStopped = false →
    (pciFn x.fn s).busMaster = true → cqStalled x s = false → first = (x.partIndex + x.begun + x.fetched.length) % 4294967296 →
    exec (.descriptorFetch r first ds) s =
      .next (updRing r (fun x => { x with fetched := x.fetched ++ (ds.take (fetchRoom x)).map (fit 64) }) s)) ∧
  (∀ r h s x, ring? r s = some x → x.state = .enabled → partWritten x.typ = true → (pciFn x.fn s).busMaster = true →
    exec (.hostIndexPoll [(r, some h)]) s = .next (drainRing r (hostIndexRead r h s))) ∧
  (∀ r d s, exec (.dmaReadError r .ringMemory d) s = .next (stopRing r 2 (tally (hifCtr 0x108) s))) ∧
  (∀ r s x, ring? r s = some x → (pciFn x.fn s).busMaster = true →
    exec (.dmaTimeout r) s = .next (stopRing r 3 (tally (hifCtr 0x110) s))) ∧
  (∀ r s, exec (.completionHeldFlush r) s = .next (drainRing r s)) ∧
  (∀ r s x u, ring? r s = some x → x.modDeadline = some u → x.armed = true → 0 < x.unsignalled →
    exec (.interruptModeration r) s = .next (signalRing r (advanceTo u s))) ∧
  (∀ leaf g p rest s, s.fwd.injectPath = [(g, p :: rest)] → p.direct = true → p.leaf = leaf → leafTakes leaf s = true →
    exec (.directInjectEnqueue leaf) s =
      .next (toQd (.toLeaf leaf p) { s with fwd := { s.fwd with injectPath := aset s.fwd.injectPath g rest } })) ∧
  (∀ s x l, landed s = some (x, l) →
    exec .puntDelivery s = .next (deliverPunt l { s with bridge := { s.bridge with atFd := s.bridge.atFd.erase x } })) ∧
  (∀ s s1 r place pool fallback, landed s = none → (∀ x ∈ readyQueues s, x.pool.isSome = true) →
    drrPick (readyQueues s) s = some (r, s1) → r.pool = some (place, pool, fallback) →
    exec .puntDelivery s = .next (sendPunt r place pool fallback s1))

/-- R9 to R11, R42, R402, R423, R573, R581 to R591: the accesses to BAR0 of a function that it serves. The value that a read returns is the
word that the part sends (`Out.readData`). -/
def Obligations.RegisterRowsComplete : Prop :=
  (∀ fn s, fnExists fn s = true → barServed s = true →
    (∀ value : Word, value.toNat % 65536 = 1024 ∨ value.toNat % 65536 = 4096 ∨ value.toNat % 65536 = 16384 →
      exec (.ddrRhThresholdWrite fn value) s =
        .next (captureWrite fn 0x10004 value.toNat { s with mem := { s.mem with rhThreshold := value.toNat % 65536 } })) ∧
    (∀ value : Word, value.toNat % 64 &&& (63 - s.glb.intEnable % 64) &&& s.glb.intStatus = 0 →
      exec (.glbIntEnableWrite fn value) s =
        .next (captureWrite fn 0x24 value.toNat { s with glb := { s.glb with intEnable := value.toNat % 64 } })) ∧
    (∀ value : Word, value.toNat % 64 &&& (63 - s.glb.intEnable % 64) &&& s.glb.intStatus ≠ 0 →
      exec (.glbIntEnableWrite fn value) s =
        .next (sendMsix (bit s.glb.intVector 31) (s.glb.intVector % 2048)
          (captureWrite fn 0x24 value.toNat { s with glb := { s.glb with intEnable := value.toNat % 64 } }))) ∧
    (∀ ones sets : Word, exec (.w1cClear fn 0x3004 ones sets) s =
      .next { s with host := { s.host with error := clearBits s.host.error ones.toNat (sets.toNat % 32) } }) ∧
    (∀ ones sets : Word, exec (.w1cClear fn 0x180C ones sets) s =
      .next { s with mgmt := { s.mgmt with mbxError := clearBits s.mgmt.mbxError ones.toNat (sets.toNat % 4) } }) ∧
    (∀ off id counted, counterAt off = some id →
      ∃ t, exec (.counterClearingRead fn off counted) s = .next (emit (.readData (readCounter id s % 4294967296)) t) ∧
        agetD t.glb.hiCopy (off + 4) 0 = readCounter id s / 4294967296 ∧
        (s.toll.running = false → ctr id t = counted) ∧ (s.toll.running = true → t.toll = s.toll)) ∧
    (∀ off, readableAt fn off = true → counterAt off = none → off ≠ 0x6008 → groupAt off = none →
      exec (.groupLatchRead fn off) s = .next (emit (.readData (readWord off s)) s)) ∧
    (∀ base n, readableAt fn base = true → counterAt base = none → base ≠ 0x6008 → base ≠ 0x600C → groupAt base = some (base, n) →
      exec (.groupLatchRead fn base) s = .next (emit (.readData (plainWord base s)) (latchGroupAt base n s))) ∧
    (namesCounter s.toll.sel = true →
      exec (.cntValRead fn) s = .next (emit (.readData (readCounter s.toll.sel s % 4294967296))
        { s with toll := { s.toll with val := readCounter s.toll.sel s, noCounter := false } })) ∧
    (∀ (off : Nat) (value : Word) t, readableAt fn off = true → storeReg off value.toNat s = some t →
      exec (.registerWrite fn off value) s = .next (captureWrite fn off value.toNat t)) ∧
    (∀ off, exec (.bar0BadAccess fn off true) s = .next (recordAccess 1 fn off true s)) ∧
    (∀ off, exec (.bar0BadAccess fn off false) s = .next (emit (.readData 0xFFFFFFFF) (recordAccess 1 fn off false s))) ∧
    (∀ off, unassigned fn off = true → exec (.unmappedAccess fn off true) s = .next (recordAccess 2 fn off true s)) ∧
    (∀ off, unassigned fn off = true → exec (.unmappedAccess fn off false) s = .next (emit (.readData 0) (recordAccess 2 fn off false s))) ∧
    (∀ value : Word, value.toNat / 65536 = 0x494A → 9 < value.toNat % 16 →
      exec (.dbgInject fn value) s = .next (updGlb (fun g => { g with inject := none, injectStatus := g.injectStatus / 2 * 2 }) s)) ∧
    (∀ value : Word, value.toNat / 65536 = 0x494A → value.toNat % 16 ≤ 9 →
      exec (.dbgInject fn value) s = .next (updGlb (fun g => { g with
        inject := some (value.toNat % 16, bit value.toNat 8, bit value.toNat 15 == 1),
        injectStatus := 1 + value.toNat % 16 * 256 + bit value.toNat 8 * 4096 }) s))) ∧
  (∀ fn data s h spec u resp t, fn ≤ 1 → fnExists fn s = true → barServed s = true → s.mgmt.mbx = .idle ∨ s.mgmt.mbx = .done →
    h = parseBlock (2 + fn) 0 0 (16 + rd (windowBytes s) 2 2) data (windowBytes s) → 16 + h.paramLen ≤ 1024 →
    specOf h.op = some spec → spec.kind = .query → headerBad spec.minLen h = false → h.target = 0xFF →
    canAccept s = true → s.mgmt.rom = false → tagInUse h s = false →
    u = { s with mgmt := { s.mgmt with mbx := .running, mbxFn := fn } } → spec.body h u = .done St.ok resp t →
    exec (.mbxSubmit fn data) s = .next (finish h 0 St.ok resp false 0 0 t)) ∧
  (∀ fn s r, fnExists fn s = true → barServed s = true → s.mgmt.mbx = .running → s.mgmt.restarting = false → s.mgmt.ready = true →
    s.mgmt.running = [r] → r.cmd.source = 2 + s.mgmt.mbxFn →
    exec (.mbxAbort fn) s = .next (endEarly St.aborted r s))

/-- R342, R467, R468, R492, R540 to R543, R588, R601, R606: resets, starts, parking and management restarts carry out their effect. -/
def Obligations.ResetRowsComplete : Prop :=
  (∀ straps s, ∃ t, exec (.powerOnReset straps) s = .next t ∧ t.mgmt.ready = false ∧ t.mgmt.journal = [] ∧ t.pending = s.pending ∧
    t.host.rings = [] ∧ t.cfg = State.reset.cfg ∧ t.glb.strap = straps % 8192 ∧ t.fw.flash = s.fw.flash ∧ t.fw.revoked = s.fw.revoked) ∧
  (∀ fn (value : Word) s, fnExists fn s = true → barServed s = true → value.toNat / 65536 = 0x5752 → bit value.toNat 0 = 1 →
    exec (.warmReset fn value) s = .next (warmReset s)) ∧
  (∀ fn s, fnExists fn s = true → ∃ t, exec (.functionReset fn) s = .next t ∧ (∀ r x, (r, x) ∈ t.host.rings → x.fn ≠ fn) ∧
    (∀ r x, (r, x) ∈ s.host.rings → (∀ y, (r, y) ∈ s.host.rings → y.fn ≠ fn) → (r, x) ∈ t.host.rings) ∧ t.hostMem = s.hostMem ∧ t.cfg = s.cfg) ∧
  (∀ fn hosts s, fnExists fn s = true →
    exec (.busMasterEnable fn false hosts) s = .next (updFn fn (fun f => { f with busMaster := false }) s)) ∧
  (∀ fn hosts s, fnExists fn s = true → (pciFn fn s).busMaster = false →
    exec (.busMasterEnable fn true hosts) s = .next (resumeFn fn hosts s)) ∧
  (∀ fn s, fnExists fn s = true →
    exec (.perst fn true) s = .next (linkDown fn (updFn fn (fun f => { f with perstLow := true }) s))) ∧
  (∀ fn s, fnExists fn s = true → awake s = true → s.pwr.level < 5 → (pciFn fn s).linkUp = false →
    exec (.perst fn false) s = .next (trainLink fn (updFn fn (fun f => { f with perstLow := false }) s))) ∧
  (∀ s, awake s = true → exec (.railFault .core) s = .next (settleShed { s with pwr := { s.pwr with railLow := true, railOkSince := none } })) ∧
  (∀ s, awake s = true → s.pwr.powerFail = false → exec (.railFault .other) s = .next (powerFails s)) ∧
  (∀ s, awake s = true → ∃ t, exec (.railFault .management) s = .next t ∧ t.pwr.dead = true ∧ t.mgmt.ready = false ∧ t.fw.flash = s.fw.flash) ∧
  (∀ s u, s.crl.parkAt = some u → awake s = true →
    ∃ t, exec .parkEntry s = .next t ∧ t.crl.parked = true ∧ t.mgmt.ready = false ∧ t.cfg = State.reset.cfg ∧ t.bus.nodeBase = busNode s) ∧
  (∀ frame s, s.crl.parked = true → s.pwr.dead = false → wakes frame s = true →
    exec (.wake frame) s = .next (powerOn s.glb.strap false s)) ∧
  (∀ ddr s, startDue s = true → (∀ d ∈ s.mem.ddr, 2 ≤ d.state) → exec (.startReady ddr) s = .next (startTeruo s)) ∧
  (∀ ddr s, startDue s = true → bit s.glb.strap 12 = 0 → (∃ d ∈ s.mem.ddr, d.state < 2) →
    exec (.startReady ddr) s = .next (startTeruo (trainDdr ddr s))) ∧
  (∀ s, exec .pwrFailNRise s = .next { s with pwr := { s.pwr with waitFail := false } }) ∧
  (∀ s d, s.mgmt.rom = false → s.crl.parked = false → s.pwr.level < 5 → s.mgmt.ready = true → s.mgmt.restartDue = some d →
    exec (.managementRestart 1) s = .next (beginRestart 1 s)) ∧
  (∀ s, s.mgmt.rom = false → s.crl.parked = false → s.pwr.level < 5 → s.mgmt.ready = true →
    exec .watchdogExpiry s = .next (beginRestart 0 (advanceTo (s.mgmt.watchdogAt + 1000000000) s))) ∧
  (∀ s, s.mgmt.restarting = true → s.mgmt.rom = false → (teruoRuns s).1 = false → s.elapsed ≤ s.mgmt.restartAt + 3000000000 →
    exec .managementRestartEnd s = .next (restartOver (teruoRuns s).2)) ∧
  (∀ s, s.mgmt.restarting = true → s.mgmt.rom = false → (teruoRuns s).1 = false → s.mgmt.restartAt + 3000000000 < s.elapsed →
    exec .managementRestartEnd s =
      .next (restartOver (updFw (fun f => { f with failedStarts := s.fw.failedStarts + 1 }) (teruoRuns s).2))) ∧
  (∀ s, exec .clockLockLoss s = .next (fatalReport (unstatedAt 34 s % 65536) (drawn s)))

/-- R544 to R549, R601: the rows of power and shedding carry out their effect, each sensor sample (`SENSOR_SAMPLE`) among them. -/
def Obligations.PowerRowsComplete : Prop :=
  (∀ s, awake s = true → s.pwr.level < 5 →
    ∃ t, exec .pwrFailNAccepted s = .next t ∧ t.mgmt.ready = false ∧ t.mgmt.held = [] ∧ t.host.pf0.linkUp = false ∧
      t.host.pf1.linkUp = false ∧ t.crl.enable = false ∧ t.bus.enable = false ∧
      (halted s = true → t.pwr.powerFail = true ∧ t.pwr.level = 5)) ∧
  (∀ s, awake s = true → s.pwr.level < 5 → s.pwr.thermalTrip = false →
    ∃ t, exec .thermalTrip s = .next (emit (.pin .thermTripN false) t) ∧ t.mgmt.ready = false ∧ t.host.pf0.linkUp = false ∧
      (halted s = true → t.pwr.thermalTrip = true ∧ t.pwr.level = 5)) ∧
  (∀ board s u, awake s = true → s.pwr.level < 5 → u = { s with pwr := { s.pwr with board := board % 4 } } → s.pwr.level < highestAsk u.pwr →
    exec (.shedRequestChange board) s = .next (raiseLevel (highestAsk u.pwr) u)) ∧
  (∀ board s u, awake s = true → s.pwr.level < 5 → u = { s with pwr := { s.pwr with board := board % 4 } } → highestAsk u.pwr < s.pwr.level →
    exec (.shedRequestChange board) s = .next { u with pwr := { u.pwr with belowSince := some (s.pwr.belowSince.getD s.elapsed) } }) ∧
  (∀ s b n, s.pwr.belowSince = some b → n = s.pwr.level → 1 ≤ n → n < 5 → highestAsk s.pwr < n → awake s = true →
    exec .shedLevelDecay s =
      .next (settleShed (levelChanged n (exitLevel n (updPwr (fun p => { p with belowSince := none }) (advanceTo (b + 1000000000) s)))))) ∧
  (∀ s k rest, halted s = false → s.pwr.toSleep = k :: rest →
    exec .s3DormantStep s =
      .next (sleepItem k (updPwr (fun p => { p with toSleep := rest, asleep := p.asleep ++ [k] }) (tickBy 1000000 s)))) ∧
  (∀ s k rest, halted s = false → s.pwr.toSleep = [] → s.pwr.toWake = k :: rest →
    exec .s3DormantStep s = .next (wakeItem k (updPwr (fun p => { p with toWake := rest }) (tickBy 1000000 s)))) ∧
  (∀ dies hbm rail s, awake s = true → s.pwr.level < 5 →
    ∃ t, exec (.sensorSample dies hbm rail) s = .next (settleShed t) ∧ t.pwr.rail = rail ∧ t.pwr.level = s.pwr.level ∧
      t.pwr.tempFd = hottest (dies.take 8) s.pwr.tempFd ∧ t.pwr.tempQd = hottest ((dies.drop 8).take 8) s.pwr.tempQd ∧
      t.mem.temps = (List.range 4).map (fun k => hbm.getD k (s.mem.temps.getD k 0)) ∧
      t.pwr.dieAsk = dieLevel (max t.pwr.tempFd t.pwr.tempQd) s.pwr.dieAsk ∧ t.pwr.hbmAsk = hbmLevel t.mem.temps s.pwr.hbmAsk) ∧
  (∀ dies hbm rail s, awake s = true → 5 ≤ s.pwr.level →
    ∃ t, exec (.sensorSample dies hbm rail) s = .next t ∧ t.pwr.rail = rail ∧ t.pwr.tempFd = hottest (dies.take 8) s.pwr.tempFd ∧
      t.pwr.tempQd = hottest ((dies.drop 8).take 8) s.pwr.tempQd ∧ t.pwr.level = s.pwr.level) ∧
  (∀ s, s.mgmt.ready = true → s.mgmt.rom = false → s.mgmt.restarting = false → flashUsable s = true → knellSectorDue s = true →
    exec .knellSectorErase s = .next (flashErase (knellBase (knellNext s)) 65536 s))

/-- R36 to R46, R75, R114, R143, R163, R164, R221, R224, R282, R285, R389, R402, R560 to R571, R604: the rows of time carry out their
effect: what is due at an instant of Tempo, or when a time has passed. -/
def Obligations.TimeRowsComplete : Prop :=
  (∀ arrival s, s.tempo.source ≠ .pps →
    exec (.ppsInEdge arrival) s = .next { s with tempo := { s.tempo with ppsTempo := arrival * tuPerNs, lastEdge := some s.elapsed } }) ∧
  (∀ arrival s, s.tempo.source = .pps → s.mgmt.restarting = true →
    exec (.ppsInEdge arrival) s = .next { s with tempo := { s.tempo with
      ppsTempo := arrival * tuPerNs, lastEdge := some s.elapsed, lastInput := s.elapsed, ppsOffset := edgeOffset arrival s } }) ∧
  (∀ arrival s u, s.tempo.source = .pps → s.mgmt.restarting = false → u = todEdge arrival { s with tempo := { s.tempo with
      ppsTempo := arrival * tuPerNs, lastEdge := some s.elapsed, lastInput := s.elapsed, ppsOffset := edgeOffset arrival s } } →
    exec (.ppsInEdge arrival) s = .next (edgeMode u.tempo.ppsOffset (arrival - s.tempo.ppsTempo / tuPerNs)
      (if u.tempo.mode == .acquiring || u.tempo.mode == .locked then servoCorrect u.tempo.ppsOffset u else u))) ∧
  (∀ s, s.tempo.source = .pps → s.tempo.mode = .acquiring ∨ s.tempo.mode = .locked → s.mgmt.restarting = false →
    exec .ppsLoss s = .next (holdover (advanceTo (quietSince s + 1500000000) s))) ∧
  (∀ s, s.tempo.source = .host → s.tempo.mode = .acquiring ∨ s.tempo.mode = .locked → s.mgmt.restarting = false →
    exec .hostAdjustSilence s = .next (holdover (advanceTo (quietSince s + 10000000000) s))) ∧
  (∀ s u, s.tempo.nextSecond ≤ s.tempo.lastSecond → u = advanceTempo (tempoAt s.tempo.nextSecond 0) s →
    exec .tempoSecondBoundary s = .next (applySteps (journalFlows (openSecond s.tempo.nextSecond u)))) ∧
  (∀ s u, s.pwr.ppsOutUntil = some u →
    exec .ppsOutEnd s = .next (emit (.pin .ppsOut false) { advanceTo u s with pwr := { s.pwr with ppsOutUntil := none } })) ∧
  (∀ mac s l, (gateRun mac s).list = some l →
    exec (.gateEntryBoundary mac) s = .next (settleMac mac (advanceTempo (s.tempo.now + (gatesAt (gateRun mac s) s.tempo.now).2) s))) ∧
  (∀ mac s u l, (gateRun mac s).pending = some (u, l) →
    ∃ t g, exec (.gateListStart mac) s = .next (raiseEvent Ev.gateListStarted mac (u % 1000000000) (u / 1000000000)
        { t with sched := { t.sched with gates := aset t.sched.gates mac g } }) ∧
      t = settleMac mac (advanceTempo (u * tuPerNs) s) ∧ g.list = l ∧ g.startedAt = u ∧ g.pending = none) ∧
  (∀ s, s.crl.parked = false → exec .downbeat s = .next (syncAtDownbeat (downbeatNow s))) ∧
  (∀ s, s.fwd.muffled ≠ 0 →
    exec .muffleEnd s = .next (raiseMax (ctrId 12 0 1) (s.elapsed - s.fwd.muffledAt) { s with fwd := { s.fwd with muffled := 0 } })) ∧
  (∀ s c u, s.commits.find? (fun c => c.phase == .preparing) = some c → s.mgmt.restarting = false → u = advanceTo c.prepEnd s →
    u.tempo.lastDownbeat + 2 < c.target →
    exec .preparationDone s = .next (updCommit c.carillon c.seq (fun c => { c with phase := .prepared }) u)) ∧
  (∀ s n at' u v w, s.toll.running = true → n = s.toll.next / periodNs s → at' = s.toll.next * tuPerNs → u = advanceTempo at' s →
    v = { u with toll := { u.toll with
      snap := u.ctrs, last := n, lastTempo := at', next := max (s.toll.next + periodNs s) s.toll.resumeAt } } →
    w = dumpAt 1 n at' (dumpAt 0 n at' v) →
    exec .tollInstant s = .next { w with toll := { w.toll with flagged := [], stepNs := 0, stepped := false } }) ∧
  (∀ fn s, tollStopping (writeDump ((pciFn fn s).tollPending.length + 1) fn s) = false →
    exec (.tollDumpWrite fn) s = .next (writeDump ((pciFn fn s).tollPending.length + 1) fn s)) ∧
  (∀ table key s f u, findFlow table key s = some f → f.lock = some u →
    exec (.flowLockLapse table key) s = .next (tally (ctrId 18 table 4) (writeFlow f lapseCtx (advanceTo (u + 10000000) s)))) ∧
  (∀ table s ft, flowTable table s = some ft →
    exec (.flowAging table) s = .next (((flowsOf table s).filter (idle ft s)).foldl (fun s f => retireFlow 2 f s) s)) ∧
  (∀ source origin tag s r, namedRunning source origin tag s = some r → s.mgmt.restarting = false → s.mgmt.ready = true →
    exec (.commandTimeout source origin tag) s = .next (endEarly St.timedOut r (advanceTo r.deadline s)))

/-- R45, R60 to R67, R458, R472: a commit message of the current TERM that reaches this package acts on the commit that it names. The
message `m` is the one that the frame delivers here, in the state `u` that its reception leaves (R448, R449). -/
def Obligations.CommitMessagesComplete : Prop :=
  (∀ port msg s m u, crlReceive port 0x10 msg s = (some m, u) → cmTerm m = u.crl.term → u.mgmt.restarting = false →
    findCommit true (cmSeq m) u = none → m.dst = 0xFF → u.crl.role = .follower → (nextConf u).grid = cmGrid m → (nextConf u).maxAge = cmAge m →
    exec (.prepare port msg) s = .next (addCommit { newCommit true (cmSeq m) (cmDownbeat m) with
      head := false, pair := false, deferrals := cmAttempt m, source := 5, origin := m.src } (sealInto true (cmSeq m) u))) ∧
  (∀ port msg s m u c, crlReceive port 0x11 msg s = (some m, u) → cmTerm m = u.crl.term → coordinated m u = some c →
    u.mgmt.restarting = false → c.decided = false → cmAttempt m = c.deferrals → cmResult m = 1 → u.tempo.lastDownbeat + 1 < c.target →
    exec (.vote port msg) s = .next (updCommit c.carillon c.seq (fun c => { c with votes := c.votes ||| voterBit c m.src }) u)) ∧
  (∀ port msg s m u c, crlReceive port 0x12 msg s = (some m, u) → cmTerm m = u.crl.term → followed m u = some c →
    u.mgmt.restarting = false → c.phase = .prepared → c.target = cmDownbeat m →
    u.tempo.now + 50000 * tuPerNs < downbeatAt c.target u * tuPerNs →
    exec (.go port msg) s =
      .next (journalRings c (updCommit c.carillon c.seq (fun c => { c with phase := .armed, decided := true }) u))) ∧
  (∀ port msg s m u c, crlReceive port 0x13 msg s = (some m, u) → cmTerm m = u.crl.term → followed m u = some c →
    u.mgmt.restarting = false → c.decided = false → c.phase = .preparing →
    exec (.defer port msg) s =
      .next (updCommit c.carillon c.seq (fun _ => { c with target := cmDownbeat m, deferrals := cmAttempt m }) u)) ∧
  (∀ port msg s m u c, crlReceive port 0x14 msg s = (some m, u) → cmTerm m = u.crl.term → followed m u = some c →
    c.phase ≠ .switched → c.pair = false →
    exec (.abort port msg) s = .next (endCommit c 7 St.ok (restage c u))) ∧
  (∀ port msg s m u c, crlReceive port 0x15 msg s = (some m, u) → cmTerm m = u.crl.term → coordinated m u = some c →
    c.phase = .switched → u.tempo.lastDownbeat ≤ c.target → cmResult m = 1 →
    exec (.ack port msg) s = .next (updCommit c.carillon c.seq (fun c => { c with acks := c.acks ||| voterBit c m.src }) u)) ∧
  (∀ port msg s m u c, crlReceive port 0x16 msg s = (some m, u) → cmTerm m = u.crl.term → followed m u = some c →
    c.phase = .switched → inTime c u = true →
    exec (.confirm port msg) s = .next (confirmCommit c u)) ∧
  (∀ port msg s m u c, crlReceive port 0x17 msg s = (some m, u) → cmTerm m = u.crl.term → followed m u = some c →
    c.phase = .switched → inTime c u = true →
    exec (.revert port msg) s =
      .next (dropLater c (updCommit c.carillon c.seq (fun c => { c with reverting := true }) u))) ∧
  (∀ port msg s m u c, crlReceive port 0x17 msg s = (some m, u) → cmTerm m = u.crl.term → followed m u = some c →
    c.phase ≠ .switched →
    exec (.revert port msg) s = .next (dropLater c (journalOutcome c 1 (endCommit c 5 St.ok (takeSealed c u)))))

/-- R38, R69, R446 to R465: the rows of the carillon and of the management bus carry out their effect. A message `m` is the one that the
frame delivers here, in the state `u` that its reception leaves (R448, R449, R462, R463). -/
def Obligations.CarillonRowsComplete : Prop :=
  (∀ s u, s.crl.enable = true → s.crl.parked = false → s.pwr.level < 5 → s.mgmt.rom = false → s.crl.role ≠ .head →
    s.crl.up.pcs = false → s.crl.down.pcs = false → s.fw.schedule = none →
    u = setTempo (fun t => { t with lastBeat := some (beatInstant s), beatDue := none }) (advanceTempo (beatInstant s * tuPerNs) s) →
    exec .heartbeatSend s = .next u) ∧
  (∀ s u v w, s.crl.enable = true → s.crl.parked = false → s.pwr.level < 5 → s.mgmt.rom = false →
    u = setTempo (fun t => { t with lastBeat := some (beatInstant s), beatDue := none }) (advanceTempo (beatInstant s * tuPerNs) s) →
    v = scheduleLate (heartbeatOut 1 (heartbeatOut 0 u)) → v.crl.role = .head →
    w = updCrl (fun c => { c with beat := (c.beat + 1) % 4294967296 }) v →
    exec .heartbeatSend s = .next (flood 0x02 0xFF (beaconPayload w) w)) ∧
  (∀ port msg s m u, s.crl.enable = true → s.mgmt.rom = false → fcsGood msg = true → rdBe msg 12 2 = 0x88B5 → m = msgOf msg →
    u = updCrlPort port (fun p => { p with pcs := true }) s → msgRefused 0 msg u = false → m.version = 1 → m.domain = 0 → m.typ = 1 →
    38 + m.length ≤ msg.length → m.cid = u.crl.cid → (bit (rdBe m.payload 19 1) 0 == 1) = (port == 0) →
    exec (.heartbeat port msg) s = .next (onHeartbeat port m u)) ∧
  (∀ port s n, s.crl.enable = true → (crlPort port s).neighbour = some n →
    exec (.neighbourLost port false) s = .next (loseNeighbour port (advanceTo (n.seenAt + 30000000) s))) ∧
  (∀ port s, s.crl.enable = true →
    exec (.neighbourLost port true) s =
      .next (loseNeighbour port (updCrlPort port (fun p => { p with pcs := false, miswire := false }) s))) ∧
  (∀ port msg s m u, crlReceive port 0x02 msg s = (some m, u) → exec (.headBeacon port msg) s = .next (onBeacon port m u)) ∧
  (∀ s, s.crl.role = .follower → exec .headLost s = .next (enterElecting (advanceTo (s.crl.lastBeacon + 30000000) s))) ∧
  (∀ port msg s m u, crlReceive port 0x03 msg s = (some m, u) → exec (.claim port msg) s = .next (onClaim m u)) ∧
  (∀ s u c, s.crl.role = .electing → s.mgmt.restarting = false → u = advanceTo s.crl.settleAt s → s.crl.best = some c →
    c.serial = s.glb.serial → exec .electionSettle s = .next (becomeHead u)) ∧
  (∀ s, s.crl.role = .electing → s.mgmt.restarting = false →
    exec .electionRetry s = .next (claimTerm (s.crl.term + 1) (advanceTo (s.crl.electionAt + 100000000) s))) ∧
  (∀ msg s m u, crlReceive 0 0x04 msg s = (some m, u) → exec (.position 0 msg) s = .next (onPosition m u)) ∧
  (∀ port msg s m u, crlReceive port 0x05 msg s = (some m, u) → u.fw.schedule = none →
    exec (.member port msg) s = .next (keepMember m u)) ∧
  (∀ port msg s m u v w, crlFragment port 0x20 msg s = (some m, u) → u.mgmt.restarting = false → assemble false m u = (some w, v) →
    exec (.relayCmd port msg) s = .next (enter beginAny (parseBlock 5 m.src m.msgId w.payload.length none w.payload) v)) ∧
  (∀ msg s m u v w, busFragment 0x01 msg s = (some m, u) → u.mgmt.restarting = false → aget u.bus.lastResp m.src = none →
    (∀ r ∈ u.bus.running, r.1 ≠ m.src) → assemble true m u = (some w, v) →
    exec (.command msg) s =
      .next (enter beginAny (parseBlock 4 m.src m.msgId w.payload.length none w.payload) (busAck m.src m.msgId 1 [] v))) ∧
  (∀ port msg s m u r, crlReceive port 0x21 msg s = (some m, u) → u.mgmt.restarting = false →
    u.mgmt.running.find? (fun r => r.waits == .relay m.src m.msgId) = some r →
    exec (.relayResp port msg) s =
      .next (finishRunning r (rdBe m.payload 0 2) (slice m.payload 8 (rdBe m.payload 4 4)) false 0 0 u)) ∧
  (∀ bus src id s p u, s.crl.partials.find? (fun p => p.bus == bus && p.src == src && p.msgId == id) = some p →
    u = advanceTo (p.firstAt + 100000000) s →
    exec (.fragmentTimeout bus src id) s = .next { u with crl := { u.crl with
      partials := u.crl.partials.filter (fun q => !(q.bus == bus && q.src == src && q.msgId == id)) } }) ∧
  (∀ s f n slots u, s.bus.sending = some f → s.bus.enable = true → n = s.bus.attempts + 1 → n < 16 →
    slots = Config.random s.fresh % 2 ^ min n 10 → u = tally (ctrId 8 0 6) s →
    exec .busCollision s = .next (emit (.bus f) (drawn { u with bus := { u.bus with
      attempts := n, retryAt := s.elapsed + 3200 + slots * 51200 } }))) ∧
  (∀ port msg s m u, crlReceive port 0x30 msg s = (some m, u) → u.mgmt.ready = true →
    exec (.imageChunk port msg) s = .next (onChunk port msg m u)) ∧
  (∀ port msg s m u, (msgOf msg).src ≠ 0xFF → crlReceive port 0x31 msg s = (some m, u) →
    exec (.imageAck port msg) s = .next (onImageAck m u))

/-- R471 to R480: the rows of a protection pair carry out their effect. A message `m` is the one that the frame delivers here, in the state
`u` that its reception leaves. -/
def Obligations.ProtectRowsComplete : Prop :=
  (∀ port msg s m u, crlReceive port 0x40 msg s = (some m, u) → u.prot.state ≠ 0 → rdBe m.payload 4 8 = u.prot.peerSerial →
    exec (.pairBeat false port msg) s = .next (peerBeat m.payload u)) ∧
  (∀ port msg s m u, busReceive 0x40 msg s = (some m, u) → u.prot.state ≠ 0 → rdBe m.payload 4 8 = u.prot.peerSerial →
    exec (.pairBeat true port msg) s = .next (peerBeat m.payload u)) ∧
  (∀ s u b, s.prot.state ≠ 0 → s.crl.parked = false → s.pwr.level < 5 → s.mgmt.rom = false →
    u = applyPair (advanceTo ((s.elapsed / 10000000 + 1) * 10000000) s) → b = pairBeatOf u →
    exec .pairBeatSend s = .next (busSend 0x40 0xFF b (flood 0x40 0xFF b { u with prot := { u.prot with ownBeat := b } }))) ∧
  (∀ s p u, s.prot.peerAt = some p → u = advanceTo (p + 30000000) s → s.prot.state = 6 →
    exec .peerLost s = .next (releaseMirror { u with prot := { u.prot with peerAt := none, peerSync := false, resync := false, wtrAt := none } })) ∧
  (∀ s p u, s.prot.peerAt = some p → u = updProt (fun p => { p with peerAt := none }) (advanceTo (p + 30000000) s) →
    s.prot.state = 4 ∨ s.prot.state = 5 → maySwitch u = true →
    exec .peerLost s = .next (takeOver 0 u)) ∧
  (∀ port msg s m u, crlReceive port 0x44 msg s = (some m, u) → rdBe m.payload 0 1 = u.prot.pair →
    u.prot.state = 4 ∨ u.prot.state = 5 ∨ (u.prot.state = 3 ∧ u.prot.switching.isSome = true) →
    exec (.relinquish port msg) s = .next (takeOver ((u.prot.switching.map (·.2)).getD (rdBe m.payload 1 1)) u)) ∧
  (∀ s d cause, s.prot.switching = some (d, cause) →
    exec .relinquishWaitExpiry s = .next (takeOver cause (advanceTo d s))) ∧
  (∀ s d, s.prot.wtrAt = some d → s.prot.state = 6 → exec .wtrExpiry s = .next (stepDown 4 (advanceTo d s))) ∧
  (∀ s d, s.prot.wtrAt = some d → maySwitch s = true → exec .wtrExpiry s = .next (triggerSwitch 4 (advanceTo d s))) ∧
  (∀ s, s.prot.state = 1 → s.prot.peerAt = none →
    exec .pairingTimeout s = .next (startActive (advanceTo (s.prot.since + (if isHome s then 3000000000 else 10000000000)) s))) ∧
  (∀ port msg s m u, crlReceive port 0x41 msg s = (some m, u) → mirrorInTurn (rdBe m.payload 4 4) false u = true → rdBe m.payload 0 1 = 0 →
    exec (.mirrorCfg port msg) s = .next (mirrorDone (rdBe m.payload 4 4) (applyMirrorCmd (m.payload.drop 8) u))) ∧
  (∀ port msg s m u, crlReceive port 0x41 msg s = (some m, u) → mirrorInTurn (rdBe m.payload 4 4) false u = true → rdBe m.payload 0 1 = 1 →
    exec (.mirrorCfg port msg) s = .next (mirrorDone (rdBe m.payload 4 4) (applyMirrorDesc (m.payload.drop 8) u))) ∧
  (∀ port msg s m u, crlReceive port 0x42 msg s = (some m, u) → mirrorInTurn (rdBe m.payload 0 4) false u = true →
    exec (.mirrorFlow port msg) s =
      .next (mirrorDone (rdBe m.payload 0 4) (applyMirrorFlow (rdBe m.payload 4 1 == 1) (slice m.payload 8 128) u))) ∧
  (∀ port msg s m u ack, crlReceive port 0x43 msg s = (some m, u) → u.prot.state = 6 → ack = rdBe m.payload 0 4 → u.prot.mirrorHeld = [] →
    (∀ r ∈ u.mgmt.running, waitsMirror r.waits = false) →
    exec (.mirrorAck port msg) s = .next { u with prot := { u.prot with
      mirrorAcked := ack, mirrorQueue := u.prot.mirrorQueue.filter (fun q => !covered ack q), mirrorHeld := [] } })

/-- R433, R486, R494 to R509, R517: the rows of flash, firmware and settings carry out their effect. -/
def Obligations.FirmwareRowsComplete : Prop :=
  (∀ s c, s.fw.copy = some c → exec (.flashCopyChecked true) s =
    .next (if copyChecks c (copyImage c s) = true then copyPassed (copyImage c s) else copyFailed c s)) ∧
  (∀ s c, s.fw.copy = some c → exec (.flashCopyChecked false) s = .next (copyFailed c s)) ∧
  (∀ s n, uState s = Upd.probation → n = probationLimit s → s.mgmt.restarting = false → s.mgmt.ready = true →
    exec .probationLimit s = .next (if n = 0 then s else
      beginRestart 3 (toReverting 3 (advanceTo (s.fw.probationAt + n * 1000000000) s)))) ∧
  (∀ s k, s.mgmt.restarting = false → s.mgmt.rom = false → s.mgmt.ready = true → uState s = Upd.idle → flashUsable s = true →
    liveCopy s = some k → exec .settingsCompaction s = .next (if 1572864 ≤ (readCopy k s).2.1 then
      writeSnapshot (1 - k) (snapGen k s + 1) (runFormat s) (readCopy k s).1 s else s)) ∧
  (∀ s p u, s.mgmt.restarting = false → s.mgmt.rom = false → s.mgmt.ready = true → flashUsable s = true → journalFits 8 s = true →
    s.mem.retired.find? (fun p => !p.2.2.2.2) = some p → u = appendSetting 4 0x0A (le 8 (retiredEntry p.1 p.2)) s →
    exec .retiredPageRecord s =
      .next { u with mem := { u.mem with retired := aset u.mem.retired p.1 (p.2.1, p.2.2.1, p.2.2.2.1, true) } }) ∧
  (∀ erase address s u c, u = raiseEvent Ev.flashError (if erase then 0 else 1) address 0 s → u.fw.copy = some c →
    slotBase c.dst ≤ address → address < slotBase c.dst + 16777216 →
    exec (.flashOperationTimeout erase address) s = .next (copyFailed c u)) ∧
  (∀ erase address s u, u = raiseEvent Ev.flashError (if erase then 0 else 1) address 0 s → u.fw.copy = none → u.mgmt.restarting = false →
    exec (.flashOperationTimeout erase address) s =
      .next (finishWaiting waitsFlash St.flashError (fun r => r.resp) false 0 0 u)) ∧
  (∀ s r id v, s.mgmt.restarting = false → s.mgmt.running.find? (fun r => waitsFlash r.waits) = some r → r.waits = .setting id (some v) →
    exec .flashWriteDone s =
      .next (finishRunning r St.ok r.resp true id 0 (settingTakesHold id v (appendSetting id r.cmd.source v s)))) ∧
  (∀ s r off bs u, s.mgmt.restarting = false → s.mgmt.running.find? (fun r => waitsFlash r.waits) = some r → r.waits = .flash →
    downloadData r.cmd = some bs → off = par r.cmd 0 4 →
    u = (if bit (par r.cmd 8 1) 1 = 1 then { s with fw := { s.fw with contig := 0 } } else s) → off ≤ u.fw.contig →
    exec .flashWriteDone s = .next (finishRunning r St.ok (le 4 bs.length) true 0 bs.length (stageFrom off bs u))) ∧
  (∀ s r bs u, s.mgmt.restarting = false → s.mgmt.running.find? (fun r => waitsFlash r.waits) = some r → r.waits = .flash →
    downloadData r.cmd = some bs →
    u = (if bit (par r.cmd 8 1) 1 = 1 then { s with fw := { s.fw with contig := 0 } } else s) → u.fw.contig < par r.cmd 0 4 →
    exec .flashWriteDone s = .next (finishRunning r St.fwOutOfOrder (le 4 0) false 0 0 u)) ∧
  (∀ s st stage digest u t, s.fw.verifying = true → s.mgmt.restarting = false → st = verifyImage 2 s →
    stage = (if st = St.ok then 3 else if uStage s = 1 then 1 else 2) → digest = (if st = St.ok then imageDigest (slotHeader 2 s) else []) →
    u = writeRec (patch (setFlag 2 false (setRec 10 1 stage (updRec s))) 96 (fit 64 digest)) s →
    t = verifyDone st (raiseEvent Ev.fwVerified st (slotVersion 2 s) 0 { u with fw := { u.fw with verifying := false } }) →
    exec .verificationComplete s = .next (if t.mgmt.rom && t.fw.rxTransfer.isSome && st = St.ok then
      recoveryActivate { t with fw := { t.fw with rxTransfer := none } } else t))

/-- R174, R175, R522 to R533, R538: the passes of Hum and the ends of audit scans carry out their effect. A pass starts where the one before
does not still run; where it does, that one continues and EV_HUM_OVERRUN says so (R527). -/
def Obligations.HumPassesComplete : Prop :=
  (∀ entry s id x, s.mgmt.ready = true → s.mgmt.rom = false → s.mgmt.restarting = false →
    entryAtIndex (entry / 131072) (entry % 131072) s = some (false, id, x) →
    exec (.tcamEntryRewrite entry) s =
      .next { s with fwd := { s.fwd with removed := adel s.fwd.removed id, missing := adel s.fwd.missing id } }) ∧
  (∀ entry s id x, s.mgmt.ready = true → s.mgmt.rom = false → s.mgmt.restarting = false →
    entryAtIndex (entry / 131072) (entry % 131072) s = some (true, id, x) →
    exec (.tcamEntryRewrite entry) s =
      .next { s with fwd := { s.fwd with removedSel := adel s.fwd.removedSel id, missingSel := adel s.fwd.missingSel id } }) ∧
  (∀ fixed s u n, awake s = true → s.pwr.level < 4 → u = nextInstant 50000000 s → humBusy 1 u = false →
    n = u.fwd.missing.length + u.fwd.missingSel.length + fixed.length →
    exec (.tcamScrubPass fixed) s =
      .next (humPass 1 n (bump (ctrId 12 0 4) n { u with fwd := { u.fwd with missing := [], missingSel := [] } }))) ∧
  (∀ fixed s u, awake s = true → s.pwr.level < 4 → u = nextInstant 50000000 s → humBusy 1 u = true →
    exec (.tcamScrubPass fixed) s = .next (humOverrun 1 u)) ∧
  (∀ errors s u v all fixed, hardwareRuns s = true → u = nextInstant 10000000000 s → humBusy 2 u = false → v = storeInjection u →
    all = errors ++ foundInjected v → fixed = all.countP (fun e => !e.uncorrectable && e.memory ≤ 9) →
    exec (.sramScrubPass errors) s = .next (humPass 2 fixed (bump (ctrId 12 0 8) fixed
      (all.foldl (fun s e => sramError e s) { drawn v with glb := { v.glb with injected := [] } })))) ∧
  (∀ s u, hardwareRuns s = true → u = nextInstant 10000000000 s → humBusy 6 u = false →
    (∀ x ∈ u.qdm.stored, (storesIn u).contains x.1 = true) →
    exec .bufferAuditPass s = .next (humPass 6 0 (bump (ctrId 22 0 1) 0 u))) ∧
  (∀ bad s u v words, teruoRunsHum s = true → (humOf 7 s).enabled = true → 0 < (humOf 7 s).period →
    u = nextInstant ((humOf 7 s).period * 1000000000) s → humBusy 7 u = false → v = teruoContext 0 1 u →
    words = bad.foldl (fun n x => n + x.2) 0 →
    exec (.configAuditPass bad) s = .next (humPass 7 words
      (bad.foldl (fun s x => raiseEvent Ev.auditTable x.1 x.2 0 (teruoMismatch 0 s)) (bump (ctrId 12 0 7) words v)))) ∧
  (∀ s u v, teruoRunsHum s = true → (humOf 8 s).enabled = true → 0 < (humOf 8 s).period → flashUsable s = true →
    u = nextInstant ((humOf 8 s).period * 1000000000) s → humBusy 8 u = false → v = teruoContext 1 1 u →
    exec .flashPatrol s = .next (humPass 8 0 ((patrolCopies v).foldl (fun s bad => if bad then teruoMismatch 1 s else s)
      ((List.range 3).foldl (fun s k => patrolSlot k s) v)))) ∧
  (∀ k r s x b y u, s.mgmt.restarting = false → s.pwr.scans.find? (fun x => x.context == k) = some x →
    x.space ≠ 1 ∨ flashUsable s = true → b = scanUnits x r s → y = { x with done := x.done + b.length / 64 } →
    u = setCtx k { algo := x.algo, value := auditRun x.algo (auditCtx k s).value b, running := true }
      { s with pwr := { s.pwr with scans := s.pwr.scans.map (fun z => if z.context == k then y else z) } } →
    exec (.auditScanComplete k r) s = .next (if 64 * y.done = y.length then endOfScan y u
      else if r.failed then stopScan y (scanError x.space) u else u)) ∧
  (∀ k r s x, s.mgmt.restarting = false → s.pwr.scans.find? (fun x => x.context == k) = some x →
    x.space = 1 → flashUsable s = false → 64 * x.done ≠ x.length →
    exec (.auditScanComplete k r) s = .next (stopScan x St.flashError
      (setCtx k { algo := x.algo, value := auditRun x.algo (auditCtx k s).value [], running := true }
        { s with pwr := { s.pwr with scans := s.pwr.scans.map (fun z => if z.context == k then x else z) } }))) ∧
  (∀ table word s, s.mgmt.ready = true → s.mgmt.rom = false → s.mgmt.restarting = false →
    exec (.configWordRewrite table word) s =
      .next { s with pwr := { s.pwr with badWords := s.pwr.badWords.filter (fun w => !(w.1 == table && w.2.1 == word)) } })

/-- R413 to R436: the rows of DDR4 and HBM3 carry out their effect. -/
def Obligations.MemoryRowsComplete : Prop :=
  (∀ margins s u, awake s = true → s.pwr.level < 5 → u = nextInstant 100000000 s → (∀ n, n < 8 → ddrUp n u = false) →
    exec (.ddrRecenter margins) s =
      .next ((List.range 8).foldl (fun s n => updDdr n (fun d => { d with ceInterval := 0 }) s) u)) ∧
  (∀ n m s u, awake s = true → s.pwr.level < 5 → u = nextInstant 100000000 s → humBusy 4 u = false →
    (List.range 8).filter (fun n => ddrUp n u && recenters n u) = [n] → n = 0 →
    exec (.ddrRecenter [m]) s =
      .next (humPass 4 0 ((List.range 8).foldl (fun s n => updDdr n (fun d => { d with ceInterval := 0 }) s) (recenter 0 m u)))) ∧
  (∀ channel errors again s u d, ddrUp channel s = true → hardwareRuns s = true →
    u = updDdr channel (fun d => { d with scrubPos := d.scrubPos + 1 }) (errors.foldl (scrubWord channel again) s) →
    d ∈ u.mem.ddr → d.scrubPos < channelMiB u →
    exec (.ddrScrub channel errors again) s = .next u) ∧
  (∀ channel errors again s u, ddrUp channel s = true → hardwareRuns s = true →
    u = updDdr channel (fun d => { d with scrubPos := d.scrubPos + 1 }) (errors.foldl (scrubWord channel again) s) →
    (∀ d ∈ u.mem.ddr, channelMiB u ≤ d.scrubPos) →
    exec (.ddrScrub channel errors again) s = .next (humDone 3 { u with mem := { u.mem with
      scrubPasses := u.mem.scrubPasses + 1, ddr := u.mem.ddr.map (fun d => { d with scrubPos := 0 }) } })) ∧
  (∀ channel port address s, ddrUp channel s = true → port ≤ 5 →
    exec (.ddrRequestTimeout channel port address false) s = .next (countLate channel (tickBy 20000 s))) ∧
  (∀ channel port address s u, ddrUp channel s = true → port ≤ 5 →
    u = withdrawRead channel port address (countLate channel (tickBy 20000 s)) →
    exec (.ddrRequestTimeout channel port address true) s =
      .next (requesterError port address (raiseEvent Ev.ddrTimeout channel port address (tally (ddrCtr channel 3) u)))) ∧
  (∀ channel events s u, ddrUp channel s = true → u = events.foldl (ddrEvent channel) s → (ddrOf channel u).writes = [] →
    exec (.ddrWriteQueueAge channel events) s = .next u) ∧
  (∀ channel events s u v w l, ddrUp channel s = true → u = events.foldl (ddrEvent channel) s → (ddrOf channel u).writes = w :: l →
    v = countLate channel (tickBy (w.at' + 10000 - u.elapsed) u) →
    exec (.ddrWriteQueueAge channel events) s = .next (runDrain channel ((ddrOf channel v).writes.length + (ddrOf channel v).reads.length)
      (updDdr channel beginDrain v))) ∧
  (∀ l s, awake s = true → s.pwr.level < 5 →
    ∃ t, exec (.rowWindowStart l) s = .next t ∧ (∀ d ∈ t.mem.ddr, d.rows = []) ∧ t.mem.rhThreshold = s.mem.rhThreshold) ∧
  (∀ failed s, awake s = true → s.pwr.level < 5 → exec (.hbmTrainingDone failed) s = .next (trainStacks failed s))

/-- R84 to R111, R123 to R143: the rows of the ports and of FlexE carry out their effect. -/
def Obligations.PortRowsComplete : Prop :=
  (∀ mac s x, mac? mac s = some x → powered x = true →
    exec (.portLinkOk mac) s =
      .next (linkChange mac (updMac mac (fun x => { x with pcs := true, localFault := false, remoteFault := false })) s)) ∧
  (∀ mac s x a b c, mac? mac s = some x → powered x = true →
    exec (.portLinkFail mac a b c) s = .next (linkChange mac (updMac mac (fun x => { x with
      pcs := x.pcs && !a, localFault := b, remoteFault := c })) s)) ∧
  (∀ mac s x d u, mac? mac s = some x → x.debounceAt = some d → x.link = .debounce → x.cfg.flexePhy = false →
    u = setLink mac .up (fun x => { noTimers x with announced := !x.cfg.flexePhy }) (advanceTempo d s) →
    exec (.upDebounceEnd mac) s = .next (raiseEvent Ev.portLinkUp mac 0 0 (announcePort true mac u))) ∧
  (∀ mac s x d u, mac? mac s = some x → x.debounceAt = some d → x.link = .debounce → x.cfg.flexePhy = true →
    u = setLink mac .up (fun x => { noTimers x with announced := !x.cfg.flexePhy }) (advanceTempo d s) →
    exec (.upDebounceEnd mac) s = .next (raiseEvent Ev.portLinkUp mac 0 0 u)) ∧
  (∀ mac s x d, mac? mac s = some x → x.debounceAt = some d → x.link = .holdDebounce →
    exec (.upDebounceEnd mac) s = .next (dropAgedTx mac (setLink mac .up noTimers (advanceTempo d s)))) ∧
  (∀ mac s x d, mac? mac s = some x → x.holdUntil = some d → x.link = .hold →
    exec (.holdTimerExpiry mac) s = .next (flush mac (setLink mac .down noTimers (advanceTempo d s)))) ∧
  (∀ mac s x d, mac? mac s = some x → x.holdUntil = some d → x.link = .holdDebounce →
    exec (.holdTimerExpiry mac) s = .next (updMac mac (fun x => { x with holdExpired := true }) (advanceTempo d s))) ∧
  (∀ counts s u, (∀ p ∈ s.macs, 80 ≤ p.1) → u = advanceTempo (windowEnd s) s →
    exec (.degWindowEnd counts) s = .next (counts.foldl (fun s w => laneWindow w s) u)) ∧
  (∀ s n x u w, s.macs = [(n, x)] → n < 80 → w.line = n → u = advanceTempo (windowEnd s) s →
    exec (.degWindowEnd [w]) s = .next (degWindow n w u)) ∧
  (∀ mac f s x, mac? mac s = some x → receives mac x s = true → 64 ≤ f.length → f.length ≤ x.cfg.maxFrame → fcsGood f = true →
    isControl f = false → standbyPort mac s = false →
    exec (.frameReceived mac f false) s = .next (toFifo mac x (framePriority x f)
      { newPkt (f.take (f.length - 4)) f.length mac (stamp x.cfg.rxCorr s) with bad := 0 }
      (bump (portCtr mac 0x108) f.length (tally (portCtr mac 0x100) s)))) ∧
  (∀ mac f s x, mac? mac s = some x → receives mac x s = true → 64 ≤ f.length → f.length ≤ x.cfg.maxFrame → fcsGood f = true →
    isControl f = true →
    exec (.macControlFrameRx mac f) s =
      .next (macControl mac f (bump (portCtr mac 0x108) f.length (tally (portCtr mac 0x100) s)))) ∧
  (∀ mac s x t l, mac? mac s = some x → x.refreshAt.toList ++ avals x.pfcRefreshAt = t :: l →
    exec (.pauseRefresh mac) s = .next (refreshPause mac (advanceTo (l.foldl min t) s))) ∧
  (∀ mac s x d, mac? mac s = some x → x.pausedUntil = some d →
    exec (.pauseExpiry mac none) s = .next (updMac mac (fun x => { x with pausedUntil := none }) (settleMac mac (advanceTo d s)))) ∧
  (∀ mac p s x d, mac? mac s = some x → aget x.pfcPausedUntil p = some d →
    exec (.pauseExpiry mac (some p)) s =
      .next (updMac mac (fun x => { x with pfcPausedUntil := adel x.pfcPausedUntil p }) (settleMac mac (advanceTo d s)))) ∧
  (∀ mac ends underrun s x b rest, mac? mac s = some x → x.link = .up → x.cfg.flexePhy = false → x.sending = none →
    x.control = b :: rest → exec (.frameTransmit mac ends underrun) s = .next (sendControlFrame mac x b s)) ∧
  (∀ mac ends underrun s x f rest u, mac? mac s = some x → x.link = .up → x.cfg.flexePhy = false → x.sending = none → x.control = [] →
    txq x 3 = f :: rest → mayStart mac x f s = true → u = updMac mac (fun x => { x with txq := aset x.txq 3 rest }) s →
    exec (.frameTransmit mac ends underrun) s =
      .next (goOn mac x (startFrame x f s) ends underrun (tally (ctrId 25 (mac * 8 + f.gate) 1) u))) ∧
  (∀ mac underrun s x f, mac? mac s = some x → x.link = .up → x.cfg.flexePhy = false → x.sending = some f →
    exec (.frameTransmit mac .sent underrun) s = .next (endFrame mac x f none underrun s)) ∧
  (∀ mac cause underrun s x f, mac? mac s = some x → x.link = .up → x.cfg.flexePhy = false → x.sending = some f →
    exec (.frameTransmit mac (.bad cause) underrun) s = .next (endFrame mac x f (some cause) underrun s)) ∧
  (∀ (f : OhFrame) s g x, phyGroup f.port s = some g → flxGroup g s = some x → f.blockType = markerType → f.oCode = markerCode → f.inst < instCount x → groupOn x = true → linkOk f.port s = true →
    exec (.flexeOhFrameRx f) s = .next (withGroup g (ohFrame g x f) s)) ∧
  (∀ port inst s g, phyGroup port s = some g →
    exec (.flexeMarkerMissed port inst) s = .next (withGroup g (fun s => updInst port inst (fun y =>
      let a := alignMiss (y.align, y.seen)
      if inFrame y.align && inFrame a.1 then { lostFrame y with align := a.1, seen := a.2 } else realign a y) s) s)) ∧
  (∀ group s x w u, flxGroup group s = some x → x.switch = some w → w.crAt = none → s.mgmt.restarting = false → u = advanceTo (w.startedAt + multiNs) s →
    exec (.flexeCrSet group) s = .next (sendOverhead group (updGroup group (fun x => { x with
      crB := !x.txB, switch := some { w with crAt := some u.elapsed } }) u))) ∧
  (∀ group s x w r u, s.mgmt.restarting = false → flxGroup group s = some x → x.switch = some w → w.crAt = some r → caReceived x s = true → clientsOf group s = [] →
    u = followClients group (tally (ctrId 2 group 1) (updGroup group (fun x => { x with txB := !x.txB, switch := none }) s)) →
    exec (.flexeCBitChange group) s = .next (finishWaiting (fun w => w == .calendar group) St.ok (fun _ => []) true 0 0
      (sendOverhead group (raiseEvent Ev.flexeCalSwitched group (2 * b2n (!x.txB)) 0 u)))) ∧
  (∀ group s x w r, s.mgmt.restarting = false → flxGroup group s = some x → x.switch = some w → w.crAt = some r → caReceived x s = false →
    exec (.flexeNoAck group) s = .next (endSwitch group St.flexeNoAck (advanceTo (r + 10 * multiNs) s)))

/-- R14 to R30, R88, R225, R237, R242, R264, R535: the rows of the pipelines, the bridge and admission carry out their effect. -/
def Obligations.PipelineRowsComplete : Prop :=
  (∀ pipe sel faults s p u v, pipe < 8 → halted s = false → (∀ x ∈ s.fwd.stalled, x.1 ≠ pipe) → bit s.fwd.muffled pipe = 0 →
    takeIngress pipe s = some (p, u) → v = badEntries 0 pipe (sel.filter (fun f => decide (f.1 < 2048)) ++ faults.filter (fun f => decide (2048 ≤ f.1))) u → cacheMiss p v = false →
    exec (.ingressPass pipe sel faults) s = .next (ingressSteps pipe false p v)) ∧
  (∀ pipe sel faults s p u v, pipe < 8 → halted s = false → (∀ x ∈ s.fwd.stalled, x.1 ≠ pipe) → bit s.fwd.muffled pipe = 0 →
    takeIngress pipe s = some (p, u) → v = badEntries 0 pipe (sel.filter (fun f => decide (f.1 < 2048)) ++ faults.filter (fun f => decide (2048 ≤ f.1))) u → cacheMiss p v = true →
    exec (.ingressPass pipe sel faults) s = .next { v with fwd := { v.fwd with stalled := v.fwd.stalled ++ [(pipe, p, v.cfg)] } }) ∧
  (∀ pipe sel faults s, pipe < 8 → halted s = false → (∀ x ∈ s.fwd.stalled, x.1 ≠ pipe) → bit s.fwd.muffled pipe = 1 →
    exec (.ingressPass pipe sel faults) s = .next (slot pipe slotMuffle s)) ∧
  (∀ pipe sel faults s, pipe < 8 → halted s = false → (∃ x ∈ s.fwd.stalled, x.1 = pipe) →
    exec (.ingressPass pipe sel faults) s = .next (tally (ctrId 12 0 6) (slot pipe slotStall s))) ∧
  (∀ pipe faults s x m l p, pipe < 8 → halted s = false → egressHead pipe s = some (x, m, l, p) → mac? m s = none →
    exec (.egressPass pipe faults) s = .next (egressSteps pipe m l p (badEntries 1 (8 + pipe) faults (takeFd x s)))) ∧
  (∀ pipe faults s x m l p y, pipe < 8 → halted s = false → egressHead pipe s = some (x, m, l, p) → mac? m s = some y →
    txqFull y (txqOf y (leafClass l p s)) = false →
    exec (.egressPass pipe faults) s = .next (egressSteps pipe m l p (badEntries 1 (8 + pipe) faults (takeFd x s)))) ∧
  (∀ pipe s x, pipe < 8 → s.fwd.stalled.find? (fun x => x.1 == pipe) = some x →
    exec (.stageTimeout pipe) s =
      .next (stageTimeout pipe x.2.1 { s with fwd := { s.fwd with stalled := s.fwd.stalled.filter (fun y => y.1 != pipe) } })) ∧
  (∀ pipe s x m l p, 8 ≤ pipe → egressHead (pipe - 8) s = some (x, m, l, p) →
    exec (.stageTimeout pipe) s = .next (stageTimeout pipe p (unref p.store (takeFd x s)))) ∧
  (∀ pipe read s x t u, s.fwd.stalled.find? (fun x => x.1 == pipe) = some x → readContext read s = (false, t) →
    u = { t with cfg := x.2.2, fwd := { t.fwd with stalled := t.fwd.stalled.filter (fun y => y.1 != pipe) } } →
    exec (.flowCacheFill pipe read) s = .next { ingressSteps pipe false x.2.1 (cacheRead x.2.1 u) with cfg := s.cfg }) ∧
  (∀ pipe read s x t u, s.fwd.stalled.find? (fun x => x.1 == pipe) = some x → readContext read s = (true, t) →
    u = { t with cfg := x.2.2, fwd := { t.fwd with stalled := t.fwd.stalled.filter (fun y => y.1 != pipe) } } →
    exec (.flowCacheFill pipe read) s = .next { ingressSteps pipe true x.2.1 u with cfg := s.cfg }) ∧
  (∀ n s x rest, s.bridge.stopped = false → n < 4 → s.bridge.toQd = x :: rest →
    exec (.bridgeTransfer true n) s =
      .next (crossed x (bump (ctrId 11 0 0) (min n 3) { s with bridge := { s.bridge with toQd := rest } }))) ∧
  (∀ n s x rest, s.bridge.stopped = false → n < 4 → s.bridge.toFd = x :: rest →
    exec (.bridgeTransfer false n) s =
      .next (crossed x (bump (ctrId 11 0 1) (min n 3) { s with bridge := { s.bridge with toFd := rest } }))) ∧
  (∀ n s x rest, s.bridge.stopped = false → 4 ≤ n → s.bridge.toQd = x :: rest →
    exec (.bridgeTransfer true n) s =
      .next (abandon true x (bump (ctrId 11 0 0) (min n 3) { s with bridge := { s.bridge with toQd := rest } }))) ∧
  (∀ toQd s, s.bridge.stopped = false →
    exec (.bridgeStall toQd) s = .next (fatalReport Ev.bridgeFailed (raiseEvent Ev.bridgeFailed (b2n (!toQd)) 0 0
      { s with bridge := { s.bridge with stopped := true }, glb := { s.glb with bridgeFailed := true } }))) ∧
  (∀ s p rest u v, s.bridge.atQd = .toVoq p :: rest → (∀ w ∈ s.qdm.waiting, sameHead p w = false) → p.injected = true →
    u = { s with bridge := { s.bridge with atQd := rest } } → offer p u = (none, v) →
    exec .voqAdmission s = .next v) ∧
  (∀ s p rest u v w, s.bridge.atQd = .toVoq p :: rest → (∀ w ∈ s.qdm.waiting, sameHead p w = false) → p.injected = false →
    u = { s with bridge := { s.bridge with atQd := rest } } → offer p u = (some w, v) →
    exec .voqAdmission s = .next (checkXoff p.source (waits w v))) ∧
  (∀ s, s.qdm.waiting = [] →
    exec .bufAllocRetry s = .next { s with qdm := { s.qdm with allocNext := (s.qdm.allocNext + 1) % 10 } }) ∧
  (∀ s w, s.qdm.waiting = [w] → w.lossless = false → w.consumer < 10 →
    exec .bufAllocRetry s = .next (retryOne w { s with qdm := { s.qdm with allocNext := (s.qdm.allocNext + 1) % 10 } })) ∧
  (∀ s w, s.qdm.waiting = [w] → w.lossless = false → exec .bufExhaust s = .next (exhaust w (advanceTo (w.since + 2000) s))) ∧
  (∀ s w v u, s.qdm.waiting = [w] → w.lossless = true → sameHead w.pkt w = true → v = w.pkt.dest * 8 + w.pkt.cls →
    reoffer w s = (true, u) → exec (.losslessReoffer v) s = .next (headLeft w u)) ∧
  (∀ s w, s.qdm.waiting = [w] → w.lossless = true → sameHead w.pkt w = true → tooOld w.pkt.ts s = true →
    exec .refusedPacketAge s = .next (headLeft w (admitDrop (w.pkt.dest * 8 + w.pkt.cls) St.age w.pkt (unwait w s))))

/-- R252 to R312: the rows of the VOQs, the spill path, the grants and the reassembly carry out their effect. A unit that a lane in UP
brings, or a lane in CHECK of a lane-local TYPE, or the internal loop as lane 112, whose header checks and whose TYPE is the row's, reaches
the receiver of that TYPE. -/
def Obligations.FabricRowsComplete : Prop :=
  (∀ v s n q u, q = voq v s → writeTurn v s = true → q.spilled = true → spillPath s = true → halted s = false →
    n = min 2048 (bytesOf q.backlog - q.written) → n ≠ 0 → u = { s with qdm := { s.qdm with lastWrite := some v } } →
    pagesOf q.segStart (q.segEnd + n) ≤ pagesOf q.segStart q.segEnd →
    exec (.spillWrite v) s = .next (spillBytes v n u)) ∧
  (∀ v s n q room u, q = voq v s → writeTurn v s = true → q.spilled = true → spillPath s = true → halted s = false →
    n = min 2048 (bytesOf q.backlog - q.written) → n ≠ 0 → u = { s with qdm := { s.qdm with lastWrite := some v } } →
    room = (8192 - q.segEnd % 8192) % 8192 → pagesOf q.segStart q.segEnd < pagesOf q.segStart (q.segEnd + n) →
    exec (.spillWrite v) s = .next (match pickPage u with
      | some p => spillBytes v n (addPage v p u)
      | none => if room = 0 then u else spillBytes v (min n room) u)) ∧
  (∀ v errors s u, (voq v s).spilled = true → halted s = false → readTurn v s = true →
    u = readSegment v errors { s with qdm := { s.qdm with lastRead := some v } } →
    exec (.readBack v errors) s = .next (checkHbmIdle (voqMoved v (checkUnspill v (backToHead v u))))) ∧
  (∀ v s u, needOf (voq v s) ≠ 0 → reaches (voqEndpoint v s) s = true →
    u = advanceTo (max ((voq v s).lastReq.getD 0) ((voq v s).lastGrant.getD 0) + 10000000) s → mayRequest v u = true →
    exec (.rerequest v) s = .next (tally (fabCtr 0x130) (sendRequest v u))) ∧
  (∀ lane unit s u, lane < 112 → (fabLane lane s).state = .up → headerGood unit = true →
    u = updLane lane (fun l => { l with failures := 0, search := none }) s →
    (hdr unit 127 124 = 2 → exec (.request lane unit) s = .next (onRequest unit u)) ∧
    (hdr unit 127 124 = 3 → exec (.grant lane unit) s = .next (onGrant unit u)) ∧
    (hdr unit 127 124 = 3 → exec (.deny lane unit) s = .next (onGrant unit u)) ∧
    (hdr unit 127 124 = 4 → exec (.announce lane unit) s = .next (onAnnounce unit u)) ∧
    (hdr unit 127 124 = 1 → exec (.cell lane unit) s = .next (onCell lane unit u)) ∧
    (hdr unit 127 124 = 8 → exec (.link lane unit) s = .next (onLink lane unit u)) ∧
    (hdr unit 127 124 = 9 → exec (.reach lane unit) s = .next (onReach lane unit u)) ∧
    (hdr unit 127 124 = 10 → exec (.fc lane unit) s = .next (onFc lane unit u))) ∧
  (∀ lane unit s u, lane < 112 → (fabLane lane s).state = .check → headerGood unit = true →
    u = updLane lane (fun l => { l with failures := 0, search := none }) s →
    (hdr unit 127 124 = 8 → exec (.link lane unit) s = .next (onLink lane unit u)) ∧
    (hdr unit 127 124 = 9 → exec (.reach lane unit) s = .next (onReach lane unit u)) ∧
    (hdr unit 127 124 = 10 → exec (.fc lane unit) s = .next (onFc lane unit u))) ∧
  (∀ unit s u, unit ∈ s.fab.loop → u = { s with fab := { s.fab with loop := s.fab.loop.erase unit } } →
    (hdr unit 127 124 = 2 → exec (.request 112 unit) s = .next (onRequest unit u)) ∧
    (hdr unit 127 124 = 3 → exec (.grant 112 unit) s = .next (onGrant unit u)) ∧
    (hdr unit 127 124 = 3 → exec (.deny 112 unit) s = .next (onGrant unit u)) ∧
    (hdr unit 127 124 = 4 → exec (.announce 112 unit) s = .next (onAnnounce unit u)) ∧
    (hdr unit 127 124 = 1 → exec (.cell 112 unit) s = .next (onCell 112 unit u))) ∧
  (∀ x s, exec (.grantIssue (.port x)) s = .next (grantPort x s)) ∧
  (∀ d k s, exec (.grantIssue (.peal d k)) s = .next (grantPeal d k s)) ∧
  (∀ v s d, (voq v s).denyUntil = some d →
    exec (.denyHoldoffEnd v) s = .next (askIf v (updVoq v (fun q => { q with denyUntil := none }) (advanceTo d s)))) ∧
  (∀ v s p rest, (voq v s).head = p :: rest → 0 < (voq v s).credit → halted s = false → voqExists v s = true → ageAtDequeue p s = false →
    streamHeld v s = false → reaches (voqEndpoint v s) s = true →
    exec (.voqDequeue v) s = .next (sendHead v p rest s)) ∧
  (∀ v s d, drainAt v s = some d → halted s = false → exec (.ageDrain v) s = .next (dropOldFront v (advanceTo d s))) ∧
  (∀ v s, (voq v s).dualStream ≠ dualWanted v s → (voq v s).lastCell = 0 →
    exec (.dualStreamSwitch v) s = .next (updVoq v (fun q => { q with dualStream := dualWanted v s }) s)) ∧
  (∀ source dual s x g, aget s.fab.streams (source * 2 + b2n dual) = some x → x.gapSince = some g →
    exec (.reassemblyGap source dual) s = .next (skipGap (source * 2 + b2n dual) x (advanceTo (g + 20000) s))) ∧
  (∀ dest s a u, aget s.fab.announcing dest = some a → u = advanceTo a.due s → (heldHere dest u).isSome = true →
    (heldHere dest u).any (fun x => !a.up && (mac? x.localPort u).any (·.announced)) = false →
    exec (.announceRepeat dest) s = .next (announceDue dest u)) ∧
  (∀ dest s w u, aget s.fab.withdrawn dest = some w → u = advanceTo (w.2 + 35000000) s →
    exec (.withdrawalLapse dest) s = .next (restoreDest dest u)) ∧
  (∀ lane s, exec (.linkSend lane) s = .next (sendLink lane s)) ∧
  (∀ lane chunk s k, aget (fabLane lane s).chunks chunk = some k →
    exec (.reachChunkExpiry lane chunk) s =
      .next (lookReach (updLane lane (fun l => { l with chunks := adel l.chunks chunk }) (advanceTo (k.2 + 3000000) s)))) ∧
  (∀ lane s, exec (.unitHeaderFailure lane) s = .next (headerFailure lane s)) ∧
  (∀ lane s, (fabLane lane s).state = .down → exec (.fabricLaneAligned lane) s = .next (moveLane lane .hunt s)) ∧
  (∀ lane s, (fabLane lane s).state = .hunt ∨ (fabLane lane s).state = .check ∨ (fabLane lane s).state = .up →
    exec (.fabricLaneLoss lane) s = .next (moveLane lane .down s)) ∧
  (∀ lane s g, (fabLane lane s).consistentSince = some g → (fabLane lane s).state = .check →
    slotAgrees lane (fabLane lane s).peerEndpoint s = true →
    exec (.fabricLaneConfirmed lane) s = .next (laneUp lane (advanceTo (g + 1000000) s))) ∧
  (∀ lane s, (fabLane lane s).state = .up →
    exec (.linkSilence lane) s = .next (moveLane lane .check (advanceTo ((fabLane lane s).lastLink + 200000) s))) ∧
  (∀ lane s, (fabLane lane s).state = .hunt → s.prot.hold = false → exec (.secondConfirmation lane) s = .next (moveLane lane .check s)) ∧
  (∀ group s u l m p, selectOnce (s.sched.queues.length + 1) group s = (some (l, m, p), u) →
    exec (.schedulerSelection group) s = .next { u with bridge := { u.bridge with toFd := u.bridge.toFd ++ [.toEgress m l p] } })

/-- A step takes the command at the front of the queue and runs it on the state with the queue's rest. -/
def Obligations.StepRunsTheFrontCommand : Prop :=
  ∀ (c : Instr) (rest : List Instr) (s : State), step { s with pending := c :: rest } = exec c { s with pending := rest }

/-- The model's own step of an empty queue (log 1): Teruo begins a POSTED command that it can take; otherwise completions held for a
standby that is no longer mirrored to are released; otherwise 1 ns passes. It always answers a next state. -/
def Obligations.EmptyQueueStep : Prop :=
  (∀ (s t : State), s.pending = [] → beginHeld s = some t → step s = .next t) ∧
  (∀ s : State, s.pending = [] → beginHeld s = none → mirrorStale s = true → step s = .next (releaseMirror s)) ∧
  (∀ s : State, s.pending = [] → beginHeld s = none → mirrorStale s = false → s.glb.inject = none → step s = .next (tickBy 1 s))

/-- Every command has a meaning here: a step of any state answers a next state. -/
def Obligations.EveryStepGoesOn : Prop := ∀ s, goesOn s

/-- The state after reset is sound, and no command waits in it. -/
def Obligations.ResetIsSound : Prop := sound State.reset ∧ State.reset.pending = []

/-- Soundness is an invariant of every step: host memory, flash and the counters keep their canonical form, the ended commands, the journal
and the other records of a fixed size stay within it (R390, R400, R402, R403, R553), the shed requests and the level stay legal (Tables
15-8, 15-9), the fuse counter stays within its 64 steps and only the three keys are revoked (R490, R491). -/
def Obligations.EveryStepKeepsSoundness : Prop := ∀ s t, sound s → step s = .next t → sound t

/-- The frame of a command's bookkeeping: its arrival and consumption, its refusal and its completion leave everything that `sameData`
names alone, whatever the response, the effect and the source; the changes that a completion's own command staged are marked with what that
completion waits for (R60). The completion statements say what the effect itself changes. -/
def Obligations.BookkeepingLeavesTheData : Prop :=
  (∀ op c s, sameData s (taken op c s)) ∧
  (∀ h i st resp eff a b t, sameData t (finish h i st resp eff a b t)) ∧
  (∀ op c s t, undue (closed op c s t).staged = undue t.staged ∧ sameData { t with staged := (closed op c s t).staged } (closed op c s t)) ∧
  (∀ h status s, sameData s (refuse h status s))

/-- The frame of the queries: taken, refused, relayed or held, a query leaves everything that `sameData` names alone (R402: a query leaves no
effect). `journal.read` may clear the mark that the journal's records are in error, which it reports (R426). -/
def Obligations.QueriesLeaveTheData : Prop :=
  (∀ f, isQuery f → ∀ c s t, exec (f c) s = .next t → sameData s t) ∧
  (∀ c s t, exec (.journalRead c) s = .next t → sameData s t ∨ sameData { s with mem := { s.mem with journalBad := false } } t)

/-- The frame of the configuration commands: each stages its change after those staged before and leaves the configuration in force, and
everything else that `onlyStages` names, alone; it takes effect with a commit (R47, R48, R60). -/
def Obligations.ConfigurationCommandsOnlyStage : Prop :=
  ∀ p, isConfig p →
    ∀ c s t, exec (p.2.2 c) s = .next t → onlyStages s t

/-- R380 to R385, R388, R395, R396, R511: the checks that come before a command's own rules, in the order of R385, for every command of the
catalogue. A command whose source offers it is kept POSTED while Teruo cannot take it; taken, it ends with the first status that applies. -/
def Obligations.CommandsTurnedAway : Prop :=
  ∀ p, isCommand p →
    ∀ c s h, h = heldOf p.1 c → sourceOffers c s →
      (canAccept s = false → exec (p.2.2 c) s = .next (hold h (arrived p.1 c s))) ∧
      (canAccept s = true →
        (s.mgmt.rom = true → recoveryOp p.1 = false ∨ ¬ (2 ≤ c.source ∧ c.source ≤ 4) →
          exec (p.2.2 c) s = .next (refuse h St.unknownOpcode (arrived p.1 c s))) ∧
        (s.mgmt.rom = false → tagInUse h s = true → exec (p.2.2 c) s = .next (refuse h St.tagInUse (arrived p.1 c s))) ∧
        (s.mgmt.rom = false → tagInUse h s = false → headerBad p.2.1 h = true →
          exec (p.2.2 c) s = .next (refuse h St.invalidParam (arrived p.1 c s))) ∧
        (s.mgmt.rom = false → tagInUse h s = false → headerBad p.2.1 h = false → relayTo h (arrived p.1 c s) = some none →
          exec (p.2.2 c) s = .next (refuse h St.targetUnreachable (arrived p.1 c s))))

/-- R382, R383: a refusal leaves the RUNNING commands, whatever their tags, and everything that `sameData` names as they were. -/
def Obligations.RefusalsAffectNoOtherCommand : Prop :=
  ∀ h status s, (refuse h status s).mgmt.running = s.mgmt.running ∧ sameData s (refuse h status s)

/-- R471, R474: of a configuration command that a pair's member takes. The active member of a pair in sync stages its change, mirrors it, and
keeps the command RUNNING until MIRROR_ACK covers the change (with its mirror queue full it falls out of sync, and the wait ends at once); a
member that mirrors to a standby not in sync, or to none, ends the command at once; the standby refuses it and stages nothing. -/
def Obligations.MirroredConfiguration : Prop :=
  ∀ p, isConfig p →
    ∀ c s h st resp t u, h = heldOf p.1 c → accepted p.1 p.2.1.minLen c s → p.2.1.body h (taken p.1 c s) = .done st resp t →
      u = running h (cmdIndex h s) (.mirror s.prot.mirrorSeq) resp (markDue s.staged.length (.mirror s.prot.mirrorSeq) t) →
      (standsBy s = false → mirrors s = true → mirrors t = true →
        (t.prot.mirrorQueue.length < 65536 → exec (p.2.2 c) s = .next (mirrorCfg 0 (blockBytes h) u)) ∧
        (65536 ≤ t.prot.mirrorQueue.length → exec (p.2.2 c) s = .next (releaseMirror (mirrorCfg 0 (blockBytes h) u)))) ∧
      (standsBy s = false → mirrors s = false →
        exec (p.2.2 c) s = .next (closed p.1 c s (finish h (cmdIndex h s) st resp (st == St.ok) 0 0 (mirrorCfg 0 (blockBytes h) t)))) ∧
      (standsBy s = true → exec (p.2.2 c) s = .next (refuse h St.protectStandby (arrived p.1 c s)))

/-- The memory that a command stores to (R350, R351, R383, R386). Taking it writes at most the part-written entry of its ring. Ending it
writes at most its response area, and records and part-written entries of rings; from a ring whose completion ring has room and
that asks for no event, exactly its response, one record at the completion ring's producer index and that ring's entry can change. -/
def Obligations.CommandsWriteOnlyTheirBytes : Prop :=
  (∀ op c s a, (c.source ≤ 1 → ∀ x, ring? c.origin s = some x → ∀ k < 8, a ≠ (pciFn x.fn s).pib + (pciFn x.fn s).stride * c.origin + k) →
    memRead (taken op c s).hostMem a = memRead s.hostMem a) ∧
  (∀ op c s resp eff t a, (c.source ≤ 1 → ∀ k < min resp.length c.respLen, a ≠ c.respAddr + k) →
    (∀ r x, ring? r t = some x → 0 < x.size ∧ (∀ k < 32 * x.size, a ≠ x.base + k) ∧
      ∀ k < 8, a ≠ (pciFn x.fn t).pib + (pciFn x.fn t).stride * r + k) →
    memRead (completed op c s resp eff t).hostMem a = memRead t.hostMem a) ∧
  (∀ op c s resp eff t a x q, c.source ≤ 1 → bit c.flags 0 = 0 → ring? c.origin t = some x → ring? x.cq t = some q →
    q.held = [] → canWrite q t = true →
    (∀ k < min resp.length c.respLen, a ≠ c.respAddr + k) → (∀ k < 32, a ≠ q.base + 32 * (q.partIndex % q.size) + k) →
    (∀ k < 8, a ≠ (pciFn q.fn t).pib + (pciFn q.fn t).stride * x.cq + k) →
    memRead (completed op c s resp eff t).hostMem a = memRead t.hostMem a)

/-- R318: a GRANT for a VOQ that does not exist here is dropped and its bytes are counted in fabric.grant_unused; no balance changes. -/
def Obligations.GrantOfMissingVoqIsCounted : Prop :=
  ∀ lane u s v n, lane < 112 → (fabLane lane s).state = .up → headerGood u = true → hdr u 127 124 = 3 → hdr u 123 123 = 0 →
    hdr u 111 100 = s.fab.endpoint → v = hdr u 87 72 * 8 + hdr u 122 120 → voqExists v s = false →
    n = (if hdr u 119 112 = 0 then 256 else hdr u 119 112) * 256 →
    exec (.grant lane u) s = .next (bump (fabCtr 0x140) n (updLane lane (fun l => { l with failures := 0, search := none }) s))

/-- R197, R198: an ECMP group of the pass's epoch gives the next hop of its slot (h × SLOTS) >> 16, which is always a slot of the group: h
folds the CRC-32C of the seed followed by the fields that HASH_FIELDS names, in ascending order. -/
def Obligations.EcmpSlotOfTheHash : Prop :=
  ∀ (p bs : List Byte) (c : Conf) (id : Nat) (slots : List Nat) (crc h : Nat), aget c.ecmp id = some slots → 0 < slots.length →
    crc = crc32c (be 4 c.hashSeed ++ ((List.range 32).filter (fun n => bit (pHash p) n = 1)).flatMap (fun n => be 4 (fieldVal p bs n))) →
    h = (crc >>> 16) ^^^ (crc &&& 0xFFFF) →
    ∃ nh, slots[(h * slots.length) >>> 16]? = some nh ∧ memberOf true id p bs c = some nh

/-- R586: recording an access sets its cause bit, makes GLB_ERROR_ADDR that access, keeps the other cause bits and counts nothing; a write
to GLB_ERROR_ADDR changes nothing. -/
def Obligations.RecordedAccesses : Prop :=
  (∀ cause fn offset write s t, t = recordAccess cause fn offset write s →
    t.glb.error = s.glb.error ||| cause ∧
    t.glb.errorAddr = fn * 2147483648 + (if write then 1073741824 else 0) + offset % 67108864 ∧ t.ctrs = s.ctrs) ∧
  (∀ fn (value : Word) s, exec (.registerWrite fn 0x1C value) s = .next s)

/-- R112 and R11: while SNAPSHOT_MODE is 0, a read of a counter's _LO word returns bits 31:0, copies bits 63:32 to its _HI word and clears
the counter, but for what was counted in the same cycle; a read of _HI returns the copy. -/
def Obligations.ClearingReads : Prop :=
  ∀ fn off id counted s, fnExists fn s = true → barServed s = true → counterAt off = some id → s.toll.running = false →
    (∃ t, exec (.counterClearingRead fn off counted) s = .next (emit (.readData (ctr id s % 4294967296)) t) ∧ ctr id t = counted ∧
      (∀ other, other ≠ id → ctr other t = ctr other s) ∧ agetD t.glb.hiCopy (off + 4) 0 = ctr id s / 4294967296) ∧
    exec (.groupLatchRead fn (off + 4)) s = .next (emit (.readData (agetD s.glb.hiCopy (off + 4) 0)) s)

/-- R36: power-on reset starts Tempo at zero, in FREE_RUN, at the nominal rate; a warm reset changes neither Tempo nor, outside a carillon,
its source and rate. -/
def Obligations.TempoAcrossResets : Prop :=
  (∀ straps s, ∃ t, exec (.powerOnReset straps) s = .next t ∧ t.tempo.now = 0 ∧ t.tempo.source = .freeRun ∧
    ∀ ns, (tickBy ns t).tempo.now = ns * 1000000000000) ∧
  (∀ fn (value : Word) s, fnExists fn s = true → barServed s = true → value.toNat / 65536 = 0x5752 → bit value.toNat 0 = 1 →
    ∃ t, exec (.warmReset fn value) s = .next t ∧ t.tempo.now = s.tempo.now ∧
      (s.tempo.source ≠ .carillon → t.tempo.source = s.tempo.source ∧ t.tempo.freq = s.tempo.freq ∧ t.tempo.slew = s.tempo.slew))

/-- R546: `power.shed.config` sets FLOOR and S3_KEEP_RANK at its completion; a power-on reset, a waking, a warm reset and the end of a
management restart put back 0 and 8 (that a management restart is a start is log 28's reading). -/
def Obligations.ShedSettings : Prop :=
  (∀ c s u, takes 0x0E01 4 c s u → arg c 0 1 ≤ 4 → arg c 1 1 ≤ 16 → argZero c 2 2 →
    ∃ t, effects 0x0E01 (.powerShedConfig c) c s t ∧ t.pwr.floor = arg c 0 1 ∧ t.pwr.keepRank = arg c 1 1 ∧ t.tempo = u.tempo) ∧
  (∀ straps s, ∃ t, exec (.powerOnReset straps) s = .next t ∧ t.pwr.floor = 0 ∧ t.pwr.keepRank = 8) ∧
  (∀ frame s, s.crl.parked = true → s.pwr.dead = false → wakes frame s = true →
    ∃ t, exec (.wake frame) s = .next t ∧ t.pwr.floor = 0 ∧ t.pwr.keepRank = 8) ∧
  (∀ fn (value : Word) s, fnExists fn s = true → barServed s = true → value.toNat / 65536 = 0x5752 → bit value.toNat 0 = 1 →
    ∃ t, exec (.warmReset fn value) s = .next t ∧ t.pwr.floor = 0 ∧ t.pwr.keepRank = 8) ∧
  (∀ s, (forgetPowerSettings s).pwr.floor = 0 ∧ (forgetPowerSettings s).pwr.keepRank = 8 ∧ (forgetPowerSettings s).tempo = s.tempo)

/-- R350: the part-written entry is one write of 8 bytes, at the ring's place in its function's block; every byte of it reads back as
Table 10-4 gives it, and no other byte changes. -/
def Obligations.PartWrittenEntryIsOneWrite : Prop :=
  ∀ r x s, ring? r s = some x → (pciFn x.fn s).indexValid = true → (pciFn x.fn s).busMaster = true →
    (indexEntry x).length = 8 ∧
    (∀ k < 8, memRead (publish r s).hostMem ((pciFn x.fn s).pib + (pciFn x.fn s).stride * r + k) = (indexEntry x)[k]?) ∧
    (∀ a, (∀ k < 8, a ≠ (pciFn x.fn s).pib + (pciFn x.fn s).stride * r + k) → memRead (publish r s).hostMem a = memRead s.hostMem a) ∧
    publish r s = { s with hostMem := (publish r s).hostMem }
end

