-- ==== Sys2Proof/Laws/Assoc.lean ====
section
/-! SUPPORT. Laws of sparse tables: what a read after a write gives, and that every operation keeps the canonical form. -/

namespace Sys2Proof.Laws
open Sys2Proof Sys2Proof.Machine

variable {α : Type}

@[simp] theorem aget_aset_self (t : Assoc α) (k : Nat) (v : α) : aget (aset t k v) k = some v := by
  induction t with
  | nil => simp [aset, aget]
  | cons p t ih =>
    obtain ⟨j, w⟩ := p
    unfold aset
    split
    · simp [aget]
    · split
      · simp [aget]
      · rename_i h1 h2
        have : j ≠ k := fun e => h2 e.symm
        simp [aget, this, ih]

theorem aget_aset_ne (t : Assoc α) {k j : Nat} (v : α) (h : j ≠ k) : aget (aset t k v) j = aget t j := by
  induction t with
  | nil => simp [aset, aget, h.symm]
  | cons p t ih =>
    obtain ⟨i, w⟩ := p
    unfold aset
    split
    · simp [aget, h.symm]
    · split
      · rename_i h1 h2
        have : i ≠ j := fun e => h (e.symm.trans h2.symm)
        simp [aget, h.symm, this]
      · simp only [aget, ih]

@[simp] theorem agetD_aset_self (t : Assoc α) (k : Nat) (v d : α) : agetD (aset t k v) k d = v := by simp [agetD]

theorem agetD_aset_ne (t : Assoc α) {k j : Nat} (v d : α) (h : j ≠ k) : agetD (aset t k v) j d = agetD t j d := by
  simp [agetD, aget_aset_ne t v h]

/-- Keys in `t` are all above `k`. -/
def above (k : Nat) (t : Assoc α) : Prop := ∀ p ∈ t, k < p.1

theorem awf_cons (p : Nat × α) (t : Assoc α) : awf (p :: t) = true ↔ above p.1 t ∧ awf t = true := by
  induction t generalizing p with
  | nil => simp [awf, above]
  | cons q t ih =>
    simp only [awf, Bool.and_eq_true, decide_eq_true_eq]
    constructor
    · intro ⟨h1, h2⟩
      refine ⟨?_, h2⟩
      intro r hr
      rcases List.mem_cons.mp hr with rfl | hr
      · exact h1
      · exact Nat.lt_trans h1 ((ih q).mp h2 |>.1 r hr)
    · intro ⟨h1, h2⟩
      exact ⟨h1 q (List.mem_cons_self ..), h2⟩

theorem above_aset {k j : Nat} {t : Assoc α} {v : α} (h : above k t) (hj : k < j) : above k (aset t j v) := by
  induction t with
  | nil => intro p hp; simp [aset] at hp; simp [hp, hj]
  | cons q t ih =>
    obtain ⟨i, w⟩ := q
    have hi : k < i := h (i, w) (List.mem_cons_self ..)
    have ht : above k t := fun p hp => h p (List.mem_cons_of_mem _ hp)
    unfold aset
    split
    · intro p hp
      rcases List.mem_cons.mp hp with rfl | hp
      · exact hj
      · exact h p hp
    · split
      · intro p hp
        rcases List.mem_cons.mp hp with rfl | hp
        · exact hj
        · exact ht p hp
      · intro p hp
        rcases List.mem_cons.mp hp with rfl | hp
        · exact hi
        · exact ih ht p hp

/-- Setting an entry keeps the canonical form. -/
theorem awf_aset {t : Assoc α} (k : Nat) (v : α) (h : awf t = true) : awf (aset t k v) = true := by
  induction t with
  | nil => simp [aset, awf]
  | cons q t ih =>
    obtain ⟨j, w⟩ := q
    obtain ⟨h1, h2⟩ := (awf_cons _ _).mp h
    unfold aset
    split
    · rename_i hk
      refine (awf_cons _ _).mpr ⟨?_, h⟩
      intro p hp
      rcases List.mem_cons.mp hp with rfl | hp
      · exact hk
      · exact Nat.lt_trans hk (h1 p hp)
    · split
      · rename_i _ he
        exact (awf_cons _ _).mpr ⟨by rw [he]; exact h1, h2⟩
      · rename_i hk he
        exact (awf_cons _ _).mpr ⟨above_aset h1 (by simp only []; omega), ih h2⟩

/-- Keeping some entries keeps the canonical form. -/
theorem awf_filter {t : Assoc α} (f : Nat × α → Bool) (h : awf t = true) : awf (t.filter f) = true := by
  induction t with
  | nil => rfl
  | cons q t ih =>
    obtain ⟨h1, h2⟩ := (awf_cons _ _).mp h
    rw [List.filter_cons]
    split
    · exact (awf_cons _ _).mpr ⟨fun p hp => h1 p ((List.mem_filter.mp hp).1), ih h2⟩
    · exact ih h2

/-- Removing an entry keeps the canonical form. -/
theorem awf_adel {t : Assoc α} (k : Nat) (h : awf t = true) : awf (adel t k) = true := awf_filter _ h

/-- Changing an entry in place keeps the canonical form. -/
theorem awf_aupd {t : Assoc α} (k : Nat) (f : α → α) (h : awf t = true) : awf (aupd t k f) = true := by
  have key : ∀ t : Assoc α, akeys (aupd t k f) = akeys t := by
    intro t; induction t with
    | nil => rfl
    | cons q t ih => simp only [aupd, akeys, List.map_cons, List.map_map] at ih ⊢; rw [ih]; congr 1; split <;> rfl
  have up : ∀ {t : Assoc α} {j : Nat}, above j t → above j (aupd t k f) := by
    intro t j hj p hp
    obtain ⟨q, hq, rfl⟩ := List.mem_map.mp hp
    have := hj q hq
    split <;> simpa
  induction t with
  | nil => rfl
  | cons q t ih =>
    obtain ⟨h1, h2⟩ := (awf_cons _ _).mp h
    rw [show aupd (q :: t) k f = (if q.1 = k then (q.1, f q.2) else q) :: aupd t k f from rfl]
    refine (awf_cons _ _).mpr ⟨?_, ih h2⟩
    split <;> exact up h1

/-- A memory write keeps the canonical form. -/
theorem memWrite_wf {m : List Host.Cell} (a : Nat) (bs : List Byte) (h : Memory.wf m = true) : Memory.wf (memWrite m a bs) = true := by
  induction bs generalizing m a with
  | nil => exact h
  | cons b bs ih => exact ih (a + 1) (awf_aset a b h)

/-- A byte that a memory write wrote reads back. -/
theorem memRead_memWrite_outside {m : List Host.Cell} {a x : Nat} (bs : List Byte) (h : x < a ∨ a + bs.length ≤ x) :
    memRead (memWrite m a bs) x = memRead m x := by
  induction bs generalizing m a with
  | nil => rfl
  | cons b bs ih =>
    simp only [memWrite, List.length_cons] at h ⊢
    rw [ih (by omega)]
    exact aget_aset_ne m b (by omega)

theorem memRead_memWrite_inside {m : List Host.Cell} {a k : Nat} (bs : List Byte) (h : k < bs.length) :
    memRead (memWrite m a bs) (a + k) = bs[k]? := by
  induction bs generalizing m a k with
  | nil => simp at h
  | cons b bs ih =>
    simp only [memWrite]
    cases k with
    | zero =>
      rw [memRead_memWrite_outside bs (by omega)]
      simp [memRead]
    | succ k =>
      rw [show a + (k + 1) = a + 1 + k by omega, ih (by simpa using h)]
      simp

theorem flashPut_wf {m : List Host.Cell} (a : Nat) (b : Byte) (h : Flash.wf m = true) : Flash.wf (flashPut m a b) = true := by
  obtain ⟨h1, h2⟩ := Bool.and_eq_true_iff.mp h
  unfold flashPut
  split
  · refine Bool.and_eq_true_iff.mpr ⟨awf_adel a h1, ?_⟩
    rw [List.all_eq_true] at h2 ⊢
    exact fun x hx => h2 x ((List.mem_filter.mp hx).1)
  · rename_i hb
    refine Bool.and_eq_true_iff.mpr ⟨awf_aset a b h1, ?_⟩
    have mem : ∀ (t : List Host.Cell) (x : Host.Cell), x ∈ aset t a b → x = (a, b) ∨ x ∈ t := by
      intro t; induction t with
      | nil => intro x hx; simpa [aset] using hx
      | cons q t ih =>
        intro x hx
        obtain ⟨j, w⟩ := q
        unfold aset at hx
        split at hx
        · exact List.mem_cons.mp hx
        · split at hx
          · rcases List.mem_cons.mp hx with hx | hx
            · exact Or.inl hx
            · exact Or.inr (List.mem_cons_of_mem _ hx)
          · rcases List.mem_cons.mp hx with hx | hx
            · exact Or.inr (hx ▸ List.mem_cons_self ..)
            · rcases ih x hx with hx | hx
              · exact Or.inl hx
              · exact Or.inr (List.mem_cons_of_mem _ hx)
    rw [List.all_eq_true] at h2 ⊢
    intro x hx
    rcases mem m x hx with rfl | hx
    · simpa using hb
    · exact h2 x hx

theorem flashPutAll_wf {m : List Host.Cell} (a : Nat) (bs : List Byte) (h : Flash.wf m = true) : Flash.wf (flashPutAll m a bs) = true := by
  induction bs generalizing m a with
  | nil => exact h
  | cons b bs ih => exact ih (a + 1) (flashPut_wf a b h)

theorem flashFilter_wf {m : List Host.Cell} (f : Host.Cell → Bool) (h : Flash.wf m = true) : Flash.wf (m.filter f) = true := by
  obtain ⟨h1, h2⟩ := Bool.and_eq_true_iff.mp h
  refine Bool.and_eq_true_iff.mpr ⟨awf_filter f h1, ?_⟩
  rw [List.all_eq_true] at h2 ⊢
  exact fun x hx => h2 x ((List.mem_filter.mp hx).1)

end Sys2Proof.Laws
end

