-- ==== Sys2Proof/Laws/Sound.lean ====
section
/-! SUPPORT. Sound states: what soundness rests on, and how it passes through the forms that the definitions are built of. -/

namespace Sys2Proof.Laws
open Sys2Proof Sys2Proof.Machine

/-- All that soundness looks at. -/
def soundView (s : State) :=
  (s.hostMem, s.fw.flash, s.ctrs, s.mgmt.done, s.mgmt.journal, s.mgmt.regLog, s.mgmt.restartEvents, s.host.pf0.evPending,
   s.host.pf1.evPending, s.pwr.faults, s.pwr.board, s.pwr.floor, s.pwr.dieAsk, s.pwr.hbmAsk, s.pwr.level, s.fw.fuseCounter, s.fw.revoked)

/-- Soundness depends on nothing else. -/
theorem sound_congr {s t : State} (h : sound s) (e : soundView t = soundView s) : sound t := by
  simp only [soundView, Prod.mk.injEq] at e
  obtain ⟨e1, e2, e3, e4, e5, e6, e7, e8, e9, e10, e11, e12, e13, e14, e15, e16, e17⟩ := e
  unfold sound bounded legalShed at h ⊢
  rw [e1, e2, e3, e4, e5, e6, e7, e8, e9, e10, e11, e12, e13, e14, e15, e16, e17]
  exact h

/-- Soundness of a state written out over a sound one whose memory and counters it keeps. -/
theorem sound_mk {s : State} {a1 a2 a3 a4 a5 a6 a7 a8 a9 a10 a11 a12 mgmt host a15 a16 a17 a18 a19 a20 a21 a22 a23 a24 a25 a26 a27 fw pwr}
    (h : sound s)
    (e : (fw.flash, fw.fuseCounter, fw.revoked, mgmt.done, mgmt.journal, mgmt.regLog, mgmt.restartEvents, host.pf0.evPending,
        host.pf1.evPending, pwr.faults, pwr.board, pwr.floor, pwr.dieAsk, pwr.hbmAsk, pwr.level) =
      (s.fw.flash, s.fw.fuseCounter, s.fw.revoked, s.mgmt.done, s.mgmt.journal, s.mgmt.regLog, s.mgmt.restartEvents,
        s.host.pf0.evPending, s.host.pf1.evPending, s.pwr.faults, s.pwr.board, s.pwr.floor, s.pwr.dieAsk, s.pwr.hbmAsk, s.pwr.level)) :
    sound (State.mk a1 a2 a3 a4 a5 a6 a7 a8 a9 a10 a11 a12 mgmt host s.hostMem s.ctrs a15 a16 a17 a18 a19 a20 a21 a22 a23 a24 a25 a26
      a27 fw pwr) := by
  simp only [Prod.mk.injEq] at e
  obtain ⟨e1, e2, e3, e4, e5, e6, e7, e8, e9, e10, e11, e12, e13, e14, e15⟩ := e
  unfold sound bounded legalShed at h ⊢
  dsimp only
  rw [e1, e2, e3, e4, e5, e6, e7, e8, e9, e10, e11, e12, e13, e14, e15]
  exact h

theorem hostMem_of {s : State} (h : sound s) : awf s.hostMem = true := h.1
theorem flash_of {s : State} (h : sound s) : Flash.wf s.fw.flash = true := h.2.1
theorem ctrs_of {s : State} (h : sound s) : awf s.ctrs = true := h.2.2.1
theorem bounded_of {s : State} (h : sound s) : bounded s := h.2.2.2.1
theorem legal_of {s : State} (h : sound s) : legalShed s := h.2.2.2.2.1
theorem fuses_of {s : State} (h : sound s) : s.fw.fuseCounter ≤ 64 ∧ s.fw.revoked < 8 := h.2.2.2.2.2

/-- Other host memory in canonical form. -/
theorem sound_hostMem {s : State} {m} (h : sound s) (hm : awf m = true) : sound { s with hostMem := m } := ⟨hm, h.2⟩

/-- Other counters in canonical form. -/
theorem sound_ctrs {s : State} {m} (h : sound s) (hm : awf m = true) : sound { s with ctrs := m } := ⟨h.1, h.2.1, hm, h.2.2.2⟩

/-- Other management records within their bounds. -/
theorem sound_mgmt {s : State} {m : Mgmt} (h : sound s) (h1 : m.done.length ≤ 4096) (h2 : m.journal.length ≤ 1048576)
    (h3 : m.regLog.length ≤ 256) (h4 : m.restartEvents.length ≤ 1024) : sound { s with mgmt := m } :=
  ⟨h.1, h.2.1, h.2.2.1, ⟨h1, h2, h3, h4, h.2.2.2.1.2.2.2.2⟩, h.2.2.2.2⟩

/-- Another memory state. -/
theorem sound_mem {s : State} {m : Mem} (h : sound s) : sound { s with mem := m } := sound_mk h rfl

/-- A power state with legal levels and a bounded fault log. -/
theorem sound_pwr {s : State} {p : Power} (h : sound s) (h0 : p.faults.length ≤ 64) (h1 : p.board ≤ 3) (h2 : p.floor ≤ 4)
    (h3 : p.dieAsk ≤ 4) (h4 : p.hbmAsk ≤ 2) (h5 : p.level ≤ 5) : sound { s with pwr := p } :=
  ⟨h.1, h.2.1, h.2.2.1, ⟨h.2.2.2.1.1, h.2.2.2.1.2.1, h.2.2.2.1.2.2.1, h.2.2.2.1.2.2.2.1, h.2.2.2.1.2.2.2.2.1,
    h.2.2.2.1.2.2.2.2.2.1, h0⟩, ⟨h1, h2, h3, h4, h5⟩, h.2.2.2.2.2⟩

/-- Firmware state with other flash, fuses and revocations that are in order. -/
theorem sound_fw {s : State} {f : Fw} (h : sound s) (h1 : Flash.wf f.flash = true) (h2 : f.fuseCounter ≤ 64) (h3 : f.revoked < 8) :
    sound { s with fw := f } := ⟨h.1, h1, h.2.2.1, h.2.2.2.1, h.2.2.2.2.1, h2, h3⟩

/-- A change of a function that leaves its events waiting within their bound. -/
theorem keeps_updFn_at {n : Nat} {f : PciFn → PciFn} {s : State} (h : sound s) (e : (f (pciFn n s)).evPending.length ≤ 8192) :
    sound (updFn n f s) := by
  unfold updFn
  unfold pciFn at e
  obtain ⟨h1, h2, h3, ⟨b1, b2, b3, b4, b5, b6, b7⟩, h5⟩ := h
  split
  · rename_i hn
    rw [if_pos hn] at e
    exact ⟨h1, h2, h3, ⟨b1, b2, b3, b4, e, b6, b7⟩, h5⟩
  · rename_i hn
    rw [if_neg hn] at e
    exact ⟨h1, h2, h3, ⟨b1, b2, b3, b4, b5, e, b7⟩, h5⟩

/-- Events waiting at a function are within their bound. -/
theorem evPending_of {s : State} (h : sound s) (n : Nat) : (pciFn n s).evPending.length ≤ 8192 := by
  unfold pciFn
  split
  · exact (bounded_of h).2.2.2.2.1
  · exact (bounded_of h).2.2.2.2.2.1

/-- A change of a function that leaves the events waiting alone. -/
theorem keeps_updFn {n : Nat} {f : PciFn → PciFn} {s : State} (h : sound s) (e : ∀ x, (f x).evPending = x.evPending) :
    sound (updFn n f s) := keeps_updFn_at h (by rw [e]; exact (evPending_of h n))

/-- A change of firmware state to flash, fuses and revocations in order. -/
theorem keeps_updFw_at {f : Fw → Fw} {s : State} (h : sound s) (h1 : Flash.wf (f s.fw).flash = true) (h2 : (f s.fw).fuseCounter ≤ 64)
    (h3 : (f s.fw).revoked < 8) : sound (updFw f s) := sound_fw h h1 h2 h3

/-- A change of firmware state that leaves flash, fuses and revocations alone. -/
theorem keeps_updFw {f : Fw → Fw} {s : State} (h : sound s)
    (e : (fun x => ((f x).flash, (f x).fuseCounter, (f x).revoked)) = fun x => (x.flash, x.fuseCounter, x.revoked)) : sound (updFw f s) := by
  have e := congrFun e s.fw
  simp only [Prod.mk.injEq] at e
  refine sound_fw h ?_ ?_ ?_
  · rw [e.1]; exact (flash_of h)
  · rw [e.2.1]; exact (fuses_of h).1
  · rw [e.2.2]; exact (fuses_of h).2

/-- A change of power state to legal levels and a bounded fault log. -/
theorem keeps_updPwr_at {f : Power → Power} {s : State} (h : sound s) (h0 : (f s.pwr).faults.length ≤ 64) (h1 : (f s.pwr).board ≤ 3)
    (h2 : (f s.pwr).floor ≤ 4) (h3 : (f s.pwr).dieAsk ≤ 4) (h4 : (f s.pwr).hbmAsk ≤ 2) (h5 : (f s.pwr).level ≤ 5) :
    sound (updPwr f s) := sound_pwr h h0 h1 h2 h3 h4 h5

/-- A change of power state that leaves levels, requests and the fault log alone. -/
theorem keeps_updPwr {f : Power → Power} {s : State} (h : sound s)
    (e : (fun x => ((f x).faults, (f x).board, (f x).floor, (f x).dieAsk, (f x).hbmAsk, (f x).level)) =
      fun x => (x.faults, x.board, x.floor, x.dieAsk, x.hbmAsk, x.level)) : sound (updPwr f s) := by
  have e := congrFun e s.pwr
  simp only [Prod.mk.injEq] at e
  obtain ⟨e0, e1, e2, e3, e4, e5⟩ := e
  obtain ⟨l1, l2, l3, l4, l5⟩ := (legal_of h)
  refine sound_pwr h ?_ ?_ ?_ ?_ ?_ ?_
  · rw [e0]; exact (bounded_of h).2.2.2.2.2.2
  · rw [e1]; exact l1
  · rw [e2]; exact l2
  · rw [e3]; exact l3
  · rw [e4]; exact l4
  · rw [e5]; exact l5

/-- A verdict that leaves a sound state. -/
def soundVerdict : Verdict → Prop
  | .refuse _ => True
  | .done _ _ t => sound t
  | .wait _ _ t => sound t

/-- A table operation's verdict that leaves a sound state. -/
def soundTable : TVerdict → Prop
  | .acted _ t => sound t
  | _ => True

/-- An outcome that leaves a sound state. -/
def soundRes (r : Res) : Prop := ∀ t, r = .next t → sound t

/-- A state that may be absent. -/
def soundOpt (o : Option State) : Prop := ∀ t, o = some t → sound t

/-- A pair that may be absent. -/
def soundOptPair {α : Type} (o : Option (α × State)) : Prop := ∀ a t, o = some (a, t) → sound t

/-- A command whose body keeps sound states sound. -/
def soundSpec (c : CmdSpec) : Prop := ∀ h s, sound s → soundVerdict (c.body h s)

/-- A table operation whose rules keep sound states sound. -/
def soundTableOp (t : TableOp) : Prop := ∀ d m f s, sound s → soundTable (t.body d m f s)

theorem sound_let {α : Type} {v : α} {f : α → State} (h : sound (f v)) : sound (have x := v; f x) := h

theorem sound_ite {p : Prop} [Decidable p] {a b : State} (ha : sound a) (hb : sound b) : sound (if p then a else b) := by
  split <;> assumption

theorem soundVerdict_ite {p : Prop} [Decidable p] {a b : Verdict} (ha : soundVerdict a) (hb : soundVerdict b) :
    soundVerdict (if p then a else b) := by split <;> assumption

theorem soundVerdict_refuse {st : Nat} : soundVerdict (.refuse st) := trivial
theorem soundVerdict_done {st : Nat} {r : List Byte} {t : State} (h : sound t) : soundVerdict (.done st r t) := h
theorem soundVerdict_wait {w : WaitFor} {r : List Byte} {t : State} (h : sound t) : soundVerdict (.wait w r t) := h

theorem soundTable_ite {p : Prop} [Decidable p] {a b : TVerdict} (ha : soundTable a) (hb : soundTable b) :
    soundTable (if p then a else b) := by split <;> assumption

theorem soundTable_refuse {st rel : Nat} : soundTable (.refuse st rel) := trivial
theorem soundTable_stage {n : Nat} {ch : Change} : soundTable (.stage n ch) := trivial
theorem soundTable_acted {st : Nat} {t : State} (h : sound t) : soundTable (.acted st t) := h

theorem soundRes_next {t : State} (h : sound t) : soundRes (.next t) := by
  intro u hu; injection hu with hu; exact hu ▸ h

theorem soundOpt_none : soundOpt none := by intro t h; exact absurd h (by simp)
theorem soundOpt_some {t : State} (h : sound t) : soundOpt (some t) := by
  intro u hu; injection hu with hu; exact hu ▸ h
theorem soundOptPair_none {α : Type} : soundOptPair (none : Option (α × State)) := by intro a t h; exact absurd h (by simp)
theorem soundOptPair_some {α : Type} {x : α × State} (h : sound x.2) : soundOptPair (some x) := by
  intro a u hu; injection hu with hu; rw [hu] at h; exact h

theorem sound_of_pair {α : Type} {x : α × State} {a : α} {t : State} (e : x = (a, t)) (h : sound x.2) : sound t := by rw [e] at h; exact h
theorem sound_of_some {o : Option State} {t : State} (e : o = some t) (h : soundOpt o) : sound t := h t e
theorem sound_of_somePair {α : Type} {o : Option (α × State)} {a : α} {t : State} (e : o = some (a, t)) (h : soundOptPair o) : sound t := h a t e

theorem sound_foldl {β : Type} {l : List β} {f : State → β → State} {s : State} (hf : ∀ s b, sound s → sound (f s b)) (h : sound s) :
    sound (l.foldl f s) := by
  induction l generalizing s with
  | nil => exact h
  | cons b l ih => exact ih (hf s b h)

/-- A fold over an accumulator of which `π` is the state. -/
theorem sound_foldl_by {α β : Type} (π : α → State) {l : List β} {f : α → β → α} {a : α} (hf : ∀ a b, sound (π a) → sound (π (f a b)))
    (h : sound (π a)) : sound (π (l.foldl f a)) := by
  induction l generalizing a with
  | nil => exact h
  | cons b l ih => exact ih (hf a b h)

/-- A fold whose steps keep soundness for the members of the list. -/
theorem sound_foldl_mem {β : Type} {l : List β} {f : State → β → State} {s : State} (hf : ∀ s, ∀ b ∈ l, sound s → sound (f s b))
    (h : sound s) : sound (l.foldl f s) := by
  induction l generalizing s with
  | nil => exact h
  | cons b l ih => exact ih (fun s c hc => hf s c (List.mem_cons_of_mem b hc)) (hf s b List.mem_cons_self h)

theorem soundOptPair_map {α β : Type} {o : Option β} {f : β → α × State} (h : ∀ b, sound (f b).2) : soundOptPair (o.map f) := by
  intro a t e
  cases o with
  | none => exact absurd e (by simp)
  | some b =>
    injection e with e
    have hb := h b
    rw [e] at hb
    exact hb

end Sys2Proof.Laws
end

