-- ==== Sys2Proof/Laws/Asks.lean ====
section
/-! SUPPORT. What a change of the shed level leaves alone: Tempo, and the settings of `power.shed.config`. -/

namespace Sys2Proof.Laws
open Sys2Proof Sys2Proof.Machine

/-- Tempo, FLOOR and S3_KEEP_RANK are those of `r`. -/
def asks (r s : State) : Prop := s.tempo = r.tempo ∧ s.pwr.floor = r.pwr.floor ∧ s.pwr.keepRank = r.pwr.keepRank

theorem asks_refl (s : State) : asks s s := ⟨rfl, rfl, rfl⟩

theorem asks_mk {r s : State} {a1 a2 a3 a4 a5 a6 a7 a8 a9 a10 a11 a12 a13 a14 a15 a16 a17 a18 a19 a20 a21 a22 a23 a24 a25 a26 a27 a28 a29 pwr}
    (h : asks r s) (e : pwr.floor = s.pwr.floor ∧ pwr.keepRank = s.pwr.keepRank) :
    asks r (State.mk a1 a2 a3 a4 s.tempo a5 a6 a7 a8 a9 a10 a11 a12 a13 a14 a15 a16 a17 a18 a19 a20 a21 a22 a23 a24 a25 a26 a27 a28 a29 pwr) :=
  ⟨h.1, e.1.trans h.2.1, e.2.trans h.2.2⟩

theorem asks_ite {r : State} {p : Prop} [Decidable p] {a b : State} (ha : asks r a) (hb : asks r b) : asks r (if p then a else b) := by
  split <;> assumption

theorem asks_of_pair {α : Type} {r : State} {x : α × State} {a : α} {t : State} (e : x = (a, t)) (h : asks r x.2) : asks r t := by
  rw [e] at h; exact h

theorem asks_of_some {r : State} {x : Option State} {t : State} (e : x = some t) (h : ∀ u, x = some u → asks r u) : asks r t := h t e

theorem asks_foldl {β : Type} {r : State} {l : List β} {f : State → β → State} {s : State} (hf : ∀ s b, asks r s → asks r (f s b))
    (h : asks r s) : asks r (l.foldl f s) := by
  induction l generalizing s with
  | nil => exact h
  | cons b l ih => exact ih (hf s b h)

theorem asks_foldl_by {β γ : Type} (g : γ → State) {r : State} {l : List β} {f : γ → β → γ} {a : γ}
    (hf : ∀ a b, asks r (g a) → asks r (g (f a b))) (h : asks r (g a)) : asks r (g (l.foldl f a)) := by
  induction l generalizing a with
  | nil => exact h
  | cons b l ih => exact ih (hf a b h)

theorem asks_updFn {r a0 a1} {s : State} (h : asks r s) : asks r (updFn a0 a1 s) := by
  unfold updFn
  exact asks_ite h h

theorem asks_updPwr {r f} {s : State} (h : asks r s) (e : (f s.pwr).floor = s.pwr.floor ∧ (f s.pwr).keepRank = s.pwr.keepRank) :
    asks r (updPwr f s) := ⟨h.1, e.1.trans h.2.1, e.2.trans h.2.2⟩

theorem asks_logFault {r a0 a1 a2} {s : State} (h : asks r s) : asks r (logFault a0 a1 a2 s) := by
  unfold logFault
  try dsimp only
  with_reducible repeat' first | assumption | ((fail_if_success (fail_if_success conv => arg 2; arg 30)); refine asks_mk ?_ ⟨by rfl, by rfl⟩) | refine asks_ite ?_ ?_ | refine asks_foldl ?_ ?_ | refine asks_of_pair (by assumption) ?_ | split | dsimp only | intro _

theorem asks_emit {r a0} {s : State} (h : asks r s) : asks r (emit a0 s) := by
  unfold emit
  try dsimp only
  with_reducible repeat' first | assumption | ((fail_if_success (fail_if_success conv => arg 2; arg 30)); refine asks_mk ?_ ⟨by rfl, by rfl⟩) | refine asks_ite ?_ ?_ | refine asks_foldl ?_ ?_ | refine asks_of_pair (by assumption) ?_ | split | dsimp only | intro _

theorem asks_bump {r a0 a1} {s : State} (h : asks r s) : asks r (bump a0 a1 s) := by
  unfold bump
  try dsimp only
  with_reducible repeat' first | assumption | ((fail_if_success (fail_if_success conv => arg 2; arg 30)); refine asks_mk ?_ ⟨by rfl, by rfl⟩) | refine asks_ite ?_ ?_ | refine asks_foldl ?_ ?_ | refine asks_of_pair (by assumption) ?_ | split | dsimp only | intro _

theorem asks_tally {r a0} {s : State} (h : asks r s) : asks r (tally a0 s) := by
  unfold tally
  try dsimp only
  with_reducible repeat' first | assumption | ((fail_if_success (fail_if_success conv => arg 2; arg 30)); refine asks_mk ?_ ⟨by rfl, by rfl⟩) | refine asks_ite ?_ ?_ | refine asks_bump ?_ | refine asks_foldl ?_ ?_ | refine asks_of_pair (by assumption) ?_ | split | dsimp only | intro _

theorem asks_busFrame {r a0} {s : State} (h : asks r s) : asks r (busFrame a0 s) := by
  unfold busFrame
  try dsimp only
  with_reducible repeat' first | assumption | ((fail_if_success (fail_if_success conv => arg 2; arg 30)); refine asks_mk ?_ ⟨by rfl, by rfl⟩) | refine asks_ite ?_ ?_ | refine asks_emit ?_ | refine asks_tally ?_ | refine asks_foldl ?_ ?_ | refine asks_of_pair (by assumption) ?_ | split | dsimp only | intro _

theorem asks_busSendId {r a0 a1 a2 a3} {s : State} (h : asks r s) : asks r (busSendId a0 a1 a2 a3 s) := by
  unfold busSendId
  try dsimp only
  with_reducible repeat' first | assumption | ((fail_if_success (fail_if_success conv => arg 2; arg 30)); refine asks_mk ?_ ⟨by rfl, by rfl⟩) | refine asks_ite ?_ ?_ | refine asks_busFrame ?_ | refine asks_foldl ?_ ?_ | refine asks_of_pair (by assumption) ?_ | split | dsimp only | intro _

theorem asks_busSend {r a0 a1 a2} {s : State} (h : asks r s) : asks r (busSend a0 a1 a2 s) := by
  unfold busSend
  try dsimp only
  with_reducible repeat' first | assumption | ((fail_if_success (fail_if_success conv => arg 2; arg 30)); refine asks_mk ?_ ⟨by rfl, by rfl⟩) | refine asks_ite ?_ ?_ | refine asks_busSendId ?_ | refine asks_foldl ?_ ?_ | refine asks_of_pair (by assumption) ?_ | split | dsimp only | intro _

theorem asks_busEvent {r a0} {s : State} (h : asks r s) : asks r (busEvent a0 s) := by
  unfold busEvent
  try dsimp only
  with_reducible repeat' first | assumption | ((fail_if_success (fail_if_success conv => arg 2; arg 30)); refine asks_mk ?_ ⟨by rfl, by rfl⟩) | refine asks_ite ?_ ?_ | refine asks_busSend ?_ | refine asks_foldl ?_ ?_ | refine asks_of_pair (by assumption) ?_ | split | dsimp only | intro _

theorem asks_hostWrite {r a0 a1} {s : State} (h : asks r s) : asks r (hostWrite a0 a1 s) := by
  unfold hostWrite
  try dsimp only
  with_reducible repeat' first | assumption | ((fail_if_success (fail_if_success conv => arg 2; arg 30)); refine asks_mk ?_ ⟨by rfl, by rfl⟩) | refine asks_ite ?_ ?_ | refine asks_foldl ?_ ?_ | refine asks_of_pair (by assumption) ?_ | split | dsimp only | intro _

theorem asks_updRing {r a0 a1} {s : State} (h : asks r s) : asks r (updRing a0 a1 s) := by
  unfold updRing
  try dsimp only
  with_reducible repeat' first | assumption | ((fail_if_success (fail_if_success conv => arg 2; arg 30)); refine asks_mk ?_ ⟨by rfl, by rfl⟩) | refine asks_ite ?_ ?_ | refine asks_foldl ?_ ?_ | refine asks_of_pair (by assumption) ?_ | split | dsimp only | intro _

theorem asks_sendMsix {r a0 a1} {s : State} (h : asks r s) : asks r (sendMsix a0 a1 s) := by
  unfold sendMsix
  try dsimp only
  with_reducible repeat' first | assumption | refine asks_updFn ?_ | ((fail_if_success (fail_if_success conv => arg 2; arg 30)); refine asks_mk ?_ ⟨by rfl, by rfl⟩) | refine asks_ite ?_ ?_ | refine asks_emit ?_ | refine asks_foldl ?_ ?_ | refine asks_of_pair (by assumption) ?_ | split | dsimp only | intro _

theorem asks_signalRing {r a0} {s : State} (h : asks r s) : asks r (signalRing a0 s) := by
  unfold signalRing
  try dsimp only
  with_reducible repeat' first | assumption | ((fail_if_success (fail_if_success conv => arg 2; arg 30)); refine asks_mk ?_ ⟨by rfl, by rfl⟩) | refine asks_ite ?_ ?_ | refine asks_sendMsix ?_ | refine asks_updRing ?_ | refine asks_foldl ?_ ?_ | refine asks_of_pair (by assumption) ?_ | split | dsimp only | intro _

theorem asks_moderate {r a0} {s : State} (h : asks r s) : asks r (moderate a0 s) := by
  unfold moderate
  try dsimp only
  with_reducible repeat' first | assumption | ((fail_if_success (fail_if_success conv => arg 2; arg 30)); refine asks_mk ?_ ⟨by rfl, by rfl⟩) | refine asks_ite ?_ ?_ | refine asks_signalRing ?_ | refine asks_updRing ?_ | refine asks_foldl ?_ ?_ | refine asks_of_pair (by assumption) ?_ | split | dsimp only | intro _

theorem asks_publish {r a0} {s : State} (h : asks r s) : asks r (publish a0 s) := by
  unfold publish
  try dsimp only
  with_reducible repeat' first | assumption | ((fail_if_success (fail_if_success conv => arg 2; arg 30)); refine asks_mk ?_ ⟨by rfl, by rfl⟩) | refine asks_ite ?_ ?_ | refine asks_hostWrite ?_ | refine asks_foldl ?_ ?_ | refine asks_of_pair (by assumption) ?_ | split | dsimp only | intro _

theorem asks_writeRecord {r a0 a1} {s : State} (h : asks r s) : asks r (writeRecord a0 a1 s) := by
  unfold writeRecord
  try dsimp only
  with_reducible repeat' first | assumption | ((fail_if_success (fail_if_success conv => arg 2; arg 30)); refine asks_mk ?_ ⟨by rfl, by rfl⟩) | refine asks_ite ?_ ?_ | refine asks_hostWrite ?_ | refine asks_updRing ?_ | refine asks_moderate ?_ | refine asks_publish ?_ | refine asks_foldl ?_ ?_ | refine asks_of_pair (by assumption) ?_ | split | dsimp only | intro _

theorem asks_flushEvents {r a0 a1} {s : State} (h : asks r s) : asks r (flushEvents a0 a1 s) := by
  induction a0 generalizing a1 s with
  | zero =>
    unfold flushEvents
    with_reducible repeat' first | assumption | refine ih ?_ | refine asks_updFn ?_ | ((fail_if_success (fail_if_success conv => arg 2; arg 30)); refine asks_mk ?_ ⟨by rfl, by rfl⟩) | refine asks_ite ?_ ?_ | refine asks_writeRecord ?_ | refine asks_foldl ?_ ?_ | refine asks_of_pair (by assumption) ?_ | split | dsimp only | intro _
  | succ fuel ih =>
    unfold flushEvents
    try dsimp only
    with_reducible repeat' first | assumption | refine ih ?_ | refine asks_updFn ?_ | ((fail_if_success (fail_if_success conv => arg 2; arg 30)); refine asks_mk ?_ ⟨by rfl, by rfl⟩) | refine asks_ite ?_ ?_ | refine asks_writeRecord ?_ | refine asks_foldl ?_ ?_ | refine asks_of_pair (by assumption) ?_ | split | dsimp only | intro _

theorem asks_giveEvent {r a0 a1} {s : State} (h : asks r s) : asks r (giveEvent a0 a1 s) := by
  unfold giveEvent
  try dsimp only
  with_reducible repeat' first | assumption | refine asks_updFn ?_ | ((fail_if_success (fail_if_success conv => arg 2; arg 30)); refine asks_mk ?_ ⟨by rfl, by rfl⟩) | refine asks_ite ?_ ?_ | refine asks_flushEvents ?_ | refine asks_foldl ?_ ?_ | refine asks_of_pair (by assumption) ?_ | split | dsimp only | intro _

theorem asks_raiseEvent {r a0 a1 a2 a3} {s : State} (h : asks r s) : asks r (raiseEvent a0 a1 a2 a3 s) := by
  unfold raiseEvent
  try dsimp only
  with_reducible repeat' first | assumption | ((fail_if_success (fail_if_success conv => arg 2; arg 30)); refine asks_mk ?_ ⟨by rfl, by rfl⟩) | refine asks_ite ?_ ?_ | refine asks_logFault ?_ | refine asks_busEvent ?_ | refine asks_giveEvent ?_ | refine asks_foldl ?_ ?_ | refine asks_of_pair (by assumption) ?_ | split | dsimp only | intro _

theorem asks_checkStall {r a0} {s : State} (h : asks r s) : asks r (checkStall a0 s) := by
  unfold checkStall
  try dsimp only
  with_reducible repeat' first | assumption | ((fail_if_success (fail_if_success conv => arg 2; arg 30)); refine asks_mk ?_ ⟨by rfl, by rfl⟩) | refine asks_ite ?_ ?_ | refine asks_raiseEvent ?_ | refine asks_tally ?_ | refine asks_updRing ?_ | refine asks_foldl ?_ ?_ | refine asks_of_pair (by assumption) ?_ | split | dsimp only | intro _

theorem asks_freeTs {r a0} {s : State} (h : asks r s) : asks r (freeTs a0 s) := by
  unfold freeTs
  try dsimp only
  with_reducible repeat' first | assumption | ((fail_if_success (fail_if_success conv => arg 2; arg 30)); refine asks_mk ?_ ⟨by rfl, by rfl⟩) | refine asks_ite ?_ ?_ | refine asks_foldl ?_ ?_ | refine asks_of_pair (by assumption) ?_ | split | dsimp only | intro _

theorem asks_dropCause {r a0} {s : State} (h : asks r s) : asks r (dropCause a0 s) := by
  unfold dropCause
  try dsimp only
  with_reducible repeat' first | assumption | ((fail_if_success (fail_if_success conv => arg 2; arg 30)); refine asks_mk ?_ ⟨by rfl, by rfl⟩) | refine asks_ite ?_ ?_ | refine asks_tally ?_ | refine asks_foldl ?_ ?_ | refine asks_of_pair (by assumption) ?_ | split | dsimp only | intro _

theorem asks_dmaWrite {r a0 a1 a2} {s : State} (h : asks r s) : asks r (dmaWrite a0 a1 a2 s) := by
  unfold dmaWrite
  try dsimp only
  with_reducible repeat' first | assumption | refine asks_updFn ?_ | ((fail_if_success (fail_if_success conv => arg 2; arg 30)); refine asks_mk ?_ ⟨by rfl, by rfl⟩) | refine asks_ite ?_ ?_ | refine asks_hostWrite ?_ | refine asks_foldl ?_ ?_ | refine asks_of_pair (by assumption) ?_ | split | dsimp only | intro _

theorem asks_raiseGlb {r a0} {s : State} (h : asks r s) : asks r (raiseGlb a0 s) := by
  unfold raiseGlb
  try dsimp only
  with_reducible repeat' first | assumption | ((fail_if_success (fail_if_success conv => arg 2; arg 30)); refine asks_mk ?_ ⟨by rfl, by rfl⟩) | refine asks_ite ?_ ?_ | refine asks_sendMsix ?_ | refine asks_foldl ?_ ?_ | refine asks_of_pair (by assumption) ?_ | split | dsimp only | intro _

theorem asks_checkStalls {r} {s : State} (h : asks r s) : asks r (checkStalls s) := by
  unfold checkStalls
  try dsimp only
  with_reducible repeat' first | assumption | ((fail_if_success (fail_if_success conv => arg 2; arg 30)); refine asks_mk ?_ ⟨by rfl, by rfl⟩) | refine asks_ite ?_ ?_ | refine asks_checkStall ?_ | refine asks_foldl ?_ ?_ | refine asks_of_pair (by assumption) ?_ | split | dsimp only | intro _

theorem asks_postCompletion {r a0 a1} {s : State} (h : asks r s) : asks r (postCompletion a0 a1 s) := by
  unfold postCompletion
  try dsimp only
  with_reducible repeat' first | assumption | ((fail_if_success (fail_if_success conv => arg 2; arg 30)); refine asks_mk ?_ ⟨by rfl, by rfl⟩) | refine asks_ite ?_ ?_ | refine asks_freeTs ?_ | refine asks_writeRecord ?_ | refine asks_checkStalls ?_ | refine asks_updRing ?_ | refine asks_foldl ?_ ?_ | refine asks_of_pair (by assumption) ?_ | split | dsimp only | intro _

theorem asks_updMac {r a0 a1} {s : State} (h : asks r s) : asks r (updMac a0 a1 s) := by
  unfold updMac
  try dsimp only
  with_reducible repeat' first | assumption | ((fail_if_success (fail_if_success conv => arg 2; arg 30)); refine asks_mk ?_ ⟨by rfl, by rfl⟩) | refine asks_ite ?_ ?_ | refine asks_foldl ?_ ?_ | refine asks_of_pair (by assumption) ?_ | split | dsimp only | intro _

theorem asks_journal {r a0} {s : State} (h : asks r s) : asks r (journal a0 s) := by
  unfold journal
  try dsimp only
  with_reducible repeat' first | assumption | ((fail_if_success (fail_if_success conv => arg 2; arg 30)); refine asks_mk ?_ ⟨by rfl, by rfl⟩) | refine asks_ite ?_ ?_ | refine asks_foldl ?_ ?_ | refine asks_of_pair (by assumption) ?_ | split | dsimp only | intro _

theorem asks_crlOut {r a0 a1} {s : State} (h : asks r s) : asks r (crlOut a0 a1 s) := by
  unfold crlOut
  try dsimp only
  with_reducible repeat' first | assumption | ((fail_if_success (fail_if_success conv => arg 2; arg 30)); refine asks_mk ?_ ⟨by rfl, by rfl⟩) | refine asks_ite ?_ ?_ | refine asks_emit ?_ | refine asks_foldl ?_ ?_ | refine asks_of_pair (by assumption) ?_ | split | dsimp only | intro _

theorem asks_floodId {r a0 a1 a2 a3} {s : State} (h : asks r s) : asks r (floodId a0 a1 a2 a3 s) := by
  unfold floodId
  try dsimp only
  with_reducible repeat' first | assumption | ((fail_if_success (fail_if_success conv => arg 2; arg 30)); refine asks_mk ?_ ⟨by rfl, by rfl⟩) | refine asks_ite ?_ ?_ | refine asks_crlOut ?_ | refine asks_foldl ?_ ?_ | refine asks_of_pair (by assumption) ?_ | split | dsimp only | intro _

theorem asks_nextMsg {r} {s : State} (h : asks r s) : asks r (nextMsg s) := by
  unfold nextMsg
  try dsimp only
  with_reducible repeat' first | assumption | ((fail_if_success (fail_if_success conv => arg 2; arg 30)); refine asks_mk ?_ ⟨by rfl, by rfl⟩) | refine asks_ite ?_ ?_ | refine asks_foldl ?_ ?_ | refine asks_of_pair (by assumption) ?_ | split | dsimp only | intro _

theorem asks_flood {r a0 a1 a2} {s : State} (h : asks r s) : asks r (flood a0 a1 a2 s) := by
  unfold flood
  try dsimp only
  with_reducible repeat' first | assumption | ((fail_if_success (fail_if_success conv => arg 2; arg 30)); refine asks_mk ?_ ⟨by rfl, by rfl⟩) | refine asks_ite ?_ ?_ | refine asks_floodId ?_ | refine asks_nextMsg ?_ | refine asks_foldl ?_ ?_ | refine asks_of_pair (by assumption) ?_ | split | dsimp only | intro _

theorem asks_busRespond {r a0 a1 a2} {s : State} (h : asks r s) : asks r (busRespond a0 a1 a2 s) := by
  unfold busRespond
  try dsimp only
  with_reducible repeat' first | assumption | ((fail_if_success (fail_if_success conv => arg 2; arg 30)); refine asks_mk ?_ ⟨by rfl, by rfl⟩) | refine asks_ite ?_ ?_ | refine asks_busSendId ?_ | refine asks_foldl ?_ ?_ | refine asks_of_pair (by assumption) ?_ | split | dsimp only | intro _

theorem asks_relayRespond {r a0 a1 a2} {s : State} (h : asks r s) : asks r (relayRespond a0 a1 a2 s) := by
  unfold relayRespond
  try dsimp only
  with_reducible repeat' first | assumption | ((fail_if_success (fail_if_success conv => arg 2; arg 30)); refine asks_mk ?_ ⟨by rfl, by rfl⟩) | refine asks_ite ?_ ?_ | refine asks_floodId ?_ | refine asks_foldl ?_ ?_ | refine asks_of_pair (by assumption) ?_ | split | dsimp only | intro _

theorem asks_enterSpill {r a0} {s : State} (h : asks r s) : asks r (enterSpill a0 s) := by
  unfold enterSpill
  exact asks_tally h

theorem asks_spillAtLevel3 {r} {s : State} (h : asks r s) : asks r (spillAtLevel3 s) := by
  unfold spillAtLevel3
  try dsimp only
  with_reducible repeat' first | assumption | ((fail_if_success (fail_if_success conv => arg 2; arg 30)); refine asks_mk ?_ ⟨by rfl, by rfl⟩) | refine asks_ite ?_ ?_ | refine asks_enterSpill ?_ | refine asks_foldl ?_ ?_ | refine asks_of_pair (by assumption) ?_ | split | dsimp only | intro _

theorem asks_reportLevels {r} {s : State} (h : asks r s) : asks r (reportLevels s) := by
  unfold reportLevels
  try dsimp only
  with_reducible repeat' first | assumption | ((fail_if_success (fail_if_success conv => arg 2; arg 30)); refine asks_mk ?_ ⟨by rfl, by rfl⟩) | refine asks_ite ?_ ?_ | refine asks_spillAtLevel3 ?_ | refine asks_raiseEvent ?_ | refine asks_foldl ?_ ?_ | refine asks_of_pair (by assumption) ?_ | split | dsimp only | intro _

theorem asks_setUsed {r a0 a1 a2} {s : State} (h : asks r s) : asks r (setUsed a0 a1 a2 s) := by
  unfold setUsed
  try dsimp only
  with_reducible repeat' first | assumption | ((fail_if_success (fail_if_success conv => arg 2; arg 30)); refine asks_mk ?_ ⟨by rfl, by rfl⟩) | refine asks_ite ?_ ?_ | refine asks_foldl ?_ ?_ | refine asks_of_pair (by assumption) ?_ | split | dsimp only | intro _

theorem asks_unref {r a0} {s : State} (h : asks r s) : asks r (unref a0 s) := by
  unfold unref
  try dsimp only
  with_reducible repeat' first | assumption | ((fail_if_success (fail_if_success conv => arg 2; arg 30)); refine asks_mk ?_ ⟨by rfl, by rfl⟩) | refine asks_ite ?_ ?_ | refine asks_reportLevels ?_ | refine asks_setUsed ?_ | refine asks_foldl ?_ ?_ | refine asks_of_pair (by assumption) ?_ | split | dsimp only | intro _

theorem asks_setVoq {r a0 a1} {s : State} (h : asks r s) : asks r (setVoq a0 a1 s) := by
  unfold setVoq
  try dsimp only
  with_reducible repeat' first | assumption | ((fail_if_success (fail_if_success conv => arg 2; arg 30)); refine asks_mk ?_ ⟨by rfl, by rfl⟩) | refine asks_ite ?_ ?_ | refine asks_foldl ?_ ?_ | refine asks_of_pair (by assumption) ?_ | split | dsimp only | intro _

theorem asks_updVoq {r a0 a1} {s : State} (h : asks r s) : asks r (updVoq a0 a1 s) := by
  unfold updVoq
  try dsimp only
  with_reducible repeat' first | assumption | ((fail_if_success (fail_if_success conv => arg 2; arg 30)); refine asks_mk ?_ ⟨by rfl, by rfl⟩) | refine asks_ite ?_ ?_ | refine asks_setVoq ?_ | refine asks_foldl ?_ ?_ | refine asks_of_pair (by assumption) ?_ | split | dsimp only | intro _

theorem asks_voqDrop {r a0 a1} {s : State} (h : asks r s) : asks r (voqDrop a0 a1 s) := by
  unfold voqDrop
  try dsimp only
  with_reducible repeat' first | assumption | ((fail_if_success (fail_if_success conv => arg 2; arg 30)); refine asks_mk ?_ ⟨by rfl, by rfl⟩) | refine asks_ite ?_ ?_ | refine asks_dropCause ?_ | refine asks_tally ?_ | refine asks_foldl ?_ ?_ | refine asks_of_pair (by assumption) ?_ | split | dsimp only | intro _

theorem asks_reportHbm {r} {s : State} (h : asks r s) : asks r (reportHbm s) := by
  unfold reportHbm
  try dsimp only
  with_reducible repeat' first | assumption | ((fail_if_success (fail_if_success conv => arg 2; arg 30)); refine asks_mk ?_ ⟨by rfl, by rfl⟩) | refine asks_ite ?_ ?_ | refine asks_raiseEvent ?_ | refine asks_foldl ?_ ?_ | refine asks_of_pair (by assumption) ?_ | split | dsimp only | intro _

theorem asks_setSegment {r a0 a1 a2} {s : State} (h : asks r s) : asks r (setSegment a0 a1 a2 s) := by
  unfold setSegment
  try dsimp only
  with_reducible repeat' first | assumption | ((fail_if_success (fail_if_success conv => arg 2; arg 30)); refine asks_mk ?_ ⟨by rfl, by rfl⟩) | refine asks_ite ?_ ?_ | refine asks_reportHbm ?_ | refine asks_updVoq ?_ | refine asks_foldl ?_ ?_ | refine asks_of_pair (by assumption) ?_ | split | dsimp only | intro _

theorem asks_checkUnspill {r a0} {s : State} (h : asks r s) : asks r (checkUnspill a0 s) := by
  unfold checkUnspill
  try dsimp only
  with_reducible repeat' first | assumption | ((fail_if_success (fail_if_success conv => arg 2; arg 30)); refine asks_mk ?_ ⟨by rfl, by rfl⟩) | refine asks_ite ?_ ?_ | refine asks_tally ?_ | refine asks_updVoq ?_ | refine asks_setSegment ?_ | refine asks_foldl ?_ ?_ | refine asks_of_pair (by assumption) ?_ | split | dsimp only | intro _

theorem asks_windowDone {r a0 a1} {s : State} (h : asks r s) : asks r (windowDone a0 a1 s) := by
  unfold windowDone
  try dsimp only
  with_reducible repeat' first | assumption | ((fail_if_success (fail_if_success conv => arg 2; arg 30)); refine asks_mk ?_ ⟨by rfl, by rfl⟩) | refine asks_ite ?_ ?_ | refine asks_sendMsix ?_ | refine asks_foldl ?_ ?_ | refine asks_of_pair (by assumption) ?_ | split | dsimp only | intro _

theorem asks_answer {r a0 a1 a2 a3 a4} {s : State} (h : asks r s) : asks r (answer a0 a1 a2 a3 a4 s) := by
  unfold answer
  try dsimp only
  with_reducible repeat' first | assumption | ((fail_if_success (fail_if_success conv => arg 2; arg 30)); refine asks_mk ?_ ⟨by rfl, by rfl⟩) | refine asks_ite ?_ ?_ | refine asks_postCompletion ?_ | refine asks_dmaWrite ?_ | refine asks_windowDone ?_ | refine asks_busRespond ?_ | refine asks_relayRespond ?_ | refine asks_foldl ?_ ?_ | refine asks_of_pair (by assumption) ?_ | split | dsimp only | intro _

theorem asks_finishTo {r a0 a1 a2 a3 a4 a5 a6 a7} {s : State} (h : asks r s) : asks r (finishTo a0 a1 a2 a3 a4 a5 a6 a7 s) := by
  unfold finishTo
  try dsimp only
  with_reducible repeat' first | assumption | ((fail_if_success (fail_if_success conv => arg 2; arg 30)); refine asks_mk ?_ ⟨by rfl, by rfl⟩) | refine asks_ite ?_ ?_ | refine asks_journal ?_ | refine asks_answer ?_ | refine asks_raiseEvent ?_ | refine asks_foldl ?_ ?_ | refine asks_of_pair (by assumption) ?_ | split | dsimp only | intro _

theorem asks_finish {r a0 a1 a2 a3 a4 a5 a6} {s : State} (h : asks r s) : asks r (finish a0 a1 a2 a3 a4 a5 a6 s) := by
  unfold finish
  try dsimp only
  with_reducible repeat' first | assumption | ((fail_if_success (fail_if_success conv => arg 2; arg 30)); refine asks_mk ?_ ⟨by rfl, by rfl⟩) | refine asks_ite ?_ ?_ | refine asks_finishTo ?_ | refine asks_foldl ?_ ?_ | refine asks_of_pair (by assumption) ?_ | split | dsimp only | intro _

theorem asks_finishRunning {r a0 a1 a2 a3 a4 a5} {s : State} (h : asks r s) : asks r (finishRunning a0 a1 a2 a3 a4 a5 s) := by
  unfold finishRunning
  try dsimp only
  with_reducible repeat' first | assumption | ((fail_if_success (fail_if_success conv => arg 2; arg 30)); refine asks_mk ?_ ⟨by rfl, by rfl⟩) | refine asks_ite ?_ ?_ | refine asks_finishTo ?_ | refine asks_foldl ?_ ?_ | refine asks_of_pair (by assumption) ?_ | split | dsimp only | intro _

theorem asks_remarkDue {r a0 a1} {s : State} (h : asks r s) : asks r (remarkDue a0 a1 s) := by
  unfold remarkDue
  try dsimp only
  with_reducible repeat' first | assumption | ((fail_if_success (fail_if_success conv => arg 2; arg 30)); refine asks_mk ?_ ⟨by rfl, by rfl⟩) | refine asks_ite ?_ ?_ | refine asks_foldl ?_ ?_ | refine asks_of_pair (by assumption) ?_ | split | dsimp only | intro _

theorem asks_postMirrored {r a0} {s : State} (h : asks r s) : asks r (postMirrored a0 s) := by
  unfold postMirrored
  try dsimp only
  with_reducible repeat' first | assumption | ((fail_if_success (fail_if_success conv => arg 2; arg 30)); refine asks_mk ?_ ⟨by rfl, by rfl⟩) | refine asks_ite ?_ ?_ | refine asks_postCompletion ?_ | refine asks_remarkDue ?_ | refine asks_foldl ?_ ?_ | refine asks_of_pair (by assumption) ?_ | split | dsimp only | intro _

theorem asks_finishMirrored {r a0} {s : State} (h : asks r s) : asks r (finishMirrored a0 s) := by
  unfold finishMirrored
  try dsimp only
  with_reducible repeat' first | assumption | ((fail_if_success (fail_if_success conv => arg 2; arg 30)); refine asks_mk ?_ ⟨by rfl, by rfl⟩) | refine asks_ite ?_ ?_ | refine asks_finishRunning ?_ | refine asks_remarkDue ?_ | refine asks_foldl ?_ ?_ | refine asks_of_pair (by assumption) ?_ | split | dsimp only | intro _

theorem asks_releaseMirror {r} {s : State} (h : asks r s) : asks r (releaseMirror s) := by
  unfold releaseMirror
  try dsimp only
  with_reducible repeat' first | assumption | ((fail_if_success (fail_if_success conv => arg 2; arg 30)); refine asks_mk ?_ ⟨by rfl, by rfl⟩) | refine asks_ite ?_ ?_ | refine asks_postMirrored ?_ | refine asks_finishMirrored ?_ | refine asks_foldl ?_ ?_ | refine asks_of_pair (by assumption) ?_ | split | dsimp only | intro _

theorem asks_finishWaiting {r a0 a1 a2 a3 a4 a5} {s : State} (h : asks r s) : asks r (finishWaiting a0 a1 a2 a3 a4 a5 s) := by
  unfold finishWaiting
  try dsimp only
  with_reducible repeat' first | assumption | ((fail_if_success (fail_if_success conv => arg 2; arg 30)); refine asks_mk ?_ ⟨by rfl, by rfl⟩) | refine asks_ite ?_ ?_ | refine asks_finishRunning ?_ | refine asks_foldl ?_ ?_ | refine asks_of_pair (by assumption) ?_ | split | dsimp only | intro _

theorem asks_dropPosted {r a0} {s : State} (h : asks r s) : asks r (dropPosted a0 s) := by
  unfold dropPosted
  try dsimp only
  with_reducible repeat' first | assumption | ((fail_if_success (fail_if_success conv => arg 2; arg 30)); refine asks_mk ?_ ⟨by rfl, by rfl⟩) | refine asks_ite ?_ ?_ | refine asks_foldl ?_ ?_ | refine asks_of_pair (by assumption) ?_ | split | dsimp only | intro _

theorem asks_invalidated {r a0 a1} {s : State} (h : asks r s) : asks r (invalidated a0 a1 s) := by
  unfold invalidated
  try dsimp only
  with_reducible repeat' first | assumption | ((fail_if_success (fail_if_success conv => arg 2; arg 30)); refine asks_mk ?_ ⟨by rfl, by rfl⟩) | refine asks_ite ?_ ?_ | refine asks_publish ?_ | refine asks_updRing ?_ | refine asks_foldl ?_ ?_ | refine asks_of_pair (by assumption) ?_ | split | dsimp only | intro _

theorem asks_ringDisabled {r a0} {s : State} (h : asks r s) : asks r (ringDisabled a0 s) := by
  unfold ringDisabled
  try dsimp only
  with_reducible repeat' first | assumption | ((fail_if_success (fail_if_success conv => arg 2; arg 30)); refine asks_mk ?_ ⟨by rfl, by rfl⟩) | refine asks_ite ?_ ?_ | refine asks_publish ?_ | refine asks_updRing ?_ | refine asks_dropPosted ?_ | refine asks_foldl ?_ ?_ | refine asks_of_pair (by assumption) ?_ | split | dsimp only | intro _

theorem asks_descDone {r a0} {s : State} (h : asks r s) : asks r (descDone a0 s) := by
  unfold descDone
  try dsimp only
  with_reducible repeat' first | assumption | ((fail_if_success (fail_if_success conv => arg 2; arg 30)); refine asks_mk ?_ ⟨by rfl, by rfl⟩) | refine asks_ite ?_ ?_ | refine asks_publish ?_ | refine asks_updRing ?_ | refine asks_invalidated ?_ | refine asks_finishWaiting ?_ | refine asks_ringDisabled ?_ | refine asks_foldl ?_ ?_ | refine asks_of_pair (by assumption) ?_ | split | dsimp only | intro _

theorem asks_injectDone {r a0 a1 a2 a3 a4} {s : State} (h : asks r s) : asks r (injectDone a0 a1 a2 a3 a4 s) := by
  unfold injectDone
  try dsimp only
  with_reducible repeat' first | assumption | ((fail_if_success (fail_if_success conv => arg 2; arg 30)); refine asks_mk ?_ ⟨by rfl, by rfl⟩) | refine asks_ite ?_ ?_ | refine asks_postCompletion ?_ | refine asks_foldl ?_ ?_ | refine asks_of_pair (by assumption) ?_ | split | dsimp only | intro _

theorem asks_endPkt {r a0 a1 a2} {s : State} (h : asks r s) : asks r (endPkt a0 a1 a2 s) := by
  unfold endPkt
  try dsimp only
  with_reducible repeat' first | assumption | ((fail_if_success (fail_if_success conv => arg 2; arg 30)); refine asks_mk ?_ ⟨by rfl, by rfl⟩) | refine asks_ite ?_ ?_ | refine asks_unref ?_ | refine asks_injectDone ?_ | refine asks_foldl ?_ ?_ | refine asks_of_pair (by assumption) ?_ | split | dsimp only | intro _

theorem asks_discardVoq {r a0 a1 a2} {s : State} (h : asks r s) : asks r (discardVoq a0 a1 a2 s) := by
  unfold discardVoq
  try dsimp only
  with_reducible repeat' first | assumption | ((fail_if_success (fail_if_success conv => arg 2; arg 30)); refine asks_mk ?_ ⟨by rfl, by rfl⟩) | refine asks_ite ?_ ?_ | refine asks_endPkt ?_ | refine asks_voqDrop ?_ | refine asks_foldl ?_ ?_ | refine asks_of_pair (by assumption) ?_ | split | dsimp only | intro _

theorem asks_discardLeaf {r a0 a1 a2 a3 a4} {s : State} (h : asks r s) : asks r (discardLeaf a0 a1 a2 a3 a4 s) := by
  unfold discardLeaf
  try dsimp only
  with_reducible repeat' first | assumption | ((fail_if_success (fail_if_success conv => arg 2; arg 30)); refine asks_mk ?_ ⟨by rfl, by rfl⟩) | refine asks_ite ?_ ?_ | refine asks_endPkt ?_ | refine asks_dropCause ?_ | refine asks_tally ?_ | refine asks_foldl ?_ ?_ | refine asks_of_pair (by assumption) ?_ | split | dsimp only | intro _

theorem asks_discard {r a0 a1} {s : State} (h : asks r s) : asks r (Machine.discard a0 a1 s) := by
  unfold Machine.discard
  try dsimp only
  with_reducible repeat' first | assumption | ((fail_if_success (fail_if_success conv => arg 2; arg 30)); refine asks_mk ?_ ⟨by rfl, by rfl⟩) | refine asks_ite ?_ ?_ | refine asks_endPkt ?_ | refine asks_dropCause ?_ | refine asks_foldl ?_ ?_ | refine asks_of_pair (by assumption) ?_ | split | dsimp only | intro _

theorem asks_setLeaf {r a0 a1} {s : State} (h : asks r s) : asks r (setLeaf a0 a1 s) := by
  unfold setLeaf
  try dsimp only
  with_reducible repeat' first | assumption | ((fail_if_success (fail_if_success conv => arg 2; arg 30)); refine asks_mk ?_ ⟨by rfl, by rfl⟩) | refine asks_ite ?_ ?_ | refine asks_foldl ?_ ?_ | refine asks_of_pair (by assumption) ?_ | split | dsimp only | intro _

theorem asks_setShaper {r a0 a1 a2} {s : State} (h : asks r s) : asks r (setShaper a0 a1 a2 s) := by
  unfold setShaper
  try dsimp only
  with_reducible repeat' first | assumption | ((fail_if_success (fail_if_success conv => arg 2; arg 30)); refine asks_mk ?_ ⟨by rfl, by rfl⟩) | refine asks_ite ?_ ?_ | refine asks_foldl ?_ ?_ | refine asks_of_pair (by assumption) ?_ | split | dsimp only | intro _

theorem asks_settle {r a0 a1} {s : State} (h : asks r s) : asks r (settle a0 a1 s) := by
  unfold settle
  try dsimp only
  with_reducible repeat' first | assumption | ((fail_if_success (fail_if_success conv => arg 2; arg 30)); refine asks_mk ?_ ⟨by rfl, by rfl⟩) | refine asks_ite ?_ ?_ | refine asks_setShaper ?_ | refine asks_foldl ?_ ?_ | refine asks_of_pair (by assumption) ?_ | split | dsimp only | intro _

theorem asks_settlePath {r a0} {s : State} (h : asks r s) : asks r (settlePath a0 s) := by
  unfold settlePath
  try dsimp only
  with_reducible repeat' first | assumption | ((fail_if_success (fail_if_success conv => arg 2; arg 30)); refine asks_mk ?_ ⟨by rfl, by rfl⟩) | refine asks_ite ?_ ?_ | refine asks_settle ?_ | refine asks_foldl ?_ ?_ | refine asks_of_pair (by assumption) ?_ | split | dsimp only | intro _

theorem asks_settleMac {r a0} {s : State} (h : asks r s) : asks r (settleMac a0 s) := by
  unfold settleMac
  try dsimp only
  with_reducible repeat' first | assumption | ((fail_if_success (fail_if_success conv => arg 2; arg 30)); refine asks_mk ?_ ⟨by rfl, by rfl⟩) | refine asks_ite ?_ ?_ | refine asks_settlePath ?_ | refine asks_foldl ?_ ?_ | refine asks_of_pair (by assumption) ?_ | split | dsimp only | intro _

theorem asks_flushTxq {r a0} {s : State} (h : asks r s) : asks r (flushTxq a0 s).2 := by
  unfold flushTxq
  try dsimp only
  with_reducible repeat' first | assumption | ((fail_if_success (fail_if_success conv => arg 2; arg 30)); refine asks_mk ?_ ⟨by rfl, by rfl⟩) | refine asks_ite ?_ ?_ | refine asks_tally ?_ | refine asks_endPkt ?_ | refine asks_dropCause ?_ | refine asks_updMac ?_ | refine asks_foldl ?_ ?_ | refine asks_of_pair (by assumption) ?_ | split | dsimp only | intro _

theorem asks_flushLeaves {r a0} {s : State} (h : asks r s) : asks r (flushLeaves a0 s).2 := by
  unfold flushLeaves
  exact asks_foldl_by Prod.snd (fun a l ha => asks_foldl (fun _ _ hs => asks_tally (asks_discardLeaf hs)) (asks_setLeaf (asks_settlePath ha))) h

theorem asks_updLane {r a0 a1} {s : State} (h : asks r s) : asks r (updLane a0 a1 s) := by
  unfold updLane
  try dsimp only
  with_reducible repeat' first | assumption | ((fail_if_success (fail_if_success conv => arg 2; arg 30)); refine asks_mk ?_ ⟨by rfl, by rfl⟩) | refine asks_ite ?_ ?_ | refine asks_foldl ?_ ?_ | refine asks_of_pair (by assumption) ?_ | split | dsimp only | intro _

theorem asks_putUnit {r a0 a1} {s : State} (h : asks r s) : asks r (putUnit a0 a1 s) := by
  unfold putUnit
  try dsimp only
  with_reducible repeat' first | assumption | ((fail_if_success (fail_if_success conv => arg 2; arg 30)); refine asks_mk ?_ ⟨by rfl, by rfl⟩) | refine asks_ite ?_ ?_ | refine asks_emit ?_ | refine asks_updLane ?_ | refine asks_foldl ?_ ?_ | refine asks_of_pair (by assumption) ?_ | split | dsimp only | intro _

theorem asks_sendOn {r a0 a1} {s : State} (h : asks r s) : asks r (sendOn a0 a1 s) := by
  unfold sendOn
  try dsimp only
  with_reducible repeat' first | assumption | ((fail_if_success (fail_if_success conv => arg 2; arg 30)); refine asks_mk ?_ ⟨by rfl, by rfl⟩) | refine asks_ite ?_ ?_ | refine asks_putUnit ?_ | refine asks_foldl ?_ ?_ | refine asks_of_pair (by assumption) ?_ | split | dsimp only | intro _

theorem asks_sendControl {r a0 a1} {s : State} (h : asks r s) : asks r (sendControl a0 a1 s) := by
  unfold sendControl
  try dsimp only
  with_reducible repeat' first | assumption | ((fail_if_success (fail_if_success conv => arg 2; arg 30)); refine asks_mk ?_ ⟨by rfl, by rfl⟩) | refine asks_ite ?_ ?_ | refine asks_sendOn ?_ | refine asks_foldl ?_ ?_ | refine asks_of_pair (by assumption) ?_ | split | dsimp only | intro _

theorem asks_sendLink {r a0} {s : State} (h : asks r s) : asks r (sendLink a0 s) := by
  unfold sendLink
  try dsimp only
  with_reducible repeat' first | assumption | ((fail_if_success (fail_if_success conv => arg 2; arg 30)); refine asks_mk ?_ ⟨by rfl, by rfl⟩) | refine asks_ite ?_ ?_ | refine asks_putUnit ?_ | refine asks_foldl ?_ ?_ | refine asks_of_pair (by assumption) ?_ | split | dsimp only | intro _

theorem asks_sendRequest {r a0} {s : State} (h : asks r s) : asks r (sendRequest a0 s) := by
  unfold sendRequest
  try dsimp only
  with_reducible repeat' first | assumption | ((fail_if_success (fail_if_success conv => arg 2; arg 30)); refine asks_mk ?_ ⟨by rfl, by rfl⟩) | refine asks_ite ?_ ?_ | refine asks_sendControl ?_ | refine asks_updVoq ?_ | refine asks_foldl ?_ ?_ | refine asks_of_pair (by assumption) ?_ | split | dsimp only | intro _

theorem asks_withdrawDest {r a0} {s : State} (h : asks r s) : asks r (withdrawDest a0 s) := by
  unfold withdrawDest
  try dsimp only
  with_reducible repeat' first | assumption | ((fail_if_success (fail_if_success conv => arg 2; arg 30)); refine asks_mk ?_ ⟨by rfl, by rfl⟩) | refine asks_ite ?_ ?_ | refine asks_foldl ?_ ?_ | refine asks_of_pair (by assumption) ?_ | split | dsimp only | intro _

theorem asks_settleCredit {r a0} {s : State} (h : asks r s) : asks r (settleCredit a0 s) := by
  unfold settleCredit
  try dsimp only
  with_reducible repeat' first | assumption | ((fail_if_success (fail_if_success conv => arg 2; arg 30)); refine asks_mk ?_ ⟨by rfl, by rfl⟩) | refine asks_ite ?_ ?_ | refine asks_bump ?_ | refine asks_updVoq ?_ | refine asks_foldl ?_ ?_ | refine asks_of_pair (by assumption) ?_ | split | dsimp only | intro _

theorem asks_sendFc {r a0 a1} {s : State} (h : asks r s) : asks r (sendFc a0 a1 s) := by
  unfold sendFc
  try dsimp only
  with_reducible repeat' first | assumption | ((fail_if_success (fail_if_success conv => arg 2; arg 30)); refine asks_mk ?_ ⟨by rfl, by rfl⟩) | refine asks_ite ?_ ?_ | refine asks_putUnit ?_ | refine asks_updLane ?_ | refine asks_foldl ?_ ?_ | refine asks_of_pair (by assumption) ?_ | split | dsimp only | intro _

theorem asks_reorderFc {r} {s : State} (h : asks r s) : asks r (reorderFc s) := by
  unfold reorderFc
  try dsimp only
  with_reducible repeat' first | assumption | ((fail_if_success (fail_if_success conv => arg 2; arg 30)); refine asks_mk ?_ ⟨by rfl, by rfl⟩) | refine asks_ite ?_ ?_ | refine asks_sendFc ?_ | refine asks_foldl ?_ ?_ | refine asks_of_pair (by assumption) ?_ | split | dsimp only | intro _

theorem asks_dropStreams {r a0} {s : State} (h : asks r s) : asks r (dropStreams a0 s) := by
  unfold dropStreams
  try dsimp only
  with_reducible repeat' first | assumption | ((fail_if_success (fail_if_success conv => arg 2; arg 30)); refine asks_mk ?_ ⟨by rfl, by rfl⟩) | refine asks_ite ?_ ?_ | refine asks_reorderFc ?_ | refine asks_foldl ?_ ?_ | refine asks_of_pair (by assumption) ?_ | split | dsimp only | intro _

theorem asks_endpointLost {r a0} {s : State} (h : asks r s) : asks r (endpointLost a0 s) := by
  unfold endpointLost
  try dsimp only
  with_reducible repeat' first | assumption | ((fail_if_success (fail_if_success conv => arg 2; arg 30)); refine asks_mk ?_ ⟨by rfl, by rfl⟩) | refine asks_ite ?_ ?_ | refine asks_raiseEvent ?_ | refine asks_dropStreams ?_ | refine asks_foldl ?_ ?_ | refine asks_of_pair (by assumption) ?_ | split | dsimp only | intro _

theorem asks_askIf {r a0} {s : State} (h : asks r s) : asks r (askIf a0 s) := by
  unfold askIf
  try dsimp only
  with_reducible repeat' first | assumption | ((fail_if_success (fail_if_success conv => arg 2; arg 30)); refine asks_mk ?_ ⟨by rfl, by rfl⟩) | refine asks_ite ?_ ?_ | refine asks_sendRequest ?_ | refine asks_foldl ?_ ?_ | refine asks_of_pair (by assumption) ?_ | split | dsimp only | intro _

theorem asks_endpointGained {r a0} {s : State} (h : asks r s) : asks r (endpointGained a0 s) := by
  unfold endpointGained
  try dsimp only
  with_reducible repeat' first | assumption | ((fail_if_success (fail_if_success conv => arg 2; arg 30)); refine asks_mk ?_ ⟨by rfl, by rfl⟩) | refine asks_ite ?_ ?_ | refine asks_raiseEvent ?_ | refine asks_sendRequest ?_ | refine asks_askIf ?_ | refine asks_foldl ?_ ?_ | refine asks_of_pair (by assumption) ?_ | split | dsimp only | intro _

theorem asks_lookReach {r} {s : State} (h : asks r s) : asks r (lookReach s) := by
  unfold lookReach
  try dsimp only
  with_reducible repeat' first | assumption | ((fail_if_success (fail_if_success conv => arg 2; arg 30)); refine asks_mk ?_ ⟨by rfl, by rfl⟩) | refine asks_ite ?_ ?_ | refine asks_endpointLost ?_ | refine asks_endpointGained ?_ | refine asks_raiseEvent ?_ | refine asks_foldl ?_ ?_ | refine asks_of_pair (by assumption) ?_ | split | dsimp only | intro _

theorem asks_leftUp {r a0} {s : State} (h : asks r s) : asks r (leftUp a0 s) := by
  unfold leftUp
  try dsimp only
  with_reducible repeat' first | assumption | ((fail_if_success (fail_if_success conv => arg 2; arg 30)); refine asks_mk ?_ ⟨by rfl, by rfl⟩) | refine asks_ite ?_ ?_ | refine asks_lookReach ?_ | refine asks_raiseEvent ?_ | refine asks_tally ?_ | refine asks_updLane ?_ | refine asks_foldl ?_ ?_ | refine asks_of_pair (by assumption) ?_ | split | dsimp only | intro _

theorem asks_moveLane {r a0 a1} {s : State} (h : asks r s) : asks r (moveLane a0 a1 s) := by
  unfold moveLane
  try dsimp only
  with_reducible repeat' first | assumption | ((fail_if_success (fail_if_success conv => arg 2; arg 30)); refine asks_mk ?_ ⟨by rfl, by rfl⟩) | refine asks_ite ?_ ?_ | refine asks_updLane ?_ | refine asks_leftUp ?_ | refine asks_sendLink ?_ | refine asks_foldl ?_ ?_ | refine asks_of_pair (by assumption) ?_ | split | dsimp only | intro _

theorem asks_restoreDest {r a0} {s : State} (h : asks r s) : asks r (restoreDest a0 s) := by
  unfold restoreDest
  try dsimp only
  with_reducible repeat' first | assumption | ((fail_if_success (fail_if_success conv => arg 2; arg 30)); refine asks_mk ?_ ⟨by rfl, by rfl⟩) | refine asks_ite ?_ ?_ | refine asks_askIf ?_ | refine asks_foldl ?_ ?_ | refine asks_of_pair (by assumption) ?_ | split | dsimp only | intro _

theorem asks_applyAnnounce {r a0 a1} {s : State} (h : asks r s) : asks r (applyAnnounce a0 a1 s) := by
  unfold applyAnnounce
  try dsimp only
  with_reducible repeat' first | assumption | ((fail_if_success (fail_if_success conv => arg 2; arg 30)); refine asks_mk ?_ ⟨by rfl, by rfl⟩) | refine asks_ite ?_ ?_ | refine asks_restoreDest ?_ | refine asks_withdrawDest ?_ | refine asks_foldl ?_ ?_ | refine asks_of_pair (by assumption) ?_ | split | dsimp only | intro _

theorem asks_onAnnounce {r a0} {s : State} (h : asks r s) : asks r (onAnnounce a0 s) := by
  unfold onAnnounce
  try dsimp only
  with_reducible repeat' first | assumption | ((fail_if_success (fail_if_success conv => arg 2; arg 30)); refine asks_mk ?_ ⟨by rfl, by rfl⟩) | refine asks_ite ?_ ?_ | refine asks_applyAnnounce ?_ | refine asks_withdrawDest ?_ | refine asks_foldl ?_ ?_ | refine asks_of_pair (by assumption) ?_ | split | dsimp only | intro _

theorem asks_sendAnnounce {r a0 a1} {s : State} (h : asks r s) : asks r (sendAnnounce a0 a1 s) := by
  unfold sendAnnounce
  try dsimp only
  with_reducible repeat' first | assumption | ((fail_if_success (fail_if_success conv => arg 2; arg 30)); refine asks_mk ?_ ⟨by rfl, by rfl⟩) | refine asks_ite ?_ ?_ | refine asks_sendOn ?_ | refine asks_sendControl ?_ | refine asks_onAnnounce ?_ | refine asks_foldl ?_ ?_ | refine asks_of_pair (by assumption) ?_ | split | dsimp only | intro _

theorem asks_announceDue {r a0} {s : State} (h : asks r s) : asks r (announceDue a0 s) := by
  unfold announceDue
  try dsimp only
  with_reducible repeat' first | assumption | ((fail_if_success (fail_if_success conv => arg 2; arg 30)); refine asks_mk ?_ ⟨by rfl, by rfl⟩) | refine asks_ite ?_ ?_ | refine asks_sendAnnounce ?_ | refine asks_foldl ?_ ?_ | refine asks_of_pair (by assumption) ?_ | split | dsimp only | intro _

theorem asks_announceChange {r a0 a1} {s : State} (h : asks r s) : asks r (announceChange a0 a1 s) := by
  unfold announceChange
  try dsimp only
  with_reducible repeat' first | assumption | ((fail_if_success (fail_if_success conv => arg 2; arg 30)); refine asks_mk ?_ ⟨by rfl, by rfl⟩) | refine asks_ite ?_ ?_ | refine asks_announceDue ?_ | refine asks_foldl ?_ ?_ | refine asks_of_pair (by assumption) ?_ | split | dsimp only | intro _

theorem asks_announcePort {r a0 a1} {s : State} (h : asks r s) : asks r (announcePort a0 a1 s) := by
  unfold announcePort
  try dsimp only
  with_reducible repeat' first | assumption | ((fail_if_success (fail_if_success conv => arg 2; arg 30)); refine asks_mk ?_ ⟨by rfl, by rfl⟩) | refine asks_ite ?_ ?_ | refine asks_announceChange ?_ | refine asks_foldl ?_ ?_ | refine asks_of_pair (by assumption) ?_ | split | dsimp only | intro _

theorem asks_applyLanes {r a0 a1} {s : State} (h : asks r s) : asks r (applyLanes a0 a1 s) := by
  unfold applyLanes
  try dsimp only
  with_reducible repeat' first | assumption | ((fail_if_success (fail_if_success conv => arg 2; arg 30)); refine asks_mk ?_ ⟨by rfl, by rfl⟩) | refine asks_ite ?_ ?_ | refine asks_updLane ?_ | refine asks_moveLane ?_ | refine asks_foldl ?_ ?_ | refine asks_of_pair (by assumption) ?_ | split | dsimp only | intro _

theorem asks_loseSending {r a0} {s : State} (h : asks r s) : asks r (loseSending a0 s) := by
  unfold loseSending
  try dsimp only
  with_reducible repeat' first | assumption | ((fail_if_success (fail_if_success conv => arg 2; arg 30)); refine asks_mk ?_ ⟨by rfl, by rfl⟩) | refine asks_ite ?_ ?_ | refine asks_tally ?_ | refine asks_endPkt ?_ | refine asks_dropCause ?_ | refine asks_updMac ?_ | refine asks_foldl ?_ ?_ | refine asks_of_pair (by assumption) ?_ | split | dsimp only | intro _

theorem asks_setLink {r a0 a1 a2} {s : State} (h : asks r s) : asks r (setLink a0 a1 a2 s) := by
  unfold setLink
  try dsimp only
  with_reducible repeat' first | assumption | ((fail_if_success (fail_if_success conv => arg 2; arg 30)); refine asks_mk ?_ ⟨by rfl, by rfl⟩) | refine asks_ite ?_ ?_ | refine asks_updMac ?_ | refine asks_settleMac ?_ | refine asks_loseSending ?_ | refine asks_foldl ?_ ?_ | refine asks_of_pair (by assumption) ?_ | split | dsimp only | intro _

theorem asks_flush {r a0} {s : State} (h : asks r s) : asks r (flush a0 s) := by
  unfold flush
  try dsimp only
  with_reducible repeat' first | assumption | ((fail_if_success (fail_if_success conv => arg 2; arg 30)); refine asks_mk ?_ ⟨by rfl, by rfl⟩) | refine asks_ite ?_ ?_ | refine asks_flushTxq ?_ | refine asks_settleMac ?_ | refine asks_flushLeaves ?_ | refine asks_raiseEvent ?_ | refine asks_updMac ?_ | refine asks_announcePort ?_ | refine asks_foldl ?_ ?_ | refine asks_of_pair (by assumption) ?_ | split | dsimp only | intro _

theorem asks_leaveUp {r a0 a1} {s : State} (h : asks r s) : asks r (leaveUp a0 a1 s) := by
  unfold leaveUp
  try dsimp only
  with_reducible repeat' first | assumption | ((fail_if_success (fail_if_success conv => arg 2; arg 30)); refine asks_mk ?_ ⟨by rfl, by rfl⟩) | refine asks_ite ?_ ?_ | refine asks_tally ?_ | refine asks_updMac ?_ | refine asks_raiseEvent ?_ | refine asks_setLink ?_ | refine asks_flush ?_ | refine asks_foldl ?_ ?_ | refine asks_of_pair (by assumption) ?_ | split | dsimp only | intro _

theorem asks_noteSignal {r a0} {s : State} (h : asks r s) : asks r (noteSignal a0 s) := by
  unfold noteSignal
  try dsimp only
  with_reducible repeat' first | assumption | ((fail_if_success (fail_if_success conv => arg 2; arg 30)); refine asks_mk ?_ ⟨by rfl, by rfl⟩) | refine asks_ite ?_ ?_ | refine asks_emit ?_ | refine asks_updMac ?_ | refine asks_foldl ?_ ?_ | refine asks_of_pair (by assumption) ?_ | split | dsimp only | intro _

theorem asks_noteFail {r a0} {s : State} (h : asks r s) : asks r (noteFail a0 s) := by
  unfold noteFail
  try dsimp only
  with_reducible repeat' first | assumption | ((fail_if_success (fail_if_success conv => arg 2; arg 30)); refine asks_mk ?_ ⟨by rfl, by rfl⟩) | refine asks_ite ?_ ?_ | refine asks_noteSignal ?_ | refine asks_updMac ?_ | refine asks_foldl ?_ ?_ | refine asks_of_pair (by assumption) ?_ | split | dsimp only | intro _

theorem asks_linkStep {r a0} {s : State} (h : asks r s) : asks r (linkStep a0 s) := by
  unfold linkStep
  try dsimp only
  with_reducible repeat' first | assumption | ((fail_if_success (fail_if_success conv => arg 2; arg 30)); refine asks_mk ?_ ⟨by rfl, by rfl⟩) | refine asks_ite ?_ ?_ | refine asks_setLink ?_ | refine asks_leaveUp ?_ | refine asks_flush ?_ | refine asks_noteFail ?_ | refine asks_foldl ?_ ?_ | refine asks_of_pair (by assumption) ?_ | split | dsimp only | intro _

theorem asks_toDormant {r a0 a1} {s : State} (h : asks r s) : asks r (toDormant a0 a1 s) := by
  unfold toDormant
  try dsimp only
  with_reducible repeat' first | assumption | ((fail_if_success (fail_if_success conv => arg 2; arg 30)); refine asks_mk ?_ ⟨by rfl, by rfl⟩) | refine asks_ite ?_ ?_ | refine asks_updMac ?_ | refine asks_raiseEvent ?_ | refine asks_flush ?_ | refine asks_noteFail ?_ | refine asks_setLink ?_ | refine asks_foldl ?_ ?_ | refine asks_of_pair (by assumption) ?_ | split | dsimp only | intro _

theorem asks_updGroup {r a0 a1} {s : State} (h : asks r s) : asks r (updGroup a0 a1 s) := by
  unfold updGroup
  try dsimp only
  with_reducible repeat' first | assumption | ((fail_if_success (fail_if_success conv => arg 2; arg 30)); refine asks_mk ?_ ⟨by rfl, by rfl⟩) | refine asks_ite ?_ ?_ | refine asks_foldl ?_ ?_ | refine asks_of_pair (by assumption) ?_ | split | dsimp only | intro _

theorem asks_followClient {r a0} {s : State} (h : asks r s) : asks r (followClient a0 s) := by
  unfold followClient
  try dsimp only
  with_reducible repeat' first | assumption | ((fail_if_success (fail_if_success conv => arg 2; arg 30)); refine asks_mk ?_ ⟨by rfl, by rfl⟩) | refine asks_ite ?_ ?_ | refine asks_updMac ?_ | refine asks_settleMac ?_ | refine asks_linkStep ?_ | refine asks_foldl ?_ ?_ | refine asks_of_pair (by assumption) ?_ | split | dsimp only | intro _

theorem asks_followClients {r a0} {s : State} (h : asks r s) : asks r (followClients a0 s) := by
  unfold followClients
  try dsimp only
  with_reducible repeat' first | assumption | ((fail_if_success (fail_if_success conv => arg 2; arg 30)); refine asks_mk ?_ ⟨by rfl, by rfl⟩) | refine asks_ite ?_ ?_ | refine asks_followClient ?_ | refine asks_foldl ?_ ?_ | refine asks_of_pair (by assumption) ?_ | split | dsimp only | intro _

theorem asks_sendOverhead {r a0} {s : State} (h : asks r s) : asks r (sendOverhead a0 s) := by
  unfold sendOverhead
  try dsimp only
  with_reducible repeat' first | assumption | ((fail_if_success (fail_if_success conv => arg 2; arg 30)); refine asks_mk ?_ ⟨by rfl, by rfl⟩) | refine asks_ite ?_ ?_ | refine asks_emit ?_ | refine asks_foldl ?_ ?_ | refine asks_of_pair (by assumption) ?_ | split | dsimp only | intro _

theorem asks_countDefect {r a0 a1} {s : State} (h : asks r s) : asks r (countDefect a0 a1 s) := by
  unfold countDefect
  try dsimp only
  with_reducible repeat' first | assumption | ((fail_if_success (fail_if_success conv => arg 2; arg 30)); refine asks_mk ?_ ⟨by rfl, by rfl⟩) | refine asks_ite ?_ ?_ | refine asks_tally ?_ | refine asks_foldl ?_ ?_ | refine asks_of_pair (by assumption) ?_ | split | dsimp only | intro _

theorem asks_reportDefect {r a0 a1 a2} {s : State} (h : asks r s) : asks r (reportDefect a0 a1 a2 s) := by
  unfold reportDefect
  try dsimp only
  with_reducible repeat' first | assumption | ((fail_if_success (fail_if_success conv => arg 2; arg 30)); refine asks_mk ?_ ⟨by rfl, by rfl⟩) | refine asks_ite ?_ ?_ | refine asks_raiseEvent ?_ | refine asks_countDefect ?_ | refine asks_foldl ?_ ?_ | refine asks_of_pair (by assumption) ?_ | split | dsimp only | intro _

theorem asks_endSwitch {r a0 a1} {s : State} (h : asks r s) : asks r (endSwitch a0 a1 s) := by
  unfold endSwitch
  try dsimp only
  with_reducible repeat' first | assumption | ((fail_if_success (fail_if_success conv => arg 2; arg 30)); refine asks_mk ?_ ⟨by rfl, by rfl⟩) | refine asks_ite ?_ ?_ | refine asks_sendOverhead ?_ | refine asks_finishWaiting ?_ | refine asks_updGroup ?_ | refine asks_foldl ?_ ?_ | refine asks_of_pair (by assumption) ?_ | split | dsimp only | intro _

theorem asks_noteDown {r a0} {s : State} (h : asks r s) : asks r (noteDown a0 s) := by
  unfold noteDown
  try dsimp only
  with_reducible repeat' first | assumption | ((fail_if_success (fail_if_success conv => arg 2; arg 30)); refine asks_mk ?_ ⟨by rfl, by rfl⟩) | refine asks_ite ?_ ?_ | refine asks_updGroup ?_ | refine asks_foldl ?_ ?_ | refine asks_of_pair (by assumption) ?_ | split | dsimp only | intro _

theorem asks_updLine {r a0 a1} {s : State} (h : asks r s) : asks r (updLine a0 a1 s) := by
  unfold updLine
  try dsimp only
  with_reducible repeat' first | assumption | ((fail_if_success (fail_if_success conv => arg 2; arg 30)); refine asks_mk ?_ ⟨by rfl, by rfl⟩) | refine asks_ite ?_ ?_ | refine asks_foldl ?_ ?_ | refine asks_of_pair (by assumption) ?_ | split | dsimp only | intro _

theorem asks_noteDefects {r a0 a1} {s : State} (h : asks r s) : asks r (noteDefects a0 a1 s) := by
  unfold noteDefects
  try dsimp only
  with_reducible repeat' first | assumption | ((fail_if_success (fail_if_success conv => arg 2; arg 30)); refine asks_mk ?_ ⟨by rfl, by rfl⟩) | refine asks_ite ?_ ?_ | refine asks_updLine ?_ | refine asks_foldl ?_ ?_ | refine asks_of_pair (by assumption) ?_ | split | dsimp only | intro _

theorem asks_groupStep {r a0 a1} {s : State} (h : asks r s) : asks r (groupStep a0 a1 s) := by
  unfold groupStep
  try dsimp only
  with_reducible repeat' first | assumption | ((fail_if_success (fail_if_success conv => arg 2; arg 30)); refine asks_mk ?_ ⟨by rfl, by rfl⟩) | refine asks_ite ?_ ?_ | refine asks_reportDefect ?_ | refine asks_endSwitch ?_ | refine asks_raiseEvent ?_ | refine asks_tally ?_ | refine asks_updGroup ?_ | refine asks_sendOverhead ?_ | refine asks_noteDown ?_ | refine asks_noteDefects ?_ | refine asks_followClients ?_ | refine asks_foldl ?_ ?_ | refine asks_of_pair (by assumption) ?_ | split | dsimp only | intro _

theorem asks_withGroup {r a0 a1} {s : State} (fa1 : ∀ x0, asks r x0 → asks r (a1 x0)) (h : asks r s) : asks r (withGroup a0 a1 s) := by
  unfold withGroup
  try dsimp only
  with_reducible repeat' first | assumption | ((fail_if_success (fail_if_success conv => arg 2; arg 30)); refine asks_mk ?_ ⟨by rfl, by rfl⟩) | refine asks_ite ?_ ?_ | refine asks_groupStep ?_ | refine fa1 _ ?_ | refine asks_foldl ?_ ?_ | refine asks_of_pair (by assumption) ?_ | split | dsimp only | intro _

theorem asks_eachPhy {r a0 a1} {s : State} (fa1 : ∀ x0 x1, asks r x1 → asks r (a1 x0 x1)) (h : asks r s) : asks r (eachPhy a0 a1 s) := by
  unfold eachPhy
  try dsimp only
  with_reducible repeat' first | assumption | ((fail_if_success (fail_if_success conv => arg 2; arg 30)); refine asks_mk ?_ ⟨by rfl, by rfl⟩) | refine asks_ite ?_ ?_ | refine fa1 _ _ ?_ | refine asks_foldl ?_ ?_ | refine asks_of_pair (by assumption) ?_ | split | dsimp only | intro _

theorem asks_dropAlign {r a0} {s : State} (h : asks r s) : asks r (dropAlign a0 s) := by
  unfold dropAlign
  try dsimp only
  with_reducible repeat' first | assumption | ((fail_if_success (fail_if_success conv => arg 2; arg 30)); refine asks_mk ?_ ⟨by rfl, by rfl⟩) | refine asks_ite ?_ ?_ | refine asks_updLine ?_ | refine asks_foldl ?_ ?_ | refine asks_of_pair (by assumption) ?_ | split | dsimp only | intro _

theorem asks_groupDormant {r a0 a1} {s : State} (h : asks r s) : asks r (groupDormant a0 a1 s) := by
  unfold groupDormant
  try dsimp only
  with_reducible repeat' first | assumption | ((fail_if_success (fail_if_success conv => arg 2; arg 30)); refine asks_mk ?_ ⟨by rfl, by rfl⟩) | refine asks_ite ?_ ?_ | refine asks_updGroup ?_ | refine asks_withGroup ?_ ?_ | refine asks_eachPhy ?_ ?_ | refine asks_dropAlign ?_ | refine asks_toDormant ?_ | refine asks_endSwitch ?_ | refine asks_foldl ?_ ?_ | refine asks_of_pair (by assumption) ?_ | split | dsimp only | intro _

theorem asks_directDone {r a0} {s : State} (h : asks r s) : asks r (directDone a0 s) := by
  unfold directDone
  try dsimp only
  with_reducible repeat' first | assumption | ((fail_if_success (fail_if_success conv => arg 2; arg 30)); refine asks_mk ?_ ⟨by rfl, by rfl⟩) | refine asks_ite ?_ ?_ | refine asks_descDone ?_ | refine asks_foldl ?_ ?_ | refine asks_of_pair (by assumption) ?_ | split | dsimp only | intro _

theorem asks_discardBegun {r a0 a1 a2} {s : State} (h : asks r s) : asks r (discardBegun a0 a1 a2 s) := by
  unfold discardBegun
  try dsimp only
  with_reducible repeat' first | assumption | ((fail_if_success (fail_if_success conv => arg 2; arg 30)); refine asks_mk ?_ ⟨by rfl, by rfl⟩) | refine asks_ite ?_ ?_ | refine asks_directDone ?_ | refine asks_endPkt ?_ | refine asks_dropCause ?_ | refine asks_foldl ?_ ?_ | refine asks_of_pair (by assumption) ?_ | split | dsimp only | intro _

theorem asks_dropWaiting {r a0 a1} {s : State} (h : asks r s) : asks r (dropWaiting a0 a1 s) := by
  unfold dropWaiting
  try dsimp only
  with_reducible repeat' first | assumption | ((fail_if_success (fail_if_success conv => arg 2; arg 30)); refine asks_mk ?_ ⟨by rfl, by rfl⟩) | refine asks_ite ?_ ?_ | refine asks_dropCause ?_ | refine asks_discardBegun ?_ | refine asks_endPkt ?_ | refine asks_voqDrop ?_ | refine asks_foldl ?_ ?_ | refine asks_of_pair (by assumption) ?_ | split | dsimp only | intro _

theorem asks_sendRelinquish {r a0} {s : State} (h : asks r s) : asks r (sendRelinquish a0 s) := by
  unfold sendRelinquish
  try dsimp only
  with_reducible repeat' first | assumption | ((fail_if_success (fail_if_success conv => arg 2; arg 30)); refine asks_mk ?_ ⟨by rfl, by rfl⟩) | refine asks_ite ?_ ?_ | refine asks_flood ?_ | refine asks_foldl ?_ ?_ | refine asks_of_pair (by assumption) ?_ | split | dsimp only | intro _

theorem asks_protFail {r} {s : State} (h : asks r s) : asks r (protFail s) := by
  unfold protFail
  try dsimp only
  with_reducible repeat' first | assumption | ((fail_if_success (fail_if_success conv => arg 2; arg 30)); refine asks_mk ?_ ⟨by rfl, by rfl⟩) | refine asks_ite ?_ ?_ | refine asks_releaseMirror ?_ | refine asks_sendRelinquish ?_ | refine asks_foldl ?_ ?_ | refine asks_of_pair (by assumption) ?_ | split | dsimp only | intro _

theorem asks_sleepItem {r a0} {s : State} (h : asks r s) : asks r (sleepItem a0 s) := by
  unfold sleepItem
  try dsimp only
  with_reducible repeat' first | assumption | ((fail_if_success (fail_if_success conv => arg 2; arg 30)); refine asks_mk ?_ ⟨by rfl, by rfl⟩) | refine asks_ite ?_ ?_ | refine asks_groupDormant ?_ | refine asks_toDormant ?_ | refine asks_foldl ?_ ?_ | refine asks_of_pair (by assumption) ?_ | split | dsimp only | intro _

theorem asks_emptyMac {r a0 a1} {s : State} (h : asks r s) : asks r (emptyMac a0 a1 s) := by
  unfold emptyMac
  try dsimp only
  with_reducible repeat' first | assumption | ((fail_if_success (fail_if_success conv => arg 2; arg 30)); refine asks_mk ?_ ⟨by rfl, by rfl⟩) | refine asks_ite ?_ ?_ | refine asks_updMac ?_ | refine asks_dropCause ?_ | refine asks_tally ?_ | refine asks_endPkt ?_ | refine asks_foldl ?_ ?_ | refine asks_of_pair (by assumption) ?_ | split | dsimp only | intro _

theorem asks_dropXfer {r a0 a1} {s : State} (h : asks r s) : asks r (dropXfer a0 a1 s) := by
  unfold dropXfer
  try dsimp only
  with_reducible repeat' first | assumption | ((fail_if_success (fail_if_success conv => arg 2; arg 30)); refine asks_mk ?_ ⟨by rfl, by rfl⟩) | refine asks_ite ?_ ?_ | refine asks_discard ?_ | refine asks_unref ?_ | refine asks_dropCause ?_ | refine asks_discardBegun ?_ | refine asks_endPkt ?_ | refine asks_foldl ?_ ?_ | refine asks_of_pair (by assumption) ?_ | split | dsimp only | intro _

theorem asks_emptyBridge {r a0} {s : State} (h : asks r s) : asks r (emptyBridge a0 s) := by
  unfold emptyBridge
  try dsimp only
  with_reducible repeat' first | assumption | ((fail_if_success (fail_if_success conv => arg 2; arg 30)); refine asks_mk ?_ ⟨by rfl, by rfl⟩) | refine asks_ite ?_ ?_ | refine asks_dropXfer ?_ | refine asks_foldl ?_ ?_ | refine asks_of_pair (by assumption) ?_ | split | dsimp only | intro _

theorem asks_emptyPipes {r a0} {s : State} (h : asks r s) : asks r (emptyPipes a0 s) := by
  unfold emptyPipes
  try dsimp only
  with_reducible repeat' first | assumption | ((fail_if_success (fail_if_success conv => arg 2; arg 30)); refine asks_mk ?_ ⟨by rfl, by rfl⟩) | refine asks_ite ?_ ?_ | refine asks_discard ?_ | refine asks_discardBegun ?_ | refine asks_foldl ?_ ?_ | refine asks_of_pair (by assumption) ?_ | split | dsimp only | intro _

theorem asks_emptyVoqOf {r a0 a1} {s : State} (h : asks r s) : asks r (emptyVoqOf a0 a1 s) := by
  unfold emptyVoqOf
  try dsimp only
  with_reducible repeat' first | assumption | ((fail_if_success (fail_if_success conv => arg 2; arg 30)); refine asks_mk ?_ ⟨by rfl, by rfl⟩) | refine asks_ite ?_ ?_ | refine asks_updVoq ?_ | refine asks_setSegment ?_ | refine asks_settleCredit ?_ | refine asks_checkUnspill ?_ | refine asks_discardVoq ?_ | refine asks_foldl ?_ ?_ | refine asks_of_pair (by assumption) ?_ | split | dsimp only | intro _

theorem asks_emptyLeaf {r a0 a1 a2} {s : State} (h : asks r s) : asks r (emptyLeaf a0 a1 a2 s) := by
  unfold emptyLeaf
  try dsimp only
  with_reducible repeat' first | assumption | ((fail_if_success (fail_if_success conv => arg 2; arg 30)); refine asks_mk ?_ ⟨by rfl, by rfl⟩) | refine asks_ite ?_ ?_ | refine asks_discardLeaf ?_ | refine asks_tally ?_ | refine asks_setLeaf ?_ | refine asks_foldl ?_ ?_ | refine asks_of_pair (by assumption) ?_ | split | dsimp only | intro _

theorem asks_emptyPunt {r a0 a1} {s : State} (h : asks r s) : asks r (emptyPunt a0 a1 s) := by
  unfold emptyPunt
  try dsimp only
  with_reducible repeat' first | assumption | ((fail_if_success (fail_if_success conv => arg 2; arg 30)); refine asks_mk ?_ ⟨by rfl, by rfl⟩) | refine asks_ite ?_ ?_ | refine asks_unref ?_ | refine asks_dropCause ?_ | refine asks_foldl ?_ ?_ | refine asks_of_pair (by assumption) ?_ | split | dsimp only | intro _

theorem asks_dropBuffered {r a0} {s : State} (h : asks r s) : asks r (dropBuffered a0 s) := by
  unfold dropBuffered
  try dsimp only
  with_reducible repeat' first | assumption | ((fail_if_success (fail_if_success conv => arg 2; arg 30)); refine asks_mk ?_ ⟨by rfl, by rfl⟩) | refine asks_ite ?_ ?_ | refine asks_emptyMac ?_ | refine asks_emptyBridge ?_ | refine asks_emptyPipes ?_ | refine asks_dropWaiting ?_ | refine asks_emptyVoqOf ?_ | refine asks_emptyLeaf ?_ | refine asks_emptyPunt ?_ | refine asks_foldl ?_ ?_ | refine asks_of_pair (by assumption) ?_ | split | dsimp only | intro _

theorem asks_hbmPowerDown {r} {s : State} (h : asks r s) : asks r (hbmPowerDown s) := by
  unfold hbmPowerDown
  try dsimp only
  with_reducible repeat' first | assumption | ((fail_if_success (fail_if_success conv => arg 2; arg 30)); refine asks_mk ?_ ⟨by rfl, by rfl⟩) | refine asks_ite ?_ ?_ | refine asks_raiseEvent ?_ | refine asks_reportHbm ?_ | refine asks_foldl ?_ ?_ | refine asks_of_pair (by assumption) ?_ | split | dsimp only | intro _

theorem asks_haltData {r} {s : State} (h : asks r s) : asks r (haltData s) := by
  unfold haltData
  try dsimp only
  with_reducible repeat' first | assumption | ((fail_if_success (fail_if_success conv => arg 2; arg 30)); refine asks_mk ?_ ⟨by rfl, by rfl⟩) | refine asks_ite ?_ ?_ | refine asks_sleepItem ?_ | refine asks_dropBuffered ?_ | refine asks_hbmPowerDown ?_ | refine asks_applyLanes ?_ | refine asks_foldl ?_ ?_ | refine asks_of_pair (by assumption) ?_ | split | dsimp only | intro _

theorem asks_checkHbmIdle {r} {s : State} (h : asks r s) : asks r (checkHbmIdle s) := by
  unfold checkHbmIdle
  try dsimp only
  with_reducible repeat' first | assumption | ((fail_if_success (fail_if_success conv => arg 2; arg 30)); refine asks_mk ?_ ⟨by rfl, by rfl⟩) | refine asks_ite ?_ ?_ | refine asks_hbmPowerDown ?_ | refine asks_foldl ?_ ?_ | refine asks_of_pair (by assumption) ?_ | split | dsimp only | intro _

theorem asks_disableSpill {r} {s : State} (h : asks r s) : asks r (disableSpill s) := by
  unfold disableSpill
  try dsimp only
  with_reducible repeat' first | assumption | ((fail_if_success (fail_if_success conv => arg 2; arg 30)); refine asks_mk ?_ ⟨by rfl, by rfl⟩) | refine asks_ite ?_ ?_ | refine asks_checkHbmIdle ?_ | refine asks_raiseEvent ?_ | refine asks_foldl ?_ ?_ | refine asks_of_pair (by assumption) ?_ | split | dsimp only | intro _

theorem asks_noteLevel {r} {s : State} (h : asks r s) : asks r (noteLevel s) := by
  unfold noteLevel
  try dsimp only
  with_reducible repeat' first | assumption | refine asks_updPwr ?_ ⟨by rfl, by rfl⟩ | ((fail_if_success (fail_if_success conv => arg 2; arg 30)); refine asks_mk ?_ ⟨by rfl, by rfl⟩) | refine asks_ite ?_ ?_ | refine asks_foldl ?_ ?_ | refine asks_of_pair (by assumption) ?_ | split | dsimp only | intro _

theorem asks_levelChanged {r a0} {s : State} (h : asks r s) : asks r (levelChanged a0 s) := by
  unfold levelChanged
  try dsimp only
  with_reducible repeat' first | assumption | ((fail_if_success (fail_if_success conv => arg 2; arg 30)); refine asks_mk ?_ ⟨by rfl, by rfl⟩) | refine asks_ite ?_ ?_ | refine asks_noteLevel ?_ | refine asks_raiseGlb ?_ | refine asks_raiseEvent ?_ | refine asks_foldl ?_ ?_ | refine asks_of_pair (by assumption) ?_ | split | dsimp only | intro _

theorem asks_enterLevel {r a0} {s : State} (h : asks r s) : asks r (enterLevel a0 s) := by
  unfold enterLevel
  try dsimp only
  with_reducible repeat' first | assumption | refine asks_updPwr ?_ ⟨by rfl, by rfl⟩ | ((fail_if_success (fail_if_success conv => arg 2; arg 30)); refine asks_mk ?_ ⟨by rfl, by rfl⟩) | refine asks_ite ?_ ?_ | refine asks_tally ?_ | refine asks_disableSpill ?_ | refine asks_haltData ?_ | refine asks_protFail ?_ | refine asks_foldl ?_ ?_ | refine asks_of_pair (by assumption) ?_ | split | dsimp only | intro _

theorem asks_raiseLevel {r a0} {s : State} (h : asks r s) : asks r (raiseLevel a0 s) := by
  unfold raiseLevel
  try dsimp only
  with_reducible repeat' first | assumption | refine asks_updPwr ?_ ⟨by rfl, by rfl⟩ | ((fail_if_success (fail_if_success conv => arg 2; arg 30)); refine asks_mk ?_ ⟨by rfl, by rfl⟩) | refine asks_ite ?_ ?_ | refine asks_levelChanged ?_ | refine asks_enterLevel ?_ | refine asks_foldl ?_ ?_ | refine asks_of_pair (by assumption) ?_ | split | dsimp only | intro _

theorem asks_settleShed {r} {s : State} (h : asks r s) : asks r (settleShed s) := by
  unfold settleShed
  try dsimp only
  with_reducible repeat' first | assumption | refine asks_updPwr ?_ ⟨by rfl, by rfl⟩ | ((fail_if_success (fail_if_success conv => arg 2; arg 30)); refine asks_mk ?_ ⟨by rfl, by rfl⟩) | refine asks_ite ?_ ?_ | refine asks_raiseLevel ?_ | refine asks_foldl ?_ ?_ | refine asks_of_pair (by assumption) ?_ | split | dsimp only | intro _

end Sys2Proof.Laws
end

