-- ==== Sys2Proof/Laws/Command.lean ====
section
/-! SUPPORT. What a command row does once Teruo takes its command: one lemma per verdict. -/

namespace Sys2Proof.Laws
open Sys2Proof Sys2Proof.Machine

/-- A command with none of its source before it is not held back (R388). -/
theorem not_behind {op : Nat} {c : Cmd} {s : State} (h : firstOfSource c s) : behind (heldOf op c) s = false := by
  unfold behind
  rw [List.any_eq_false]
  intro q hq
  have := h q hq
  simpa [heldOf] using this

/-- A command that its source offers and that Teruo can accept is begun (R388, R394). -/
theorem enter_begins {op : Nat} {begin : HeldCmd → State → State} {c : Cmd} {s : State} (ho : sourceOffers c s) (hc : canAccept s = true) :
    enter begin (heldOf op c) s = begin (heldOf op c) (arrived op c s) := by
  unfold enter arrived
  by_cases h1 : c.source ≤ 1
  · simp only [sourceOffers, h1, if_true] at ho
    obtain ⟨hq, x, hx, ht, hf, hs, hm⟩ := ho
    have hn := not_behind (op := op) hq
    simp only [heldOf] at hn ⊢
    simp [h1, hx, ht, hf, hs, hm, hc, hn]
  · by_cases h3 : c.source ≤ 3
    · simp only [sourceOffers, h1, h3, if_true, if_false] at ho
      obtain ⟨hf, hbar, hp, hr, hl⟩ := ho
      have hl' : ¬ 1024 < 16 + c.paramLen := by omega
      have hcp : canAccept { s with mgmt := { s.mgmt with mbx := .pending, mbxFn := c.source - 2 } } = true := hc
      simp [heldOf, h1, h3, hf, hbar, hp, hr, hl', hcp]
    · simp only [sourceOffers, h1, h3, if_false] at ho
      obtain ⟨hq, h5, hpk, hd, hl⟩ := ho
      have hn := not_behind (op := op) hq
      simp only [heldOf] at hn ⊢
      simp [h1, h3, h5, hpk, hd, Nat.not_le.mpr hl, hc, hn]

/-- An accepted command reaches its own rules: nothing before them turns it away. -/
theorem runCmd_begins {op : Nat} {spec : CmdSpec} {c : Cmd} {s : State} (ha : accepted op spec.minLen c s) :
    runCmd op spec c s = .next (beginCmd spec (heldOf op c) (arrived op c s)) := by
  unfold runCmd issue
  rw [enter_begins ha.1 ha.2.1]

@[simp] theorem arrived_rom (op : Nat) (c : Cmd) (s : State) : (arrived op c s).mgmt.rom = s.mgmt.rom := by
  unfold arrived noteRemote; split
  · rfl
  · split
    · rfl
    · split <;> rfl

@[simp] theorem arrived_tagInUse (op : Nat) (c : Cmd) (s : State) (h : HeldCmd) : tagInUse h (arrived op c s) = tagInUse h s := by
  unfold arrived noteRemote tagInUse; split
  · rfl
  · split
    · rfl
    · split <;> rfl

@[simp] theorem arrived_prot (op : Nat) (c : Cmd) (s : State) : (arrived op c s).prot = s.prot := by
  unfold arrived noteRemote; split
  · rfl
  · split
    · rfl
    · split <;> rfl

@[simp] theorem arrived_ownPosition (op : Nat) (c : Cmd) (s : State) : ownPosition (arrived op c s) = ownPosition s := by
  unfold arrived noteRemote ownPosition; split
  · rfl
  · split
    · rfl
    · split <;> rfl

@[simp] theorem heldOf_target (op : Nat) (c : Cmd) : (heldOf op c).target = c.target := rfl
@[simp] theorem heldOf_source (op : Nat) (c : Cmd) : (heldOf op c).source = c.source := rfl

@[simp] theorem arrived_staged (op : Nat) (c : Cmd) (s : State) : (arrived op c s).staged = s.staged := by
  unfold arrived noteRemote; split
  · rfl
  · split
    · rfl
    · split <;> rfl

theorem arrived_cmdIndex (op : Nat) (c : Cmd) (s : State) :
    cmdIndex (heldOf op c) (arrived op c s) = cmdIndex (heldOf op c) s := by
  unfold cmdIndex
  by_cases h : c.source ≤ 1
  · simp [arrived, h]
  · simp [h]

/-- A command that targets its own member is not relayed (R384). -/
theorem relayTo_own {h : HeldCmd} {s : State} (ht : h.target = 0xFF ∨ ownPosition s = some h.target) : relayTo h s = none := by
  unfold relayTo
  rcases ht with ht | ht
  · simp [ht]
  · by_cases h' : h.target = 0xFF
    · simp [h']
    · simp [h', ht]

/-- A member that mirrors nothing, in sync or not, does not wait for a standby (R471). -/
theorem mirrors_of_mirroring {s : State} (h : mirroring s = false) : mirrors s = false := by
  unfold mirroring at h
  unfold mirrors
  cases h6 : s.prot.state == 6
  · rfl
  · rw [h6] at h
    simp only [Bool.true_and, Bool.or_eq_false_iff] at h ⊢
    exact h.1

/-- A configuration command that a member does not mirror sends nothing to its pair (R471). -/
theorem mirrorCfg_none {k : Nat} {b : List Byte} {s : State} (h : mirroring s = false) : mirrorCfg k b s = s := by
  unfold mirrorCfg
  rw [h]
  rfl

/-- An accepted command that its own rules end at once: done with their status and response from the state they give, which leaves the
pair's own state alone where the command is one of configuration. -/
theorem runCmd_done {op : Nat} {spec : CmdSpec} {c : Cmd} {s s' : State} {st : Nat} {resp : List Byte}
    (ha : accepted op spec.minLen c s) (hk : spec.kind = .config → standsBy s = false ∧ mirroring s = false ∧ mirroring s' = false)
    (hb : spec.body (heldOf op c) (taken op c s) = .done st resp s') :
    runCmd op spec c s = .next (closed op c s (finish (heldOf op c) (cmdIndex (heldOf op c) s) st resp
      (spec.kind != .query && (st == St.ok || spec.kind == .bulk)) 0 (if spec.kind == .bulk then rd resp 0 4 else 0) s')) := by
  rw [runCmd_begins ha]
  obtain ⟨-, -, hr, ht, hh, hp⟩ := ha
  have hrel : relayTo (heldOf op c) (arrived op c s) = none := relayTo_own (by simpa using hp)
  have hsb : standbyRefuses spec.kind (arrived op c s) = false := by
    unfold standbyRefuses standsBy
    rw [arrived_prot]
    by_cases hc : spec.kind = .config
    · have := (hk hc).1; unfold standsBy at this; simp [this]
    · simp [hc]
  have hmi : (spec.kind == .config && mirrors (arrived op c s)) = false := by
    by_cases hc : spec.kind = .config
    · have := mirrors_of_mirroring (hk hc).2.1
      unfold mirrors at this ⊢
      rw [arrived_prot]
      simp [this]
    · simp [hc]
  have hmo : (if (spec.kind == .config) = true then mirrorCfg 0 (blockBytes (heldOf op c)) s' else s') = s' := by
    by_cases hc : spec.kind = .config
    · rw [mirrorCfg_none (hk hc).2.2, ite_self]
    · simp [hc]
  have hb' : spec.body (heldOf op c) (windowRunning (heldOf op c) (consumeCmd (heldOf op c) (arrived op c s))) = .done st resp s' := hb
  unfold beginCmd closed
  rw [hb']
  simp only [hr, ht, hh, hrel, hsb, hmi, hmo, arrived_cmdIndex, arrived_rom, arrived_tagInUse, arrived_staged, Bool.false_and,
    Bool.false_eq_true, if_false]

/-- An accepted command that its own rules let run: it is RUNNING until its decision point. -/
theorem runCmd_waits {op : Nat} {spec : CmdSpec} {c : Cmd} {s s' : State} {w : WaitFor} {resp : List Byte}
    (ha : accepted op spec.minLen c s) (hb : spec.body (heldOf op c) (taken op c s) = .wait w resp s') :
    runCmd op spec c s = .next (runs op c s w resp s') := by
  rw [runCmd_begins ha]
  obtain ⟨-, -, hr, ht, hh, hp⟩ := ha
  have hrel : relayTo (heldOf op c) (arrived op c s) = none := relayTo_own (by simpa using hp)
  have hb' : spec.body (heldOf op c) (windowRunning (heldOf op c) (consumeCmd (heldOf op c) (arrived op c s))) = .wait w resp s' := hb
  unfold beginCmd runs
  simp [hr, ht, hh, hrel, hb', arrived_cmdIndex]

/-- An accepted command that its own rules refuse changes nothing but what every terminal status leaves (R383). -/
theorem runCmd_refuses {op : Nat} {spec : CmdSpec} {c : Cmd} {s : State} {st : Nat}
    (ha : accepted op spec.minLen c s) (hk : standbyRefuses spec.kind s = false)
    (hb : spec.body (heldOf op c) (taken op c s) = .refuse st) :
    runCmd op spec c s = .next (refuse (heldOf op c) st (arrived op c s)) := by
  rw [runCmd_begins ha]
  obtain ⟨-, -, hr, ht, hh, hp⟩ := ha
  have hrel : relayTo (heldOf op c) (arrived op c s) = none := relayTo_own (by simpa using hp)
  have hsb : standbyRefuses spec.kind (arrived op c s) = false := by
    unfold standbyRefuses standsBy at *
    rw [arrived_prot]; exact hk
  have hb' : spec.body (heldOf op c) (windowRunning (heldOf op c) (consumeCmd (heldOf op c) (arrived op c s))) = .refuse st := hb
  unfold beginCmd
  simp [hr, ht, hh, hrel, hb', hsb]

/-! ### What the taking of a command leaves as it was -/

theorem publish_shape (r : Nat) (s : State) : ∃ m, publish r s = { s with hostMem := m } := by
  unfold publish
  cases ring? r s with
  | none => exact ⟨s.hostMem, rfl⟩
  | some x =>
    by_cases h : ((pciFn x.fn s).indexValid && (pciFn x.fn s).busMaster) = true
    · exact ⟨_, by simp only [h, if_true]; rfl⟩
    · exact ⟨s.hostMem, by simp [h]⟩

theorem consume_shape (r : Nat) (s : State) : ∃ h m, consume r s = { s with host := h, hostMem := m } := by
  unfold consume
  obtain ⟨m, hm⟩ := publish_shape r (updRing r (fun x => { x with partIndex := (x.partIndex + 1) % 4294967296, fetched := x.fetched.drop 1 }) s)
  exact ⟨_, m, hm⟩

theorem arrived_shape (op : Nat) (c : Cmd) (s : State) :
    ∃ x n b k, arrived op c s = { s with mgmt := { s.mgmt with mbx := x, mbxFn := n }, bus := b, crl := k } := by
  unfold arrived noteRemote
  by_cases h1 : c.source ≤ 1
  · exact ⟨s.mgmt.mbx, s.mgmt.mbxFn, s.bus, s.crl, by simp [h1]⟩
  · by_cases h3 : c.source ≤ 3
    · exact ⟨_, _, s.bus, s.crl, by simp only [h1, h3, if_true, if_false]; rfl⟩
    · by_cases h4 : (heldOf op c).source = 4
      · exact ⟨s.mgmt.mbx, s.mgmt.mbxFn, _, s.crl, by simp only [h1, h3, h4, if_true, if_false]; rfl⟩
      · exact ⟨s.mgmt.mbx, s.mgmt.mbxFn, s.bus, _, by simp only [h1, h3, h4, if_false]; rfl⟩

theorem consumeCmd_shape (h : HeldCmd) (s : State) : ∃ i m, consumeCmd h s = { s with host := i, hostMem := m } := by
  unfold consumeCmd
  by_cases h1 : h.source ≤ 1
  · simp only [h1, if_true]; exact consume_shape _ _
  · exact ⟨s.host, s.hostMem, by simp [h1]⟩

theorem windowRunning_shape (h : HeldCmd) (s : State) : ∃ x, windowRunning h s = { s with mgmt := { s.mgmt with mbx := x } } := by
  unfold windowRunning
  by_cases h1 : (h.source == 2 || h.source == 3) = true
  · exact ⟨_, by simp only [h1, if_true]; rfl⟩
  · exact ⟨s.mgmt.mbx, by simp [h1]⟩

/-- Taking a command touches the window's state, the ring it came from, the ring's index in host memory and the list of remote commands;
nothing else. -/
theorem taken_shape (op : Nat) (c : Cmd) (s : State) :
    ∃ x n h m b k, taken op c s =
      { s with mgmt := { s.mgmt with mbx := x, mbxFn := n }, host := h, hostMem := m, bus := b, crl := k } := by
  obtain ⟨x, n, b, k, ha⟩ := arrived_shape op c s
  obtain ⟨i, m, hc⟩ := consumeCmd_shape (heldOf op c) (arrived op c s)
  obtain ⟨y, hw⟩ := windowRunning_shape (heldOf op c) (consumeCmd (heldOf op c) (arrived op c s))
  unfold taken
  rw [hw, hc, ha]
  exact ⟨y, n, i, m, b, k, rfl⟩

@[simp] theorem taken_elapsed (op : Nat) (c : Cmd) (s : State) : (taken op c s).elapsed = s.elapsed := by
  obtain ⟨_, _, _, _, _, _, h⟩ := taken_shape op c s; rw [h]

@[simp] theorem taken_fresh (op : Nat) (c : Cmd) (s : State) : (taken op c s).fresh = s.fresh := by
  obtain ⟨_, _, _, _, _, _, h⟩ := taken_shape op c s; rw [h]

@[simp] theorem taken_out (op : Nat) (c : Cmd) (s : State) : (taken op c s).out = s.out := by
  obtain ⟨_, _, _, _, _, _, h⟩ := taken_shape op c s; rw [h]

@[simp] theorem taken_tempo (op : Nat) (c : Cmd) (s : State) : (taken op c s).tempo = s.tempo := by
  obtain ⟨_, _, _, _, _, _, h⟩ := taken_shape op c s; rw [h]

@[simp] theorem taken_cfg (op : Nat) (c : Cmd) (s : State) : (taken op c s).cfg = s.cfg := by
  obtain ⟨_, _, _, _, _, _, h⟩ := taken_shape op c s; rw [h]

@[simp] theorem taken_staged (op : Nat) (c : Cmd) (s : State) : (taken op c s).staged = s.staged := by
  obtain ⟨_, _, _, _, _, _, h⟩ := taken_shape op c s; rw [h]

@[simp] theorem taken_commits (op : Nat) (c : Cmd) (s : State) : (taken op c s).commits = s.commits := by
  obtain ⟨_, _, _, _, _, _, h⟩ := taken_shape op c s; rw [h]

@[simp] theorem taken_outcomes (op : Nat) (c : Cmd) (s : State) : (taken op c s).outcomes = s.outcomes := by
  obtain ⟨_, _, _, _, _, _, h⟩ := taken_shape op c s; rw [h]

@[simp] theorem taken_nextPackageSeq (op : Nat) (c : Cmd) (s : State) : (taken op c s).nextPackageSeq = s.nextPackageSeq := by
  obtain ⟨_, _, _, _, _, _, h⟩ := taken_shape op c s; rw [h]

@[simp] theorem taken_nextOrder (op : Nat) (c : Cmd) (s : State) : (taken op c s).nextOrder = s.nextOrder := by
  obtain ⟨_, _, _, _, _, _, h⟩ := taken_shape op c s; rw [h]

@[simp] theorem taken_quar (op : Nat) (c : Cmd) (s : State) : (taken op c s).quar = s.quar := by
  obtain ⟨_, _, _, _, _, _, h⟩ := taken_shape op c s; rw [h]

@[simp] theorem taken_ctrs (op : Nat) (c : Cmd) (s : State) : (taken op c s).ctrs = s.ctrs := by
  obtain ⟨_, _, _, _, _, _, h⟩ := taken_shape op c s; rw [h]

@[simp] theorem taken_toll (op : Nat) (c : Cmd) (s : State) : (taken op c s).toll = s.toll := by
  obtain ⟨_, _, _, _, _, _, h⟩ := taken_shape op c s; rw [h]

@[simp] theorem taken_glb (op : Nat) (c : Cmd) (s : State) : (taken op c s).glb = s.glb := by
  obtain ⟨_, _, _, _, _, _, h⟩ := taken_shape op c s; rw [h]

@[simp] theorem taken_macs (op : Nat) (c : Cmd) (s : State) : (taken op c s).macs = s.macs := by
  obtain ⟨_, _, _, _, _, _, h⟩ := taken_shape op c s; rw [h]

@[simp] theorem taken_fwd (op : Nat) (c : Cmd) (s : State) : (taken op c s).fwd = s.fwd := by
  obtain ⟨_, _, _, _, _, _, h⟩ := taken_shape op c s; rw [h]

@[simp] theorem taken_qdm (op : Nat) (c : Cmd) (s : State) : (taken op c s).qdm = s.qdm := by
  obtain ⟨_, _, _, _, _, _, h⟩ := taken_shape op c s; rw [h]

@[simp] theorem taken_sched (op : Nat) (c : Cmd) (s : State) : (taken op c s).sched = s.sched := by
  obtain ⟨_, _, _, _, _, _, h⟩ := taken_shape op c s; rw [h]

@[simp] theorem taken_fab (op : Nat) (c : Cmd) (s : State) : (taken op c s).fab = s.fab := by
  obtain ⟨_, _, _, _, _, _, h⟩ := taken_shape op c s; rw [h]

@[simp] theorem taken_bridge (op : Nat) (c : Cmd) (s : State) : (taken op c s).bridge = s.bridge := by
  obtain ⟨_, _, _, _, _, _, h⟩ := taken_shape op c s; rw [h]

@[simp] theorem taken_flexe (op : Nat) (c : Cmd) (s : State) : (taken op c s).flexe = s.flexe := by
  obtain ⟨_, _, _, _, _, _, h⟩ := taken_shape op c s; rw [h]

@[simp] theorem taken_mem (op : Nat) (c : Cmd) (s : State) : (taken op c s).mem = s.mem := by
  obtain ⟨_, _, _, _, _, _, h⟩ := taken_shape op c s; rw [h]

@[simp] theorem taken_prot (op : Nat) (c : Cmd) (s : State) : (taken op c s).prot = s.prot := by
  obtain ⟨_, _, _, _, _, _, h⟩ := taken_shape op c s; rw [h]

@[simp] theorem taken_fw (op : Nat) (c : Cmd) (s : State) : (taken op c s).fw = s.fw := by
  obtain ⟨_, _, _, _, _, _, h⟩ := taken_shape op c s; rw [h]

@[simp] theorem taken_pwr (op : Nat) (c : Cmd) (s : State) : (taken op c s).pwr = s.pwr := by
  obtain ⟨_, _, _, _, _, _, h⟩ := taken_shape op c s; rw [h]

@[simp] theorem taken_pending (op : Nat) (c : Cmd) (s : State) : (taken op c s).pending = s.pending := by
  obtain ⟨_, _, _, _, _, _, h⟩ := taken_shape op c s; rw [h]

@[simp] theorem taken_mgmt_rom (op : Nat) (c : Cmd) (s : State) : (taken op c s).mgmt.rom = s.mgmt.rom := by
  obtain ⟨_, _, _, _, _, _, h⟩ := taken_shape op c s; rw [h]

@[simp] theorem taken_mgmt_running (op : Nat) (c : Cmd) (s : State) : (taken op c s).mgmt.running = s.mgmt.running := by
  obtain ⟨_, _, _, _, _, _, h⟩ := taken_shape op c s; rw [h]

@[simp] theorem taken_mgmt_journalNext (op : Nat) (c : Cmd) (s : State) : (taken op c s).mgmt.journalNext = s.mgmt.journalNext := by
  obtain ⟨_, _, _, _, _, _, h⟩ := taken_shape op c s; rw [h]

@[simp] theorem taken_mgmt_journal (op : Nat) (c : Cmd) (s : State) : (taken op c s).mgmt.journal = s.mgmt.journal := by
  obtain ⟨_, _, _, _, _, _, h⟩ := taken_shape op c s; rw [h]

@[simp] theorem taken_mgmt_done (op : Nat) (c : Cmd) (s : State) : (taken op c s).mgmt.done = s.mgmt.done := by
  obtain ⟨_, _, _, _, _, _, h⟩ := taken_shape op c s; rw [h]

@[simp] theorem taken_mgmt_restarting (op : Nat) (c : Cmd) (s : State) : (taken op c s).mgmt.restarting = s.mgmt.restarting := by
  obtain ⟨_, _, _, _, _, _, h⟩ := taken_shape op c s; rw [h]

@[simp] theorem taken_mgmt_restarts (op : Nat) (c : Cmd) (s : State) : (taken op c s).mgmt.restarts = s.mgmt.restarts := by
  obtain ⟨_, _, _, _, _, _, h⟩ := taken_shape op c s; rw [h]

@[simp] theorem taken_mgmt_ready (op : Nat) (c : Cmd) (s : State) : (taken op c s).mgmt.ready = s.mgmt.ready := by
  obtain ⟨_, _, _, _, _, _, h⟩ := taken_shape op c s; rw [h]

@[simp] theorem taken_mgmt_eventSeq (op : Nat) (c : Cmd) (s : State) : (taken op c s).mgmt.eventSeq = s.mgmt.eventSeq := by
  obtain ⟨_, _, _, _, _, _, h⟩ := taken_shape op c s; rw [h]

/-! ### The four shapes of an accepted command -/

/-- A command that staged nothing leaves nothing to wait for its completion (R60). -/
theorem markDue_nothing {n : Nat} {due : Due} {s : State} (h : s.staged.length ≤ n) : markDue n due s = s := by
  unfold markDue
  rw [List.take_of_length_le h, List.drop_of_length_le h, List.map_nil, List.append_nil]
  split <;> rfl

@[simp] theorem par_heldOf (op : Nat) (c : Cmd) (off n : Nat) : par (heldOf op c) off n = arg c off n := (rfl)

@[simp] theorem pars_heldOf (op : Nat) (c : Cmd) : pars (heldOf op c) = fit c.paramLen c.params := (rfl)

@[simp] theorem parZero_heldOf (op : Nat) (c : Cmd) (off n : Nat) :
    parZero (heldOf op c) off n = allZero (argBytes c off n) := (rfl)

@[simp] theorem slice_params (c : Cmd) (off n : Nat) : slice (fit c.paramLen c.params) off n = argBytes c off n := (rfl)

/-- A command with an effect and a response. -/
theorem effectsWith_of {op : Nat} {spec : CmdSpec} {i : Instr} {c : Cmd} {s u t : State} {resp : List Byte}
    (ha : takes op spec.minLen c s u) (hi : exec i s = runCmd op spec c s) (hk : spec.kind = .effect)
    (hb : spec.body (heldOf op c) u = .done St.ok resp t) : effectsWith op i c s t resp := by
  obtain ⟨ha, rfl⟩ := ha
  unfold effectsWith completed
  rw [hi, runCmd_done ha (fun h => by rw [hk] at h; cases h) hb]
  simp [hk]; rfl

/-- A command with an effect and no response. -/
theorem effects_of {op : Nat} {spec : CmdSpec} {i : Instr} {c : Cmd} {s u t : State}
    (ha : takes op spec.minLen c s u) (hi : exec i s = runCmd op spec c s) (hk : spec.kind = .effect)
    (hb : spec.body (heldOf op c) u = .done St.ok [] t) : effects op i c s t := effectsWith_of ha hi hk hb

/-- What a member mirrors is its pair's own state alone. -/
theorem mirroring_prot {s t : State} (h : t.prot = s.prot) : mirroring t = mirroring s := by
  unfold mirroring
  rw [h]

/-- A configuration command with a response, whose rules leave the pair's own state alone. -/
theorem configWith_of {op : Nat} {spec : CmdSpec} {i : Instr} {c : Cmd} {s u t : State} {resp : List Byte}
    (ha : takesConfig op spec.minLen c s u) (hi : exec i s = runCmd op spec c s) (hk : spec.kind = .config)
    (hb : spec.body (heldOf op c) u = .done St.ok resp t) (ht : t.prot = u.prot := by rfl) : effectsWith op i c s t resp := by
  obtain ⟨⟨ha, hp⟩, rfl⟩ := ha
  unfold effectsWith completed
  rw [hi, runCmd_done ha (fun _ => ⟨hp.1, hp.2, (mirroring_prot (ht.trans (taken_prot op c s))).trans hp.2⟩) hb]
  simp [hk]; rfl

/-- A configuration command. -/
theorem config_of {op : Nat} {spec : CmdSpec} {i : Instr} {c : Cmd} {s u t : State}
    (ha : takesConfig op spec.minLen c s u) (hi : exec i s = runCmd op spec c s) (hk : spec.kind = .config)
    (hb : spec.body (heldOf op c) u = .done St.ok [] t) (ht : t.prot = u.prot := by rfl) : effects op i c s t :=
  configWith_of ha hi hk hb ht

/-- A configuration command that stages one change. -/
theorem stages_of {op : Nat} {spec : CmdSpec} {i : Instr} {c : Cmd} {s u : State} {ch : Change}
    (ha : takesConfig op spec.minLen c s u) (hi : exec i s = runCmd op spec c s) (hk : spec.kind = .config)
    (hb : spec.body (heldOf op c) u = staged [] ch u) : stages op i c s u ch := config_of ha hi hk hb rfl

/-- A query. -/
theorem queries_of {op : Nat} {spec : CmdSpec} {i : Instr} {c : Cmd} {s u : State} {resp : List Byte}
    (ha : takes op spec.minLen c s u) (hi : exec i s = runCmd op spec c s) (hk : spec.kind = .query)
    (hb : spec.body (heldOf op c) u = .done St.ok resp u) : queries op i c s resp := by
  obtain ⟨ha, rfl⟩ := ha
  unfold queries completed
  rw [hi, runCmd_done ha (fun h => by rw [hk] at h; cases h) hb]
  simp [hk]

/-- A command that runs until its decision point. -/
theorem runs_of {op : Nat} {spec : CmdSpec} {i : Instr} {c : Cmd} {s u t : State} {w : WaitFor} {resp : List Byte}
    (ha : takes op spec.minLen c s u) (hi : exec i s = runCmd op spec c s)
    (hb : spec.body (heldOf op c) u = .wait w resp t) : exec i s = .next (runs op c s w resp t) := by
  obtain ⟨ha, rfl⟩ := ha
  rw [hi, runCmd_waits ha hb]

end Sys2Proof.Laws
end

