-- ==== Sys2Proof/Laws/KeepsOps.lean ====
section
/-! SUPPORT. The operations keep sound states sound: events, rings, completions and the running of a command. One lemma for each definition of those files. -/

namespace Sys2Proof.Laws
open Sys2Proof Sys2Proof.Machine

theorem keeps_logFault {a0 a1 a2} {s : State} (h : sound s) : sound (logFault a0 a1 a2 s) := by
  unfold logFault
  split
  · exact h
  · exact sound_pwr h (List.length_take_le _ _) (legal_of h).1 (legal_of h).2.1 (legal_of h).2.2.1 (legal_of h).2.2.2.1 (legal_of h).2.2.2.2

theorem keeps_emit {a0} {s : State} (h : sound s) : sound (emit a0 s) := by
  unfold emit
  try dsimp only
  with_reducible repeat' first | assumption | ((fail_if_success (fail_if_success conv => arg 1; arg 30)); refine sound_mk ?_ (by rfl))

theorem keeps_bump {a0 a1} {s : State} (h : sound s) : sound (bump a0 a1 s) := sound_ctrs h (awf_aset _ _ (ctrs_of h))

theorem keeps_tally {a0} {s : State} (h : sound s) : sound (tally a0 s) := by
  unfold tally
  try dsimp only
  with_reducible repeat' first | assumption | refine keeps_bump ?_

theorem keeps_busFrame {a0} {s : State} (h : sound s) : sound (busFrame a0 s) := by
  unfold busFrame
  try dsimp only
  with_reducible repeat' first | assumption | ((fail_if_success (fail_if_success conv => arg 1; arg 30)); refine sound_mk ?_ (by rfl)) | refine keeps_emit ?_ | refine keeps_tally ?_

theorem keeps_busSendId {a0 a1 a2 a3} {s : State} (h : sound s) : sound (busSendId a0 a1 a2 a3 s) := by
  unfold busSendId
  try dsimp only
  with_reducible repeat' first | assumption | refine sound_ite ?_ ?_ | refine keeps_busFrame ?_ | refine sound_foldl ?_ ?_ | intro _

theorem keeps_busSend {a0 a1 a2} {s : State} (h : sound s) : sound (busSend a0 a1 a2 s) := by
  unfold busSend
  try dsimp only
  with_reducible repeat' first | assumption | ((fail_if_success (fail_if_success conv => arg 1; arg 30)); refine sound_mk ?_ (by rfl)) | refine keeps_busSendId ?_

theorem keeps_busEvent {a0} {s : State} (h : sound s) : sound (busEvent a0 s) := by
  unfold busEvent
  try dsimp only
  with_reducible repeat' first | assumption | ((fail_if_success (fail_if_success conv => arg 1; arg 30)); refine sound_mk ?_ (by rfl)) | refine sound_ite ?_ ?_ | refine keeps_busSend ?_

theorem keeps_hostWrite {a0 a1} {s : State} (h : sound s) : sound (hostWrite a0 a1 s) := sound_hostMem h (memWrite_wf _ _ (hostMem_of h))

theorem keeps_updRing {a0 a1} {s : State} (h : sound s) : sound (updRing a0 a1 s) := by
  unfold updRing
  try dsimp only
  with_reducible repeat' first | assumption | ((fail_if_success (fail_if_success conv => arg 1; arg 30)); refine sound_mk ?_ (by rfl))

theorem keeps_sendMsix {a0 a1} {s : State} (h : sound s) : sound (sendMsix a0 a1 s) := by
  unfold sendMsix
  try dsimp only
  with_reducible repeat' first | assumption | refine keeps_updFn ?_ (fun _ => by rfl) | refine sound_ite ?_ ?_ | refine keeps_emit ?_

theorem keeps_signalRing {a0} {s : State} (h : sound s) : sound (signalRing a0 s) := by
  unfold signalRing
  try dsimp only
  with_reducible repeat' first | assumption | refine keeps_sendMsix ?_ | refine keeps_updRing ?_ | split

theorem keeps_moderate {a0} {s : State} (h : sound s) : sound (moderate a0 s) := by
  unfold moderate
  try dsimp only
  with_reducible repeat' first | assumption | refine keeps_signalRing ?_ | refine keeps_updRing ?_ | split

theorem keeps_publish {a0} {s : State} (h : sound s) : sound (publish a0 s) := by
  unfold publish
  try dsimp only
  with_reducible repeat' first | assumption | refine keeps_hostWrite ?_ | split

theorem keeps_writeRecord {a0 a1} {s : State} (h : sound s) : sound (writeRecord a0 a1 s) := by
  unfold writeRecord
  try dsimp only
  with_reducible repeat' first | assumption | refine keeps_hostWrite ?_ | refine keeps_updRing ?_ | refine keeps_moderate ?_ | refine keeps_publish ?_ | split

theorem keeps_flushEvents {a0 a1} {s : State} (h : sound s) : sound (flushEvents a0 a1 s) := by
  induction a0 generalizing s with
  | zero => exact h
  | succ fuel ih =>
    unfold flushEvents
    split
    · rename_i r e rest _ hp
      dsimp only
      refine sound_ite (ih (keeps_writeRecord (keeps_updFn (sound_mk h rfl) (fun _ => rfl)))) (ih (keeps_writeRecord (keeps_updFn_at h ?_)))
      have hl := evPending_of h a1
      rw [hp, List.length_cons] at hl
      exact Nat.le_of_succ_le hl
    · exact h

theorem keeps_giveEvent {a0 a1} {s : State} (h : sound s) : sound (giveEvent a0 a1 s) := by
  unfold giveEvent
  refine sound_ite h ?_
  split
  · exact keeps_updFn h (fun _ => rfl)
  · rename_i hn
    refine keeps_flushEvents ?_
    refine keeps_updFn_at h ?_
    simp only [List.length_append, List.length_cons, List.length_nil]
    omega

theorem keeps_raiseEvent {a0 a1 a2 a3} {s : State} (h : sound s) : sound (raiseEvent a0 a1 a2 a3 s) := by
  unfold raiseEvent
  have h1 : sound (logFault a0 a2 a3 { s with mgmt := { s.mgmt with eventSeq := (s.mgmt.eventSeq + 1) % 4294967296 } }) :=
    keeps_logFault (sound_mk h rfl)
  have hm : (logFault a0 a2 a3 { s with mgmt := { s.mgmt with eventSeq := (s.mgmt.eventSeq + 1) % 4294967296 } }).mgmt.restartEvents =
      s.mgmt.restartEvents := by unfold logFault; split <;> rfl
  dsimp only
  split
  · split
    · rename_i hl
      refine sound_mgmt h1 (bounded_of h1).1 (bounded_of h1).2.1 (bounded_of h1).2.2.1 ?_
      dsimp only
      rw [hm, List.length_append]
      exact hl
    · exact sound_mk h1 rfl
  · exact keeps_busEvent (keeps_giveEvent (keeps_giveEvent h1))

theorem keeps_checkStall {a0} {s : State} (h : sound s) : sound (checkStall a0 s) := by
  unfold checkStall
  try dsimp only
  with_reducible repeat' first | assumption | refine keeps_raiseEvent ?_ | refine keeps_tally ?_ | refine keeps_updRing ?_ | split

theorem keeps_checkStalls {s : State} (h : sound s) : sound (checkStalls s) := by
  unfold checkStalls
  try dsimp only
  with_reducible repeat' first | assumption | ((fail_if_success (fail_if_success conv => arg 1; arg 30)); refine sound_mk ?_ (by rfl)) | refine sound_ite ?_ ?_ | refine keeps_checkStall ?_ | refine sound_foldl ?_ ?_ | refine sound_of_pair (by assumption) ?_ | refine sound_of_some (by assumption) ?_ | refine sound_of_somePair (by assumption) ?_ | split | dsimp only | intro _

theorem keeps_freeTs {a0} {s : State} (h : sound s) : sound (freeTs a0 s) := by
  unfold freeTs
  try dsimp only
  with_reducible repeat' first | assumption | ((fail_if_success (fail_if_success conv => arg 1; arg 30)); refine sound_mk ?_ (by rfl)) | refine sound_ite ?_ ?_

theorem keeps_flushHeld {a0 a1} {s : State} (h : sound s) : sound (flushHeld a0 a1 s) := by
  induction a0 generalizing a1 s with
  | zero =>
    unfold flushHeld
    with_reducible repeat' first | assumption | refine ih ?_ | refine keeps_freeTs ?_ | refine keeps_writeRecord ?_ | refine keeps_updRing ?_ | split
  | succ fuel ih =>
    unfold flushHeld
    try dsimp only
    with_reducible repeat' first | assumption | refine ih ?_ | refine keeps_freeTs ?_ | refine keeps_writeRecord ?_ | refine keeps_updRing ?_ | split

theorem keeps_drainRing {a0} {s : State} (h : sound s) : sound (drainRing a0 s) := by
  unfold drainRing
  try dsimp only
  with_reducible repeat' first | assumption | refine keeps_checkStalls ?_ | refine keeps_flushHeld ?_ | refine keeps_flushEvents ?_ | split

theorem keeps_dropCause {a0} {s : State} (h : sound s) : sound (dropCause a0 s) := by
  unfold dropCause
  try dsimp only
  with_reducible repeat' first | assumption | refine keeps_tally ?_

theorem keeps_raiseMax {a0 a1} {s : State} (h : sound s) : sound (raiseMax a0 a1 s) := sound_ctrs h (awf_aset _ _ (ctrs_of h))

theorem keeps_dmaWrite {a0 a1 a2} {s : State} (h : sound s) : sound (dmaWrite a0 a1 a2 s) := by
  unfold dmaWrite
  try dsimp only
  with_reducible repeat' first | assumption | refine keeps_updFn ?_ (fun _ => by rfl) | refine sound_ite ?_ ?_ | refine keeps_hostWrite ?_

theorem keeps_drawn {s : State} (h : sound s) : sound (drawn s) := by
  unfold drawn
  try dsimp only
  with_reducible repeat' first | assumption | ((fail_if_success (fail_if_success conv => arg 1; arg 30)); refine sound_mk ?_ (by rfl))

theorem keeps_raiseGlb {a0} {s : State} (h : sound s) : sound (raiseGlb a0 s) := by
  unfold raiseGlb
  try dsimp only
  with_reducible repeat' first | assumption | ((fail_if_success (fail_if_success conv => arg 1; arg 30)); refine sound_mk ?_ (by rfl)) | refine sound_ite ?_ ?_ | refine keeps_sendMsix ?_

theorem keeps_setRing {a0 a1} {s : State} (h : sound s) : sound (setRing a0 a1 s) := by
  unfold setRing
  try dsimp only
  with_reducible repeat' first | assumption | ((fail_if_success (fail_if_success conv => arg 1; arg 30)); refine sound_mk ?_ (by rfl))

theorem keeps_tickBy {a0} {s : State} (h : sound s) : sound (tickBy a0 s) := by
  unfold tickBy
  try dsimp only
  with_reducible repeat' first | assumption | ((fail_if_success (fail_if_success conv => arg 1; arg 30)); refine sound_mk ?_ (by rfl))

theorem keeps_advanceTempo {a0} {s : State} (h : sound s) : sound (advanceTempo a0 s) := by
  unfold advanceTempo
  try dsimp only
  with_reducible repeat' first | assumption | ((fail_if_success (fail_if_success conv => arg 1; arg 30)); refine sound_mk ?_ (by rfl)) | refine sound_ite ?_ ?_ | refine keeps_tickBy ?_

theorem keeps_recordAccess {a0 a1 a2 a3} {s : State} (h : sound s) : sound (recordAccess a0 a1 a2 a3 s) := by
  unfold recordAccess
  try dsimp only
  with_reducible repeat' first | assumption | ((fail_if_success (fail_if_success conv => arg 1; arg 30)); refine sound_mk ?_ (by rfl)) | refine sound_ite ?_ ?_ | refine keeps_raiseGlb ?_

theorem keeps_postCompletion {a0 a1} {s : State} (h : sound s) : sound (postCompletion a0 a1 s) := by
  unfold postCompletion
  try dsimp only
  with_reducible repeat' first | assumption | refine keeps_freeTs ?_ | refine keeps_writeRecord ?_ | refine keeps_checkStalls ?_ | refine keeps_updRing ?_ | split

theorem keeps_updMac {a0 a1} {s : State} (h : sound s) : sound (updMac a0 a1 s) := by
  unfold updMac
  try dsimp only
  with_reducible repeat' first | assumption | ((fail_if_success (fail_if_success conv => arg 1; arg 30)); refine sound_mk ?_ (by rfl))

theorem keeps_journal {a0} {s : State} (h : sound s) : sound (journal a0 s) :=
  sound_mgmt h (bounded_of h).1 (List.length_take_le _ _) (bounded_of h).2.2.1 (bounded_of h).2.2.2.1

theorem keeps_advanceTo {a0} {s : State} (h : sound s) : sound (advanceTo a0 s) := by
  unfold advanceTo
  try dsimp only
  with_reducible repeat' first | assumption | refine sound_ite ?_ ?_ | refine keeps_tickBy ?_

theorem keeps_stage {a0 a1} {s : State} (h : sound s) : sound (stage a0 a1 s) := by
  unfold stage
  try dsimp only
  with_reducible repeat' first | assumption | ((fail_if_success (fail_if_success conv => arg 1; arg 30)); refine sound_mk ?_ (by rfl))

theorem keeps_crlOut {a0 a1} {s : State} (h : sound s) : sound (crlOut a0 a1 s) := by
  unfold crlOut
  try dsimp only
  with_reducible repeat' first | assumption | refine keeps_emit ?_ | refine sound_foldl ?_ ?_ | intro _

theorem keeps_floodId {a0 a1 a2 a3} {s : State} (h : sound s) : sound (floodId a0 a1 a2 a3 s) := by
  unfold floodId
  try dsimp only
  with_reducible repeat' first | assumption | refine sound_ite ?_ ?_ | refine keeps_crlOut ?_

theorem keeps_nextMsg {s : State} (h : sound s) : sound (nextMsg s) := by
  unfold nextMsg
  try dsimp only
  with_reducible repeat' first | assumption | ((fail_if_success (fail_if_success conv => arg 1; arg 30)); refine sound_mk ?_ (by rfl))

theorem keeps_flood {a0 a1 a2} {s : State} (h : sound s) : sound (flood a0 a1 a2 s) := by
  unfold flood
  try dsimp only
  with_reducible repeat' first | assumption | refine keeps_floodId ?_ | refine keeps_nextMsg ?_

theorem keeps_mirrorOut {a0 a1 a2} {s : State} (h : sound s) : sound (mirrorOut a0 a1 a2 s) := by
  unfold mirrorOut
  try dsimp only
  with_reducible repeat' first | assumption | ((fail_if_success (fail_if_success conv => arg 1; arg 30)); refine sound_mk ?_ (by rfl)) | refine sound_ite ?_ ?_ | refine keeps_raiseEvent ?_ | refine keeps_tally ?_ | refine keeps_flood ?_

theorem keeps_mirrorFlow {a0 a1} {s : State} (h : sound s) : sound (mirrorFlow a0 a1 s) := by
  unfold mirrorFlow
  try dsimp only
  with_reducible repeat' first | assumption | refine sound_ite ?_ ?_ | refine keeps_mirrorOut ?_

theorem keeps_crlNeighbour {a0 a1 a2} {s : State} (h : sound s) : sound (crlNeighbour a0 a1 a2 s) := by
  unfold crlNeighbour
  try dsimp only
  with_reducible repeat' first | assumption | refine sound_ite ?_ ?_ | refine keeps_crlOut ?_ | refine keeps_nextMsg ?_

theorem keeps_holdItem {a0 a1} {s : State} (h : sound s) : sound (holdItem a0 a1 s) := by
  unfold holdItem
  try dsimp only
  with_reducible repeat' first | assumption | ((fail_if_success (fail_if_success conv => arg 1; arg 30)); refine sound_mk ?_ (by rfl))

theorem keeps_mirrorCfg {a0 a1} {s : State} (h : sound s) : sound (mirrorCfg a0 a1 s) := by
  unfold mirrorCfg
  try dsimp only
  with_reducible repeat' first | assumption | refine sound_ite ?_ ?_ | refine keeps_mirrorOut ?_

theorem keeps_busRespond {a0 a1 a2} {s : State} (h : sound s) : sound (busRespond a0 a1 a2 s) := by
  unfold busRespond
  try dsimp only
  with_reducible repeat' first | assumption | ((fail_if_success (fail_if_success conv => arg 1; arg 30)); refine sound_mk ?_ (by rfl)) | refine keeps_busSendId ?_ | split

theorem keeps_relayRespond {a0 a1 a2} {s : State} (h : sound s) : sound (relayRespond a0 a1 a2 s) := by
  unfold relayRespond
  try dsimp only
  with_reducible repeat' first | assumption | ((fail_if_success (fail_if_success conv => arg 1; arg 30)); refine sound_mk ?_ (by rfl)) | refine keeps_floodId ?_ | split

theorem keeps_relaySend {a0 a1} {s : State} (h : sound s) : sound (relaySend a0 a1 s) := by
  unfold relaySend
  try dsimp only
  with_reducible repeat' first | assumption | refine keeps_flood ?_

theorem keeps_updCrlPort {a0 a1} {s : State} (h : sound s) : sound (updCrlPort a0 a1 s) := by
  unfold updCrlPort
  try dsimp only
  with_reducible repeat' first | assumption | ((fail_if_success (fail_if_success conv => arg 1; arg 30)); refine sound_mk ?_ (by rfl)) | refine sound_ite ?_ ?_

theorem keeps_limit {a0} {s : State} (h : sound s) : sound (limit a0 s).2 := by
  unfold limit
  try dsimp only
  with_reducible repeat' first | assumption | ((fail_if_success (fail_if_success conv => arg 1; arg 30)); refine sound_mk ?_ (by rfl))

theorem keeps_toQd {a0} {s : State} (h : sound s) : sound (toQd a0 s) := by
  unfold toQd
  try dsimp only
  with_reducible repeat' first | assumption | ((fail_if_success (fail_if_success conv => arg 1; arg 30)); refine sound_mk ?_ (by rfl))

theorem keeps_punt {a0} {s : State} (h : sound s) : sound (punt a0 s) := by
  unfold punt
  try dsimp only
  with_reducible repeat' first | assumption | refine sound_ite ?_ ?_ | refine keeps_limit ?_ | refine keeps_toQd ?_ | refine keeps_tally ?_ | refine keeps_dropCause ?_

theorem keeps_setUsed {a0 a1 a2} {s : State} (h : sound s) : sound (setUsed a0 a1 a2 s) := by
  unfold setUsed
  try dsimp only
  with_reducible repeat' first | assumption | ((fail_if_success (fail_if_success conv => arg 1; arg 30)); refine sound_mk ?_ (by rfl))

theorem keeps_setVoq {a0 a1} {s : State} (h : sound s) : sound (setVoq a0 a1 s) := by
  unfold setVoq
  try dsimp only
  with_reducible repeat' first | assumption | ((fail_if_success (fail_if_success conv => arg 1; arg 30)); refine sound_mk ?_ (by rfl))

theorem keeps_updVoq {a0 a1} {s : State} (h : sound s) : sound (updVoq a0 a1 s) := by
  unfold updVoq
  try dsimp only
  with_reducible repeat' first | assumption | refine keeps_setVoq ?_

theorem keeps_enterSpill {a0} {s : State} (h : sound s) : sound (enterSpill a0 s) := by
  unfold enterSpill
  try dsimp only
  with_reducible repeat' first | assumption | refine keeps_tally ?_ | refine keeps_updVoq ?_

theorem keeps_spillAtLevel3 {s : State} (h : sound s) : sound (spillAtLevel3 s) := by
  unfold spillAtLevel3
  try dsimp only
  with_reducible repeat' first | assumption | refine sound_ite ?_ ?_ | refine keeps_enterSpill ?_ | refine sound_foldl ?_ ?_ | intro _

theorem keeps_reportLevels {s : State} (h : sound s) : sound (reportLevels s) := by
  unfold reportLevels
  try dsimp only
  with_reducible repeat' first | assumption | ((fail_if_success (fail_if_success conv => arg 1; arg 30)); refine sound_mk ?_ (by rfl)) | refine sound_ite ?_ ?_ | refine keeps_spillAtLevel3 ?_ | refine keeps_raiseEvent ?_ | refine sound_foldl ?_ ?_ | intro _

theorem keeps_unref {a0} {s : State} (h : sound s) : sound (unref a0 s) := by
  unfold unref
  try dsimp only
  with_reducible repeat' first | assumption | ((fail_if_success (fail_if_success conv => arg 1; arg 30)); refine sound_mk ?_ (by rfl)) | refine keeps_reportLevels ?_ | refine keeps_setUsed ?_ | split

theorem keeps_addPage {a0 a1} {s : State} (h : sound s) : sound (addPage a0 a1 s) := by
  unfold addPage
  try dsimp only
  with_reducible repeat' first | assumption | refine keeps_drawn ?_ | refine keeps_updVoq ?_

theorem keeps_voqDrop {a0 a1} {s : State} (h : sound s) : sound (voqDrop a0 a1 s) := by
  unfold voqDrop
  try dsimp only
  with_reducible repeat' first | assumption | refine keeps_dropCause ?_ | refine keeps_tally ?_ | split

theorem keeps_reportHbm {s : State} (h : sound s) : sound (reportHbm s) := by
  unfold reportHbm
  try dsimp only
  with_reducible repeat' first | assumption | ((fail_if_success (fail_if_success conv => arg 1; arg 30)); refine sound_mk ?_ (by rfl)) | refine sound_ite ?_ ?_ | refine keeps_raiseEvent ?_

theorem keeps_alloc {a0 a1 a2} {s : State} (h : sound s) : soundOptPair (alloc a0 a1 a2 s) := by
  unfold alloc
  try dsimp only
  with_reducible repeat' first | assumption | ((fail_if_success (fail_if_success conv => arg 1; arg 30)); refine sound_mk ?_ (by rfl)) | exact soundOptPair_none | refine soundOptPair_some ?_ | refine keeps_tally ?_ | refine keeps_setUsed ?_ | refine keeps_reportLevels ?_ | split

theorem keeps_hbmPowerDown {s : State} (h : sound s) : sound (hbmPowerDown s) := by
  unfold hbmPowerDown
  try dsimp only
  with_reducible repeat' first | assumption | ((fail_if_success (fail_if_success conv => arg 1; arg 30)); refine sound_mk ?_ (by rfl)) | refine sound_ite ?_ ?_ | refine keeps_raiseEvent ?_ | refine keeps_reportHbm ?_

theorem keeps_checkHbmIdle {s : State} (h : sound s) : sound (checkHbmIdle s) := by
  unfold checkHbmIdle
  try dsimp only
  with_reducible repeat' first | assumption | refine sound_ite ?_ ?_ | refine keeps_hbmPowerDown ?_

theorem keeps_setRefs {a0 a1} {s : State} (h : sound s) : sound (setRefs a0 a1 s) := by
  unfold setRefs
  try dsimp only
  with_reducible repeat' first | assumption | ((fail_if_success (fail_if_success conv => arg 1; arg 30)); refine sound_mk ?_ (by rfl)) | refine keeps_unref ?_ | split

theorem keeps_setSegment {a0 a1 a2} {s : State} (h : sound s) : sound (setSegment a0 a1 a2 s) := by
  unfold setSegment
  try dsimp only
  with_reducible repeat' first | assumption | refine keeps_reportHbm ?_ | refine keeps_updVoq ?_

theorem keeps_checkUnspill {a0} {s : State} (h : sound s) : sound (checkUnspill a0 s) := by
  unfold checkUnspill
  try dsimp only
  with_reducible repeat' first | assumption | refine sound_ite ?_ ?_ | refine keeps_tally ?_ | refine keeps_updVoq ?_ | refine keeps_setSegment ?_

theorem keeps_exhausted {a0 a1} {s : State} (h : sound s) : sound (exhausted a0 a1 s) := by
  unfold exhausted
  try dsimp only
  with_reducible repeat' first | assumption | ((fail_if_success (fail_if_success conv => arg 1; arg 30)); refine sound_mk ?_ (by rfl)) | refine sound_ite ?_ ?_ | refine keeps_dropCause ?_ | refine keeps_tally ?_ | refine keeps_raiseEvent ?_

theorem keeps_hold {a0} {s : State} (h : sound s) : sound (hold a0 s) := by
  unfold hold
  try dsimp only
  with_reducible repeat' first | assumption | ((fail_if_success (fail_if_success conv => arg 1; arg 30)); refine sound_mk ?_ (by rfl))

theorem keeps_windowDone {a0 a1} {s : State} (h : sound s) : sound (windowDone a0 a1 s) := by
  unfold windowDone
  try dsimp only
  with_reducible repeat' first | assumption | ((fail_if_success (fail_if_success conv => arg 1; arg 30)); refine sound_mk ?_ (by rfl)) | refine sound_ite ?_ ?_ | refine keeps_sendMsix ?_

theorem keeps_answer {a0 a1 a2 a3 a4} {s : State} (h : sound s) : sound (answer a0 a1 a2 a3 a4 s) := by
  unfold answer
  try dsimp only
  with_reducible repeat' first | assumption | refine keeps_postCompletion ?_ | refine keeps_dmaWrite ?_ | refine keeps_windowDone ?_ | refine keeps_busRespond ?_ | refine keeps_relayRespond ?_ | split

theorem keeps_finishTo {a0 a1 a2 a3 a4 a5 a6 a7} {s : State} (h : sound s) : sound (finishTo a0 a1 a2 a3 a4 a5 a6 a7 s) := by
  unfold finishTo
  dsimp only
  have h1 : sound (if a5 && !s.mgmt.rom then journal (cmdRecord a1 a3 a6 a7) s else s) := sound_ite (keeps_journal h) h
  generalize (if a5 && !s.mgmt.rom then journal (cmdRecord a1 a3 a6 a7) s else s) = s1 at h1 ⊢
  have h2 := sound_mgmt (m := { s1.mgmt with done := ({ source := a1.source, origin := a1.origin, tag := a1.tag, op := a1.op, status := a3, journalSeq := (if a5 && !s.mgmt.rom then s.mgmt.journalNext else 0) } :: s1.mgmt.done).take 4096 }) h1 (List.length_take_le _ _) (bounded_of h1).2.1 (bounded_of h1).2.2.1 (bounded_of h1).2.2.2.1
  exact sound_ite (keeps_raiseEvent (keeps_answer h2)) (keeps_answer h2)

theorem keeps_finish {a0 a1 a2 a3 a4 a5 a6} {s : State} (h : sound s) : sound (finish a0 a1 a2 a3 a4 a5 a6 s) := by
  unfold finish
  try dsimp only
  with_reducible repeat' first | assumption | ((fail_if_success (fail_if_success conv => arg 1; arg 30)); refine sound_mk ?_ (by rfl)) | refine sound_ite ?_ ?_ | refine keeps_finishTo ?_ | refine sound_foldl ?_ ?_ | refine sound_of_pair (by assumption) ?_ | refine sound_of_some (by assumption) ?_ | refine sound_of_somePair (by assumption) ?_ | split | dsimp only | intro _

theorem keeps_consume {a0} {s : State} (h : sound s) : sound (consume a0 s) := by
  unfold consume
  try dsimp only
  with_reducible repeat' first | assumption | refine keeps_publish ?_ | refine keeps_updRing ?_

theorem keeps_consumeCmd {a0} {s : State} (h : sound s) : sound (consumeCmd a0 s) := by
  unfold consumeCmd
  try dsimp only
  with_reducible repeat' first | assumption | refine sound_ite ?_ ?_ | refine keeps_consume ?_

theorem keeps_refuse {a0 a1} {s : State} (h : sound s) : sound (refuse a0 a1 s) := by
  unfold refuse
  try dsimp only
  with_reducible repeat' first | assumption | refine keeps_finish ?_ | refine keeps_consumeCmd ?_

theorem keeps_noteRemote {a0} {s : State} (h : sound s) : sound (noteRemote a0 s) := by
  unfold noteRemote
  try dsimp only
  with_reducible repeat' first | assumption | ((fail_if_success (fail_if_success conv => arg 1; arg 30)); refine sound_mk ?_ (by rfl)) | refine sound_ite ?_ ?_

theorem keeps_enter {a0 a1} {s : State} (fa0 : ∀ x0 x1, sound x1 → sound (a0 x0 x1)) (h : sound s) : sound (enter a0 a1 s) := by
  unfold enter
  try dsimp only
  with_reducible repeat' first | assumption | ((fail_if_success (fail_if_success conv => arg 1; arg 30)); refine sound_mk ?_ (by rfl)) | refine keeps_hold ?_ | refine keeps_refuse ?_ | refine keeps_noteRemote ?_ | refine fa0 _ _ ?_ | split

theorem keeps_running {a0 a1 a2 a3} {s : State} (h : sound s) : sound (running a0 a1 a2 a3 s) := by
  unfold running
  try dsimp only
  with_reducible repeat' first | assumption | ((fail_if_success (fail_if_success conv => arg 1; arg 30)); refine sound_mk ?_ (by rfl))

theorem keeps_windowRunning {a0} {s : State} (h : sound s) : sound (windowRunning a0 s) := by
  unfold windowRunning
  try dsimp only
  with_reducible repeat' first | assumption | ((fail_if_success (fail_if_success conv => arg 1; arg 30)); refine sound_mk ?_ (by rfl)) | refine sound_ite ?_ ?_

theorem keeps_remarkDue {a0 a1} {s : State} (h : sound s) : sound (remarkDue a0 a1 s) := by
  unfold remarkDue
  try dsimp only
  with_reducible repeat' first | assumption | ((fail_if_success (fail_if_success conv => arg 1; arg 30)); refine sound_mk ?_ (by rfl)) | refine sound_ite ?_ ?_ | refine sound_foldl ?_ ?_ | refine sound_of_pair (by assumption) ?_ | refine sound_of_some (by assumption) ?_ | refine sound_of_somePair (by assumption) ?_ | split | dsimp only | intro _

theorem keeps_postMirrored {a0} {s : State} (h : sound s) : sound (postMirrored a0 s) := by
  unfold postMirrored
  try dsimp only
  with_reducible repeat' first | assumption | ((fail_if_success (fail_if_success conv => arg 1; arg 30)); refine sound_mk ?_ (by rfl)) | refine sound_ite ?_ ?_ | refine keeps_postCompletion ?_ | refine keeps_remarkDue ?_ | refine sound_foldl ?_ ?_ | refine sound_of_pair (by assumption) ?_ | refine sound_of_some (by assumption) ?_ | refine sound_of_somePair (by assumption) ?_ | split | dsimp only | intro _

theorem keeps_finishRunning {a0 a1 a2 a3 a4 a5} {s : State} (h : sound s) : sound (finishRunning a0 a1 a2 a3 a4 a5 s) := by
  unfold finishRunning
  try dsimp only
  with_reducible repeat' first | assumption | ((fail_if_success (fail_if_success conv => arg 1; arg 30)); refine sound_mk ?_ (by rfl)) | refine keeps_finishTo ?_

theorem keeps_finishMirrored {a0} {s : State} (h : sound s) : sound (finishMirrored a0 s) := by
  unfold finishMirrored
  try dsimp only
  with_reducible repeat' first | assumption | ((fail_if_success (fail_if_success conv => arg 1; arg 30)); refine sound_mk ?_ (by rfl)) | refine sound_ite ?_ ?_ | refine keeps_finishRunning ?_ | refine keeps_remarkDue ?_ | refine sound_foldl ?_ ?_ | refine sound_of_pair (by assumption) ?_ | refine sound_of_some (by assumption) ?_ | refine sound_of_somePair (by assumption) ?_ | split | dsimp only | intro _

theorem keeps_releaseMirror {s : State} (h : sound s) : sound (releaseMirror s) := by
  unfold releaseMirror
  try dsimp only
  with_reducible repeat' first | assumption | ((fail_if_success (fail_if_success conv => arg 1; arg 30)); refine sound_mk ?_ (by rfl)) | refine keeps_postMirrored ?_ | refine keeps_finishMirrored ?_ | refine sound_foldl ?_ ?_ | intro _

theorem keeps_releaseUnmirrored {s : State} (h : sound s) : sound (releaseUnmirrored s) := by
  unfold releaseUnmirrored
  try dsimp only
  with_reducible repeat' first | assumption | refine sound_ite ?_ ?_ | refine keeps_releaseMirror ?_

theorem keeps_markDue {a0 a1} {s : State} (h : sound s) : sound (markDue a0 a1 s) := by
  unfold markDue
  try dsimp only
  with_reducible repeat' first | assumption | ((fail_if_success (fail_if_success conv => arg 1; arg 30)); refine sound_mk ?_ (by rfl)) | refine sound_ite ?_ ?_ | refine sound_foldl ?_ ?_ | refine sound_of_pair (by assumption) ?_ | refine sound_of_some (by assumption) ?_ | refine sound_of_somePair (by assumption) ?_ | split | dsimp only | intro _

theorem keeps_beginCmd {c : CmdSpec} {a1} {s : State} (hc : soundSpec c) (h : sound s) : sound (beginCmd c a1 s) := by
  unfold beginCmd
  refine sound_ite (keeps_refuse h) (sound_ite (keeps_refuse h) (sound_ite (keeps_refuse h) ?_))
  have h1 := keeps_windowRunning (a0 := a1) (keeps_consumeCmd (a0 := a1) h)
  have hv := hc a1 _ h1
  generalize windowRunning a1 (consumeCmd a1 s) = s1 at h1 hv ⊢
  split
  · exact keeps_refuse h
  · exact keeps_relaySend (keeps_running h1)
  · split
    · exact keeps_refuse h
    · rename_i ev
      rw [ev] at hv
      exact sound_ite (keeps_refuse h) (sound_ite (keeps_releaseUnmirrored (keeps_mirrorCfg (keeps_running (keeps_markDue hv)))) (keeps_markDue (keeps_finish (sound_ite (keeps_mirrorCfg hv) hv))))
    · rename_i ev
      rw [ev] at hv
      exact keeps_running hv

theorem keeps_issue {a0 a1 a2} {s : State} (fa1 : soundSpec a1) (h : sound s) : sound (issue a0 a1 a2 s) := by
  unfold issue
  try dsimp only
  with_reducible repeat' first | assumption | refine keeps_enter ?_ ?_ | refine keeps_beginCmd ?_ ?_ | intro _

theorem keeps_runCmd {a0 a1 a2} {s : State} (fa1 : soundSpec a1) (h : sound s) : soundRes (runCmd a0 a1 a2 s) := by
  unfold runCmd
  try dsimp only
  with_reducible repeat' first | assumption | refine soundRes_next ?_ | refine keeps_issue ?_ ?_

theorem keeps_finishWaiting {a0 a1 a2 a3 a4 a5} {s : State} (h : sound s) : sound (finishWaiting a0 a1 a2 a3 a4 a5 s) := by
  unfold finishWaiting
  try dsimp only
  with_reducible repeat' first | assumption | refine keeps_finishRunning ?_ | split

theorem keeps_ringIndexConfig {a0} {s : State} (h : sound s) : soundVerdict (ringIndexConfig a0 s) := by
  unfold ringIndexConfig
  try dsimp only
  with_reducible repeat' first | assumption | refine keeps_updFn ?_ (fun _ => by rfl) | refine soundVerdict_ite ?_ ?_ | exact soundVerdict_refuse | refine soundVerdict_done ?_

theorem keeps_dropPosted {a0} {s : State} (h : sound s) : sound (dropPosted a0 s) := by
  unfold dropPosted
  try dsimp only
  with_reducible repeat' first | assumption | ((fail_if_success (fail_if_success conv => arg 1; arg 30)); refine sound_mk ?_ (by rfl))

theorem keeps_stopRing {a0 a1} {s : State} (h : sound s) : sound (stopRing a0 a1 s) := by
  unfold stopRing
  try dsimp only
  with_reducible repeat' first | assumption | refine keeps_raiseEvent ?_ | refine keeps_publish ?_ | refine keeps_updRing ?_ | refine keeps_dropPosted ?_ | split

theorem keeps_hostIndexRead {a0 a1} {s : State} (h : sound s) : sound (hostIndexRead a0 a1 s) := by
  unfold hostIndexRead
  try dsimp only
  with_reducible repeat' first | assumption | refine keeps_updRing ?_ | refine keeps_stopRing ?_ | split

theorem keeps_invalidated {a0 a1} {s : State} (h : sound s) : sound (invalidated a0 a1 s) := by
  unfold invalidated
  try dsimp only
  with_reducible repeat' first | assumption | refine keeps_publish ?_ | refine keeps_updRing ?_

theorem keeps_invalidate {a0} {s : State} (h : sound s) : sound (invalidate a0 s) := by
  unfold invalidate
  try dsimp only
  with_reducible repeat' first | assumption | refine keeps_updRing ?_ | refine keeps_dropPosted ?_ | refine keeps_invalidated ?_ | split

theorem keeps_recallPunts {a0} {s : State} (h : sound s) : sound (recallPunts a0 s) := by
  unfold recallPunts
  try dsimp only
  with_reducible repeat' first | assumption | ((fail_if_success (fail_if_success conv => arg 1; arg 30)); refine sound_mk ?_ (by rfl)) | refine sound_ite ?_ ?_ | refine sound_foldl ?_ ?_ | refine sound_of_pair (by assumption) ?_ | refine sound_of_some (by assumption) ?_ | refine sound_of_somePair (by assumption) ?_ | split | dsimp only | intro _

theorem keeps_sendPending {a0} {s : State} (h : sound s) : sound (sendPending a0 s) := by
  unfold sendPending
  try dsimp only
  with_reducible repeat' first | assumption | refine keeps_updFn ?_ (fun _ => by rfl) | ((fail_if_success (fail_if_success conv => arg 1; arg 30)); refine sound_mk ?_ (by rfl)) | refine sound_ite ?_ ?_ | refine keeps_sendMsix ?_ | refine sound_foldl ?_ ?_ | refine sound_of_pair (by assumption) ?_ | refine sound_of_some (by assumption) ?_ | refine sound_of_somePair (by assumption) ?_ | split | dsimp only | intro _

theorem keeps_resumeFn {a0 a1} {s : State} (h : sound s) : sound (resumeFn a0 a1 s) := by
  unfold resumeFn
  try dsimp only
  with_reducible repeat' first | assumption | refine keeps_updFn ?_ (fun _ => by rfl) | refine keeps_hostWrite ?_ | refine keeps_publish ?_ | refine keeps_hostIndexRead ?_ | refine keeps_drainRing ?_ | refine keeps_sendPending ?_ | refine sound_foldl ?_ ?_ | split | intro _

theorem keeps_execBusMasterEnable {a0 a1 a2} {s : State} (h : sound s) : soundRes (execBusMasterEnable a0 a1 a2 s) := by
  unfold execBusMasterEnable
  try dsimp only
  with_reducible repeat' first | assumption | refine keeps_updFn ?_ (fun _ => by rfl) | refine soundRes_next ?_ | refine sound_ite ?_ ?_ | refine keeps_resumeFn ?_

theorem keeps_functionReset {a0} {s : State} (h : sound s) : sound (functionReset a0 s) := by
  unfold functionReset
  exact keeps_updFn (sound_mk (sound_foldl (fun _ _ => keeps_dropPosted) (keeps_recallPunts (sound_mk h rfl))) rfl) (fun _ => rfl)

theorem keeps_ringQuery {a0} {s : State} (h : sound s) : soundVerdict (ringQuery a0 s) := by
  unfold ringQuery
  try dsimp only
  with_reducible repeat' first | assumption | exact soundVerdict_refuse | refine soundVerdict_done ?_ | split

theorem keeps_ringDestroy {a0} {s : State} (h : sound s) : soundVerdict (ringDestroy a0 s) := by
  unfold ringDestroy
  try dsimp only
  with_reducible repeat' first | assumption | ((fail_if_success (fail_if_success conv => arg 1; arg 30)); refine sound_mk ?_ (by rfl)) | exact soundVerdict_refuse | refine soundVerdict_done ?_ | refine keeps_dmaWrite ?_ | split

theorem keeps_execCompletionHeldFlush {a0} {s : State} (h : sound s) : soundRes (execCompletionHeldFlush a0 s) := by
  unfold execCompletionHeldFlush
  try dsimp only
  with_reducible repeat' first | assumption | refine soundRes_next ?_ | refine keeps_drainRing ?_

theorem keeps_rxGroupConfig {a0} {s : State} (h : sound s) : soundVerdict (rxGroupConfig a0 s) := by
  unfold rxGroupConfig
  try dsimp only
  with_reducible repeat' first | assumption | ((fail_if_success (fail_if_success conv => arg 1; arg 30)); refine sound_mk ?_ (by rfl)) | exact soundVerdict_refuse | refine soundVerdict_done ?_ | split

theorem keeps_specRxGroupConfig : soundSpec specRxGroupConfig := by
  intro x s h
  unfold specRxGroupConfig
  with_reducible exact keeps_rxGroupConfig h

theorem keeps_execRxGroupConfig {a0} {s : State} (h : sound s) : soundRes (execRxGroupConfig a0 s) := by
  unfold execRxGroupConfig
  try dsimp only
  with_reducible repeat' first | assumption | exact keeps_specRxGroupConfig | refine keeps_runCmd ?_ ?_

theorem keeps_ringDisabled {a0} {s : State} (h : sound s) : sound (ringDisabled a0 s) := by
  unfold ringDisabled
  try dsimp only
  with_reducible repeat' first | assumption | refine keeps_publish ?_ | refine keeps_updRing ?_ | refine keeps_dropPosted ?_

theorem keeps_descDone {a0} {s : State} (h : sound s) : sound (descDone a0 s) := by
  unfold descDone
  try dsimp only
  with_reducible repeat' first | assumption | refine keeps_publish ?_ | refine keeps_updRing ?_ | refine keeps_invalidated ?_ | refine keeps_finishWaiting ?_ | refine keeps_ringDisabled ?_ | split

theorem keeps_ringReadFailed {a0} {s : State} (h : sound s) : sound (ringReadFailed a0 s) := by
  unfold ringReadFailed
  try dsimp only
  with_reducible repeat' first | assumption | refine keeps_stopRing ?_ | refine keeps_tally ?_

theorem keeps_pollRing {a0} {s : State} (h : sound s) : sound (pollRing a0 s) := by
  unfold pollRing
  try dsimp only
  with_reducible repeat' first | assumption | refine keeps_drainRing ?_ | refine keeps_hostIndexRead ?_ | refine keeps_ringReadFailed ?_ | split

theorem keeps_execHostIndexPoll {a0} {s : State} (h : sound s) : soundRes (execHostIndexPoll a0 s) := by
  unfold execHostIndexPoll
  try dsimp only
  with_reducible repeat' first | assumption | refine soundRes_next ?_ | refine keeps_pollRing ?_ | refine sound_foldl ?_ ?_ | intro _

theorem keeps_ringDisable {a0} {s : State} (h : sound s) : soundVerdict (ringDisable a0 s) := by
  unfold ringDisable
  try dsimp only
  with_reducible repeat' first | assumption | exact soundVerdict_refuse | refine soundVerdict_done ?_ | refine soundVerdict_wait ?_ | refine keeps_ringDisabled ?_ | refine keeps_updRing ?_ | refine keeps_dropPosted ?_ | split

theorem keeps_puntQueueBind {a0} {s : State} (h : sound s) : soundVerdict (puntQueueBind a0 s) := by
  unfold puntQueueBind
  try dsimp only
  with_reducible repeat' first | assumption | ((fail_if_success (fail_if_success conv => arg 1; arg 30)); refine sound_mk ?_ (by rfl)) | exact soundVerdict_refuse | refine soundVerdict_done ?_ | split

theorem keeps_specPuntQueueBind : soundSpec specPuntQueueBind := by
  intro x s h
  unfold specPuntQueueBind
  with_reducible exact keeps_puntQueueBind h

theorem keeps_execPuntQueueBind {a0} {s : State} (h : sound s) : soundRes (execPuntQueueBind a0 s) := by
  unfold execPuntQueueBind
  try dsimp only
  with_reducible repeat' first | assumption | exact keeps_specPuntQueueBind | refine keeps_runCmd ?_ ?_

theorem keeps_specRingQuery : soundSpec specRingQuery := by
  intro x s h
  unfold specRingQuery
  with_reducible exact keeps_ringQuery h

theorem keeps_execRingQuery {a0} {s : State} (h : sound s) : soundRes (execRingQuery a0 s) := by
  unfold execRingQuery
  try dsimp only
  with_reducible repeat' first | assumption | exact keeps_specRingQuery | refine keeps_runCmd ?_ ?_

theorem keeps_discardDoorbell {a0 a1 a2} {s : State} (h : sound s) : sound (discardDoorbell a0 a1 a2 s) := by
  unfold discardDoorbell
  try dsimp only
  with_reducible repeat' first | assumption | ((fail_if_success (fail_if_success conv => arg 1; arg 30)); refine sound_mk ?_ (by rfl)) | refine keeps_tally ?_

theorem keeps_ringCreate {a0} {s : State} (h : sound s) : soundVerdict (ringCreate a0 s) := by
  unfold ringCreate
  try dsimp only
  with_reducible repeat' first | assumption | ((fail_if_success (fail_if_success conv => arg 1; arg 30)); refine sound_mk ?_ (by rfl)) | refine soundVerdict_ite ?_ ?_ | exact soundVerdict_refuse | refine soundVerdict_done ?_ | refine soundVerdict_wait ?_ | refine sound_ite ?_ ?_ | refine keeps_publish ?_ | refine keeps_setRing ?_ | refine sound_foldl ?_ ?_ | refine sound_of_pair (by assumption) ?_ | refine sound_of_some (by assumption) ?_ | refine sound_of_somePair (by assumption) ?_ | split | dsimp only | intro _

theorem keeps_specRingCreate : soundSpec specRingCreate := by
  intro x s h
  unfold specRingCreate
  with_reducible exact keeps_ringCreate h

theorem keeps_execRingCreate {a0} {s : State} (h : sound s) : soundRes (execRingCreate a0 s) := by
  unfold execRingCreate
  try dsimp only
  with_reducible repeat' first | assumption | exact keeps_specRingCreate | refine keeps_runCmd ?_ ?_

theorem keeps_execDescriptorFetch {a0 a1 a2} {s : State} (h : sound s) : soundRes (execDescriptorFetch a0 a1 a2 s) := by
  unfold execDescriptorFetch
  try dsimp only
  with_reducible repeat' first | assumption | refine soundRes_next ?_ | refine keeps_updRing ?_ | split

theorem keeps_specRingDestroy : soundSpec specRingDestroy := by
  intro x s h
  unfold specRingDestroy
  with_reducible exact keeps_ringDestroy h

theorem keeps_execRingDestroy {a0} {s : State} (h : sound s) : soundRes (execRingDestroy a0 s) := by
  unfold execRingDestroy
  try dsimp only
  with_reducible repeat' first | assumption | exact keeps_specRingDestroy | refine keeps_runCmd ?_ ?_

theorem keeps_rearm {a0} {s : State} (h : sound s) : sound (rearm a0 s) := by
  unfold rearm
  try dsimp only
  with_reducible repeat' first | assumption | refine keeps_moderate ?_ | refine keeps_updRing ?_

theorem keeps_newWork {a0 a1} {s : State} (h : sound s) : sound (newWork a0 a1 s) := by
  unfold newWork
  try dsimp only
  with_reducible repeat' first | assumption | refine keeps_ringReadFailed ?_ | refine keeps_drainRing ?_ | refine keeps_rearm ?_ | refine keeps_hostIndexRead ?_ | refine keeps_updRing ?_ | split

theorem keeps_ringEnable {a0} {s : State} (h : sound s) : soundVerdict (ringEnable a0 s) := by
  unfold ringEnable
  try dsimp only
  with_reducible repeat' first | assumption | exact soundVerdict_refuse | refine soundVerdict_done ?_ | refine keeps_updRing ?_ | refine keeps_hostIndexRead ?_ | refine keeps_drainRing ?_ | refine keeps_publish ?_ | split

theorem keeps_execDmaTimeout {a0} {s : State} (h : sound s) : soundRes (execDmaTimeout a0 s) := by
  unfold execDmaTimeout
  try dsimp only
  with_reducible repeat' first | assumption | refine soundRes_next ?_ | refine keeps_stopRing ?_ | refine keeps_tally ?_ | split

theorem keeps_execNewWork {a0 a1 a2} {s : State} (h : sound s) : soundRes (execNewWork a0 a1 a2 s) := by
  unfold execNewWork
  try dsimp only
  with_reducible repeat' first | assumption | refine soundRes_next ?_ | refine keeps_discardDoorbell ?_ | refine keeps_newWork ?_ | split

theorem keeps_specRingEnable : soundSpec specRingEnable := by
  intro x s h
  unfold specRingEnable
  with_reducible exact keeps_ringEnable h

theorem keeps_execRingEnable {a0} {s : State} (h : sound s) : soundRes (execRingEnable a0 s) := by
  unfold execRingEnable
  try dsimp only
  with_reducible repeat' first | assumption | exact keeps_specRingEnable | refine keeps_runCmd ?_ ?_

theorem keeps_execInvalidate {a0 a1 a2} {s : State} (h : sound s) : soundRes (execInvalidate a0 a1 a2 s) := by
  unfold execInvalidate
  try dsimp only
  with_reducible repeat' first | assumption | refine soundRes_next ?_ | refine keeps_discardDoorbell ?_ | refine keeps_newWork ?_ | refine keeps_invalidate ?_ | split

theorem keeps_specRingIndexConfig : soundSpec specRingIndexConfig := by
  intro x s h
  unfold specRingIndexConfig
  with_reducible exact keeps_ringIndexConfig h

theorem keeps_execRingIndexConfig {a0} {s : State} (h : sound s) : soundRes (execRingIndexConfig a0 s) := by
  unfold execRingIndexConfig
  try dsimp only
  with_reducible repeat' first | assumption | exact keeps_specRingIndexConfig | refine keeps_runCmd ?_ ?_

theorem keeps_specRingDisable : soundSpec specRingDisable := by
  intro x s h
  unfold specRingDisable
  with_reducible exact keeps_ringDisable h

theorem keeps_execRingDisable {a0} {s : State} (h : sound s) : soundRes (execRingDisable a0 s) := by
  unfold execRingDisable
  try dsimp only
  with_reducible repeat' first | assumption | exact keeps_specRingDisable | refine keeps_runCmd ?_ ?_

theorem keeps_execInterruptModeration {a0} {s : State} (h : sound s) : soundRes (execInterruptModeration a0 s) := by
  unfold execInterruptModeration
  try dsimp only
  with_reducible repeat' first | assumption | refine soundRes_next ?_ | refine keeps_advanceTo ?_ | refine keeps_signalRing ?_ | refine keeps_updRing ?_ | split

theorem keeps_execFunctionReset {a0} {s : State} (h : sound s) : soundRes (execFunctionReset a0 s) := by
  unfold execFunctionReset
  try dsimp only
  with_reducible repeat' first | assumption | refine soundRes_next ?_ | refine sound_ite ?_ ?_ | refine keeps_functionReset ?_

theorem keeps_execDoorbellDiscard {a0 a1 a2 a3} {s : State} (h : sound s) : soundRes (execDoorbellDiscard a0 a1 a2 a3 s) := by
  unfold execDoorbellDiscard
  try dsimp only
  with_reducible repeat' first | assumption | refine soundRes_next ?_ | refine keeps_discardDoorbell ?_ | split

end Sys2Proof.Laws
end

