-- ==== Sys2Proof/Laws/KeepsRules.lean ====
section
/-! SUPPORT. The operations keep sound states sound: parsing, queue and scheduler commands and the change at a downbeat. One lemma for each definition of those files. -/

namespace Sys2Proof.Laws
open Sys2Proof Sys2Proof.Machine

theorem keeps_injectDone {a0 a1 a2 a3 a4} {s : State} (h : sound s) : sound (injectDone a0 a1 a2 a3 a4 s) := by
  unfold injectDone
  try dsimp only
  with_reducible repeat' first | assumption | refine keeps_postCompletion ?_ | split

theorem keeps_endPkt {a0 a1 a2} {s : State} (h : sound s) : sound (endPkt a0 a1 a2 s) := by
  unfold endPkt
  try dsimp only
  with_reducible repeat' first | assumption | refine keeps_unref ?_ | refine keeps_injectDone ?_ | split

theorem keeps_discardVoq {a0 a1 a2} {s : State} (h : sound s) : sound (discardVoq a0 a1 a2 s) := by
  unfold discardVoq
  try dsimp only
  with_reducible repeat' first | assumption | refine keeps_endPkt ?_ | refine keeps_voqDrop ?_

theorem keeps_discardLeaf {a0 a1 a2 a3 a4} {s : State} (h : sound s) : sound (discardLeaf a0 a1 a2 a3 a4 s) := by
  unfold discardLeaf
  try dsimp only
  with_reducible repeat' first | assumption | refine keeps_endPkt ?_ | refine keeps_dropCause ?_ | refine keeps_tally ?_

theorem keeps_discard {a0 a1} {s : State} (h : sound s) : sound (Sys2Proof.Machine.discard a0 a1 s) := keeps_endPkt (keeps_dropCause h)

theorem keeps_setLeaf {a0 a1} {s : State} (h : sound s) : sound (setLeaf a0 a1 s) := by
  unfold setLeaf
  try dsimp only
  with_reducible repeat' first | assumption | ((fail_if_success (fail_if_success conv => arg 1; arg 30)); refine sound_mk ?_ (by rfl))

theorem keeps_setShaper {a0 a1 a2} {s : State} (h : sound s) : sound (setShaper a0 a1 a2 s) := by
  unfold setShaper
  try dsimp only
  with_reducible repeat' first | assumption | ((fail_if_success (fail_if_success conv => arg 1; arg 30)); refine sound_mk ?_ (by rfl)) | split

theorem keeps_settle {a0 a1} {s : State} (h : sound s) : sound (settle a0 a1 s) := by
  unfold settle
  try dsimp only
  with_reducible repeat' first | assumption | refine keeps_setShaper ?_

theorem keeps_settlePath {a0} {s : State} (h : sound s) : sound (settlePath a0 s) := by
  unfold settlePath
  try dsimp only
  with_reducible repeat' first | assumption | refine keeps_settle ?_ | split

theorem keeps_settleMac {a0} {s : State} (h : sound s) : sound (settleMac a0 s) := by
  unfold settleMac
  try dsimp only
  with_reducible repeat' first | assumption | refine keeps_settlePath ?_ | refine sound_foldl ?_ ?_ | intro _

theorem keeps_pickChild {a0 a1} {s : State} (h : sound s) : soundOptPair (pickChild a0 a1 s) := by
  unfold pickChild
  exact soundOptPair_map (fun _ => sound_foldl (fun _ _ => keeps_setShaper) h)

theorem keeps_descend {a0 a1 a2} {s : State} (h : sound s) : soundOptPair (descend a0 a1 a2 s) := by
  induction a0 generalizing a1 a2 s with
  | zero =>
    unfold descend
    with_reducible repeat' first | assumption | refine ih ?_ | exact soundOptPair_none | refine soundOptPair_some ?_ | refine keeps_pickChild ?_ | refine sound_of_somePair (by assumption) ?_ | split
  | succ fuel ih =>
    unfold descend
    try dsimp only
    with_reducible repeat' first | assumption | refine ih ?_ | exact soundOptPair_none | refine soundOptPair_some ?_ | refine keeps_pickChild ?_ | refine sound_of_somePair (by assumption) ?_ | split

theorem keeps_dropAged {a0 a1 a2} {s : State} (h : sound s) : sound (dropAged a0 a1 a2 s) := by
  induction a2 generalizing a0 a1 s with
  | nil =>
    unfold dropAged
    with_reducible repeat' first | assumption | refine ih ?_ | refine sound_ite ?_ ?_ | refine keeps_discardLeaf ?_ | refine keeps_setLeaf ?_
  | cons p t ih =>
    unfold dropAged
    try dsimp only
    with_reducible repeat' first | assumption | refine ih ?_ | refine sound_ite ?_ ?_ | refine keeps_discardLeaf ?_ | refine keeps_setLeaf ?_

theorem keeps_charge {a0 a1} {s : State} (h : sound s) : sound (charge a0 a1 s) := by
  unfold charge
  try dsimp only
  with_reducible repeat' first | assumption | refine keeps_setShaper ?_ | split

theorem keeps_selectOnce {a0 a1} {s : State} (h : sound s) : sound (selectOnce a0 a1 s).2 := by
  induction a0 generalizing a1 s with
  | zero =>
    unfold selectOnce
    with_reducible repeat' first | assumption | refine ih ?_ | ((fail_if_success (fail_if_success conv => arg 1; arg 30)); refine sound_mk ?_ (by rfl)) | refine sound_ite ?_ ?_ | refine keeps_descend ?_ | refine keeps_settlePath ?_ | refine keeps_dropAged ?_ | refine keeps_charge ?_ | refine keeps_setLeaf ?_ | refine sound_of_somePair (by assumption) ?_ | split
  | succ fuel ih =>
    unfold selectOnce
    try dsimp only
    with_reducible repeat' first | assumption | refine ih ?_ | ((fail_if_success (fail_if_success conv => arg 1; arg 30)); refine sound_mk ?_ (by rfl)) | refine sound_ite ?_ ?_ | refine keeps_descend ?_ | refine keeps_settlePath ?_ | refine keeps_dropAged ?_ | refine keeps_charge ?_ | refine keeps_setLeaf ?_ | refine sound_of_somePair (by assumption) ?_ | split

theorem keeps_execSchedulerSelection {a0} {s : State} (h : sound s) : soundRes (execSchedulerSelection a0 s) := by
  unfold execSchedulerSelection
  try dsimp only
  with_reducible repeat' first | assumption | ((fail_if_success (fail_if_success conv => arg 1; arg 30)); refine sound_mk ?_ (by rfl)) | refine soundRes_next ?_ | refine keeps_selectOnce ?_ | refine sound_of_pair (by assumption) ?_ | split

theorem keeps_flushTxq {a0} {s : State} (h : sound s) : sound (flushTxq a0 s).2 := by
  unfold flushTxq
  try dsimp only
  with_reducible repeat' first | assumption | refine keeps_tally ?_ | refine keeps_endPkt ?_ | refine keeps_dropCause ?_ | refine keeps_updMac ?_ | refine sound_foldl ?_ ?_ | split | intro _

theorem keeps_enqueueLeaf {a0 a1} {s : State} (h : sound s) : sound (enqueueLeaf a0 a1 s) := by
  unfold enqueueLeaf
  try dsimp only
  with_reducible repeat' first | assumption | refine keeps_discardLeaf ?_ | refine keeps_tally ?_ | refine keeps_settlePath ?_ | refine keeps_setLeaf ?_ | refine keeps_bump ?_ | split

theorem keeps_flushLeaves {a0} {s : State} (h : sound s) : sound (flushLeaves a0 s).2 := by
  unfold flushLeaves
  exact sound_foldl_by Prod.snd (fun a l ha => sound_foldl (fun _ _ hs => keeps_tally (keeps_discardLeaf hs)) (keeps_setLeaf (keeps_settlePath ha))) h

theorem keeps_profileSelectAdd {a0} {s : State} (h : sound s) : soundVerdict (profileSelectAdd a0 s) := by
  unfold profileSelectAdd
  try dsimp only
  with_reducible repeat' first | assumption | ((fail_if_success (fail_if_success conv => arg 1; arg 30)); refine sound_mk ?_ (by rfl)) | exact soundVerdict_refuse | refine soundVerdict_done ?_ | refine keeps_drawn ?_ | split

theorem keeps_specProfileSelectAdd : soundSpec specProfileSelectAdd := by
  intro x s h
  unfold specProfileSelectAdd
  with_reducible exact keeps_profileSelectAdd h

theorem keeps_execProfileSelectAdd {a0} {s : State} (h : sound s) : soundRes (execProfileSelectAdd a0 s) := by
  unfold execProfileSelectAdd
  try dsimp only
  with_reducible repeat' first | assumption | exact keeps_specProfileSelectAdd | refine keeps_runCmd ?_ ?_

theorem keeps_staged {a0 a1} {s : State} (h : sound s) : soundVerdict (staged a0 a1 s) := by
  unfold staged
  try dsimp only
  with_reducible repeat' first | assumption | refine soundVerdict_done ?_ | refine keeps_stage ?_

theorem keeps_ruleTableDelete {a0} {s : State} (h : sound s) : soundVerdict (ruleTableDelete a0 s) := by
  unfold ruleTableDelete
  try dsimp only
  with_reducible repeat' first | assumption | refine soundVerdict_ite ?_ ?_ | exact soundVerdict_refuse | refine keeps_staged ?_

theorem keeps_specRuleTableDelete : soundSpec specRuleTableDelete := by
  intro x s h
  unfold specRuleTableDelete
  with_reducible exact keeps_ruleTableDelete h

theorem keeps_execRuleTableDelete {a0} {s : State} (h : sound s) : soundRes (execRuleTableDelete a0 s) := by
  unfold execRuleTableDelete
  try dsimp only
  with_reducible repeat' first | assumption | exact keeps_specRuleTableDelete | refine keeps_runCmd ?_ ?_

theorem keeps_ruleAdd {a0} {s : State} (h : sound s) : soundVerdict (ruleAdd a0 s) := by
  unfold ruleAdd
  try dsimp only
  with_reducible repeat' first | assumption | ((fail_if_success (fail_if_success conv => arg 1; arg 30)); refine sound_mk ?_ (by rfl)) | exact soundVerdict_refuse | refine soundVerdict_done ?_ | refine keeps_drawn ?_ | split

theorem keeps_ruleModify {a0} {s : State} (h : sound s) : soundVerdict (ruleModify a0 s) := by
  unfold ruleModify
  try dsimp only
  with_reducible repeat' first | assumption | exact soundVerdict_refuse | refine keeps_staged ?_ | split

theorem keeps_exceptionConfig {a0} {s : State} (h : sound s) : soundVerdict (exceptionConfig a0 s) := by
  unfold exceptionConfig
  try dsimp only
  with_reducible repeat' first | assumption | refine soundVerdict_ite ?_ ?_ | exact soundVerdict_refuse | refine keeps_staged ?_

theorem keeps_ruleQuery {a0} {s : State} (h : sound s) : soundVerdict (ruleQuery a0 s) := by
  unfold ruleQuery
  try dsimp only
  with_reducible repeat' first | assumption | exact soundVerdict_refuse | refine soundVerdict_done ?_ | refine keeps_drawn ?_ | split

theorem keeps_specRuleQuery : soundSpec specRuleQuery := by
  intro x s h
  unfold specRuleQuery
  with_reducible exact keeps_ruleQuery h

theorem keeps_execRuleQuery {a0} {s : State} (h : sound s) : soundRes (execRuleQuery a0 s) := by
  unfold execRuleQuery
  try dsimp only
  with_reducible repeat' first | assumption | exact keeps_specRuleQuery | refine keeps_runCmd ?_ ?_

theorem keeps_ruleTableCreate {a0} {s : State} (h : sound s) : soundVerdict (ruleTableCreate a0 s) := by
  unfold ruleTableCreate
  try dsimp only
  with_reducible repeat' first | assumption | exact soundVerdict_refuse | refine keeps_staged ?_ | split

theorem keeps_specRuleTableCreate : soundSpec specRuleTableCreate := by
  intro x s h
  unfold specRuleTableCreate
  with_reducible exact keeps_ruleTableCreate h

theorem keeps_execRuleTableCreate {a0} {s : State} (h : sound s) : soundRes (execRuleTableCreate a0 s) := by
  unfold execRuleTableCreate
  try dsimp only
  with_reducible repeat' first | assumption | exact keeps_specRuleTableCreate | refine keeps_runCmd ?_ ?_

theorem keeps_profileDelete {a0} {s : State} (h : sound s) : soundVerdict (profileDelete a0 s) := by
  unfold profileDelete
  try dsimp only
  with_reducible repeat' first | assumption | refine soundVerdict_ite ?_ ?_ | exact soundVerdict_refuse | refine keeps_staged ?_

theorem keeps_specRuleModify : soundSpec specRuleModify := by
  intro x s h
  unfold specRuleModify
  with_reducible exact keeps_ruleModify h

theorem keeps_execRuleModify {a0} {s : State} (h : sound s) : soundRes (execRuleModify a0 s) := by
  unfold execRuleModify
  try dsimp only
  with_reducible repeat' first | assumption | exact keeps_specRuleModify | refine keeps_runCmd ?_ ?_

theorem keeps_parseClassMapSet {a0} {s : State} (h : sound s) : soundVerdict (parseClassMapSet a0 s) := by
  unfold parseClassMapSet
  try dsimp only
  with_reducible repeat' first | assumption | refine soundVerdict_ite ?_ ?_ | exact soundVerdict_refuse | refine keeps_staged ?_

theorem keeps_specParseClassMapSet : soundSpec specParseClassMapSet := by
  intro x s h
  unfold specParseClassMapSet
  with_reducible exact keeps_parseClassMapSet h

theorem keeps_execParseClassMapSet {a0} {s : State} (h : sound s) : soundRes (execParseClassMapSet a0 s) := by
  unfold execParseClassMapSet
  try dsimp only
  with_reducible repeat' first | assumption | exact keeps_specParseClassMapSet | refine keeps_runCmd ?_ ?_

theorem keeps_ruleDelete {a0} {s : State} (h : sound s) : soundVerdict (ruleDelete a0 s) := by
  unfold ruleDelete
  try dsimp only
  with_reducible repeat' first | assumption | exact soundVerdict_refuse | refine keeps_staged ?_ | split

theorem keeps_specRuleDelete : soundSpec specRuleDelete := by
  intro x s h
  unfold specRuleDelete
  with_reducible exact keeps_ruleDelete h

theorem keeps_execRuleDelete {a0} {s : State} (h : sound s) : soundRes (execRuleDelete a0 s) := by
  unfold execRuleDelete
  try dsimp only
  with_reducible repeat' first | assumption | exact keeps_specRuleDelete | refine keeps_runCmd ?_ ?_

theorem keeps_ruleOverlaps {a0} {s : State} (h : sound s) : soundVerdict (ruleOverlaps a0 s) := by
  unfold ruleOverlaps
  try dsimp only
  with_reducible repeat' first | assumption | exact soundVerdict_refuse | refine soundVerdict_done ?_ | split

theorem keeps_profileSelectDelete {a0} {s : State} (h : sound s) : soundVerdict (profileSelectDelete a0 s) := by
  unfold profileSelectDelete
  try dsimp only
  with_reducible repeat' first | assumption | refine soundVerdict_ite ?_ ?_ | exact soundVerdict_refuse | refine keeps_staged ?_

theorem keeps_specProfileSelectDelete : soundSpec specProfileSelectDelete := by
  intro x s h
  unfold specProfileSelectDelete
  with_reducible exact keeps_profileSelectDelete h

theorem keeps_execProfileSelectDelete {a0} {s : State} (h : sound s) : soundRes (execProfileSelectDelete a0 s) := by
  unfold execProfileSelectDelete
  try dsimp only
  with_reducible repeat' first | assumption | exact keeps_specProfileSelectDelete | refine keeps_runCmd ?_ ?_

theorem keeps_tcamStatus {a0} {s : State} (h : sound s) : soundVerdict (tcamStatus a0 s) := by
  unfold tcamStatus
  try dsimp only
  with_reducible repeat' first | assumption | refine soundVerdict_ite ?_ ?_ | exact soundVerdict_refuse | refine soundVerdict_done ?_

theorem keeps_specTcamStatus : soundSpec specTcamStatus := by
  intro x s h
  unfold specTcamStatus
  with_reducible exact keeps_tcamStatus h

theorem keeps_execTcamStatus {a0} {s : State} (h : sound s) : soundRes (execTcamStatus a0 s) := by
  unfold execTcamStatus
  try dsimp only
  with_reducible repeat' first | assumption | exact keeps_specTcamStatus | refine keeps_runCmd ?_ ?_

theorem keeps_specRuleAdd : soundSpec specRuleAdd := by
  intro x s h
  unfold specRuleAdd
  with_reducible exact keeps_ruleAdd h

theorem keeps_execRuleAdd {a0} {s : State} (h : sound s) : soundRes (execRuleAdd a0 s) := by
  unfold execRuleAdd
  try dsimp only
  with_reducible repeat' first | assumption | exact keeps_specRuleAdd | refine keeps_runCmd ?_ ?_

theorem keeps_parseSelectLayout {a0} {s : State} (h : sound s) : soundVerdict (parseSelectLayout a0 s) := by
  unfold parseSelectLayout
  try dsimp only
  with_reducible repeat' first | assumption | refine soundVerdict_ite ?_ ?_ | exact soundVerdict_refuse | refine keeps_staged ?_

theorem keeps_specParseSelectLayout : soundSpec specParseSelectLayout := by
  intro x s h
  unfold specParseSelectLayout
  with_reducible exact keeps_parseSelectLayout h

theorem keeps_execParseSelectLayout {a0} {s : State} (h : sound s) : soundRes (execParseSelectLayout a0 s) := by
  unfold execParseSelectLayout
  try dsimp only
  with_reducible repeat' first | assumption | exact keeps_specParseSelectLayout | refine keeps_runCmd ?_ ?_

theorem keeps_specProfileDelete : soundSpec specProfileDelete := by
  intro x s h
  unfold specProfileDelete
  with_reducible exact keeps_profileDelete h

theorem keeps_execProfileDelete {a0} {s : State} (h : sound s) : soundRes (execProfileDelete a0 s) := by
  unfold execProfileDelete
  try dsimp only
  with_reducible repeat' first | assumption | exact keeps_specProfileDelete | refine keeps_runCmd ?_ ?_

theorem keeps_profileWrite {a0} {s : State} (h : sound s) : soundVerdict (profileWrite a0 s) := by
  unfold profileWrite
  try dsimp only
  with_reducible repeat' first | assumption | refine soundVerdict_ite ?_ ?_ | exact soundVerdict_refuse | refine keeps_staged ?_

theorem keeps_specExceptionConfig : soundSpec specExceptionConfig := by
  intro x s h
  unfold specExceptionConfig
  with_reducible exact keeps_exceptionConfig h

theorem keeps_execExceptionConfig {a0} {s : State} (h : sound s) : soundRes (execExceptionConfig a0 s) := by
  unfold execExceptionConfig
  try dsimp only
  with_reducible repeat' first | assumption | exact keeps_specExceptionConfig | refine keeps_runCmd ?_ ?_

theorem keeps_specProfileWrite : soundSpec specProfileWrite := by
  intro x s h
  unfold specProfileWrite
  with_reducible exact keeps_profileWrite h

theorem keeps_execProfileWrite {a0} {s : State} (h : sound s) : soundRes (execProfileWrite a0 s) := by
  unfold execProfileWrite
  try dsimp only
  with_reducible repeat' first | assumption | exact keeps_specProfileWrite | refine keeps_runCmd ?_ ?_

theorem keeps_specRuleOverlaps : soundSpec specRuleOverlaps := by
  intro x s h
  unfold specRuleOverlaps
  with_reducible exact keeps_ruleOverlaps h

theorem keeps_execRuleOverlaps {a0} {s : State} (h : sound s) : soundRes (execRuleOverlaps a0 s) := by
  unfold execRuleOverlaps
  try dsimp only
  with_reducible repeat' first | assumption | exact keeps_specRuleOverlaps | refine keeps_runCmd ?_ ?_

theorem keeps_puntQueueConfig {a0} {s : State} (h : sound s) : soundVerdict (puntQueueConfig a0 s) := by
  unfold puntQueueConfig
  try dsimp only
  with_reducible repeat' first | assumption | refine soundVerdict_ite ?_ ?_ | exact soundVerdict_refuse | refine keeps_staged ?_

theorem keeps_specPuntQueueConfig : soundSpec specPuntQueueConfig := by
  intro x s h
  unfold specPuntQueueConfig
  with_reducible exact keeps_puntQueueConfig h

theorem keeps_execPuntQueueConfig {a0} {s : State} (h : sound s) : soundRes (execPuntQueueConfig a0 s) := by
  unfold execPuntQueueConfig
  try dsimp only
  with_reducible repeat' first | assumption | exact keeps_specPuntQueueConfig | refine keeps_runCmd ?_ ?_

theorem keeps_voqProfileSet {a0} {s : State} (h : sound s) : soundVerdict (voqProfileSet a0 s) := by
  unfold voqProfileSet
  try dsimp only
  with_reducible repeat' first | assumption | refine soundVerdict_ite ?_ ?_ | exact soundVerdict_refuse | refine keeps_staged ?_

theorem keeps_voqQuery {a0} {s : State} (h : sound s) : soundVerdict (voqQuery a0 s) := by
  unfold voqQuery
  try dsimp only
  with_reducible repeat' first | assumption | refine soundVerdict_ite ?_ ?_ | exact soundVerdict_refuse | refine soundVerdict_done ?_

theorem keeps_pealListSet {a0} {s : State} (h : sound s) : soundVerdict (pealListSet a0 s) := by
  unfold pealListSet
  try dsimp only
  with_reducible repeat' first | assumption | exact soundVerdict_refuse | refine keeps_staged ?_ | split

theorem keeps_voqDestDelete {a0} {s : State} (h : sound s) : soundVerdict (voqDestDelete a0 s) := by
  unfold voqDestDelete
  try dsimp only
  with_reducible repeat' first | assumption | refine soundVerdict_ite ?_ ?_ | exact soundVerdict_refuse | refine keeps_staged ?_

theorem keeps_bufPoolConfig {a0} {s : State} (h : sound s) : soundVerdict (bufPoolConfig a0 s) := by
  unfold bufPoolConfig
  try dsimp only
  with_reducible repeat' first | assumption | refine soundVerdict_ite ?_ ?_ | exact soundVerdict_refuse | refine keeps_staged ?_

theorem keeps_voqDestSet {a0} {s : State} (h : sound s) : soundVerdict (voqDestSet a0 s) := by
  unfold voqDestSet
  try dsimp only
  with_reducible repeat' first | assumption | exact soundVerdict_refuse | refine keeps_staged ?_ | split

theorem keeps_specVoqDestSet : soundSpec specVoqDestSet := by
  intro x s h
  unfold specVoqDestSet
  with_reducible exact keeps_voqDestSet h

theorem keeps_execVoqDestSet {a0} {s : State} (h : sound s) : soundRes (execVoqDestSet a0 s) := by
  unfold execVoqDestSet
  try dsimp only
  with_reducible repeat' first | assumption | exact keeps_specVoqDestSet | refine keeps_runCmd ?_ ?_

theorem keeps_voqEplistSet {a0} {s : State} (h : sound s) : soundVerdict (voqEplistSet a0 s) := by
  unfold voqEplistSet
  try dsimp only
  with_reducible repeat' first | assumption | refine soundVerdict_ite ?_ ?_ | exact soundVerdict_refuse | refine keeps_staged ?_

theorem keeps_specVoqEplistSet : soundSpec specVoqEplistSet := by
  intro x s h
  unfold specVoqEplistSet
  with_reducible exact keeps_voqEplistSet h

theorem keeps_execVoqEplistSet {a0} {s : State} (h : sound s) : soundRes (execVoqEplistSet a0 s) := by
  unfold execVoqEplistSet
  try dsimp only
  with_reducible repeat' first | assumption | exact keeps_specVoqEplistSet | refine keeps_runCmd ?_ ?_

theorem keeps_bufStatus {a0} {s : State} (h : sound s) : soundVerdict (bufStatus a0 s) := by
  unfold bufStatus
  try dsimp only
  with_reducible repeat' first | assumption | refine soundVerdict_done ?_

theorem keeps_specBufStatus : soundSpec specBufStatus := by
  intro x s h
  unfold specBufStatus
  with_reducible exact keeps_bufStatus h

theorem keeps_execBufStatus {a0} {s : State} (h : sound s) : soundRes (execBufStatus a0 s) := by
  unfold execBufStatus
  try dsimp only
  with_reducible repeat' first | assumption | exact keeps_specBufStatus | refine keeps_runCmd ?_ ?_

theorem keeps_pealListDelete {a0} {s : State} (h : sound s) : soundVerdict (pealListDelete a0 s) := by
  unfold pealListDelete
  try dsimp only
  with_reducible repeat' first | assumption | refine soundVerdict_ite ?_ ?_ | exact soundVerdict_refuse | refine keeps_staged ?_

theorem keeps_specBufPoolConfig : soundSpec specBufPoolConfig := by
  intro x s h
  unfold specBufPoolConfig
  with_reducible exact keeps_bufPoolConfig h

theorem keeps_execBufPoolConfig {a0} {s : State} (h : sound s) : soundRes (execBufPoolConfig a0 s) := by
  unfold execBufPoolConfig
  try dsimp only
  with_reducible repeat' first | assumption | exact keeps_specBufPoolConfig | refine keeps_runCmd ?_ ?_

theorem keeps_specVoqProfileSet : soundSpec specVoqProfileSet := by
  intro x s h
  unfold specVoqProfileSet
  with_reducible exact keeps_voqProfileSet h

theorem keeps_execVoqProfileSet {a0} {s : State} (h : sound s) : soundRes (execVoqProfileSet a0 s) := by
  unfold execVoqProfileSet
  try dsimp only
  with_reducible repeat' first | assumption | exact keeps_specVoqProfileSet | refine keeps_runCmd ?_ ?_

theorem keeps_specVoqDestDelete : soundSpec specVoqDestDelete := by
  intro x s h
  unfold specVoqDestDelete
  with_reducible exact keeps_voqDestDelete h

theorem keeps_execVoqDestDelete {a0} {s : State} (h : sound s) : soundRes (execVoqDestDelete a0 s) := by
  unfold execVoqDestDelete
  try dsimp only
  with_reducible repeat' first | assumption | exact keeps_specVoqDestDelete | refine keeps_runCmd ?_ ?_

theorem keeps_specPealListDelete : soundSpec specPealListDelete := by
  intro x s h
  unfold specPealListDelete
  with_reducible exact keeps_pealListDelete h

theorem keeps_execPealListDelete {a0} {s : State} (h : sound s) : soundRes (execPealListDelete a0 s) := by
  unfold execPealListDelete
  try dsimp only
  with_reducible repeat' first | assumption | exact keeps_specPealListDelete | refine keeps_runCmd ?_ ?_

theorem keeps_samplerConfig {a0} {s : State} (h : sound s) : soundVerdict (samplerConfig a0 s) := by
  unfold samplerConfig
  try dsimp only
  with_reducible repeat' first | assumption | refine soundVerdict_ite ?_ ?_ | exact soundVerdict_refuse | refine keeps_staged ?_

theorem keeps_specSamplerConfig : soundSpec specSamplerConfig := by
  intro x s h
  unfold specSamplerConfig
  with_reducible exact keeps_samplerConfig h

theorem keeps_execSamplerConfig {a0} {s : State} (h : sound s) : soundRes (execSamplerConfig a0 s) := by
  unfold execSamplerConfig
  try dsimp only
  with_reducible repeat' first | assumption | exact keeps_specSamplerConfig | refine keeps_runCmd ?_ ?_

theorem keeps_specVoqQuery : soundSpec specVoqQuery := by
  intro x s h
  unfold specVoqQuery
  with_reducible exact keeps_voqQuery h

theorem keeps_execVoqQuery {a0} {s : State} (h : sound s) : soundRes (execVoqQuery a0 s) := by
  unfold execVoqQuery
  try dsimp only
  with_reducible repeat' first | assumption | exact keeps_specVoqQuery | refine keeps_runCmd ?_ ?_

theorem keeps_specPealListSet : soundSpec specPealListSet := by
  intro x s h
  unfold specPealListSet
  with_reducible exact keeps_pealListSet h

theorem keeps_execPealListSet {a0} {s : State} (h : sound s) : soundRes (execPealListSet a0 s) := by
  unfold execPealListSet
  try dsimp only
  with_reducible repeat' first | assumption | exact keeps_specPealListSet | refine keeps_runCmd ?_ ?_

theorem keeps_bufPoolLayout {a0} {s : State} (h : sound s) : soundVerdict (bufPoolLayout a0 s) := by
  unfold bufPoolLayout
  try dsimp only
  with_reducible repeat' first | assumption | ((fail_if_success (fail_if_success conv => arg 1; arg 30)); refine sound_mk ?_ (by rfl)) | refine soundVerdict_ite ?_ ?_ | exact soundVerdict_refuse | refine soundVerdict_done ?_ | refine keeps_reportLevels ?_

theorem keeps_specBufPoolLayout : soundSpec specBufPoolLayout := by
  intro x s h
  unfold specBufPoolLayout
  with_reducible exact keeps_bufPoolLayout h

theorem keeps_execBufPoolLayout {a0} {s : State} (h : sound s) : soundRes (execBufPoolLayout a0 s) := by
  unfold execBufPoolLayout
  try dsimp only
  with_reducible repeat' first | assumption | exact keeps_specBufPoolLayout | refine keeps_runCmd ?_ ?_

theorem keeps_schedPortConfig {a0} {s : State} (h : sound s) : soundVerdict (schedPortConfig a0 s) := by
  unfold schedPortConfig
  try dsimp only
  with_reducible repeat' first | assumption | refine soundVerdict_ite ?_ ?_ | exact soundVerdict_refuse | refine keeps_staged ?_

theorem keeps_specSchedPortConfig : soundSpec specSchedPortConfig := by
  intro x s h
  unfold specSchedPortConfig
  with_reducible exact keeps_schedPortConfig h

theorem keeps_execSchedPortConfig {a0} {s : State} (h : sound s) : soundRes (execSchedPortConfig a0 s) := by
  unfold execSchedPortConfig
  try dsimp only
  with_reducible repeat' first | assumption | exact keeps_specSchedPortConfig | refine keeps_runCmd ?_ ?_

theorem keeps_schedQuery {a0} {s : State} (h : sound s) : soundVerdict (schedQuery a0 s) := by
  unfold schedQuery
  try dsimp only
  with_reducible repeat' first | assumption | exact soundVerdict_refuse | refine soundVerdict_done ?_ | split

theorem keeps_gateListClear {a0} {s : State} (h : sound s) : soundVerdict (gateListClear a0 s) := by
  unfold gateListClear
  try dsimp only
  with_reducible repeat' first | assumption | refine soundVerdict_ite ?_ ?_ | exact soundVerdict_refuse | refine keeps_staged ?_

theorem keeps_schedNodeSet {a0} {s : State} (h : sound s) : soundVerdict (schedNodeSet a0 s) := by
  unfold schedNodeSet
  try dsimp only
  with_reducible repeat' first | assumption | refine soundVerdict_ite ?_ ?_ | exact soundVerdict_refuse | refine keeps_staged ?_

theorem keeps_policerQuery {a0} {s : State} (h : sound s) : soundVerdict (policerQuery a0 s) := by
  unfold policerQuery
  try dsimp only
  with_reducible repeat' first | assumption | refine soundVerdict_ite ?_ ?_ | exact soundVerdict_refuse | refine soundVerdict_done ?_

theorem keeps_specPolicerQuery : soundSpec specPolicerQuery := by
  intro x s h
  unfold specPolicerQuery
  with_reducible exact keeps_policerQuery h

theorem keeps_execPolicerQuery {a0} {s : State} (h : sound s) : soundRes (execPolicerQuery a0 s) := by
  unfold execPolicerQuery
  try dsimp only
  with_reducible repeat' first | assumption | exact keeps_specPolicerQuery | refine keeps_runCmd ?_ ?_

theorem keeps_creditPealSet {a0} {s : State} (h : sound s) : soundVerdict (creditPealSet a0 s) := by
  unfold creditPealSet
  try dsimp only
  with_reducible repeat' first | assumption | refine soundVerdict_ite ?_ ?_ | exact soundVerdict_refuse | refine keeps_staged ?_

theorem keeps_specCreditPealSet : soundSpec specCreditPealSet := by
  intro x s h
  unfold specCreditPealSet
  with_reducible exact keeps_creditPealSet h

theorem keeps_execCreditPealSet {a0} {s : State} (h : sound s) : soundRes (execCreditPealSet a0 s) := by
  unfold execCreditPealSet
  try dsimp only
  with_reducible repeat' first | assumption | exact keeps_specCreditPealSet | refine keeps_runCmd ?_ ?_

theorem keeps_gateListSet {a0} {s : State} (h : sound s) : soundVerdict (gateListSet a0 s) := by
  unfold gateListSet
  try dsimp only
  with_reducible repeat' first | assumption | exact soundVerdict_refuse | refine keeps_staged ?_ | split

theorem keeps_schedNodeDelete {a0} {s : State} (h : sound s) : soundVerdict (schedNodeDelete a0 s) := by
  unfold schedNodeDelete
  try dsimp only
  with_reducible repeat' first | assumption | refine soundVerdict_ite ?_ ?_ | exact soundVerdict_refuse | refine keeps_staged ?_

theorem keeps_policerConfig {a0} {s : State} (h : sound s) : soundVerdict (policerConfig a0 s) := by
  unfold policerConfig
  try dsimp only
  with_reducible repeat' first | assumption | refine soundVerdict_ite ?_ ?_ | exact soundVerdict_refuse | refine keeps_staged ?_

theorem keeps_specPolicerConfig : soundSpec specPolicerConfig := by
  intro x s h
  unfold specPolicerConfig
  with_reducible exact keeps_policerConfig h

theorem keeps_execPolicerConfig {a0} {s : State} (h : sound s) : soundRes (execPolicerConfig a0 s) := by
  unfold execPolicerConfig
  try dsimp only
  with_reducible repeat' first | assumption | exact keeps_specPolicerConfig | refine keeps_runCmd ?_ ?_

theorem keeps_police {a0 a1} {s : State} (h : sound s) : sound (police a0 a1 s).2 := by
  unfold police
  try dsimp only
  with_reducible repeat' first | assumption | ((fail_if_success (fail_if_success conv => arg 1; arg 30)); refine sound_mk ?_ (by rfl)) | refine keeps_bump ?_ | refine keeps_tally ?_ | split

theorem keeps_creditConfig {a0} {s : State} (h : sound s) : soundVerdict (creditConfig a0 s) := by
  unfold creditConfig
  try dsimp only
  with_reducible repeat' first | assumption | refine soundVerdict_ite ?_ ?_ | exact soundVerdict_refuse | refine keeps_staged ?_

theorem keeps_specCreditConfig : soundSpec specCreditConfig := by
  intro x s h
  unfold specCreditConfig
  with_reducible exact keeps_creditConfig h

theorem keeps_execCreditConfig {a0} {s : State} (h : sound s) : soundRes (execCreditConfig a0 s) := by
  unfold execCreditConfig
  try dsimp only
  with_reducible repeat' first | assumption | exact keeps_specCreditConfig | refine keeps_runCmd ?_ ?_

theorem keeps_specSchedNodeSet : soundSpec specSchedNodeSet := by
  intro x s h
  unfold specSchedNodeSet
  with_reducible exact keeps_schedNodeSet h

theorem keeps_execSchedNodeSet {a0} {s : State} (h : sound s) : soundRes (execSchedNodeSet a0 s) := by
  unfold execSchedNodeSet
  try dsimp only
  with_reducible repeat' first | assumption | exact keeps_specSchedNodeSet | refine keeps_runCmd ?_ ?_

theorem keeps_specSchedQuery : soundSpec specSchedQuery := by
  intro x s h
  unfold specSchedQuery
  with_reducible exact keeps_schedQuery h

theorem keeps_execSchedQuery {a0} {s : State} (h : sound s) : soundRes (execSchedQuery a0 s) := by
  unfold execSchedQuery
  try dsimp only
  with_reducible repeat' first | assumption | exact keeps_specSchedQuery | refine keeps_runCmd ?_ ?_

theorem keeps_specGateListSet : soundSpec specGateListSet := by
  intro x s h
  unfold specGateListSet
  with_reducible exact keeps_gateListSet h

theorem keeps_execGateListSet {a0} {s : State} (h : sound s) : soundRes (execGateListSet a0 s) := by
  unfold execGateListSet
  try dsimp only
  with_reducible repeat' first | assumption | exact keeps_specGateListSet | refine keeps_runCmd ?_ ?_

theorem keeps_specGateListClear : soundSpec specGateListClear := by
  intro x s h
  unfold specGateListClear
  with_reducible exact keeps_gateListClear h

theorem keeps_execGateListClear {a0} {s : State} (h : sound s) : soundRes (execGateListClear a0 s) := by
  unfold execGateListClear
  try dsimp only
  with_reducible repeat' first | assumption | exact keeps_specGateListClear | refine keeps_runCmd ?_ ?_

theorem keeps_specSchedNodeDelete : soundSpec specSchedNodeDelete := by
  intro x s h
  unfold specSchedNodeDelete
  with_reducible exact keeps_schedNodeDelete h

theorem keeps_execSchedNodeDelete {a0} {s : State} (h : sound s) : soundRes (execSchedNodeDelete a0 s) := by
  unfold execSchedNodeDelete
  try dsimp only
  with_reducible repeat' first | assumption | exact keeps_specSchedNodeDelete | refine keeps_runCmd ?_ ?_

theorem keeps_settlePolicers {a0} {s : State} (h : sound s) : sound (settlePolicers a0 s) := by
  unfold settlePolicers
  try dsimp only
  with_reducible repeat' first | assumption | ((fail_if_success (fail_if_success conv => arg 1; arg 30)); refine sound_mk ?_ (by rfl)) | refine sound_foldl ?_ ?_ | intro _

theorem keeps_anchorGrid {a0 a1 a2 a3} {s : State} (h : sound s) : sound (anchorGrid a0 a1 a2 a3 s) := by
  unfold anchorGrid
  try dsimp only
  with_reducible repeat' first | assumption | ((fail_if_success (fail_if_success conv => arg 1; arg 30)); refine sound_mk ?_ (by rfl)) | refine sound_ite ?_ ?_

theorem keeps_pendGate {a0 a1 a2} {s : State} (h : sound s) : sound (pendGate a0 a1 a2 s) := by
  unfold pendGate
  try dsimp only
  with_reducible repeat' first | assumption | ((fail_if_success (fail_if_success conv => arg 1; arg 30)); refine sound_mk ?_ (by rfl))

theorem keeps_leaveLeaves {a0 a1} {s : State} (h : sound s) : sound (leaveLeaves a0 a1 s) := by
  unfold leaveLeaves
  try dsimp only
  with_reducible repeat' first | assumption | ((fail_if_success (fail_if_success conv => arg 1; arg 30)); refine sound_mk ?_ (by rfl))

theorem keeps_settleShapers {s : State} (h : sound s) : sound (settleShapers s) := by
  unfold settleShapers
  try dsimp only
  with_reducible repeat' first | assumption | refine keeps_settle ?_ | refine sound_foldl ?_ ?_ | intro _

theorem keeps_dropShapers {a0 a1} {s : State} (h : sound s) : sound (dropShapers a0 a1 s) := by
  unfold dropShapers
  try dsimp only
  with_reducible repeat' first | assumption | ((fail_if_success (fail_if_success conv => arg 1; arg 30)); refine sound_mk ?_ (by rfl))

theorem keeps_settleSamplers {a0} {s : State} (h : sound s) : sound (settleSamplers a0 s) := by
  unfold settleSamplers
  try dsimp only
  with_reducible repeat' first | assumption | ((fail_if_success (fail_if_success conv => arg 1; arg 30)); refine sound_mk ?_ (by rfl)) | refine sound_foldl ?_ ?_ | intro _

theorem keeps_settleLimiters {a0} {s : State} (h : sound s) : sound (settleLimiters a0 s) := by
  unfold settleLimiters
  try dsimp only
  with_reducible repeat' first | assumption | ((fail_if_success (fail_if_success conv => arg 1; arg 30)); refine sound_mk ?_ (by rfl)) | refine sound_foldl ?_ ?_ | intro _

theorem keeps_keepProfiles {a0 a1} {s : State} (h : sound s) : sound (keepProfiles a0 a1 s) := by
  unfold keepProfiles
  try dsimp only
  with_reducible repeat' first | assumption | refine keeps_updVoq ?_ | refine sound_foldl ?_ ?_ | intro _

theorem keeps_capShapers {a0 a1} {s : State} (h : sound s) : sound (capShapers a0 a1 s) := by
  unfold capShapers
  try dsimp only
  with_reducible repeat' first | assumption | refine keeps_setShaper ?_ | refine sound_foldl ?_ ?_ | split | intro _

theorem keeps_retireEntries {a0 a1 a2} {s : State} (h : sound s) : sound (retireEntries a0 a1 a2 s) := by
  unfold retireEntries
  try dsimp only
  with_reducible repeat' first | assumption | ((fail_if_success (fail_if_success conv => arg 1; arg 30)); refine sound_mk ?_ (by rfl))

theorem keeps_raiseAges {a0} {s : State} (h : sound s) : sound (raiseAges a0 s) := by
  unfold raiseAges
  try dsimp only
  with_reducible repeat' first | assumption | ((fail_if_success (fail_if_success conv => arg 1; arg 30)); refine sound_mk ?_ (by rfl))

theorem keeps_remark {a0 a1 a2} {s : State} (h : sound s) : sound (remark a0 a1 a2 s) := by
  unfold remark
  try dsimp only
  with_reducible repeat' first | assumption | ((fail_if_success (fail_if_success conv => arg 1; arg 30)); refine sound_mk ?_ (by rfl)) | refine sound_foldl ?_ ?_ | intro _

theorem keeps_muffle {s : State} (h : sound s) : sound (muffle s) := by
  unfold muffle
  try dsimp only
  with_reducible repeat' first | assumption | ((fail_if_success (fail_if_success conv => arg 1; arg 30)); refine sound_mk ?_ (by rfl)) | refine keeps_tally ?_

theorem keeps_switchTo {a0 a1 a2 a3} {s : State} (h : sound s) : sound (switchTo a0 a1 a2 a3 s) := by
  unfold switchTo
  try dsimp only
  with_reducible repeat' first | assumption | ((fail_if_success (fail_if_success conv => arg 1; arg 30)); refine sound_mk ?_ (by rfl)) | refine sound_ite ?_ ?_ | refine keeps_settleShapers ?_ | refine keeps_settleSamplers ?_ | refine keeps_settlePolicers ?_ | refine keeps_settleLimiters ?_ | refine keeps_keepProfiles ?_ | refine keeps_leaveLeaves ?_ | refine keeps_capShapers ?_ | refine keeps_retireEntries ?_ | refine keeps_anchorGrid ?_ | refine keeps_raiseAges ?_ | refine keeps_remark ?_ | refine keeps_dropShapers ?_ | refine keeps_pendGate ?_ | refine keeps_muffle ?_ | refine keeps_reportLevels ?_ | refine sound_foldl ?_ ?_ | intro _

theorem keeps_releaseId {a0} {s : State} (h : sound s) : sound (releaseId a0 s) := by
  unfold releaseId
  try dsimp only
  with_reducible repeat' first | assumption | ((fail_if_success (fail_if_success conv => arg 1; arg 30)); refine sound_mk ?_ (by rfl)) | refine sound_ite ?_ ?_ | refine keeps_setSegment ?_ | refine keeps_tally ?_ | refine keeps_checkHbmIdle ?_ | refine keeps_discardVoq ?_ | refine keeps_discardLeaf ?_ | refine keeps_raiseEvent ?_ | refine sound_foldl ?_ ?_ | intro _

theorem keeps_releaseQuarantine {s : State} (h : sound s) : sound (releaseQuarantine s) := by
  unfold releaseQuarantine
  try dsimp only
  with_reducible repeat' first | assumption | refine keeps_releaseId ?_ | refine sound_foldl ?_ ?_ | intro _

theorem keeps_execMuffleEnd {s : State} (h : sound s) : soundRes (execMuffleEnd s) := by
  unfold execMuffleEnd
  try dsimp only
  with_reducible repeat' first | assumption | ((fail_if_success (fail_if_success conv => arg 1; arg 30)); refine sound_mk ?_ (by rfl)) | refine soundRes_next ?_ | refine sound_ite ?_ ?_ | refine keeps_raiseMax ?_

end Sys2Proof.Laws
end

