-- ==== Sys2Proof/Laws/KeepsFabric.lean ====
section
/-! SUPPORT. The operations keep sound states sound: fabric credit and reachability. One lemma for each definition of those files. -/

namespace Sys2Proof.Laws
open Sys2Proof Sys2Proof.Machine

theorem keeps_updLane {a0 a1} {s : State} (h : sound s) : sound (updLane a0 a1 s) := by
  unfold updLane
  try dsimp only
  with_reducible repeat' first | assumption | ((fail_if_success (fail_if_success conv => arg 1; arg 30)); refine sound_mk ?_ (by rfl))

theorem keeps_putUnit {a0 a1} {s : State} (h : sound s) : sound (putUnit a0 a1 s) := by
  unfold putUnit
  try dsimp only
  with_reducible repeat' first | assumption | ((fail_if_success (fail_if_success conv => arg 1; arg 30)); refine sound_mk ?_ (by rfl)) | refine sound_ite ?_ ?_ | refine keeps_emit ?_ | refine keeps_updLane ?_ | refine sound_foldl ?_ ?_ | refine sound_of_pair (by assumption) ?_ | refine sound_of_some (by assumption) ?_ | refine sound_of_somePair (by assumption) ?_ | split | dsimp only | intro _

theorem keeps_sendOn {a0 a1} {s : State} (h : sound s) : sound (sendOn a0 a1 s) := by
  unfold sendOn
  try dsimp only
  with_reducible repeat' first | assumption | ((fail_if_success (fail_if_success conv => arg 1; arg 30)); refine sound_mk ?_ (by rfl)) | refine keeps_putUnit ?_

theorem keeps_sprayCell {a0 a1 a2} {s : State} (h : sound s) : sound (sprayCell a0 a1 a2 s) := by
  unfold sprayCell
  try dsimp only
  with_reducible repeat' first | assumption | refine keeps_sendOn ?_ | refine keeps_tally ?_ | split

theorem keeps_sendCell {a0 a1 a2 a3 a4 a5 a6 a7} {s : State} (h : sound s) : sound (sendCell a0 a1 a2 a3 a4 a5 a6 a7 s) := by
  unfold sendCell
  try dsimp only
  with_reducible repeat' first | assumption | ((fail_if_success (fail_if_success conv => arg 1; arg 30)); refine sound_mk ?_ (by rfl)) | refine sound_ite ?_ ?_ | refine keeps_sprayCell ?_ | refine keeps_tally ?_

theorem keeps_sendControl {a0 a1} {s : State} (h : sound s) : sound (sendControl a0 a1 s) := by
  unfold sendControl
  try dsimp only
  with_reducible repeat' first | assumption | ((fail_if_success (fail_if_success conv => arg 1; arg 30)); refine sound_mk ?_ (by rfl)) | refine keeps_sendOn ?_ | split

theorem keeps_sendFc {a0 a1} {s : State} (h : sound s) : sound (sendFc a0 a1 s) := by
  unfold sendFc
  try dsimp only
  with_reducible repeat' first | assumption | refine keeps_putUnit ?_ | refine keeps_updLane ?_

theorem keeps_reorderFc {s : State} (h : sound s) : sound (reorderFc s) := by
  unfold reorderFc
  try dsimp only
  with_reducible repeat' first | assumption | ((fail_if_success (fail_if_success conv => arg 1; arg 30)); refine sound_mk ?_ (by rfl)) | refine sound_ite ?_ ?_ | refine keeps_sendFc ?_ | refine sound_foldl ?_ ?_ | intro _

theorem keeps_sendLink {a0} {s : State} (h : sound s) : sound (sendLink a0 s) := by
  unfold sendLink
  try dsimp only
  with_reducible repeat' first | assumption | refine sound_ite ?_ ?_ | refine keeps_putUnit ?_

theorem keeps_sendCells {a0 a1 a2} {s : State} (h : sound s) : sound (sendCells a0 a1 a2 s) := by
  unfold sendCells
  try dsimp only
  with_reducible repeat' first | assumption | ((fail_if_success (fail_if_success conv => arg 1; arg 30)); refine sound_mk ?_ (by rfl)) | refine sound_ite ?_ ?_ | refine keeps_sendCell ?_ | refine sound_foldl ?_ ?_ | refine sound_of_pair (by assumption) ?_ | refine sound_of_some (by assumption) ?_ | refine sound_of_somePair (by assumption) ?_ | split | dsimp only | intro _

theorem keeps_sendRequest {a0} {s : State} (h : sound s) : sound (sendRequest a0 s) := by
  unfold sendRequest
  try dsimp only
  with_reducible repeat' first | assumption | refine keeps_sendControl ?_ | refine keeps_updVoq ?_

theorem keeps_askIf {a0} {s : State} (h : sound s) : sound (askIf a0 s) := by
  unfold askIf
  try dsimp only
  with_reducible repeat' first | assumption | refine sound_ite ?_ ?_ | refine keeps_sendRequest ?_

theorem keeps_takeTokens {a0 a1} {s : State} (h : sound s) : soundOpt (takeTokens a0 a1 s) := by
  unfold takeTokens
  try dsimp only
  with_reducible repeat' first | assumption | ((fail_if_success (fail_if_success conv => arg 1; arg 30)); refine sound_mk ?_ (by rfl)) | exact soundOpt_none | refine soundOpt_some ?_ | split

theorem keeps_setWanted {a0 a1} {s : State} (h : sound s) : sound (setWanted a0 a1 s) := by
  unfold setWanted
  try dsimp only
  with_reducible repeat' first | assumption | ((fail_if_success (fail_if_success conv => arg 1; arg 30)); refine sound_mk ?_ (by rfl))

theorem keeps_issueGrant {a0 a1} {s : State} (h : sound s) : sound (issueGrant a0 a1 s) := by
  unfold issueGrant
  try dsimp only
  with_reducible repeat' first | assumption | ((fail_if_success (fail_if_success conv => arg 1; arg 30)); refine sound_mk ?_ (by rfl)) | refine keeps_setWanted ?_ | refine keeps_sendControl ?_ | split

theorem keeps_grantPort {a0} {s : State} (h : sound s) : sound (grantPort a0 s) := by
  unfold grantPort
  extract_lets l
  refine sound_ite h ?_
  split
  · exact h
  · rename_i e1
    have h1 := sound_of_somePair e1 (keeps_pickChild h)
    split
    · rename_i e2
      have h2 := sound_of_some e2 (keeps_takeTokens h1)
      exact keeps_issueGrant (keeps_setShaper h2)
    · exact h

theorem keeps_withdrawDest {a0} {s : State} (h : sound s) : sound (withdrawDest a0 s) := by
  unfold withdrawDest
  try dsimp only
  with_reducible repeat' first | assumption | ((fail_if_success (fail_if_success conv => arg 1; arg 30)); refine sound_mk ?_ (by rfl))

theorem keeps_settleCredit {a0} {s : State} (h : sound s) : sound (settleCredit a0 s) := by
  unfold settleCredit
  try dsimp only
  with_reducible repeat' first | assumption | refine sound_ite ?_ ?_ | refine keeps_bump ?_ | refine keeps_updVoq ?_

theorem keeps_voqMoved {a0} {s : State} (h : sound s) : sound (voqMoved a0 s) := by
  unfold voqMoved
  try dsimp only
  with_reducible repeat' first | assumption | refine keeps_askIf ?_ | refine keeps_settleCredit ?_

theorem keeps_addCredit {a0 a1} {s : State} (h : sound s) : sound (addCredit a0 a1 s) := by
  unfold addCredit
  try dsimp only
  with_reducible repeat' first | assumption | refine sound_ite ?_ ?_ | refine keeps_updVoq ?_ | refine keeps_bump ?_ | refine keeps_voqMoved ?_

theorem keeps_onGrant {a0} {s : State} (h : sound s) : sound (onGrant a0 s) := by
  unfold onGrant
  try dsimp only
  with_reducible repeat' first | assumption | refine sound_ite ?_ ?_ | refine keeps_withdrawDest ?_ | refine keeps_raiseEvent ?_ | refine keeps_updVoq ?_ | refine keeps_addCredit ?_ | refine keeps_bump ?_

theorem keeps_sendDeny {a0 a1 a2 a3} {s : State} (h : sound s) : sound (sendDeny a0 a1 a2 a3 s) := by
  unfold sendDeny
  try dsimp only
  with_reducible repeat' first | assumption | refine keeps_sendControl ?_

theorem keeps_onRequest {a0} {s : State} (h : sound s) : sound (onRequest a0 s) := by
  unfold onRequest
  try dsimp only
  with_reducible repeat' first | assumption | refine keeps_sendDeny ?_ | refine keeps_tally ?_ | refine keeps_setWanted ?_ | split

theorem keeps_execDenyHoldoffEnd {a0} {s : State} (h : sound s) : soundRes (execDenyHoldoffEnd a0 s) := by
  unfold execDenyHoldoffEnd
  try dsimp only
  with_reducible repeat' first | assumption | refine soundRes_next ?_ | refine keeps_advanceTo ?_ | refine keeps_askIf ?_ | refine keeps_updVoq ?_ | split

theorem keeps_grantPeal {a0 a1} {s : State} (h : sound s) : sound (grantPeal a0 a1 s) := by
  unfold grantPeal
  try dsimp only
  with_reducible repeat' first | assumption | refine keeps_takeTokens ?_ | refine keeps_issueGrant ?_ | refine sound_of_some (by assumption) ?_ | split

theorem keeps_execGrantIssue {a0} {s : State} (h : sound s) : soundRes (execGrantIssue a0 s) := by
  unfold execGrantIssue
  try dsimp only
  with_reducible repeat' first | assumption | refine soundRes_next ?_ | refine keeps_grantPort ?_ | refine keeps_grantPeal ?_ | split

theorem keeps_execRerequest {a0} {s : State} (h : sound s) : soundRes (execRerequest a0 s) := by
  unfold execRerequest
  try dsimp only
  with_reducible repeat' first | assumption | refine soundRes_next ?_ | refine sound_ite ?_ ?_ | refine keeps_advanceTo ?_ | refine keeps_tally ?_ | refine keeps_sendRequest ?_

theorem keeps_execLinkSend {a0} {s : State} (h : sound s) : soundRes (execLinkSend a0 s) := by
  unfold execLinkSend
  try dsimp only
  with_reducible repeat' first | assumption | refine soundRes_next ?_ | refine keeps_sendLink ?_

theorem keeps_dropStreams {a0} {s : State} (h : sound s) : sound (dropStreams a0 s) := by
  unfold dropStreams
  try dsimp only
  with_reducible repeat' first | assumption | ((fail_if_success (fail_if_success conv => arg 1; arg 30)); refine sound_mk ?_ (by rfl)) | refine keeps_reorderFc ?_

theorem keeps_endpointLost {a0} {s : State} (h : sound s) : sound (endpointLost a0 s) := by
  unfold endpointLost
  try dsimp only
  with_reducible repeat' first | assumption | ((fail_if_success (fail_if_success conv => arg 1; arg 30)); refine sound_mk ?_ (by rfl)) | refine keeps_raiseEvent ?_ | refine keeps_dropStreams ?_

theorem keeps_endpointGained {a0} {s : State} (h : sound s) : sound (endpointGained a0 s) := by
  unfold endpointGained
  try dsimp only
  with_reducible repeat' first | assumption | ((fail_if_success (fail_if_success conv => arg 1; arg 30)); refine sound_mk ?_ (by rfl)) | refine sound_ite ?_ ?_ | refine keeps_raiseEvent ?_ | refine keeps_sendRequest ?_ | refine keeps_askIf ?_ | refine sound_foldl ?_ ?_ | intro _

theorem keeps_lookReach {s : State} (h : sound s) : sound (lookReach s) := by
  unfold lookReach
  try dsimp only
  with_reducible repeat' first | assumption | ((fail_if_success (fail_if_success conv => arg 1; arg 30)); refine sound_mk ?_ (by rfl)) | refine keeps_endpointLost ?_ | refine keeps_endpointGained ?_ | refine keeps_raiseEvent ?_ | refine sound_foldl ?_ ?_ | intro _

theorem keeps_fabricLaneQuery {a0} {s : State} (h : sound s) : soundVerdict (fabricLaneQuery a0 s) := by
  unfold fabricLaneQuery
  try dsimp only
  with_reducible repeat' first | assumption | refine soundVerdict_ite ?_ ?_ | exact soundVerdict_refuse | refine soundVerdict_done ?_

theorem keeps_restoreDest {a0} {s : State} (h : sound s) : sound (restoreDest a0 s) := by
  unfold restoreDest
  try dsimp only
  with_reducible repeat' first | assumption | ((fail_if_success (fail_if_success conv => arg 1; arg 30)); refine sound_mk ?_ (by rfl)) | refine sound_ite ?_ ?_ | refine keeps_askIf ?_ | refine sound_foldl ?_ ?_ | refine sound_of_pair (by assumption) ?_ | refine sound_of_some (by assumption) ?_ | refine sound_of_somePair (by assumption) ?_ | split | dsimp only | intro _

theorem keeps_execWithdrawalLapse {a0} {s : State} (h : sound s) : soundRes (execWithdrawalLapse a0 s) := by
  unfold execWithdrawalLapse
  try dsimp only
  with_reducible repeat' first | assumption | ((fail_if_success (fail_if_success conv => arg 1; arg 30)); refine sound_mk ?_ (by rfl)) | refine soundRes_next ?_ | refine keeps_advanceTo ?_ | refine keeps_restoreDest ?_ | split

theorem keeps_leftUp {a0} {s : State} (h : sound s) : sound (leftUp a0 s) := by
  unfold leftUp
  try dsimp only
  with_reducible repeat' first | assumption | refine keeps_lookReach ?_ | refine keeps_raiseEvent ?_ | refine keeps_tally ?_ | refine keeps_updLane ?_

theorem keeps_moveLane {a0 a1} {s : State} (h : sound s) : sound (moveLane a0 a1 s) := by
  unfold moveLane
  try dsimp only
  with_reducible repeat' first | assumption | ((fail_if_success (fail_if_success conv => arg 1; arg 30)); refine sound_mk ?_ (by rfl)) | refine sound_ite ?_ ?_ | refine keeps_updLane ?_ | refine keeps_leftUp ?_ | refine keeps_sendLink ?_ | refine sound_foldl ?_ ?_ | refine sound_of_pair (by assumption) ?_ | refine sound_of_some (by assumption) ?_ | refine sound_of_somePair (by assumption) ?_ | split | dsimp only | intro _

theorem keeps_headerInHunt {a0} {s : State} (h : sound s) : sound (headerInHunt a0 s) := by
  unfold headerInHunt
  try dsimp only
  with_reducible repeat' first | assumption | ((fail_if_success (fail_if_success conv => arg 1; arg 30)); refine sound_mk ?_ (by rfl)) | refine sound_ite ?_ ?_ | refine keeps_moveLane ?_ | refine keeps_updLane ?_ | refine sound_foldl ?_ ?_ | refine sound_of_pair (by assumption) ?_ | refine sound_of_some (by assumption) ?_ | refine sound_of_somePair (by assumption) ?_ | split | dsimp only | intro _

theorem keeps_headerFailure {a0} {s : State} (h : sound s) : sound (headerFailure a0 s) := by
  unfold headerFailure
  try dsimp only
  with_reducible repeat' first | assumption | refine sound_ite ?_ ?_ | refine keeps_tally ?_ | refine keeps_moveLane ?_ | refine keeps_updLane ?_

theorem keeps_headerMissed {a0} {s : State} (h : sound s) : sound (headerMissed a0 s) := by
  unfold headerMissed
  try dsimp only
  with_reducible repeat' first | assumption | ((fail_if_success (fail_if_success conv => arg 1; arg 30)); refine sound_mk ?_ (by rfl)) | refine sound_ite ?_ ?_ | refine keeps_headerFailure ?_ | refine keeps_updLane ?_ | refine sound_foldl ?_ ?_ | refine sound_of_pair (by assumption) ?_ | refine sound_of_some (by assumption) ?_ | refine sound_of_somePair (by assumption) ?_ | split | dsimp only | intro _

theorem keeps_unitArrives {a0 a1 a2} {s : State} (h : sound s) : sound (unitArrives a0 a1 a2 s).2 := by
  unfold unitArrives
  try dsimp only
  with_reducible repeat' first | assumption | ((fail_if_success (fail_if_success conv => arg 1; arg 30)); refine sound_mk ?_ (by rfl)) | refine keeps_headerInHunt ?_ | refine keeps_headerFailure ?_ | refine keeps_headerMissed ?_ | refine keeps_updLane ?_ | split | dsimp only

theorem keeps_onUnit {a0 a1 a2 a3} {s : State} (fa3 : ∀ x0 x1, sound x1 → sound (a3 x0 x1)) (h : sound s) : soundRes (onUnit a0 a1 a2 a3 s) := by
  unfold onUnit
  try dsimp only
  with_reducible repeat' first | assumption | refine soundRes_next ?_ | refine sound_ite ?_ ?_ | refine keeps_unitArrives ?_ | refine fa3 _ _ ?_

theorem keeps_execRequest {a0 a1} {s : State} (h : sound s) : soundRes (execRequest a0 a1 s) := by
  unfold execRequest
  try dsimp only
  with_reducible repeat' first | assumption | refine keeps_onUnit ?_ ?_ | refine keeps_onRequest ?_ | intro _

theorem keeps_sendAnnounce {a0 a1} {s : State} (h : sound s) : sound (sendAnnounce a0 a1 s) := by
  unfold sendAnnounce
  try dsimp only
  with_reducible repeat' first | assumption | ((fail_if_success (fail_if_success conv => arg 1; arg 30)); refine sound_mk ?_ (by rfl)) | refine sound_ite ?_ ?_ | refine keeps_sendOn ?_ | refine keeps_sendControl ?_ | refine sound_foldl ?_ ?_ | refine sound_of_pair (by assumption) ?_ | refine sound_of_some (by assumption) ?_ | refine sound_of_somePair (by assumption) ?_ | split | dsimp only | intro _

theorem keeps_announceDue {a0} {s : State} (h : sound s) : sound (announceDue a0 s) := by
  unfold announceDue
  try dsimp only
  with_reducible repeat' first | assumption | ((fail_if_success (fail_if_success conv => arg 1; arg 30)); refine sound_mk ?_ (by rfl)) | refine keeps_sendAnnounce ?_ | split

theorem keeps_announceChange {a0 a1} {s : State} (h : sound s) : sound (announceChange a0 a1 s) := by
  unfold announceChange
  try dsimp only
  with_reducible repeat' first | assumption | ((fail_if_success (fail_if_success conv => arg 1; arg 30)); refine sound_mk ?_ (by rfl)) | refine keeps_announceDue ?_

theorem keeps_announcePort {a0 a1} {s : State} (h : sound s) : sound (announcePort a0 a1 s) := by
  unfold announcePort
  try dsimp only
  with_reducible repeat' first | assumption | refine keeps_announceChange ?_ | refine sound_foldl ?_ ?_ | intro _

theorem keeps_execFabricLaneLoss {a0} {s : State} (h : sound s) : soundRes (execFabricLaneLoss a0 s) := by
  unfold execFabricLaneLoss
  try dsimp only
  with_reducible repeat' first | assumption | refine soundRes_next ?_ | refine sound_ite ?_ ?_ | refine keeps_moveLane ?_

theorem keeps_fabricQuery {a0} {s : State} (h : sound s) : soundVerdict (fabricQuery a0 s) := by
  unfold fabricQuery
  try dsimp only
  with_reducible repeat' first | assumption | refine soundVerdict_ite ?_ ?_ | exact soundVerdict_refuse | refine soundVerdict_done ?_

theorem keeps_changeEndpoint {s : State} (h : sound s) : sound (changeEndpoint s) := by
  unfold changeEndpoint
  try dsimp only
  with_reducible repeat' first | assumption | ((fail_if_success (fail_if_success conv => arg 1; arg 30)); refine sound_mk ?_ (by rfl)) | refine keeps_lookReach ?_ | refine keeps_reorderFc ?_

theorem keeps_applyLanes {a0 a1} {s : State} (h : sound s) : sound (applyLanes a0 a1 s) := by
  unfold applyLanes
  try dsimp only
  with_reducible repeat' first | assumption | refine sound_ite ?_ ?_ | refine keeps_updLane ?_ | refine keeps_moveLane ?_ | refine sound_foldl ?_ ?_ | intro _

theorem keeps_fabricConfig {a0} {s : State} (h : sound s) : soundVerdict (fabricConfig a0 s) := by
  unfold fabricConfig
  try dsimp only
  with_reducible repeat' first | assumption | ((fail_if_success (fail_if_success conv => arg 1; arg 30)); refine sound_mk ?_ (by rfl)) | refine soundVerdict_ite ?_ ?_ | exact soundVerdict_refuse | refine soundVerdict_done ?_ | refine sound_ite ?_ ?_ | refine keeps_changeEndpoint ?_ | refine keeps_lookReach ?_ | refine keeps_applyLanes ?_

theorem keeps_execAnnounceRepeat {a0} {s : State} (h : sound s) : soundRes (execAnnounceRepeat a0 s) := by
  unfold execAnnounceRepeat
  try dsimp only
  with_reducible repeat' first | assumption | ((fail_if_success (fail_if_success conv => arg 1; arg 30)); refine sound_mk ?_ (by rfl)) | refine soundRes_next ?_ | refine keeps_advanceTo ?_ | refine keeps_announceDue ?_ | split

theorem keeps_laneUp {a0} {s : State} (h : sound s) : sound (laneUp a0 s) := by
  unfold laneUp
  try dsimp only
  with_reducible repeat' first | assumption | ((fail_if_success (fail_if_success conv => arg 1; arg 30)); refine sound_mk ?_ (by rfl)) | refine sound_ite ?_ ?_ | refine keeps_moveLane ?_ | refine keeps_sendFc ?_ | refine keeps_lookReach ?_ | refine keeps_raiseEvent ?_ | refine sound_foldl ?_ ?_ | refine sound_of_pair (by assumption) ?_ | refine sound_of_some (by assumption) ?_ | refine sound_of_somePair (by assumption) ?_ | split | dsimp only | intro _

theorem keeps_onLink {a0 a1} {s : State} (h : sound s) : sound (onLink a0 a1 s) := by
  unfold onLink
  try dsimp only
  with_reducible repeat' first | assumption | refine keeps_updLane ?_ | refine keeps_raiseEvent ?_ | refine keeps_moveLane ?_ | refine keeps_laneUp ?_ | split

theorem keeps_applyAnnounce {a0 a1} {s : State} (h : sound s) : sound (applyAnnounce a0 a1 s) := by
  unfold applyAnnounce
  try dsimp only
  with_reducible repeat' first | assumption | ((fail_if_success (fail_if_success conv => arg 1; arg 30)); refine sound_mk ?_ (by rfl)) | refine sound_ite ?_ ?_ | refine keeps_restoreDest ?_ | refine keeps_withdrawDest ?_

theorem keeps_specFabricConfig : soundSpec specFabricConfig := by
  intro x s h
  unfold specFabricConfig
  with_reducible exact keeps_fabricConfig h

theorem keeps_execFabricConfig {a0} {s : State} (h : sound s) : soundRes (execFabricConfig a0 s) := by
  unfold execFabricConfig
  try dsimp only
  with_reducible repeat' first | assumption | exact keeps_specFabricConfig | refine keeps_runCmd ?_ ?_

theorem keeps_execLink {a0 a1} {s : State} (h : sound s) : soundRes (execLink a0 a1 s) := by
  unfold execLink
  try dsimp only
  with_reducible repeat' first | assumption | refine soundRes_next ?_ | refine keeps_onUnit ?_ ?_ | refine keeps_onLink ?_ | split | intro _

theorem keeps_onReach {a0 a1} {s : State} (h : sound s) : sound (onReach a0 a1 s) := by
  unfold onReach
  try dsimp only
  with_reducible repeat' first | assumption | refine sound_ite ?_ ?_ | refine keeps_lookReach ?_ | refine keeps_updLane ?_

theorem keeps_execReach {a0 a1} {s : State} (h : sound s) : soundRes (execReach a0 a1 s) := by
  unfold execReach
  try dsimp only
  with_reducible repeat' first | assumption | refine soundRes_next ?_ | refine keeps_onUnit ?_ ?_ | refine keeps_onReach ?_ | split | intro _

theorem keeps_onAnnounce {a0} {s : State} (h : sound s) : sound (onAnnounce a0 s) := by
  unfold onAnnounce
  try dsimp only
  with_reducible repeat' first | assumption | ((fail_if_success (fail_if_success conv => arg 1; arg 30)); refine sound_mk ?_ (by rfl)) | refine sound_ite ?_ ?_ | refine keeps_applyAnnounce ?_ | refine keeps_withdrawDest ?_

theorem keeps_execAnnounce {a0 a1} {s : State} (h : sound s) : soundRes (execAnnounce a0 a1 s) := by
  unfold execAnnounce
  try dsimp only
  with_reducible repeat' first | assumption | refine keeps_onUnit ?_ ?_ | refine keeps_onAnnounce ?_ | intro _

theorem keeps_execDeny {a0 a1} {s : State} (h : sound s) : soundRes (execDeny a0 a1 s) := by
  unfold execDeny
  try dsimp only
  with_reducible repeat' first | assumption | refine keeps_onUnit ?_ ?_ | refine keeps_onGrant ?_ | intro _

theorem keeps_execReachChunkExpiry {a0 a1} {s : State} (h : sound s) : soundRes (execReachChunkExpiry a0 a1 s) := by
  unfold execReachChunkExpiry
  try dsimp only
  with_reducible repeat' first | assumption | refine soundRes_next ?_ | refine keeps_advanceTo ?_ | refine keeps_lookReach ?_ | refine keeps_updLane ?_ | split

theorem keeps_specFabricQuery : soundSpec specFabricQuery := by
  intro x s h
  unfold specFabricQuery
  with_reducible exact keeps_fabricQuery h

theorem keeps_execFabricQuery {a0} {s : State} (h : sound s) : soundRes (execFabricQuery a0 s) := by
  unfold execFabricQuery
  try dsimp only
  with_reducible repeat' first | assumption | exact keeps_specFabricQuery | refine keeps_runCmd ?_ ?_

theorem keeps_onFc {a0 a1} {s : State} (h : sound s) : sound (onFc a0 a1 s) := by
  unfold onFc
  try dsimp only
  with_reducible repeat' first | assumption | refine sound_ite ?_ ?_ | refine keeps_updLane ?_ | refine keeps_tally ?_

theorem keeps_execUnitHeaderFailure {a0} {s : State} (h : sound s) : soundRes (execUnitHeaderFailure a0 s) := by
  unfold execUnitHeaderFailure
  try dsimp only
  with_reducible repeat' first | assumption | refine soundRes_next ?_ | refine keeps_headerFailure ?_

theorem keeps_execLinkSilence {a0} {s : State} (h : sound s) : soundRes (execLinkSilence a0 s) := by
  unfold execLinkSilence
  try dsimp only
  with_reducible repeat' first | assumption | refine soundRes_next ?_ | refine sound_ite ?_ ?_ | refine keeps_moveLane ?_ | refine keeps_advanceTo ?_

theorem keeps_execFabricLaneConfirmed {a0} {s : State} (h : sound s) : soundRes (execFabricLaneConfirmed a0 s) := by
  unfold execFabricLaneConfirmed
  try dsimp only
  with_reducible repeat' first | assumption | refine soundRes_next ?_ | refine keeps_laneUp ?_ | refine keeps_advanceTo ?_ | split

theorem keeps_execSecondConfirmation {a0} {s : State} (h : sound s) : soundRes (execSecondConfirmation a0 s) := by
  unfold execSecondConfirmation
  try dsimp only
  with_reducible repeat' first | assumption | refine soundRes_next ?_ | refine sound_ite ?_ ?_ | refine keeps_moveLane ?_

theorem keeps_execFc {a0 a1} {s : State} (h : sound s) : soundRes (execFc a0 a1 s) := by
  unfold execFc
  try dsimp only
  with_reducible repeat' first | assumption | refine soundRes_next ?_ | refine keeps_onUnit ?_ ?_ | refine keeps_onFc ?_ | split | intro _

theorem keeps_execGrant {a0 a1} {s : State} (h : sound s) : soundRes (execGrant a0 a1 s) := by
  unfold execGrant
  try dsimp only
  with_reducible repeat' first | assumption | refine keeps_onUnit ?_ ?_ | refine keeps_onGrant ?_ | intro _

theorem keeps_execFabricLaneAligned {a0} {s : State} (h : sound s) : soundRes (execFabricLaneAligned a0 s) := by
  unfold execFabricLaneAligned
  try dsimp only
  with_reducible repeat' first | assumption | refine soundRes_next ?_ | refine sound_ite ?_ ?_ | refine keeps_moveLane ?_

theorem keeps_specFabricLaneQuery : soundSpec specFabricLaneQuery := by
  intro x s h
  unfold specFabricLaneQuery
  with_reducible exact keeps_fabricLaneQuery h

theorem keeps_execFabricLaneQuery {a0} {s : State} (h : sound s) : soundRes (execFabricLaneQuery a0 s) := by
  unfold execFabricLaneQuery
  try dsimp only
  with_reducible repeat' first | assumption | exact keeps_specFabricLaneQuery | refine keeps_runCmd ?_ ?_

end Sys2Proof.Laws
end

