-- ==== Sys2Proof/Laws/KeepsPorts.lean ====
section
/-! SUPPORT. The operations keep sound states sound: ports, FlexE and the pipelines. One lemma for each definition of those files. -/

namespace Sys2Proof.Laws
open Sys2Proof Sys2Proof.Machine

theorem keeps_setMacCfg {a0 a1 a2} {s : State} (h : sound s) : sound (setMacCfg a0 a1 a2 s) := by
  unfold setMacCfg
  try dsimp only
  with_reducible repeat' first | assumption | refine keeps_updMac ?_ | refine keeps_settleMac ?_

theorem keeps_dropNode {a0} {s : State} (h : sound s) : sound (dropNode a0 s) := by
  unfold dropNode
  try dsimp only
  with_reducible repeat' first | assumption | ((fail_if_success (fail_if_success conv => arg 1; arg 30)); refine sound_mk ?_ (by rfl))

theorem keeps_portConfig {a0} {s : State} (h : sound s) : soundVerdict (portConfig a0 s) := by
  unfold portConfig
  try dsimp only
  with_reducible repeat' first | assumption | ((fail_if_success (fail_if_success conv => arg 1; arg 30)); refine sound_mk ?_ (by rfl)) | exact soundVerdict_refuse | refine soundVerdict_done ?_ | refine keeps_setMacCfg ?_ | refine keeps_dropNode ?_ | split

theorem keeps_loseSending {a0} {s : State} (h : sound s) : sound (loseSending a0 s) := by
  unfold loseSending
  try dsimp only
  with_reducible repeat' first | assumption | ((fail_if_success (fail_if_success conv => arg 1; arg 30)); refine sound_mk ?_ (by rfl)) | refine sound_ite ?_ ?_ | refine keeps_tally ?_ | refine keeps_endPkt ?_ | refine keeps_dropCause ?_ | refine keeps_updMac ?_ | refine sound_foldl ?_ ?_ | refine sound_of_pair (by assumption) ?_ | refine sound_of_some (by assumption) ?_ | refine sound_of_somePair (by assumption) ?_ | split | dsimp only | intro _

theorem keeps_setLink {a0 a1 a2} {s : State} (h : sound s) : sound (setLink a0 a1 a2 s) := by
  unfold setLink
  try dsimp only
  with_reducible repeat' first | assumption | ((fail_if_success (fail_if_success conv => arg 1; arg 30)); refine sound_mk ?_ (by rfl)) | refine sound_ite ?_ ?_ | refine keeps_updMac ?_ | refine keeps_settleMac ?_ | refine keeps_loseSending ?_ | refine sound_foldl ?_ ?_ | refine sound_of_pair (by assumption) ?_ | refine sound_of_some (by assumption) ?_ | refine sound_of_somePair (by assumption) ?_ | split | dsimp only | intro _

theorem keeps_flush {a0} {s : State} (h : sound s) : sound (flush a0 s) := by
  unfold flush
  try dsimp only
  with_reducible repeat' first | assumption | refine keeps_raiseEvent ?_ | refine keeps_flushTxq ?_ | refine keeps_settleMac ?_ | refine keeps_flushLeaves ?_ | refine keeps_updMac ?_ | refine keeps_announcePort ?_ | split

theorem keeps_leaveUp {a0 a1} {s : State} (h : sound s) : sound (leaveUp a0 a1 s) := by
  unfold leaveUp
  try dsimp only
  with_reducible repeat' first | assumption | refine sound_ite ?_ ?_ | refine keeps_tally ?_ | refine keeps_updMac ?_ | refine keeps_raiseEvent ?_ | refine keeps_setLink ?_ | refine keeps_flush ?_

theorem keeps_noteSignal {a0} {s : State} (h : sound s) : sound (noteSignal a0 s) := by
  unfold noteSignal
  try dsimp only
  with_reducible repeat' first | assumption | ((fail_if_success (fail_if_success conv => arg 1; arg 30)); refine sound_mk ?_ (by rfl)) | refine sound_ite ?_ ?_ | refine keeps_emit ?_ | refine keeps_updMac ?_ | refine sound_foldl ?_ ?_ | refine sound_of_pair (by assumption) ?_ | refine sound_of_some (by assumption) ?_ | refine sound_of_somePair (by assumption) ?_ | split | dsimp only | intro _

theorem keeps_noteFail {a0} {s : State} (h : sound s) : sound (noteFail a0 s) := by
  unfold noteFail
  try dsimp only
  with_reducible repeat' first | assumption | refine keeps_noteSignal ?_ | refine keeps_updMac ?_

theorem keeps_linkStep {a0} {s : State} (h : sound s) : sound (linkStep a0 s) := by
  unfold linkStep
  try dsimp only
  with_reducible repeat' first | assumption | refine keeps_setLink ?_ | refine keeps_leaveUp ?_ | refine keeps_flush ?_ | refine keeps_noteFail ?_ | split

theorem keeps_dropMac {a0} {s : State} (h : sound s) : sound (dropMac a0 s) := by
  unfold dropMac
  try dsimp only
  with_reducible repeat' first | assumption | ((fail_if_success (fail_if_success conv => arg 1; arg 30)); refine sound_mk ?_ (by rfl)) | refine keeps_discard ?_ | refine keeps_flushTxq ?_ | refine keeps_dropNode ?_ | refine sound_foldl ?_ ?_ | split | intro _

theorem keeps_toDown {a0} {s : State} (h : sound s) : sound (toDown a0 s) := by
  unfold toDown
  try dsimp only
  with_reducible repeat' first | assumption | refine keeps_linkStep ?_ | refine keeps_setLink ?_ | split

theorem keeps_specPortConfig : soundSpec specPortConfig := by
  intro x s h
  unfold specPortConfig
  with_reducible exact keeps_portConfig h

theorem keeps_execPortConfig {a0} {s : State} (h : sound s) : soundRes (execPortConfig a0 s) := by
  unfold execPortConfig
  try dsimp only
  with_reducible repeat' first | assumption | exact keeps_specPortConfig | refine keeps_runCmd ?_ ?_

theorem keeps_execHoldTimerExpiry {a0} {s : State} (h : sound s) : soundRes (execHoldTimerExpiry a0 s) := by
  unfold execHoldTimerExpiry
  try dsimp only
  with_reducible repeat' first | assumption | refine soundRes_next ?_ | refine keeps_advanceTempo ?_ | refine keeps_flush ?_ | refine keeps_setLink ?_ | refine keeps_updMac ?_ | split

theorem keeps_toAdminDown {a0} {s : State} (h : sound s) : sound (toAdminDown a0 s) := by
  unfold toAdminDown
  try dsimp only
  with_reducible repeat' first | assumption | refine keeps_noteFail ?_ | refine keeps_setLink ?_ | refine keeps_flush ?_ | split

theorem keeps_toDormant {a0 a1} {s : State} (h : sound s) : sound (toDormant a0 a1 s) := by
  unfold toDormant
  try dsimp only
  with_reducible repeat' first | assumption | refine keeps_updMac ?_ | refine keeps_raiseEvent ?_ | refine keeps_flush ?_ | refine keeps_noteFail ?_ | refine keeps_setLink ?_ | split

theorem keeps_adminTo {a0 a1} {s : State} (h : sound s) : sound (adminTo a0 a1 s) := by
  unfold adminTo
  try dsimp only
  with_reducible repeat' first | assumption | refine sound_ite ?_ ?_ | refine keeps_holdItem ?_ | refine keeps_toAdminDown ?_ | refine keeps_toDown ?_ | refine keeps_toDormant ?_

theorem keeps_portAdmin {a0} {s : State} (h : sound s) : soundVerdict (portAdmin a0 s) := by
  unfold portAdmin
  try dsimp only
  with_reducible repeat' first | assumption | exact soundVerdict_refuse | refine soundVerdict_done ?_ | refine keeps_adminTo ?_ | split

theorem keeps_portQuery {a0} {s : State} (h : sound s) : soundVerdict (portQuery a0 s) := by
  unfold portQuery
  try dsimp only
  with_reducible repeat' first | assumption | exact soundVerdict_refuse | refine soundVerdict_done ?_ | split

theorem keeps_portDelete {a0} {s : State} (h : sound s) : soundVerdict (portDelete a0 s) := by
  unfold portDelete
  try dsimp only
  with_reducible repeat' first | assumption | ((fail_if_success (fail_if_success conv => arg 1; arg 30)); refine sound_mk ?_ (by rfl)) | exact soundVerdict_refuse | refine soundVerdict_done ?_ | refine keeps_dropMac ?_ | split

theorem keeps_specPortAdmin : soundSpec specPortAdmin := by
  intro x s h
  unfold specPortAdmin
  with_reducible exact keeps_portAdmin h

theorem keeps_execPortAdmin {a0} {s : State} (h : sound s) : soundRes (execPortAdmin a0 s) := by
  unfold execPortAdmin
  try dsimp only
  with_reducible repeat' first | assumption | exact keeps_specPortAdmin | refine keeps_runCmd ?_ ?_

theorem keeps_dropAgedTx {a0} {s : State} (h : sound s) : sound (dropAgedTx a0 s) := by
  unfold dropAgedTx
  try dsimp only
  with_reducible repeat' first | assumption | refine keeps_endPkt ?_ | refine keeps_dropCause ?_ | refine keeps_updMac ?_ | refine sound_foldl ?_ ?_ | split | intro _

theorem keeps_execUpDebounceEnd {a0} {s : State} (h : sound s) : soundRes (execUpDebounceEnd a0 s) := by
  unfold execUpDebounceEnd
  try dsimp only
  with_reducible repeat' first | assumption | refine soundRes_next ?_ | refine keeps_advanceTempo ?_ | refine keeps_setLink ?_ | refine keeps_raiseEvent ?_ | refine keeps_announcePort ?_ | refine keeps_dropAgedTx ?_ | split

theorem keeps_portMacSet {a0} {s : State} (h : sound s) : soundVerdict (portMacSet a0 s) := by
  unfold portMacSet
  try dsimp only
  with_reducible repeat' first | assumption | refine soundVerdict_ite ?_ ?_ | exact soundVerdict_refuse | refine soundVerdict_done ?_ | refine keeps_updMac ?_

theorem keeps_specPortMacSet : soundSpec specPortMacSet := by
  intro x s h
  unfold specPortMacSet
  with_reducible exact keeps_portMacSet h

theorem keeps_execPortMacSet {a0} {s : State} (h : sound s) : soundRes (execPortMacSet a0 s) := by
  unfold execPortMacSet
  try dsimp only
  with_reducible repeat' first | assumption | exact keeps_specPortMacSet | refine keeps_runCmd ?_ ?_

theorem keeps_specPortQuery : soundSpec specPortQuery := by
  intro x s h
  unfold specPortQuery
  with_reducible exact keeps_portQuery h

theorem keeps_execPortQuery {a0} {s : State} (h : sound s) : soundRes (execPortQuery a0 s) := by
  unfold execPortQuery
  try dsimp only
  with_reducible repeat' first | assumption | exact keeps_specPortQuery | refine keeps_runCmd ?_ ?_

theorem keeps_specPortDelete : soundSpec specPortDelete := by
  intro x s h
  unfold specPortDelete
  with_reducible exact keeps_portDelete h

theorem keeps_execPortDelete {a0} {s : State} (h : sound s) : soundRes (execPortDelete a0 s) := by
  unfold execPortDelete
  try dsimp only
  with_reducible repeat' first | assumption | exact keeps_specPortDelete | refine keeps_runCmd ?_ ?_

theorem keeps_checkXoff {a0} {s : State} (h : sound s) : sound (checkXoff a0 s) := by
  unfold checkXoff
  try dsimp only
  with_reducible repeat' first | assumption | refine keeps_updMac ?_

theorem keeps_toFifo {a0 a1 a2 a3} {s : State} (h : sound s) : sound (toFifo a0 a1 a2 a3 s) := by
  unfold toFifo
  try dsimp only
  with_reducible repeat' first | assumption | refine sound_ite ?_ ?_ | refine keeps_checkXoff ?_ | refine keeps_updMac ?_ | refine keeps_dropCause ?_ | refine keeps_tally ?_

theorem keeps_noteHeld {a0 a1} {s : State} (h : sound s) : sound (noteHeld a0 a1 s) := by
  unfold noteHeld
  try dsimp only
  with_reducible repeat' first | assumption | refine keeps_tally ?_ | refine keeps_updMac ?_ | refine keeps_raiseEvent ?_ | split

theorem keeps_refreshPause {a0} {s : State} (h : sound s) : sound (refreshPause a0 s) := by
  unfold refreshPause
  try dsimp only
  with_reducible repeat' first | assumption | ((fail_if_success (fail_if_success conv => arg 1; arg 30)); refine sound_mk ?_ (by rfl)) | refine sound_ite ?_ ?_ | refine keeps_updMac ?_ | refine sound_foldl ?_ ?_ | refine sound_of_pair (by assumption) ?_ | refine sound_of_some (by assumption) ?_ | refine sound_of_somePair (by assumption) ?_ | split | dsimp only | intro _

theorem keeps_macControl {a0 a1} {s : State} (h : sound s) : sound (macControl a0 a1 s) := by
  unfold macControl
  try dsimp only
  with_reducible repeat' first | assumption | refine keeps_dropCause ?_ | refine keeps_tally ?_ | refine keeps_updMac ?_ | refine keeps_settleMac ?_ | refine sound_foldl ?_ ?_ | split | intro _

theorem keeps_receiveFrame {a0 a1 a2} {s : State} (h : sound s) : sound (receiveFrame a0 a1 a2 s) := by
  unfold receiveFrame
  try dsimp only
  with_reducible repeat' first | assumption | refine keeps_toFifo ?_ | refine keeps_dropCause ?_ | refine keeps_tally ?_ | refine keeps_updMac ?_ | refine keeps_bump ?_ | refine keeps_macControl ?_ | split

theorem keeps_execFrameReceived {a0 a1 a2} {s : State} (h : sound s) : soundRes (execFrameReceived a0 a1 a2 s) := by
  unfold execFrameReceived
  try dsimp only
  with_reducible repeat' first | assumption | refine soundRes_next ?_ | refine keeps_receiveFrame ?_

theorem keeps_captureTs {a0 a1 a2} {s : State} (h : sound s) : sound (captureTs a0 a1 a2 s).2 := by
  unfold captureTs
  try dsimp only
  with_reducible repeat' first | assumption | refine keeps_updMac ?_ | refine keeps_tally ?_ | refine keeps_raiseEvent ?_ | split

theorem keeps_raiseCt {a0} {s : State} (h : sound s) : sound (raiseCt a0 s) := by
  unfold raiseCt
  try dsimp only
  with_reducible repeat' first | assumption | refine keeps_raiseEvent ?_ | refine keeps_updMac ?_ | split

theorem keeps_sentDone {a0 a1 a2 a3} {s : State} (h : sound s) : sound (sentDone a0 a1 a2 a3 s) := by
  unfold sentDone
  try dsimp only
  with_reducible repeat' first | assumption | refine keeps_captureTs ?_ | refine keeps_injectDone ?_ | split

theorem keeps_endFrame {a0 a1 a2 a3 a4} {s : State} (h : sound s) : sound (endFrame a0 a1 a2 a3 a4 s) := by
  unfold endFrame
  try dsimp only
  with_reducible repeat' first | assumption | ((fail_if_success (fail_if_success conv => arg 1; arg 30)); refine sound_mk ?_ (by rfl)) | refine sound_ite ?_ ?_ | refine keeps_emit ?_ | refine keeps_updMac ?_ | refine keeps_tally ?_ | refine keeps_bump ?_ | refine keeps_dropCause ?_ | refine keeps_raiseCt ?_ | refine keeps_sentDone ?_ | refine sound_foldl ?_ ?_ | refine sound_of_pair (by assumption) ?_ | refine sound_of_some (by assumption) ?_ | refine sound_of_somePair (by assumption) ?_ | split | dsimp only | intro _

theorem keeps_goOn {a0 a1 a2 a3 a4} {s : State} (h : sound s) : sound (goOn a0 a1 a2 a3 a4 s) := by
  unfold goOn
  try dsimp only
  with_reducible repeat' first | assumption | ((fail_if_success (fail_if_success conv => arg 1; arg 30)); refine sound_mk ?_ (by rfl)) | refine sound_ite ?_ ?_ | refine keeps_endFrame ?_ | refine keeps_updMac ?_ | refine sound_foldl ?_ ?_ | refine sound_of_pair (by assumption) ?_ | refine sound_of_some (by assumption) ?_ | refine sound_of_somePair (by assumption) ?_ | split | dsimp only | intro _

theorem keeps_execMacControlFrameRx {a0 a1} {s : State} (h : sound s) : soundRes (execMacControlFrameRx a0 a1 s) := by
  unfold execMacControlFrameRx
  try dsimp only
  with_reducible repeat' first | assumption | refine soundRes_next ?_ | refine keeps_receiveFrame ?_

theorem keeps_toTxq {a0 a1 a2} {s : State} (h : sound s) : sound (toTxq a0 a1 a2 s) := by
  unfold toTxq
  try dsimp only
  with_reducible repeat' first | assumption | refine keeps_updMac ?_

theorem keeps_sendControlFrame {a0 a1 a2} {s : State} (h : sound s) : sound (sendControlFrame a0 a1 a2 s) := by
  unfold sendControlFrame
  try dsimp only
  with_reducible repeat' first | assumption | ((fail_if_success (fail_if_success conv => arg 1; arg 30)); refine sound_mk ?_ (by rfl)) | refine sound_ite ?_ ?_ | refine keeps_emit ?_ | refine keeps_tally ?_ | refine keeps_updMac ?_ | refine sound_foldl ?_ ?_ | refine sound_of_pair (by assumption) ?_ | refine sound_of_some (by assumption) ?_ | refine sound_of_somePair (by assumption) ?_ | split | dsimp only | intro _

theorem keeps_startNext {a0 a1 a2 a3} {s : State} (h : sound s) : sound (startNext a0 a1 a2 a3 s) := by
  unfold startNext
  try dsimp only
  with_reducible repeat' first | assumption | ((fail_if_success (fail_if_success conv => arg 1; arg 30)); refine sound_mk ?_ (by rfl)) | refine sound_ite ?_ ?_ | refine keeps_noteHeld ?_ | refine keeps_goOn ?_ | refine keeps_tally ?_ | refine keeps_updMac ?_ | refine sound_foldl ?_ ?_ | refine sound_of_pair (by assumption) ?_ | refine sound_of_some (by assumption) ?_ | refine sound_of_somePair (by assumption) ?_ | split | dsimp only | intro _

theorem keeps_execFrameTransmit {a0 a1 a2} {s : State} (h : sound s) : soundRes (execFrameTransmit a0 a1 a2 s) := by
  unfold execFrameTransmit
  try dsimp only
  with_reducible repeat' first | assumption | refine soundRes_next ?_ | refine keeps_goOn ?_ | refine keeps_sendControlFrame ?_ | refine keeps_startNext ?_ | refine sound_foldl ?_ ?_ | split | intro _

theorem keeps_execPauseExpiry {a0 a1} {s : State} (h : sound s) : soundRes (execPauseExpiry a0 a1 s) := by
  unfold execPauseExpiry
  try dsimp only
  with_reducible repeat' first | assumption | refine soundRes_next ?_ | refine keeps_updMac ?_ | refine keeps_settleMac ?_ | refine keeps_advanceTo ?_ | split

theorem keeps_execPauseRefresh {a0} {s : State} (h : sound s) : soundRes (execPauseRefresh a0 s) := by
  unfold execPauseRefresh
  try dsimp only
  with_reducible repeat' first | assumption | refine soundRes_next ?_ | refine keeps_refreshPause ?_ | refine keeps_advanceTo ?_ | split

theorem keeps_dropFlow {a0} {s : State} (h : sound s) : sound (dropFlow a0 s) := by
  unfold dropFlow
  try dsimp only
  with_reducible repeat' first | assumption | ((fail_if_success (fail_if_success conv => arg 1; arg 30)); refine sound_mk ?_ (by rfl)) | refine keeps_mirrorFlow ?_

theorem keeps_exportFlow {a0} {s : State} (h : sound s) : sound (exportFlow a0 s) := by
  unfold exportFlow
  try dsimp only
  with_reducible repeat' first | assumption | refine keeps_punt ?_ | refine keeps_drawn ?_

theorem keeps_retireFlow {a0 a1} {s : State} (h : sound s) : sound (retireFlow a0 a1 s) := by
  unfold retireFlow
  try dsimp only
  with_reducible repeat' first | assumption | refine keeps_tally ?_ | refine keeps_dropFlow ?_ | refine keeps_exportFlow ?_ | split

theorem keeps_makeRoom {a0 a1 a2 a3} {s : State} (h : sound s) : soundOptPair (makeRoom a0 a1 a2 a3 s) := by
  unfold makeRoom
  try dsimp only
  with_reducible repeat' first | assumption | exact soundOptPair_none | refine soundOptPair_some ?_ | refine keeps_retireFlow ?_ | refine keeps_drawn ?_ | split

theorem keeps_fillCache {a0} {s : State} (h : sound s) : sound (fillCache a0 s) := by
  unfold fillCache
  try dsimp only
  with_reducible repeat' first | assumption | ((fail_if_success (fail_if_success conv => arg 1; arg 30)); refine sound_mk ?_ (by rfl)) | refine sound_ite ?_ ?_ | refine keeps_drawn ?_ | refine sound_foldl ?_ ?_ | refine sound_of_pair (by assumption) ?_ | refine sound_of_some (by assumption) ?_ | refine sound_of_somePair (by assumption) ?_ | split | dsimp only | intro _

theorem keeps_storeFlow {a0} {s : State} (h : sound s) : sound (storeFlow a0 s) := by
  unfold storeFlow
  try dsimp only
  with_reducible repeat' first | assumption | ((fail_if_success (fail_if_success conv => arg 1; arg 30)); refine sound_mk ?_ (by rfl)) | refine keeps_mirrorFlow ?_

theorem keeps_learn {a0 a1 a2 a3 a4} {s : State} (h : sound s) : soundOptPair (learn a0 a1 a2 a3 a4 s) := by
  unfold learn
  try dsimp only
  with_reducible repeat' first | assumption | exact soundOptPair_none | refine soundOptPair_some ?_ | refine keeps_makeRoom ?_ | refine keeps_fillCache ?_ | refine keeps_storeFlow ?_ | refine sound_of_somePair (by assumption) ?_ | split

theorem keeps_execFlowAging {a0} {s : State} (h : sound s) : soundRes (execFlowAging a0 s) := by
  unfold execFlowAging
  try dsimp only
  with_reducible repeat' first | assumption | refine soundRes_next ?_ | refine keeps_retireFlow ?_ | refine sound_foldl ?_ ?_ | split | intro _

theorem keeps_updFlow {a0 a1 a2} {s : State} (h : sound s) : sound (updFlow a0 a1 a2 s) := by
  unfold updFlow
  try dsimp only
  with_reducible repeat' first | assumption | ((fail_if_success (fail_if_success conv => arg 1; arg 30)); refine sound_mk ?_ (by rfl))

theorem keeps_writeFlow {a0 a1} {s : State} (h : sound s) : sound (writeFlow a0 a1 s) := by
  unfold writeFlow
  try dsimp only
  with_reducible repeat' first | assumption | refine keeps_mirrorFlow ?_ | refine keeps_updFlow ?_

theorem keeps_writeBackFailed {a0} {s : State} (h : sound s) : sound (writeBackFailed a0 s) := by
  unfold writeBackFailed
  try dsimp only
  with_reducible repeat' first | assumption | ((fail_if_success (fail_if_success conv => arg 1; arg 30)); refine sound_mk ?_ (by rfl)) | refine sound_ite ?_ ?_ | refine sound_foldl ?_ ?_ | refine sound_of_pair (by assumption) ?_ | refine sound_of_some (by assumption) ?_ | refine sound_of_somePair (by assumption) ?_ | split | dsimp only | intro _

theorem keeps_hitFlow {a0 a1 a2} {s : State} (h : sound s) : sound (hitFlow a0 a1 a2 s) := by
  unfold hitFlow
  try dsimp only
  with_reducible repeat' first | assumption | refine keeps_updFlow ?_

theorem keeps_execFlowLockLapse {a0 a1} {s : State} (h : sound s) : soundRes (execFlowLockLapse a0 a1 s) := by
  unfold execFlowLockLapse
  try dsimp only
  with_reducible repeat' first | assumption | refine soundRes_next ?_ | refine keeps_tally ?_ | refine keeps_writeFlow ?_ | refine keeps_advanceTo ?_ | split

theorem keeps_updDdr {a0 a1} {s : State} (h : sound s) : sound (updDdr a0 a1 s) := by
  unfold updDdr
  try dsimp only
  with_reducible repeat' first | assumption | ((fail_if_success (fail_if_success conv => arg 1; arg 30)); refine sound_mk ?_ (by rfl))

theorem keeps_corrected {a0 a1} {s : State} (h : sound s) : sound (corrected a0 a1 s) := by
  unfold corrected
  try dsimp only
  with_reducible repeat' first | assumption | refine sound_ite ?_ ?_ | refine keeps_bump ?_ | refine keeps_updDdr ?_ | refine keeps_raiseEvent ?_

theorem keeps_uncorrected {a0 a1 a2} {s : State} (h : sound s) : sound (uncorrected a0 a1 a2 s) := by
  unfold uncorrected
  try dsimp only
  with_reducible repeat' first | assumption | refine keeps_raiseEvent ?_ | refine keeps_tally ?_ | refine keeps_updDdr ?_

theorem keeps_late {a0 a1 a2} {s : State} (h : sound s) : sound (late a0 a1 a2 s) := by
  unfold late
  try dsimp only
  with_reducible repeat' first | assumption | ((fail_if_success (fail_if_success conv => arg 1; arg 30)); refine sound_mk ?_ (by rfl)) | refine sound_ite ?_ ?_ | refine keeps_tally ?_ | refine sound_foldl ?_ ?_ | refine sound_of_pair (by assumption) ?_ | refine sound_of_some (by assumption) ?_ | refine sound_of_somePair (by assumption) ?_ | split | dsimp only | intro _

theorem keeps_ddrRead {a0 a1 a2 a3 a4} {s : State} (h : sound s) : sound (ddrRead a0 a1 a2 a3 a4 s).2 := by
  unfold ddrRead
  try dsimp only
  with_reducible repeat' first | assumption | ((fail_if_success (fail_if_success conv => arg 1; arg 30)); refine sound_mk ?_ (by rfl)) | refine sound_ite ?_ ?_ | refine keeps_corrected ?_ | refine keeps_uncorrected ?_ | refine keeps_updDdr ?_ | refine keeps_tally ?_ | refine sound_foldl ?_ ?_ | refine sound_of_pair (by assumption) ?_ | refine sound_of_some (by assumption) ?_ | refine sound_of_somePair (by assumption) ?_ | split | dsimp only | intro _

theorem keeps_actMirror {a0 a1 a2} {s : State} (h : sound s) : sound (actMirror a0 a1 a2 s) := by
  unfold actMirror
  try dsimp only
  with_reducible repeat' first | assumption | refine sound_ite ?_ ?_ | refine keeps_punt ?_

theorem keeps_slot {a0 a1} {s : State} (h : sound s) : sound (slot a0 a1 s) := by
  unfold slot
  try dsimp only
  with_reducible repeat' first | assumption | refine keeps_tally ?_ | refine sound_foldl ?_ ?_ | intro _

theorem keeps_badEntry {a0 a1 a3} {s : State} (h : sound s) : sound (badEntry a0 a1 s a3) := by
  unfold badEntry
  try dsimp only
  with_reducible repeat' first | assumption | ((fail_if_success (fail_if_success conv => arg 1; arg 30)); refine sound_mk ?_ (by rfl)) | refine keeps_slot ?_ | refine keeps_tally ?_ | refine keeps_raiseEvent ?_ | split

theorem keeps_badEntries {a0 a1 a2} {s : State} (h : sound s) : sound (badEntries a0 a1 a2 s) := by
  unfold badEntries
  try dsimp only
  with_reducible repeat' first | assumption | refine keeps_badEntry ?_ | refine sound_foldl ?_ ?_ | intro _

theorem keeps_offerSampler {a0} {s : State} (h : sound s) : sound (offerSampler a0 s).2 := by
  unfold offerSampler
  try dsimp only
  with_reducible repeat' first | assumption | ((fail_if_success (fail_if_success conv => arg 1; arg 30)); refine sound_mk ?_ (by rfl)) | refine keeps_tally ?_ | refine keeps_drawn ?_ | split | dsimp only

theorem keeps_actSample {a0 a1 a2} {s : State} (h : sound s) : sound (actSample a0 a1 a2 s) := by
  unfold actSample
  try dsimp only
  with_reducible repeat' first | assumption | refine sound_ite ?_ ?_ | refine keeps_offerSampler ?_ | refine keeps_punt ?_

theorem keeps_classify {a0 a1 a2 a3} {s : State} (h : sound s) : sound (classify a0 a1 a2 a3 s).2 := by
  unfold classify
  try dsimp only
  with_reducible repeat' first | assumption | refine keeps_bump ?_ | refine keeps_tally ?_ | split

theorem keeps_actPolice {a0 a1} {s : State} (h : sound s) : sound (actPolice a0 a1 s).2 := by
  unfold actPolice
  try dsimp only
  with_reducible repeat' first | assumption | refine keeps_police ?_ | split

theorem keeps_passDone {a0 a1} {s : State} (h : sound s) : sound (passDone a0 a1 s) := by
  unfold passDone
  try dsimp only
  with_reducible repeat' first | assumption | refine keeps_injectDone ?_ | split

theorem keeps_passHost {a0 a1 a2} {s : State} (h : sound s) : sound (passHost a0 a1 a2 s) := by
  unfold passHost
  try dsimp only
  with_reducible repeat' first | assumption | refine sound_ite ?_ ?_ | refine keeps_punt ?_ | refine keeps_passDone ?_ | refine keeps_slot ?_

theorem keeps_passDrop {a0 a1 a2} {s : State} (h : sound s) : sound (passDrop a0 a1 a2 s) := by
  unfold passDrop
  try dsimp only
  with_reducible repeat' first | assumption | refine keeps_passDone ?_ | refine keeps_dropCause ?_ | refine keeps_slot ?_

theorem keeps_lookupMiss {a0 a1 a2 a3} {s : State} (h : sound s) : sound (lookupMiss a0 a1 a2 a3 s) := by
  unfold lookupMiss
  try dsimp only
  with_reducible repeat' first | assumption | refine sound_ite ?_ ?_ | refine keeps_passHost ?_ | refine keeps_passDrop ?_

theorem keeps_policeSampleMirror {a0 a1 a2 a3} {s : State} (fa3 : ∀ x0, sound x0 → sound (a3 x0)) (h : sound s) : sound (policeSampleMirror a0 a1 a2 a3 s) := by
  unfold policeSampleMirror
  try dsimp only
  with_reducible repeat' first | assumption | refine sound_ite ?_ ?_ | refine keeps_actPolice ?_ | refine keeps_passDrop ?_ | refine keeps_actMirror ?_ | refine keeps_actSample ?_ | refine fa3 _ ?_

theorem keeps_passAgain {a0 a1 a2 a3} {s : State} (h : sound s) : sound (passAgain a0 a1 a2 a3 s) := by
  unfold passAgain
  try dsimp only
  with_reducible repeat' first | assumption | ((fail_if_success (fail_if_success conv => arg 1; arg 30)); refine sound_mk ?_ (by rfl)) | refine keeps_slot ?_

theorem keeps_recirculate {a0 a1 a2 a3 a4} {s : State} (h : sound s) : sound (recirculate a0 a1 a2 a3 a4 s) := by
  unfold recirculate
  try dsimp only
  with_reducible repeat' first | assumption | refine sound_ite ?_ ?_ | refine keeps_policeSampleMirror ?_ ?_ | refine keeps_passHost ?_ | refine keeps_passAgain ?_ | intro _

theorem keeps_resolve {a0 a1 a2 a3 a4} {s : State} (h : sound s) : sound (resolve a0 a1 a2 a3 a4 s) := by
  unfold resolve
  try dsimp only
  with_reducible repeat' first | assumption | refine keeps_passHost ?_ | refine keeps_passDrop ?_ | refine keeps_toQd ?_ | refine keeps_slot ?_ | refine keeps_passDone ?_ | split

theorem keeps_forward {a0 a1 a2 a3 a4} {s : State} (h : sound s) : sound (forward a0 a1 a2 a3 a4 s) := by
  unfold forward
  try dsimp only
  with_reducible repeat' first | assumption | refine sound_ite ?_ ?_ | refine keeps_passHost ?_ | refine keeps_policeSampleMirror ?_ ?_ | refine keeps_resolve ?_ | intro _

theorem keeps_actResult {a0 a1 a2 a3 a4 a5 a6} {s : State} (h : sound s) : sound (actResult a0 a1 a2 a3 a4 a5 a6 s) := by
  unfold actResult
  try dsimp only
  with_reducible repeat' first | assumption | refine keeps_lookupMiss ?_ | refine keeps_passHost ?_ | refine keeps_passDrop ?_ | refine keeps_recirculate ?_ | refine keeps_forward ?_ | split

theorem keeps_actContext {a0 a1 a2 a3 a4 a5 a6} {s : State} (h : sound s) : sound (actContext a0 a1 a2 a3 a4 a5 a6 s) := by
  unfold actContext
  try dsimp only
  with_reducible repeat' first | assumption | refine sound_ite ?_ ?_ | refine keeps_actResult ?_ | refine keeps_passDrop ?_ | refine keeps_passHost ?_ | refine keeps_forward ?_ | refine keeps_tally ?_

theorem keeps_takeIngress {a0} {s : State} (h : sound s) : soundOptPair (takeIngress a0 s) := by
  unfold takeIngress
  try dsimp only
  with_reducible repeat' first | assumption | ((fail_if_success (fail_if_success conv => arg 1; arg 30)); refine sound_mk ?_ (by rfl)) | exact soundOptPair_none | refine soundOptPair_some ?_ | refine keeps_checkXoff ?_ | refine keeps_updMac ?_ | split | dsimp only

theorem keeps_readContext {a0} {s : State} (h : sound s) : sound (readContext a0 s).2 := by
  unfold readContext
  try dsimp only
  with_reducible repeat' first | assumption | ((fail_if_success (fail_if_success conv => arg 1; arg 30)); refine sound_mk ?_ (by rfl)) | refine sound_ite ?_ ?_ | refine keeps_updDdr ?_ | refine keeps_late ?_ | refine keeps_ddrRead ?_ | refine sound_foldl ?_ ?_ | refine sound_of_pair (by assumption) ?_ | refine sound_of_some (by assumption) ?_ | refine sound_of_somePair (by assumption) ?_ | split | dsimp only | intro _

theorem keeps_flowMissed {a0 a1 a2 a3 a4 a5 a6} {s : State} (h : sound s) : sound (flowMissed a0 a1 a2 a3 a4 a5 a6 s) := by
  unfold flowMissed
  try dsimp only
  with_reducible repeat' first | assumption | refine sound_ite ?_ ?_ | refine keeps_passHost ?_ | refine keeps_actResult ?_

theorem keeps_flowLookup {a0 a1 a2 a3 a4 a5 a6} {s : State} (h : sound s) : sound (flowLookup a0 a1 a2 a3 a4 a5 a6 s) := by
  unfold flowLookup
  try dsimp only
  with_reducible repeat' first | assumption | refine keeps_actResult ?_ | refine keeps_flowMissed ?_ | refine keeps_raiseEvent ?_ | refine keeps_tally ?_ | refine keeps_dropFlow ?_ | refine keeps_actContext ?_ | refine keeps_hitFlow ?_ | refine keeps_learn ?_ | refine keeps_punt ?_ | refine sound_of_somePair (by assumption) ?_ | split

theorem keeps_actRule {a0 a1 a2 a3 a4} {s : State} (h : sound s) : sound (actRule a0 a1 a2 a3 a4 s) := by
  unfold actRule
  try dsimp only
  with_reducible repeat' first | assumption | refine keeps_passHost ?_ | refine keeps_recirculate ?_ | refine keeps_passDrop ?_ | refine keeps_actMirror ?_ | refine keeps_actSample ?_ | refine keeps_flowLookup ?_ | refine keeps_actResult ?_ | split

theorem keeps_ingressSteps {a0 a1 a2} {s : State} (h : sound s) : sound (ingressSteps a0 a1 a2 s) := by
  unfold ingressSteps
  try dsimp only
  with_reducible repeat' first | assumption | refine keeps_passHost ?_ | refine keeps_tally ?_ | refine keeps_classify ?_ | refine keeps_actRule ?_ | split

theorem keeps_cacheRead {a0} {s : State} (h : sound s) : sound (cacheRead a0 s) := by
  unfold cacheRead
  try dsimp only
  with_reducible repeat' first | assumption | ((fail_if_success (fail_if_success conv => arg 1; arg 30)); refine sound_mk ?_ (by rfl)) | refine sound_ite ?_ ?_ | refine keeps_fillCache ?_ | refine sound_foldl ?_ ?_ | refine sound_of_pair (by assumption) ?_ | refine sound_of_some (by assumption) ?_ | refine sound_of_somePair (by assumption) ?_ | split | dsimp only | intro _

theorem keeps_execFlowCacheFill {a0 a1} {s : State} (h : sound s) : soundRes (execFlowCacheFill a0 a1 s) := by
  unfold execFlowCacheFill
  try dsimp only
  with_reducible repeat' first | assumption | ((fail_if_success (fail_if_success conv => arg 1; arg 30)); refine sound_mk ?_ (by rfl)) | refine soundRes_next ?_ | refine keeps_readContext ?_ | refine keeps_ingressSteps ?_ | refine keeps_cacheRead ?_ | split

theorem keeps_stageTimeout {a0 a1} {s : State} (h : sound s) : sound (stageTimeout a0 a1 s) := by
  unfold stageTimeout
  try dsimp only
  with_reducible repeat' first | assumption | ((fail_if_success (fail_if_success conv => arg 1; arg 30)); refine sound_mk ?_ (by rfl)) | refine sound_ite ?_ ?_ | refine keeps_passDone ?_ | refine keeps_dropCause ?_ | refine keeps_tally ?_ | refine keeps_slot ?_ | refine keeps_raiseEvent ?_

theorem keeps_execIngressPass {a0 a1 a2} {s : State} (h : sound s) : soundRes (execIngressPass a0 a1 a2 s) := by
  unfold execIngressPass
  try dsimp only
  with_reducible repeat' first | assumption | ((fail_if_success (fail_if_success conv => arg 1; arg 30)); refine sound_mk ?_ (by rfl)) | refine soundRes_next ?_ | refine keeps_tally ?_ | refine keeps_slot ?_ | refine keeps_takeIngress ?_ | refine keeps_badEntries ?_ | refine keeps_ingressSteps ?_ | refine sound_of_somePair (by assumption) ?_ | split

theorem keeps_egressHost {a0 a1 a2 a3} {s : State} (h : sound s) : sound (egressHost a0 a1 a2 a3 s) := by
  unfold egressHost
  try dsimp only
  with_reducible repeat' first | assumption | refine sound_ite ?_ ?_ | refine keeps_punt ?_ | refine keeps_endPkt ?_ | refine keeps_slot ?_

theorem keeps_egressDrop {a0 a1 a2 a3} {s : State} (h : sound s) : sound (egressDrop a0 a1 a2 a3 s) := by
  unfold egressDrop
  try dsimp only
  with_reducible repeat' first | assumption | refine keeps_endPkt ?_ | refine keeps_dropCause ?_ | refine keeps_slot ?_

theorem keeps_egressOut {a0 a1 a2 a3 a4} {s : State} (h : sound s) : sound (egressOut a0 a1 a2 a3 a4 s) := by
  unfold egressOut
  try dsimp only
  with_reducible repeat' first | assumption | refine keeps_egressDrop ?_ | refine keeps_tally ?_ | refine keeps_toTxq ?_ | refine keeps_slot ?_ | split

theorem keeps_egressSteps {a0 a1 a2 a3} {s : State} (h : sound s) : sound (egressSteps a0 a1 a2 a3 s) := by
  unfold egressSteps
  try dsimp only
  with_reducible repeat' first | assumption | refine keeps_classify ?_ | refine keeps_egressHost ?_ | refine keeps_egressDrop ?_ | refine keeps_actMirror ?_ | refine keeps_actSample ?_ | refine keeps_actPolice ?_ | refine keeps_drawn ?_ | refine keeps_egressOut ?_ | split

theorem keeps_takeFd {a0} {s : State} (h : sound s) : sound (takeFd a0 s) := by
  unfold takeFd
  try dsimp only
  with_reducible repeat' first | assumption | ((fail_if_success (fail_if_success conv => arg 1; arg 30)); refine sound_mk ?_ (by rfl))

theorem keeps_execEgressPass {a0 a1} {s : State} (h : sound s) : soundRes (execEgressPass a0 a1 s) := by
  unfold execEgressPass
  try dsimp only
  with_reducible repeat' first | assumption | refine soundRes_next ?_ | refine keeps_slot ?_ | refine keeps_egressSteps ?_ | refine keeps_badEntries ?_ | refine keeps_takeFd ?_ | split

theorem keeps_execStageTimeout {a0} {s : State} (h : sound s) : soundRes (execStageTimeout a0 s) := by
  unfold execStageTimeout
  try dsimp only
  with_reducible repeat' first | assumption | ((fail_if_success (fail_if_success conv => arg 1; arg 30)); refine sound_mk ?_ (by rfl)) | refine soundRes_next ?_ | refine keeps_stageTimeout ?_ | refine keeps_unref ?_ | refine keeps_takeFd ?_ | split

theorem keeps_updGroup {a0 a1} {s : State} (h : sound s) : sound (updGroup a0 a1 s) := by
  unfold updGroup
  try dsimp only
  with_reducible repeat' first | assumption | ((fail_if_success (fail_if_success conv => arg 1; arg 30)); refine sound_mk ?_ (by rfl))

theorem keeps_followClient {a0} {s : State} (h : sound s) : sound (followClient a0 s) := by
  unfold followClient
  try dsimp only
  with_reducible repeat' first | assumption | refine sound_ite ?_ ?_ | refine keeps_updMac ?_ | refine keeps_settleMac ?_ | refine keeps_linkStep ?_

theorem keeps_followClients {a0} {s : State} (h : sound s) : sound (followClients a0 s) := by
  unfold followClients
  try dsimp only
  with_reducible repeat' first | assumption | refine keeps_followClient ?_ | refine sound_foldl ?_ ?_ | intro _

theorem keeps_sendOverhead {a0} {s : State} (h : sound s) : sound (sendOverhead a0 s) := by
  unfold sendOverhead
  try dsimp only
  with_reducible repeat' first | assumption | ((fail_if_success (fail_if_success conv => arg 1; arg 30)); refine sound_mk ?_ (by rfl)) | refine sound_ite ?_ ?_ | refine keeps_emit ?_ | refine sound_foldl ?_ ?_ | refine sound_of_pair (by assumption) ?_ | refine sound_of_some (by assumption) ?_ | refine sound_of_somePair (by assumption) ?_ | split | dsimp only | intro _

theorem keeps_execFlexeCBitChange {a0} {s : State} (h : sound s) : soundRes (execFlexeCBitChange a0 s) := by
  unfold execFlexeCBitChange
  try dsimp only
  with_reducible repeat' first | assumption | refine soundRes_next ?_ | refine keeps_settleMac ?_ | refine keeps_tally ?_ | refine keeps_updGroup ?_ | refine keeps_raiseEvent ?_ | refine keeps_followClients ?_ | refine keeps_finishWaiting ?_ | refine keeps_sendOverhead ?_ | refine sound_foldl ?_ ?_ | split | intro _

theorem keeps_countDefect {a0 a1} {s : State} (h : sound s) : sound (countDefect a0 a1 s) := by
  unfold countDefect
  try dsimp only
  with_reducible repeat' first | assumption | refine sound_ite ?_ ?_ | refine keeps_tally ?_

theorem keeps_reportDefect {a0 a1 a2} {s : State} (h : sound s) : sound (reportDefect a0 a1 a2 s) := by
  unfold reportDefect
  try dsimp only
  with_reducible repeat' first | assumption | refine sound_ite ?_ ?_ | refine keeps_raiseEvent ?_ | refine keeps_countDefect ?_

theorem keeps_endSwitch {a0 a1} {s : State} (h : sound s) : sound (endSwitch a0 a1 s) := by
  unfold endSwitch
  try dsimp only
  with_reducible repeat' first | assumption | refine keeps_sendOverhead ?_ | refine keeps_finishWaiting ?_ | refine keeps_updGroup ?_ | split

theorem keeps_noteDown {a0} {s : State} (h : sound s) : sound (noteDown a0 s) := by
  unfold noteDown
  try dsimp only
  with_reducible repeat' first | assumption | refine keeps_updGroup ?_

theorem keeps_updLine {a0 a1} {s : State} (h : sound s) : sound (updLine a0 a1 s) := by
  unfold updLine
  try dsimp only
  with_reducible repeat' first | assumption | ((fail_if_success (fail_if_success conv => arg 1; arg 30)); refine sound_mk ?_ (by rfl))

theorem keeps_noteDefects {a0 a1} {s : State} (h : sound s) : sound (noteDefects a0 a1 s) := by
  unfold noteDefects
  try dsimp only
  with_reducible repeat' first | assumption | refine keeps_updLine ?_ | refine sound_foldl ?_ ?_ | split | intro _

theorem keeps_groupStep {a0 a1} {s : State} (h : sound s) : sound (groupStep a0 a1 s) := by
  unfold groupStep
  try dsimp only
  with_reducible repeat' first | assumption | refine keeps_reportDefect ?_ | refine keeps_endSwitch ?_ | refine keeps_raiseEvent ?_ | refine keeps_tally ?_ | refine keeps_updGroup ?_ | refine keeps_sendOverhead ?_ | refine keeps_noteDown ?_ | refine keeps_noteDefects ?_ | refine keeps_followClients ?_ | refine sound_foldl ?_ ?_ | split | intro _

theorem keeps_withGroup {a0 a1} {s : State} (fa1 : ∀ x0, sound x0 → sound (a1 x0)) (h : sound s) : sound (withGroup a0 a1 s) := by
  unfold withGroup
  try dsimp only
  with_reducible repeat' first | assumption | refine keeps_groupStep ?_ | refine fa1 _ ?_

theorem keeps_eachPhy {a0 a1} {s : State} (fa1 : ∀ x0 x1, sound x1 → sound (a1 x0 x1)) (h : sound s) : sound (eachPhy a0 a1 s) := by
  unfold eachPhy
  try dsimp only
  with_reducible repeat' first | assumption | refine fa1 _ _ ?_ | refine sound_foldl ?_ ?_ | split | intro _

theorem keeps_groupDown {a0} {s : State} (h : sound s) : sound (groupDown a0 s) := by
  unfold groupDown
  try dsimp only
  with_reducible repeat' first | assumption | refine keeps_sendOverhead ?_ | refine keeps_withGroup ?_ ?_ | refine keeps_eachPhy ?_ ?_ | refine keeps_toDown ?_ | refine keeps_updGroup ?_ | split | intro _

theorem keeps_updInst {a0 a1 a2} {s : State} (h : sound s) : sound (updInst a0 a1 a2 s) := by
  unfold updInst
  try dsimp only
  with_reducible repeat' first | assumption | refine keeps_updLine ?_

theorem keeps_dropAlign {a0} {s : State} (h : sound s) : sound (dropAlign a0 s) := by
  unfold dropAlign
  try dsimp only
  with_reducible repeat' first | assumption | refine sound_ite ?_ ?_ | refine keeps_updLine ?_

theorem keeps_groupDormant {a0 a1} {s : State} (h : sound s) : sound (groupDormant a0 a1 s) := by
  unfold groupDormant
  try dsimp only
  with_reducible repeat' first | assumption | refine keeps_updGroup ?_ | refine keeps_withGroup ?_ ?_ | refine keeps_eachPhy ?_ ?_ | refine keeps_dropAlign ?_ | refine keeps_toDormant ?_ | refine keeps_endSwitch ?_ | split | intro _

theorem keeps_answerCr {a0 a1} {s : State} (h : sound s) : sound (answerCr a0 a1 s) := by
  unfold answerCr
  try dsimp only
  with_reducible repeat' first | assumption | refine sound_ite ?_ ?_ | refine keeps_updGroup ?_ | refine keeps_sendOverhead ?_ | refine keeps_raiseEvent ?_

theorem keeps_calStep {a0 a1 a2} {s : State} (h : sound s) : sound (calStep a0 a1 a2 s) := by
  unfold calStep
  try dsimp only
  with_reducible repeat' first | assumption | ((fail_if_success (fail_if_success conv => arg 1; arg 30)); refine sound_mk ?_ (by rfl))

theorem keeps_multiframeEnd {a0} {s : State} (h : sound s) : sound (multiframeEnd a0 s) := by
  unfold multiframeEnd
  try dsimp only
  with_reducible repeat' first | assumption | refine keeps_updInst ?_ | refine keeps_answerCr ?_ | refine keeps_calStep ?_ | refine sound_foldl ?_ ?_ | split | intro _

theorem keeps_execFlexeCrSet {a0} {s : State} (h : sound s) : soundRes (execFlexeCrSet a0 s) := by
  unfold execFlexeCrSet
  try dsimp only
  with_reducible repeat' first | assumption | refine soundRes_next ?_ | refine keeps_advanceTo ?_ | refine keeps_sendOverhead ?_ | refine keeps_updGroup ?_ | split

theorem keeps_groupAdminDown {a0} {s : State} (h : sound s) : sound (groupAdminDown a0 s) := by
  unfold groupAdminDown
  try dsimp only
  with_reducible repeat' first | assumption | refine sound_ite ?_ ?_ | refine keeps_withGroup ?_ ?_ | refine keeps_eachPhy ?_ ?_ | refine keeps_dropAlign ?_ | refine keeps_toAdminDown ?_ | refine keeps_updGroup ?_ | refine keeps_endSwitch ?_ | intro _

theorem keeps_execFlexeMarkerMissed {a0 a1} {s : State} (h : sound s) : soundRes (execFlexeMarkerMissed a0 a1 s) := by
  unfold execFlexeMarkerMissed
  try dsimp only
  with_reducible repeat' first | assumption | refine soundRes_next ?_ | refine keeps_withGroup ?_ ?_ | refine keeps_updInst ?_ | split | intro _

theorem keeps_measureSkew {a0} {s : State} (h : sound s) : sound (measureSkew a0 s) := by
  unfold measureSkew
  try dsimp only
  with_reducible repeat' first | assumption | refine keeps_updGroup ?_ | split

theorem keeps_followC {a0} {s : State} (h : sound s) : sound (followC a0 s) := by
  unfold followC
  try dsimp only
  with_reducible repeat' first | assumption | refine keeps_raiseEvent ?_ | refine keeps_updGroup ?_ | split

theorem keeps_ohFrame {a0 a1 a2} {s : State} (h : sound s) : sound (ohFrame a0 a1 a2 s) := by
  unfold ohFrame
  try dsimp only
  with_reducible repeat' first | assumption | refine sound_ite ?_ ?_ | refine keeps_updInst ?_ | refine keeps_tally ?_ | refine keeps_updLine ?_ | refine keeps_measureSkew ?_ | refine keeps_multiframeEnd ?_ | refine keeps_followC ?_

theorem keeps_execFlexeOhFrameRx {a0} {s : State} (h : sound s) : soundRes (execFlexeOhFrameRx a0 s) := by
  unfold execFlexeOhFrameRx
  try dsimp only
  with_reducible repeat' first | assumption | refine soundRes_next ?_ | refine keeps_withGroup ?_ ?_ | refine keeps_ohFrame ?_ | split | intro _

theorem keeps_execFlexeNoAck {a0} {s : State} (h : sound s) : soundRes (execFlexeNoAck a0 s) := by
  unfold execFlexeNoAck
  try dsimp only
  with_reducible repeat' first | assumption | refine soundRes_next ?_ | refine keeps_endSwitch ?_ | refine keeps_advanceTo ?_ | split

theorem keeps_linkChange {a0 a1} {s : State} (fa1 : ∀ x0, sound x0 → sound (a1 x0)) (h : sound s) : sound (linkChange a0 a1 s) := by
  unfold linkChange
  try dsimp only
  with_reducible repeat' first | assumption | refine keeps_withGroup ?_ ?_ | refine keeps_dropAlign ?_ | refine keeps_linkStep ?_ | refine fa1 _ ?_ | split | intro _

theorem keeps_flexeQuery {a0} {s : State} (h : sound s) : soundVerdict (flexeQuery a0 s) := by
  unfold flexeQuery
  try dsimp only
  with_reducible repeat' first | assumption | exact soundVerdict_refuse | refine soundVerdict_done ?_ | split

theorem keeps_specFlexeQuery : soundSpec specFlexeQuery := by
  intro x s h
  unfold specFlexeQuery
  with_reducible exact keeps_flexeQuery h

theorem keeps_execFlexeQuery {a0} {s : State} (h : sound s) : soundRes (execFlexeQuery a0 s) := by
  unfold execFlexeQuery
  try dsimp only
  with_reducible repeat' first | assumption | exact keeps_specFlexeQuery | refine keeps_runCmd ?_ ?_

theorem keeps_flexeClientAdmin {a0} {s : State} (h : sound s) : soundVerdict (flexeClientAdmin a0 s) := by
  unfold flexeClientAdmin
  try dsimp only
  with_reducible repeat' first | assumption | refine soundVerdict_ite ?_ ?_ | exact soundVerdict_refuse | refine soundVerdict_done ?_ | refine keeps_adminTo ?_

theorem keeps_flexeGroupDelete {a0} {s : State} (h : sound s) : soundVerdict (flexeGroupDelete a0 s) := by
  unfold flexeGroupDelete
  try dsimp only
  with_reducible repeat' first | assumption | ((fail_if_success (fail_if_success conv => arg 1; arg 30)); refine sound_mk ?_ (by rfl)) | exact soundVerdict_refuse | refine soundVerdict_done ?_ | split

theorem keeps_specFlexeGroupDelete : soundSpec specFlexeGroupDelete := by
  intro x s h
  unfold specFlexeGroupDelete
  with_reducible exact keeps_flexeGroupDelete h

theorem keeps_execFlexeGroupDelete {a0} {s : State} (h : sound s) : soundRes (execFlexeGroupDelete a0 s) := by
  unfold execFlexeGroupDelete
  try dsimp only
  with_reducible repeat' first | assumption | exact keeps_specFlexeGroupDelete | refine keeps_runCmd ?_ ?_

theorem keeps_specFlexeClientAdmin : soundSpec specFlexeClientAdmin := by
  intro x s h
  unfold specFlexeClientAdmin
  with_reducible exact keeps_flexeClientAdmin h

theorem keeps_execFlexeClientAdmin {a0} {s : State} (h : sound s) : soundRes (execFlexeClientAdmin a0 s) := by
  unfold execFlexeClientAdmin
  try dsimp only
  with_reducible repeat' first | assumption | exact keeps_specFlexeClientAdmin | refine keeps_runCmd ?_ ?_

theorem keeps_flexeCalendarStage {a0} {s : State} (h : sound s) : soundVerdict (flexeCalendarStage a0 s) := by
  unfold flexeCalendarStage
  try dsimp only
  with_reducible repeat' first | assumption | ((fail_if_success (fail_if_success conv => arg 1; arg 30)); refine sound_mk ?_ (by rfl)) | refine soundVerdict_ite ?_ ?_ | exact soundVerdict_refuse | refine soundVerdict_done ?_ | refine soundVerdict_wait ?_ | refine sound_ite ?_ ?_ | refine keeps_updGroup ?_ | refine keeps_sendOverhead ?_ | refine sound_foldl ?_ ?_ | refine sound_of_pair (by assumption) ?_ | refine sound_of_some (by assumption) ?_ | refine sound_of_somePair (by assumption) ?_ | split | dsimp only | intro _

theorem keeps_flexeClientDelete {a0} {s : State} (h : sound s) : soundVerdict (flexeClientDelete a0 s) := by
  unfold flexeClientDelete
  try dsimp only
  with_reducible repeat' first | assumption | ((fail_if_success (fail_if_success conv => arg 1; arg 30)); refine sound_mk ?_ (by rfl)) | refine soundVerdict_ite ?_ ?_ | exact soundVerdict_refuse | refine soundVerdict_done ?_ | refine keeps_dropMac ?_

theorem keeps_specFlexeClientDelete : soundSpec specFlexeClientDelete := by
  intro x s h
  unfold specFlexeClientDelete
  with_reducible exact keeps_flexeClientDelete h

theorem keeps_execFlexeClientDelete {a0} {s : State} (h : sound s) : soundRes (execFlexeClientDelete a0 s) := by
  unfold execFlexeClientDelete
  try dsimp only
  with_reducible repeat' first | assumption | exact keeps_specFlexeClientDelete | refine keeps_runCmd ?_ ?_

theorem keeps_flexeGroupConfig {a0} {s : State} (h : sound s) : soundVerdict (flexeGroupConfig a0 s) := by
  unfold flexeGroupConfig
  try dsimp only
  with_reducible repeat' first | assumption | ((fail_if_success (fail_if_success conv => arg 1; arg 30)); refine sound_mk ?_ (by rfl)) | exact soundVerdict_refuse | refine soundVerdict_done ?_ | refine keeps_toAdminDown ?_ | refine keeps_updGroup ?_ | refine sound_foldl ?_ ?_ | split | intro _

theorem keeps_specFlexeGroupConfig : soundSpec specFlexeGroupConfig := by
  intro x s h
  unfold specFlexeGroupConfig
  with_reducible exact keeps_flexeGroupConfig h

theorem keeps_execFlexeGroupConfig {a0} {s : State} (h : sound s) : soundRes (execFlexeGroupConfig a0 s) := by
  unfold execFlexeGroupConfig
  try dsimp only
  with_reducible repeat' first | assumption | exact keeps_specFlexeGroupConfig | refine keeps_runCmd ?_ ?_

theorem keeps_laneWindow {a0} {s : State} (h : sound s) : sound (laneWindow a0 s) := by
  unfold laneWindow
  try dsimp only
  with_reducible repeat' first | assumption | ((fail_if_success (fail_if_success conv => arg 1; arg 30)); refine sound_mk ?_ (by rfl)) | refine sound_ite ?_ ?_ | refine keeps_bump ?_ | refine sound_foldl ?_ ?_ | refine sound_of_pair (by assumption) ?_ | refine sound_of_some (by assumption) ?_ | refine sound_of_somePair (by assumption) ?_ | split | dsimp only | intro _

theorem keeps_setDeg {a0 a1} {s : State} (h : sound s) : sound (setDeg a0 a1 s) := by
  unfold setDeg
  try dsimp only
  with_reducible repeat' first | assumption | refine sound_ite ?_ ?_ | refine keeps_tally ?_ | refine keeps_raiseEvent ?_ | refine keeps_linkChange ?_ ?_ | refine keeps_updMac ?_ | intro _

theorem keeps_degWindow {a0 a1} {s : State} (h : sound s) : sound (degWindow a0 a1 s) := by
  unfold degWindow
  try dsimp only
  with_reducible repeat' first | assumption | refine keeps_updMac ?_ | refine keeps_updLine ?_ | refine keeps_setDeg ?_ | split

theorem keeps_execDegWindowEnd {a0} {s : State} (h : sound s) : soundRes (execDegWindowEnd a0 s) := by
  unfold execDegWindowEnd
  try dsimp only
  with_reducible repeat' first | assumption | refine soundRes_next ?_ | refine keeps_laneWindow ?_ | refine keeps_degWindow ?_ | refine keeps_advanceTempo ?_ | refine sound_foldl ?_ ?_ | split | intro _

theorem keeps_flexeCalendarSwitch {a0} {s : State} (h : sound s) : soundVerdict (flexeCalendarSwitch a0 s) := by
  unfold flexeCalendarSwitch
  try dsimp only
  with_reducible repeat' first | assumption | exact soundVerdict_refuse | refine soundVerdict_wait ?_ | refine keeps_updGroup ?_ | split

theorem keeps_specFlexeCalendarSwitch : soundSpec specFlexeCalendarSwitch := by
  intro x s h
  unfold specFlexeCalendarSwitch
  with_reducible exact keeps_flexeCalendarSwitch h

theorem keeps_execFlexeCalendarSwitch {a0} {s : State} (h : sound s) : soundRes (execFlexeCalendarSwitch a0 s) := by
  unfold execFlexeCalendarSwitch
  try dsimp only
  with_reducible repeat' first | assumption | exact keeps_specFlexeCalendarSwitch | refine keeps_runCmd ?_ ?_

theorem keeps_execPortLinkOk {a0} {s : State} (h : sound s) : soundRes (execPortLinkOk a0 s) := by
  unfold execPortLinkOk
  try dsimp only
  with_reducible repeat' first | assumption | refine soundRes_next ?_ | refine sound_ite ?_ ?_ | refine keeps_linkChange ?_ ?_ | refine keeps_updMac ?_ | intro _

theorem keeps_portDegrade {a0} {s : State} (h : sound s) : soundVerdict (portDegrade a0 s) := by
  unfold portDegrade
  try dsimp only
  with_reducible repeat' first | assumption | exact soundVerdict_refuse | refine soundVerdict_done ?_ | refine keeps_setDeg ?_ | refine keeps_linkChange ?_ ?_ | refine keeps_updMac ?_ | split | intro _

theorem keeps_flexeGroupAdmin {a0} {s : State} (h : sound s) : soundVerdict (flexeGroupAdmin a0 s) := by
  unfold flexeGroupAdmin
  try dsimp only
  with_reducible repeat' first | assumption | refine soundVerdict_ite ?_ ?_ | exact soundVerdict_refuse | refine soundVerdict_done ?_ | refine sound_ite ?_ ?_ | refine keeps_holdItem ?_ | refine keeps_groupAdminDown ?_ | refine keeps_groupDown ?_ | refine keeps_groupDormant ?_

theorem keeps_specFlexeGroupAdmin : soundSpec specFlexeGroupAdmin := by
  intro x s h
  unfold specFlexeGroupAdmin
  with_reducible exact keeps_flexeGroupAdmin h

theorem keeps_execFlexeGroupAdmin {a0} {s : State} (h : sound s) : soundRes (execFlexeGroupAdmin a0 s) := by
  unfold execFlexeGroupAdmin
  try dsimp only
  with_reducible repeat' first | assumption | exact keeps_specFlexeGroupAdmin | refine keeps_runCmd ?_ ?_

theorem keeps_flexeClientConfig {a0} {s : State} (h : sound s) : soundVerdict (flexeClientConfig a0 s) := by
  unfold flexeClientConfig
  try dsimp only
  with_reducible repeat' first | assumption | ((fail_if_success (fail_if_success conv => arg 1; arg 30)); refine sound_mk ?_ (by rfl)) | exact soundVerdict_refuse | refine soundVerdict_done ?_ | refine keeps_setMacCfg ?_ | split

theorem keeps_specFlexeClientConfig : soundSpec specFlexeClientConfig := by
  intro x s h
  unfold specFlexeClientConfig
  with_reducible exact keeps_flexeClientConfig h

theorem keeps_execFlexeClientConfig {a0} {s : State} (h : sound s) : soundRes (execFlexeClientConfig a0 s) := by
  unfold execFlexeClientConfig
  try dsimp only
  with_reducible repeat' first | assumption | exact keeps_specFlexeClientConfig | refine keeps_runCmd ?_ ?_

theorem keeps_specFlexeCalendarStage : soundSpec specFlexeCalendarStage := by
  intro x s h
  unfold specFlexeCalendarStage
  with_reducible exact keeps_flexeCalendarStage h

theorem keeps_execFlexeCalendarStage {a0} {s : State} (h : sound s) : soundRes (execFlexeCalendarStage a0 s) := by
  unfold execFlexeCalendarStage
  try dsimp only
  with_reducible repeat' first | assumption | exact keeps_specFlexeCalendarStage | refine keeps_runCmd ?_ ?_

theorem keeps_specPortDegrade : soundSpec specPortDegrade := by
  intro x s h
  unfold specPortDegrade
  with_reducible exact keeps_portDegrade h

theorem keeps_execPortDegrade {a0} {s : State} (h : sound s) : soundRes (execPortDegrade a0 s) := by
  unfold execPortDegrade
  try dsimp only
  with_reducible repeat' first | assumption | exact keeps_specPortDegrade | refine keeps_runCmd ?_ ?_

theorem keeps_execPortLinkFail {a0 a1 a2 a3} {s : State} (h : sound s) : soundRes (execPortLinkFail a0 a1 a2 a3 s) := by
  unfold execPortLinkFail
  try dsimp only
  with_reducible repeat' first | assumption | refine soundRes_next ?_ | refine sound_ite ?_ ?_ | refine keeps_linkChange ?_ ?_ | refine keeps_updMac ?_ | intro _

end Sys2Proof.Laws
end

