-- ==== Sys2Proof/Laws/KeepsQueues.lean ====
section
/-! SUPPORT. The operations keep sound states sound: admission, spill, reassembly, injection and Toll. One lemma for each definition of those files. -/

namespace Sys2Proof.Laws
open Sys2Proof Sys2Proof.Machine

theorem keeps_directDone {a0} {s : State} (h : sound s) : sound (directDone a0 s) := by
  unfold directDone
  try dsimp only
  with_reducible repeat' first | assumption | refine keeps_descDone ?_ | split

theorem keeps_discardBegun {a0 a1 a2} {s : State} (h : sound s) : sound (discardBegun a0 a1 a2 s) := by
  unfold discardBegun
  try dsimp only
  with_reducible repeat' first | assumption | refine keeps_directDone ?_ | refine keeps_endPkt ?_ | refine keeps_dropCause ?_

theorem keeps_dropWaiting {a0 a1} {s : State} (h : sound s) : sound (dropWaiting a0 a1 s) := by
  unfold dropWaiting
  try dsimp only
  with_reducible repeat' first | assumption | refine keeps_dropCause ?_ | refine keeps_discardBegun ?_ | refine keeps_endPkt ?_ | refine keeps_voqDrop ?_ | split

theorem keeps_sendRelinquish {a0} {s : State} (h : sound s) : sound (sendRelinquish a0 s) := by
  unfold sendRelinquish
  try dsimp only
  with_reducible repeat' first | assumption | refine keeps_flood ?_

theorem keeps_protFail {s : State} (h : sound s) : sound (protFail s) := by
  unfold protFail
  try dsimp only
  with_reducible repeat' first | assumption | ((fail_if_success (fail_if_success conv => arg 1; arg 30)); refine sound_mk ?_ (by rfl)) | refine sound_ite ?_ ?_ | refine keeps_releaseMirror ?_ | refine keeps_sendRelinquish ?_

theorem keeps_sleepItem {a0} {s : State} (h : sound s) : sound (sleepItem a0 s) := by
  unfold sleepItem
  try dsimp only
  with_reducible repeat' first | assumption | refine sound_ite ?_ ?_ | refine keeps_groupDormant ?_ | refine keeps_toDormant ?_

theorem keeps_emptyMac {a0 a1} {s : State} (h : sound s) : sound (emptyMac a0 a1 s) := by
  unfold emptyMac
  try dsimp only
  with_reducible repeat' first | assumption | refine keeps_updMac ?_ | refine keeps_dropCause ?_ | refine keeps_tally ?_ | refine keeps_endPkt ?_ | refine sound_foldl ?_ ?_ | split | intro _

theorem keeps_dropXfer {a0 a1} {s : State} (h : sound s) : sound (dropXfer a0 a1 s) := by
  unfold dropXfer
  try dsimp only
  with_reducible repeat' first | assumption | refine keeps_discard ?_ | refine keeps_unref ?_ | refine keeps_dropCause ?_ | refine keeps_discardBegun ?_ | refine keeps_endPkt ?_ | split

theorem keeps_emptyBridge {a0} {s : State} (h : sound s) : sound (emptyBridge a0 s) := by
  unfold emptyBridge
  try dsimp only
  with_reducible repeat' first | assumption | ((fail_if_success (fail_if_success conv => arg 1; arg 30)); refine sound_mk ?_ (by rfl)) | refine keeps_dropXfer ?_ | refine sound_foldl ?_ ?_ | intro _

theorem keeps_emptyPipes {a0} {s : State} (h : sound s) : sound (emptyPipes a0 s) := by
  unfold emptyPipes
  try dsimp only
  with_reducible repeat' first | assumption | ((fail_if_success (fail_if_success conv => arg 1; arg 30)); refine sound_mk ?_ (by rfl)) | refine keeps_discard ?_ | refine keeps_discardBegun ?_ | refine sound_foldl ?_ ?_ | intro _

theorem keeps_emptyVoqOf {a0 a1} {s : State} (h : sound s) : sound (emptyVoqOf a0 a1 s) := by
  unfold emptyVoqOf
  try dsimp only
  with_reducible repeat' first | assumption | refine keeps_updVoq ?_ | refine keeps_setSegment ?_ | refine keeps_settleCredit ?_ | refine keeps_checkUnspill ?_ | refine keeps_discardVoq ?_ | refine sound_foldl ?_ ?_ | intro _

theorem keeps_emptyLeaf {a0 a1 a2} {s : State} (h : sound s) : sound (emptyLeaf a0 a1 a2 s) := by
  unfold emptyLeaf
  try dsimp only
  with_reducible repeat' first | assumption | ((fail_if_success (fail_if_success conv => arg 1; arg 30)); refine sound_mk ?_ (by rfl)) | refine sound_ite ?_ ?_ | refine keeps_discardLeaf ?_ | refine keeps_tally ?_ | refine keeps_setLeaf ?_ | refine sound_foldl ?_ ?_ | refine sound_of_pair (by assumption) ?_ | refine sound_of_some (by assumption) ?_ | refine sound_of_somePair (by assumption) ?_ | split | dsimp only | intro _

theorem keeps_emptyPunt {a0 a1} {s : State} (h : sound s) : sound (emptyPunt a0 a1 s) := by
  unfold emptyPunt
  try dsimp only
  with_reducible repeat' first | assumption | ((fail_if_success (fail_if_success conv => arg 1; arg 30)); refine sound_mk ?_ (by rfl)) | refine keeps_unref ?_ | refine keeps_dropCause ?_ | refine sound_foldl ?_ ?_ | intro _

theorem keeps_dropBuffered {a0} {s : State} (h : sound s) : sound (dropBuffered a0 s) := by
  unfold dropBuffered
  try dsimp only
  with_reducible repeat' first | assumption | ((fail_if_success (fail_if_success conv => arg 1; arg 30)); refine sound_mk ?_ (by rfl)) | refine keeps_emptyMac ?_ | refine keeps_emptyBridge ?_ | refine keeps_emptyPipes ?_ | refine keeps_dropWaiting ?_ | refine keeps_emptyVoqOf ?_ | refine keeps_emptyLeaf ?_ | refine keeps_emptyPunt ?_ | refine sound_foldl ?_ ?_ | intro _

theorem keeps_haltData {s : State} (h : sound s) : sound (haltData s) := by
  unfold haltData
  try dsimp only
  with_reducible repeat' first | assumption | ((fail_if_success (fail_if_success conv => arg 1; arg 30)); refine sound_mk ?_ (by rfl)) | refine keeps_sleepItem ?_ | refine keeps_dropBuffered ?_ | refine keeps_hbmPowerDown ?_ | refine keeps_applyLanes ?_ | refine sound_foldl ?_ ?_ | intro _

theorem keeps_fatalReport {a0} {s : State} (h : sound s) : sound (fatalReport a0 s) := by
  unfold fatalReport
  try dsimp only
  with_reducible repeat' first | assumption | ((fail_if_success (fail_if_success conv => arg 1; arg 30)); refine sound_mk ?_ (by rfl)) | refine sound_ite ?_ ?_ | refine keeps_protFail ?_ | refine keeps_haltData ?_ | refine keeps_raiseGlb ?_ | refine keeps_raiseEvent ?_

theorem keeps_execClockLockLoss {s : State} (h : sound s) : soundRes (execClockLockLoss s) := by
  unfold execClockLockLoss
  try dsimp only
  with_reducible repeat' first | assumption | refine soundRes_next ?_ | refine keeps_fatalReport ?_ | refine keeps_drawn ?_

theorem keeps_wakeItem {a0} {s : State} (h : sound s) : sound (wakeItem a0 s) := by
  unfold wakeItem
  try dsimp only
  with_reducible repeat' first | assumption | refine sound_ite ?_ ?_ | refine keeps_groupDown ?_ | refine keeps_toDown ?_

theorem keeps_unwait {a0} {s : State} (h : sound s) : sound (unwait a0 s) := by
  unfold unwait
  try dsimp only
  with_reducible repeat' first | assumption | ((fail_if_success (fail_if_success conv => arg 1; arg 30)); refine sound_mk ?_ (by rfl))

theorem keeps_admitDrop {a0 a1 a2} {s : State} (h : sound s) : sound (admitDrop a0 a1 a2 s) := by
  unfold admitDrop
  try dsimp only
  with_reducible repeat' first | assumption | refine sound_ite ?_ ?_ | refine keeps_discard ?_ | refine keeps_discardVoq ?_

theorem keeps_admission {a0 a1 a2} {s : State} (h : sound s) : sound (admission a0 a1 a2 s).2 := by
  unfold admission
  try dsimp only
  with_reducible repeat' first | assumption | refine keeps_drawn ?_ | split

theorem keeps_voqAppend {a0 a1} {s : State} (h : sound s) : sound (voqAppend a0 a1 s) := by
  unfold voqAppend
  try dsimp only
  with_reducible repeat' first | assumption | refine sound_ite ?_ ?_ | refine keeps_bump ?_ | refine keeps_tally ?_ | refine keeps_updVoq ?_ | refine keeps_enterSpill ?_ | refine keeps_voqMoved ?_ | refine keeps_spillAtLevel3 ?_

theorem keeps_admitted {a0 a1 a2} {s : State} (h : sound s) : sound (admitted a0 a1 a2 s) := by
  unfold admitted
  try dsimp only
  with_reducible repeat' first | assumption | refine sound_ite ?_ ?_ | refine keeps_voqAppend ?_ | refine keeps_tally ?_

theorem keeps_admitCopy {a0 a1 a3} {s : State} (h : sound s) : sound (admitCopy a0 a1 s a3) := by
  unfold admitCopy
  try dsimp only
  with_reducible repeat' first | assumption | ((fail_if_success (fail_if_success conv => arg 1; arg 30)); refine sound_mk ?_ (by rfl)) | refine keeps_admission ?_ | refine keeps_admitted ?_ | refine keeps_dropCause ?_ | refine keeps_voqDrop ?_ | refine sound_of_pair (by assumption) ?_ | split

theorem keeps_admitCopies {a0} {s : State} (h : sound s) : sound (admitCopies a0 s) := by
  unfold admitCopies
  try dsimp only
  with_reducible repeat' first | assumption | refine keeps_discard ?_ | refine keeps_unref ?_ | refine keeps_admitCopy ?_ | refine sound_foldl ?_ ?_ | split | intro _

theorem keeps_storeIngress {a0 a1} {s : State} (h : sound s) : sound (storeIngress a0 a1 s).2 := by
  unfold storeIngress
  try dsimp only
  with_reducible repeat' first | assumption | refine keeps_alloc ?_ | refine keeps_admitCopies ?_ | refine keeps_admitted ?_ | refine sound_of_somePair (by assumption) ?_ | split

theorem keeps_offer {a0} {s : State} (h : sound s) : sound (offer a0 s).2 := by
  unfold offer
  try dsimp only
  with_reducible repeat' first | assumption | refine keeps_admitDrop ?_ | refine keeps_storeIngress ?_ | refine keeps_admission ?_ | refine sound_of_pair (by assumption) ?_ | split

theorem keeps_reoffer {a0} {s : State} (h : sound s) : sound (reoffer a0 s).2 := by
  unfold reoffer
  try dsimp only
  with_reducible repeat' first | assumption | ((fail_if_success (fail_if_success conv => arg 1; arg 30)); refine sound_mk ?_ (by rfl)) | refine sound_ite ?_ ?_ | refine keeps_offer ?_ | refine keeps_unwait ?_ | refine sound_of_pair (by assumption) ?_ | split

theorem keeps_offerBehind {a0 a1} {s : State} (h : sound s) : sound (offerBehind a0 a1 s) := by
  induction a0 generalizing a1 s with
  | zero =>
    unfold offerBehind
    with_reducible repeat' first | assumption | refine ih ?_ | refine keeps_reoffer ?_ | split
  | succ fuel ih =>
    unfold offerBehind
    try dsimp only
    with_reducible repeat' first | assumption | refine ih ?_ | refine keeps_reoffer ?_ | split

theorem keeps_headLeft {a0} {s : State} (h : sound s) : sound (headLeft a0 s) := by
  unfold headLeft
  try dsimp only
  with_reducible repeat' first | assumption | refine sound_ite ?_ ?_ | refine keeps_offerBehind ?_ | refine keeps_checkXoff ?_

theorem keeps_exhaust {a0} {s : State} (h : sound s) : sound (exhaust a0 s) := by
  unfold exhaust
  try dsimp only
  with_reducible repeat' first | assumption | refine keeps_exhausted ?_ | refine keeps_unwait ?_ | refine keeps_directDone ?_ | refine keeps_endPkt ?_ | refine keeps_tally ?_ | refine keeps_headLeft ?_ | split

theorem keeps_execBufExhaust {s : State} (h : sound s) : soundRes (execBufExhaust s) := by
  unfold execBufExhaust
  try dsimp only
  with_reducible repeat' first | assumption | refine soundRes_next ?_ | refine keeps_exhaust ?_ | refine keeps_advanceTo ?_ | split

theorem keeps_puntAppend {a0 a1} {s : State} (h : sound s) : sound (puntAppend a0 a1 s) := by
  unfold puntAppend
  try dsimp only
  with_reducible repeat' first | assumption | ((fail_if_success (fail_if_success conv => arg 1; arg 30)); refine sound_mk ?_ (by rfl)) | refine keeps_bump ?_ | refine keeps_tally ?_

theorem keeps_waits {a0} {s : State} (h : sound s) : sound (waits a0 s) := by
  unfold waits
  try dsimp only
  with_reducible repeat' first | assumption | ((fail_if_success (fail_if_success conv => arg 1; arg 30)); refine sound_mk ?_ (by rfl))

theorem keeps_admitPunt {a0 a1} {s : State} (h : sound s) : sound (admitPunt a0 a1 s) := by
  unfold admitPunt
  try dsimp only
  with_reducible repeat' first | assumption | refine keeps_dropCause ?_ | refine keeps_tally ?_ | refine keeps_alloc ?_ | refine keeps_puntAppend ?_ | refine keeps_waits ?_ | refine sound_of_somePair (by assumption) ?_ | split

theorem keeps_bridgeFail {a0} {s : State} (h : sound s) : sound (bridgeFail a0 s) := by
  unfold bridgeFail
  try dsimp only
  with_reducible repeat' first | assumption | ((fail_if_success (fail_if_success conv => arg 1; arg 30)); refine sound_mk ?_ (by rfl)) | refine sound_ite ?_ ?_ | refine keeps_fatalReport ?_ | refine keeps_raiseEvent ?_

theorem keeps_admitLeaf {a0 a1} {s : State} (h : sound s) : sound (admitLeaf a0 a1 s) := by
  unfold admitLeaf
  try dsimp only
  with_reducible repeat' first | assumption | refine keeps_alloc ?_ | refine keeps_directDone ?_ | refine keeps_enqueueLeaf ?_ | refine keeps_waits ?_ | refine sound_of_somePair (by assumption) ?_ | split

theorem keeps_enqueueCopy {a0 a1 a2} {s : State} (h : sound s) : sound (enqueueCopy a0 a1 a2 s).2 := by
  unfold enqueueCopy
  try dsimp only
  with_reducible repeat' first | assumption | refine keeps_discardLeaf ?_ | refine keeps_tally ?_ | refine keeps_enqueueLeaf ?_ | split

theorem keeps_pealOut {a0 a1} {s : State} (h : sound s) : sound (pealOut a0 a1 s) := by
  unfold pealOut
  have h1 := sound_foldl_by (fun (a : Nat × Nat × State) => a.2.2)
    (l := pealTargets a1 s) (f := fun (a : Nat × Nat × State) t =>
    (a.1 + 1, a.2.1 + b2n (enqueueCopy a0 (a.1 == 0) t a.2.2).1, (enqueueCopy a0 (a.1 == 0) t a.2.2).2)) (a := (0, 0, s))
    (fun a t ha => keeps_enqueueCopy ha) h
  exact sound_ite (keeps_tally (keeps_setRefs h1)) (keeps_setRefs h1)

theorem keeps_deliver {a0} {s : State} (h : sound s) : sound (deliver a0 s) := by
  unfold deliver
  try dsimp only
  with_reducible repeat' first | assumption | refine keeps_discard ?_ | refine keeps_tally ?_ | refine keeps_pealOut ?_ | refine keeps_enqueueLeaf ?_ | split

theorem keeps_execBridgeStall {a0} {s : State} (h : sound s) : soundRes (execBridgeStall a0 s) := by
  unfold execBridgeStall
  try dsimp only
  with_reducible repeat' first | assumption | refine soundRes_next ?_ | refine keeps_bridgeFail ?_

theorem keeps_served {a0 a1} {s : State} (h : sound s) : sound (served a0 a1 s) := by
  unfold served
  try dsimp only
  with_reducible repeat' first | assumption | refine keeps_puntAppend ?_ | refine keeps_directDone ?_ | refine keeps_enqueueLeaf ?_ | refine keeps_deliver ?_ | refine keeps_admitCopies ?_ | refine keeps_admitted ?_ | split

theorem keeps_execVoqAdmission {s : State} (h : sound s) : soundRes (execVoqAdmission s) := by
  unfold execVoqAdmission
  try dsimp only
  with_reducible repeat' first | assumption | ((fail_if_success (fail_if_success conv => arg 1; arg 30)); refine sound_mk ?_ (by rfl)) | refine soundRes_next ?_ | refine keeps_waits ?_ | refine keeps_offer ?_ | refine keeps_checkXoff ?_ | refine sound_of_pair (by assumption) ?_ | split

theorem keeps_abandon {a0 a1} {s : State} (h : sound s) : sound (abandon a0 a1 s) := by
  unfold abandon
  try dsimp only
  with_reducible repeat' first | assumption | ((fail_if_success (fail_if_success conv => arg 1; arg 30)); refine sound_mk ?_ (by rfl)) | refine sound_ite ?_ ?_ | refine keeps_dropXfer ?_ | refine keeps_tally ?_ | refine keeps_raiseEvent ?_ | refine keeps_bridgeFail ?_

theorem keeps_crossed {a0} {s : State} (h : sound s) : sound (crossed a0 s) := by
  unfold crossed
  try dsimp only
  with_reducible repeat' first | assumption | ((fail_if_success (fail_if_success conv => arg 1; arg 30)); refine sound_mk ?_ (by rfl)) | refine keeps_admitPunt ?_ | refine keeps_admitLeaf ?_ | refine keeps_unref ?_ | split

theorem keeps_execLosslessReoffer {a0} {s : State} (h : sound s) : soundRes (execLosslessReoffer a0 s) := by
  unfold execLosslessReoffer
  try dsimp only
  with_reducible repeat' first | assumption | refine soundRes_next ?_ | refine sound_ite ?_ ?_ | refine keeps_reoffer ?_ | refine keeps_headLeft ?_ | refine sound_foldl ?_ ?_ | intro _

theorem keeps_execBridgeTransfer {a0 a1} {s : State} (h : sound s) : soundRes (execBridgeTransfer a0 a1 s) := by
  unfold execBridgeTransfer
  try dsimp only
  with_reducible repeat' first | assumption | ((fail_if_success (fail_if_success conv => arg 1; arg 30)); refine sound_mk ?_ (by rfl)) | refine soundRes_next ?_ | refine keeps_bump ?_ | refine keeps_abandon ?_ | refine keeps_crossed ?_ | split

theorem keeps_retryOne {a0} {s : State} (h : sound s) : sound (retryOne a0 s) := by
  unfold retryOne
  try dsimp only
  with_reducible repeat' first | assumption | refine keeps_alloc ?_ | refine keeps_headLeft ?_ | refine keeps_served ?_ | refine keeps_unwait ?_ | refine sound_of_somePair (by assumption) ?_ | split

theorem keeps_execBufAllocRetry {s : State} (h : sound s) : soundRes (execBufAllocRetry s) := by
  unfold execBufAllocRetry
  try dsimp only
  with_reducible repeat' first | assumption | ((fail_if_success (fail_if_success conv => arg 1; arg 30)); refine sound_mk ?_ (by rfl)) | refine soundRes_next ?_ | refine keeps_retryOne ?_ | refine sound_foldl ?_ ?_ | intro _

theorem keeps_execRefusedPacketAge {s : State} (h : sound s) : soundRes (execRefusedPacketAge s) := by
  unfold execRefusedPacketAge
  try dsimp only
  with_reducible repeat' first | assumption | refine soundRes_next ?_ | refine sound_ite ?_ ?_ | refine keeps_headLeft ?_ | refine keeps_admitDrop ?_ | refine keeps_unwait ?_ | refine sound_foldl ?_ ?_ | intro _

theorem keeps_retirePage {a0 a1} {s : State} (h : sound s) : sound (retirePage a0 a1 s) := by
  unfold retirePage
  try dsimp only
  with_reducible repeat' first | assumption | ((fail_if_success (fail_if_success conv => arg 1; arg 30)); refine sound_mk ?_ (by rfl)) | refine sound_ite ?_ ?_ | refine keeps_raiseEvent ?_ | refine keeps_reportHbm ?_

theorem keeps_pageCorrected {a0} {s : State} (h : sound s) : sound (pageCorrected a0 s) := by
  unfold pageCorrected
  try dsimp only
  with_reducible repeat' first | assumption | ((fail_if_success (fail_if_success conv => arg 1; arg 30)); refine sound_mk ?_ (by rfl)) | refine sound_ite ?_ ?_ | refine keeps_tally ?_ | refine keeps_retirePage ?_ | refine sound_foldl ?_ ?_ | refine sound_of_pair (by assumption) ?_ | refine sound_of_some (by assumption) ?_ | refine sound_of_somePair (by assumption) ?_ | split | dsimp only | intro _

theorem keeps_failStack {a0 a1} {s : State} (h : sound s) : sound (failStack a0 a1 s) := by
  unfold failStack
  try dsimp only
  with_reducible repeat' first | assumption | ((fail_if_success (fail_if_success conv => arg 1; arg 30)); refine sound_mk ?_ (by rfl)) | refine sound_ite ?_ ?_ | refine keeps_raiseEvent ?_ | refine keeps_reportHbm ?_

theorem keeps_stackError {a0} {s : State} (h : sound s) : sound (stackError a0 s) := by
  unfold stackError
  try dsimp only
  with_reducible repeat' first | assumption | ((fail_if_success (fail_if_success conv => arg 1; arg 30)); refine sound_mk ?_ (by rfl)) | refine sound_ite ?_ ?_ | refine keeps_tally ?_ | refine keeps_failStack ?_

theorem keeps_accessError {a0 a1} {s : State} (h : sound s) : sound (accessError a0 a1 s) := by
  unfold accessError
  try dsimp only
  with_reducible repeat' first | assumption | ((fail_if_success (fail_if_success conv => arg 1; arg 30)); refine sound_mk ?_ (by rfl)) | refine sound_ite ?_ ?_ | refine keeps_pageCorrected ?_ | refine keeps_stackError ?_ | refine keeps_retirePage ?_ | refine sound_foldl ?_ ?_ | refine sound_of_pair (by assumption) ?_ | refine sound_of_some (by assumption) ?_ | refine sound_of_somePair (by assumption) ?_ | split | dsimp only | intro _

theorem keeps_stackCommand {a0 a1} {s : State} (h : sound s) : sound (stackCommand a0 a1 s) := by
  unfold stackCommand
  try dsimp only
  with_reducible repeat' first | assumption | ((fail_if_success (fail_if_success conv => arg 1; arg 30)); refine sound_mk ?_ (by rfl)) | refine sound_ite ?_ ?_ | refine keeps_failStack ?_ | refine sound_foldl ?_ ?_ | refine sound_of_pair (by assumption) ?_ | refine sound_of_some (by assumption) ?_ | refine sound_of_somePair (by assumption) ?_ | split | dsimp only | intro _

theorem keeps_backToHead {a0} {s : State} (h : sound s) : sound (backToHead a0 s) := by
  unfold backToHead
  try dsimp only
  with_reducible repeat' first | assumption | refine sound_ite ?_ ?_ | refine keeps_updVoq ?_ | refine keeps_setSegment ?_

theorem keeps_execDualStreamSwitch {a0} {s : State} (h : sound s) : soundRes (execDualStreamSwitch a0 s) := by
  unfold execDualStreamSwitch
  try dsimp only
  with_reducible repeat' first | assumption | refine soundRes_next ?_ | refine sound_ite ?_ ?_ | refine keeps_advanceTo ?_ | refine keeps_updVoq ?_

theorem keeps_burstRead {a0 a1 a2} {s : State} (h : sound s) : sound (burstRead a0 a1 a2 s) := by
  unfold burstRead
  try dsimp only
  with_reducible repeat' first | assumption | ((fail_if_success (fail_if_success conv => arg 1; arg 30)); refine sound_mk ?_ (by rfl)) | refine sound_ite ?_ ?_ | refine keeps_accessError ?_ | refine keeps_raiseEvent ?_ | refine sound_foldl ?_ ?_ | refine sound_of_pair (by assumption) ?_ | refine sound_of_some (by assumption) ?_ | refine sound_of_somePair (by assumption) ?_ | split | dsimp only | intro _

theorem keeps_readSegment {a0 a1} {s : State} (h : sound s) : sound (readSegment a0 a1 s) := by
  unfold readSegment
  try dsimp only
  with_reducible repeat' first | assumption | refine keeps_stackCommand ?_ | refine keeps_tally ?_ | refine keeps_updVoq ?_ | refine keeps_discardVoq ?_ | refine keeps_burstRead ?_ | refine keeps_raiseEvent ?_ | refine keeps_setSegment ?_ | refine sound_foldl ?_ ?_ | split | intro _

theorem keeps_execReadBack {a0 a1} {s : State} (h : sound s) : soundRes (execReadBack a0 a1 s) := by
  unfold execReadBack
  try dsimp only
  with_reducible repeat' first | assumption | ((fail_if_success (fail_if_success conv => arg 1; arg 30)); refine sound_mk ?_ (by rfl)) | refine soundRes_next ?_ | refine sound_ite ?_ ?_ | refine keeps_readSegment ?_ | refine keeps_checkHbmIdle ?_ | refine keeps_voqMoved ?_ | refine keeps_checkUnspill ?_ | refine keeps_backToHead ?_ | refine sound_foldl ?_ ?_ | refine sound_of_pair (by assumption) ?_ | refine sound_of_some (by assumption) ?_ | refine sound_of_somePair (by assumption) ?_ | split | dsimp only | intro _

theorem keeps_dropOldFront {a0} {s : State} (h : sound s) : sound (dropOldFront a0 s) := by
  unfold dropOldFront
  try dsimp only
  with_reducible repeat' first | assumption | refine keeps_setSegment ?_ | refine keeps_updVoq ?_ | refine keeps_checkHbmIdle ?_ | refine keeps_voqMoved ?_ | refine keeps_checkUnspill ?_ | refine keeps_discardVoq ?_ | refine sound_foldl ?_ ?_ | intro _

theorem keeps_disableSpill {s : State} (h : sound s) : sound (disableSpill s) := by
  unfold disableSpill
  try dsimp only
  with_reducible repeat' first | assumption | ((fail_if_success (fail_if_success conv => arg 1; arg 30)); refine sound_mk ?_ (by rfl)) | refine keeps_checkHbmIdle ?_ | refine keeps_raiseEvent ?_

theorem keeps_enableSpill {a0} {s : State} (h : sound s) : sound (enableSpill a0 s) := by
  unfold enableSpill
  try dsimp only
  with_reducible repeat' first | assumption | ((fail_if_success (fail_if_success conv => arg 1; arg 30)); refine sound_mk ?_ (by rfl)) | refine sound_ite ?_ ?_ | refine keeps_updVoq ?_ | refine keeps_spillAtLevel3 ?_ | refine keeps_raiseEvent ?_ | refine sound_foldl ?_ ?_ | intro _

theorem keeps_spillBytes {a0 a1} {s : State} (h : sound s) : sound (spillBytes a0 a1 s) := by
  unfold spillBytes
  try dsimp only
  with_reducible repeat' first | assumption | refine keeps_updVoq ?_ | refine keeps_reportHbm ?_ | refine keeps_unref ?_ | refine sound_foldl ?_ ?_ | intro _

theorem keeps_execSpillWrite {a0} {s : State} (h : sound s) : soundRes (execSpillWrite a0 s) := by
  unfold execSpillWrite
  try dsimp only
  with_reducible repeat' first | assumption | ((fail_if_success (fail_if_success conv => arg 1; arg 30)); refine sound_mk ?_ (by rfl)) | refine soundRes_next ?_ | refine sound_ite ?_ ?_ | refine keeps_spillBytes ?_ | refine keeps_addPage ?_ | refine sound_foldl ?_ ?_ | refine sound_of_pair (by assumption) ?_ | refine sound_of_some (by assumption) ?_ | refine sound_of_somePair (by assumption) ?_ | split | dsimp only | intro _

theorem keeps_sendHead {a0 a1 a2} {s : State} (h : sound s) : sound (sendHead a0 a1 a2 s) := by
  unfold sendHead
  try dsimp only
  with_reducible repeat' first | assumption | refine sound_ite ?_ ?_ | refine keeps_sendCells ?_ | refine keeps_updVoq ?_ | refine keeps_voqMoved ?_ | refine keeps_checkUnspill ?_ | refine keeps_unref ?_

theorem keeps_execVoqDequeue {a0} {s : State} (h : sound s) : soundRes (execVoqDequeue a0 s) := by
  unfold execVoqDequeue
  try dsimp only
  with_reducible repeat' first | assumption | refine soundRes_next ?_ | refine keeps_voqMoved ?_ | refine keeps_checkUnspill ?_ | refine keeps_discardVoq ?_ | refine keeps_updVoq ?_ | refine keeps_sendHead ?_ | split

theorem keeps_execAgeDrain {a0} {s : State} (h : sound s) : soundRes (execAgeDrain a0 s) := by
  unfold execAgeDrain
  try dsimp only
  with_reducible repeat' first | assumption | refine soundRes_next ?_ | refine keeps_dropOldFront ?_ | refine keeps_advanceTo ?_ | split

theorem keeps_reassembled {a0} {s : State} (h : sound s) : sound (reassembled a0 s) := by
  unfold reassembled
  try dsimp only
  with_reducible repeat' first | assumption | refine keeps_discard ?_ | refine keeps_tally ?_ | refine keeps_waits ?_ | refine keeps_alloc ?_ | refine keeps_deliver ?_ | refine sound_of_somePair (by assumption) ?_ | split

theorem keeps_reasmLost {a0} {s : State} (h : sound s) : sound (reasmLost a0 s) := by
  unfold reasmLost
  try dsimp only
  with_reducible repeat' first | assumption | refine keeps_dropCause ?_ | refine keeps_tally ?_

theorem keeps_releaseCell {a0 a1 a2} {s : State} (h : sound s) : sound (releaseCell a0 a1 a2 s).2 := by
  unfold releaseCell
  try dsimp only
  with_reducible repeat' first | assumption | ((fail_if_success (fail_if_success conv => arg 1; arg 30)); refine sound_mk ?_ (by rfl)) | refine sound_ite ?_ ?_ | refine keeps_reassembled ?_ | refine keeps_drawn ?_ | refine keeps_reasmLost ?_ | refine sound_foldl ?_ ?_ | refine sound_of_pair (by assumption) ?_ | refine sound_of_some (by assumption) ?_ | refine sound_of_somePair (by assumption) ?_ | split | dsimp only | intro _

theorem keeps_releaseCells {a0 a1 a2} {s : State} (h : sound s) : sound (releaseCells a0 a1 a2 s).2 := by
  induction a1 generalizing a0 a2 s with
  | zero =>
    unfold releaseCells
    with_reducible repeat' first | assumption | refine ih ?_ | ((fail_if_success (fail_if_success conv => arg 1; arg 30)); refine sound_mk ?_ (by rfl)) | refine sound_ite ?_ ?_ | refine keeps_releaseCell ?_ | refine sound_foldl ?_ ?_ | refine sound_of_pair (by assumption) ?_ | refine sound_of_some (by assumption) ?_ | refine sound_of_somePair (by assumption) ?_ | split | dsimp only | intro _
  | succ fuel ih =>
    unfold releaseCells
    try dsimp only
    with_reducible repeat' first | assumption | refine ih ?_ | ((fail_if_success (fail_if_success conv => arg 1; arg 30)); refine sound_mk ?_ (by rfl)) | refine sound_ite ?_ ?_ | refine keeps_releaseCell ?_ | refine sound_foldl ?_ ?_ | refine sound_of_pair (by assumption) ?_ | refine sound_of_some (by assumption) ?_ | refine sound_of_somePair (by assumption) ?_ | split | dsimp only | intro _

theorem keeps_setStream {a0 a1} {s : State} (h : sound s) : sound (setStream a0 a1 s) := by
  unfold setStream
  try dsimp only
  with_reducible repeat' first | assumption | ((fail_if_success (fail_if_success conv => arg 1; arg 30)); refine sound_mk ?_ (by rfl))

theorem keeps_settleStream {a0 a1} {s : State} (h : sound s) : sound (settleStream a0 a1 s) := by
  unfold settleStream
  try dsimp only
  with_reducible repeat' first | assumption | refine keeps_releaseCells ?_ | refine keeps_reorderFc ?_ | refine keeps_setStream ?_

theorem keeps_acceptCell {a0 a1 a2} {s : State} (h : sound s) : sound (acceptCell a0 a1 a2 s) := by
  unfold acceptCell
  try dsimp only
  with_reducible repeat' first | assumption | ((fail_if_success (fail_if_success conv => arg 1; arg 30)); refine sound_mk ?_ (by rfl)) | refine sound_ite ?_ ?_ | refine keeps_tally ?_ | refine keeps_settleStream ?_

theorem keeps_onCell {a0 a1} {s : State} (h : sound s) : sound (onCell a0 a1 s) := by
  unfold onCell
  try dsimp only
  with_reducible repeat' first | assumption | refine sound_ite ?_ ?_ | refine keeps_tally ?_ | refine keeps_acceptCell ?_

theorem keeps_execCell {a0 a1} {s : State} (h : sound s) : soundRes (execCell a0 a1 s) := by
  unfold execCell
  try dsimp only
  with_reducible repeat' first | assumption | refine keeps_onUnit ?_ ?_ | refine keeps_onCell ?_ | intro _

theorem keeps_skipGap {a0 a1} {s : State} (h : sound s) : sound (skipGap a0 a1 s) := by
  unfold skipGap
  try dsimp only
  with_reducible repeat' first | assumption | refine keeps_reasmLost ?_ | refine keeps_settleStream ?_ | split

theorem keeps_execReassemblyGap {a0 a1} {s : State} (h : sound s) : soundRes (execReassemblyGap a0 a1 s) := by
  unfold execReassemblyGap
  try dsimp only
  with_reducible repeat' first | assumption | refine soundRes_next ?_ | refine keeps_skipGap ?_ | refine keeps_advanceTo ?_ | split

theorem keeps_poolEmpty {a0} {s : State} (h : sound s) : sound (poolEmpty a0 s) := by
  unfold poolEmpty
  try dsimp only
  with_reducible repeat' first | assumption | refine keeps_raiseEvent ?_ | refine keeps_updRing ?_ | split

theorem keeps_injectRefuse {a0 a1} {s : State} (h : sound s) : sound (injectRefuse a0 a1 s) := by
  unfold injectRefuse
  try dsimp only
  with_reducible repeat' first | assumption | refine sound_ite ?_ ?_ | refine keeps_tally ?_ | refine keeps_injectDone ?_ | refine keeps_consume ?_

theorem keeps_sendPunt {a0 a1 a2 a3} {s : State} (h : sound s) : sound (sendPunt a0 a1 a2 a3 s) := by
  unfold sendPunt
  try dsimp only
  with_reducible repeat' first | assumption | ((fail_if_success (fail_if_success conv => arg 1; arg 30)); refine sound_mk ?_ (by rfl)) | refine sound_ite ?_ ?_ | refine keeps_tally ?_ | refine keeps_updRing ?_ | refine keeps_consume ?_ | refine sound_foldl ?_ ?_ | refine sound_of_pair (by assumption) ?_ | refine sound_of_some (by assumption) ?_ | refine sound_of_somePair (by assumption) ?_ | split | dsimp only | intro _

theorem keeps_deliverPunt {a0} {s : State} (h : sound s) : sound (deliverPunt a0 s) := by
  unfold deliverPunt
  try dsimp only
  with_reducible repeat' first | assumption | ((fail_if_success (fail_if_success conv => arg 1; arg 30)); refine sound_mk ?_ (by rfl)) | refine keeps_dmaWrite ?_ | refine keeps_bump ?_ | refine keeps_writeRecord ?_ | split

theorem keeps_releasePath {a0} {s : State} (h : sound s) : sound (releasePath a0 s) := by
  unfold releasePath
  try dsimp only
  with_reducible repeat' first | assumption | ((fail_if_success (fail_if_success conv => arg 1; arg 30)); refine sound_mk ?_ (by rfl)) | refine keeps_toQd ?_ | split

theorem keeps_toPath {a0 a1} {s : State} (h : sound s) : sound (toPath a0 a1 s) := by
  unfold toPath
  try dsimp only
  with_reducible repeat' first | assumption | ((fail_if_success (fail_if_success conv => arg 1; arg 30)); refine sound_mk ?_ (by rfl))

theorem keeps_pipelineFrame {a0 a1} {s : State} (h : sound s) : sound (pipelineFrame a0 a1 s) := by
  unfold pipelineFrame
  try dsimp only
  with_reducible repeat' first | assumption | refine keeps_consume ?_ | refine keeps_toPath ?_

theorem keeps_execBufferPost {a0} {s : State} (h : sound s) : soundRes (execBufferPost a0 s) := by
  unfold execBufferPost
  try dsimp only
  with_reducible repeat' first | assumption | refine soundRes_next ?_ | refine keeps_updRing ?_ | split

theorem keeps_drrPick {a0} {s : State} (h : sound s) : soundOptPair (drrPick a0 s) := by
  unfold drrPick
  dsimp only
  split
  · exact soundOptPair_some h
  · split
    · exact soundOptPair_none
    · exact soundOptPair_map (fun _ => sound_mk h rfl)

theorem keeps_beginInject {a0 a1 a2 a3} {s : State} (fa3 : ∀ x0 x1, sound x1 → sound (a3 x0 x1)) (h : sound s) : sound (beginInject a0 a1 a2 a3 s) := by
  unfold beginInject
  try dsimp only
  with_reducible repeat' first | assumption | ((fail_if_success (fail_if_success conv => arg 1; arg 30)); refine sound_mk ?_ (by rfl)) | refine sound_ite ?_ ?_ | refine keeps_injectRefuse ?_ | refine keeps_bump ?_ | refine fa3 _ _ ?_ | refine sound_foldl ?_ ?_ | refine sound_of_pair (by assumption) ?_ | refine sound_of_some (by assumption) ?_ | refine sound_of_somePair (by assumption) ?_ | split | dsimp only | intro _

theorem keeps_execInjectPipeline {a0} {s : State} (h : sound s) : soundRes (execInjectPipeline a0 s) := by
  unfold execInjectPipeline
  try dsimp only
  with_reducible repeat' first | assumption | refine soundRes_next ?_ | refine keeps_beginInject ?_ ?_ | refine keeps_pipelineFrame ?_ | intro _

theorem keeps_directFrame {a0 a1} {s : State} (h : sound s) : sound (directFrame a0 a1 s) := by
  unfold directFrame
  try dsimp only
  with_reducible repeat' first | assumption | refine keeps_releasePath ?_ | refine keeps_toPath ?_ | refine keeps_updRing ?_

theorem keeps_execDirectInjectEnqueue {a0} {s : State} (h : sound s) : soundRes (execDirectInjectEnqueue a0 s) := by
  unfold execDirectInjectEnqueue
  try dsimp only
  with_reducible repeat' first | assumption | refine soundRes_next ?_ | refine keeps_releasePath ?_ | refine sound_foldl ?_ ?_ | split | intro _

theorem keeps_execPuntDelivery {s : State} (h : sound s) : soundRes (execPuntDelivery s) := by
  unfold execPuntDelivery
  try dsimp only
  with_reducible repeat' first | assumption | ((fail_if_success (fail_if_success conv => arg 1; arg 30)); refine sound_mk ?_ (by rfl)) | refine soundRes_next ?_ | refine sound_ite ?_ ?_ | refine keeps_deliverPunt ?_ | refine keeps_poolEmpty ?_ | refine keeps_drrPick ?_ | refine keeps_sendPunt ?_ | refine sound_foldl ?_ ?_ | refine sound_of_pair (by assumption) ?_ | refine sound_of_some (by assumption) ?_ | refine sound_of_somePair (by assumption) ?_ | split | dsimp only | intro _

theorem keeps_execInjectDirect {a0} {s : State} (h : sound s) : soundRes (execInjectDirect a0 s) := by
  unfold execInjectDirect
  try dsimp only
  with_reducible repeat' first | assumption | refine soundRes_next ?_ | refine keeps_beginInject ?_ ?_ | refine keeps_directFrame ?_ | intro _

theorem keeps_tollConfig {a0} {s : State} (h : sound s) : soundVerdict (tollConfig a0 s) := by
  unfold tollConfig
  try dsimp only
  with_reducible repeat' first | assumption | refine keeps_updFn ?_ (fun _ => by rfl) | ((fail_if_success (fail_if_success conv => arg 1; arg 30)); refine sound_mk ?_ (by rfl)) | exact soundVerdict_refuse | refine soundVerdict_done ?_ | split

theorem keeps_specTollConfig : soundSpec specTollConfig := by
  intro x s h
  unfold specTollConfig
  with_reducible exact keeps_tollConfig h

theorem keeps_execTollConfig {a0} {s : State} (h : sound s) : soundRes (execTollConfig a0 s) := by
  unfold execTollConfig
  try dsimp only
  with_reducible repeat' first | assumption | exact keeps_specTollConfig | refine keeps_runCmd ?_ ?_

theorem keeps_tollStopped {s : State} (h : sound s) : sound (tollStopped s) := by
  unfold tollStopped
  try dsimp only
  with_reducible repeat' first | assumption | ((fail_if_success (fail_if_success conv => arg 1; arg 30)); refine sound_mk ?_ (by rfl)) | refine keeps_raiseEvent ?_ | refine keeps_finishWaiting ?_

theorem keeps_tollStop {a0} {s : State} (h : sound s) : soundVerdict (tollStop a0 s) := by
  unfold tollStop
  try dsimp only
  with_reducible repeat' first | assumption | refine soundVerdict_ite ?_ ?_ | exact soundVerdict_refuse | refine soundVerdict_done ?_ | refine soundVerdict_wait ?_ | refine keeps_tollStopped ?_

theorem keeps_tollStart {a0} {s : State} (h : sound s) : soundVerdict (tollStart a0 s) := by
  unfold tollStart
  try dsimp only
  with_reducible repeat' first | assumption | refine keeps_updFn ?_ (fun _ => by rfl) | ((fail_if_success (fail_if_success conv => arg 1; arg 30)); refine sound_mk ?_ (by rfl)) | refine soundVerdict_ite ?_ ?_ | exact soundVerdict_refuse | refine soundVerdict_done ?_ | refine keeps_raiseEvent ?_

theorem keeps_specTollStop : soundSpec specTollStop := by
  intro x s h
  unfold specTollStop
  with_reducible exact keeps_tollStop h

theorem keeps_execTollStop {a0} {s : State} (h : sound s) : soundRes (execTollStop a0 s) := by
  unfold execTollStop
  try dsimp only
  with_reducible repeat' first | assumption | exact keeps_specTollStop | refine keeps_runCmd ?_ ?_

theorem keeps_counterRead {a0} {s : State} (h : sound s) : soundVerdict (counterRead a0 s) := by
  unfold counterRead
  try dsimp only
  with_reducible repeat' first | assumption | refine soundVerdict_ite ?_ ?_ | exact soundVerdict_refuse | refine soundVerdict_done ?_

theorem keeps_specCounterRead : soundSpec specCounterRead := by
  intro x s h
  unfold specCounterRead
  with_reducible exact keeps_counterRead h

theorem keeps_execCounterRead {a0} {s : State} (h : sound s) : soundRes (execCounterRead a0 s) := by
  unfold execCounterRead
  try dsimp only
  with_reducible repeat' first | assumption | exact keeps_specCounterRead | refine keeps_runCmd ?_ ?_

theorem keeps_reportFlagged {a0 a1} {s : State} (h : sound s) : sound (reportFlagged a0 a1 s) := by
  unfold reportFlagged
  try dsimp only
  with_reducible repeat' first | assumption | refine keeps_raiseEvent ?_ | refine keeps_tally ?_ | refine sound_foldl ?_ ?_ | intro _

theorem keeps_startDump {a0 a1 a2} {s : State} (h : sound s) : sound (startDump a0 a1 a2 s) := by
  unfold startDump
  try dsimp only
  with_reducible repeat' first | assumption | refine keeps_updFn ?_ (fun _ => by rfl) | refine keeps_reportFlagged ?_

theorem keeps_skipDump {a0 a1} {s : State} (h : sound s) : sound (skipDump a0 a1 s) := by
  unfold skipDump
  try dsimp only
  with_reducible repeat' first | assumption | refine keeps_updFn ?_ (fun _ => by rfl) | refine sound_ite ?_ ?_ | refine keeps_tally ?_ | refine keeps_raiseEvent ?_

theorem keeps_dumpAt {a0 a1 a2} {s : State} (h : sound s) : sound (dumpAt a0 a1 a2 s) := by
  unfold dumpAt
  try dsimp only
  with_reducible repeat' first | assumption | refine keeps_updFn ?_ (fun _ => by rfl) | refine sound_ite ?_ ?_ | refine keeps_skipDump ?_ | refine keeps_startDump ?_

theorem keeps_execTollInstant {s : State} (h : sound s) : soundRes (execTollInstant s) := by
  unfold execTollInstant
  try dsimp only
  with_reducible repeat' first | assumption | ((fail_if_success (fail_if_success conv => arg 1; arg 30)); refine sound_mk ?_ (by rfl)) | refine soundRes_next ?_ | refine sound_ite ?_ ?_ | refine keeps_advanceTempo ?_ | refine keeps_dumpAt ?_

theorem keeps_writeDump {a0 a1} {s : State} (h : sound s) : sound (writeDump a0 a1 s) := by
  induction a0 generalizing a1 s with
  | zero =>
    unfold writeDump
    with_reducible repeat' first | assumption | refine ih ?_ | refine keeps_updFn ?_ (fun _ => by rfl) | ((fail_if_success (fail_if_success conv => arg 1; arg 30)); refine sound_mk ?_ (by rfl)) | refine keeps_writeRecord ?_ | refine keeps_tally ?_ | split
  | succ fuel ih =>
    unfold writeDump
    try dsimp only
    with_reducible repeat' first | assumption | refine ih ?_ | refine keeps_updFn ?_ (fun _ => by rfl) | ((fail_if_success (fail_if_success conv => arg 1; arg 30)); refine sound_mk ?_ (by rfl)) | refine keeps_writeRecord ?_ | refine keeps_tally ?_ | split

theorem keeps_tollSelect {a0} {s : State} (h : sound s) : soundVerdict (tollSelect a0 s) := by
  unfold tollSelect
  try dsimp only
  with_reducible repeat' first | assumption | refine keeps_updFn ?_ (fun _ => by rfl) | exact soundVerdict_refuse | refine soundVerdict_done ?_ | split

theorem keeps_tollStatus {a0} {s : State} (h : sound s) : soundVerdict (tollStatus a0 s) := by
  unfold tollStatus
  try dsimp only
  with_reducible repeat' first | assumption | refine soundVerdict_done ?_

theorem keeps_specTollStart : soundSpec specTollStart := by
  intro x s h
  unfold specTollStart
  with_reducible exact keeps_tollStart h

theorem keeps_execTollStart {a0} {s : State} (h : sound s) : soundRes (execTollStart a0 s) := by
  unfold execTollStart
  try dsimp only
  with_reducible repeat' first | assumption | exact keeps_specTollStart | refine keeps_runCmd ?_ ?_

theorem keeps_execTollDumpWrite {a0} {s : State} (h : sound s) : soundRes (execTollDumpWrite a0 s) := by
  unfold execTollDumpWrite
  try dsimp only
  with_reducible repeat' first | assumption | refine soundRes_next ?_ | refine sound_ite ?_ ?_ | refine keeps_writeDump ?_ | refine keeps_tollStopped ?_

theorem keeps_specTollStatus : soundSpec specTollStatus := by
  intro x s h
  unfold specTollStatus
  with_reducible exact keeps_tollStatus h

theorem keeps_execTollStatus {a0} {s : State} (h : sound s) : soundRes (execTollStatus a0 s) := by
  unfold execTollStatus
  try dsimp only
  with_reducible repeat' first | assumption | exact keeps_specTollStatus | refine keeps_runCmd ?_ ?_

theorem keeps_specTollSelect : soundSpec specTollSelect := by
  intro x s h
  unfold specTollSelect
  with_reducible exact keeps_tollSelect h

theorem keeps_execTollSelect {a0} {s : State} (h : sound s) : soundRes (execTollSelect a0 s) := by
  unfold execTollSelect
  try dsimp only
  with_reducible repeat' first | assumption | exact keeps_specTollSelect | refine keeps_runCmd ?_ ?_

end Sys2Proof.Laws
end

