-- ==== Sys2Proof/Laws/KeepsPeers.lean ====
section
/-! SUPPORT. The operations keep sound states sound: commits, protection, Tempo and the carillon. One lemma for each definition of those files. -/

namespace Sys2Proof.Laws
open Sys2Proof Sys2Proof.Machine

theorem keeps_flashWrite {a0 a1} {s : State} (h : sound s) : sound (flashWrite a0 a1 s) :=
  sound_fw h (flashPutAll_wf _ _ (flash_of h)) (fuses_of h).1 (fuses_of h).2

theorem keeps_flashErase {a0 a1} {s : State} (h : sound s) : sound (flashErase a0 a1 s) :=
  sound_fw h (flashFilter_wf _ (flash_of h)) (fuses_of h).1 (fuses_of h).2

theorem keeps_writeRec {a0} {s : State} (h : sound s) : sound (writeRec a0 s) := by
  unfold writeRec
  try dsimp only
  with_reducible repeat' first | assumption | refine keeps_flashWrite ?_ | refine keeps_flashErase ?_

theorem keeps_writeSnapshot {a0 a1 a2 a3} {s : State} (h : sound s) : sound (writeSnapshot a0 a1 a2 a3 s) := by
  unfold writeSnapshot
  try dsimp only
  with_reducible repeat' first | assumption | refine keeps_flashWrite ?_ | refine keeps_flashErase ?_

theorem keeps_appendSetting {a0 a1 a2} {s : State} (h : sound s) : sound (appendSetting a0 a1 a2 s) := by
  unfold appendSetting
  try dsimp only
  with_reducible repeat' first | assumption | refine sound_ite ?_ ?_ | refine keeps_writeSnapshot ?_ | refine keeps_flashWrite ?_

theorem keeps_moveRec {a0 a1} {s : State} (h : sound s) : sound (moveRec a0 a1 s) := by
  unfold moveRec
  try dsimp only
  with_reducible repeat' first | assumption | refine keeps_writeRec ?_ | refine keeps_raiseEvent ?_

theorem keeps_changeSetting {a0 a1} {s : State} (h : sound s) : soundVerdict (changeSetting a0 a1 s) := by
  unfold changeSetting
  try dsimp only
  with_reducible repeat' first | assumption | refine soundVerdict_ite ?_ ?_ | exact soundVerdict_refuse | refine soundVerdict_wait ?_

theorem keeps_assemble {a0 a1} {s : State} (h : sound s) : sound (assemble a0 a1 s).2 := by
  unfold assemble
  try dsimp only
  with_reducible repeat' first | assumption | ((fail_if_success (fail_if_success conv => arg 1; arg 30)); refine sound_mk ?_ (by rfl)) | split | dsimp only

theorem keeps_wholeMsg {a0 r} (h : sound r.2) : sound (wholeMsg a0 r).2 := by
  unfold wholeMsg
  split
  · exact keeps_assemble h
  · exact h

theorem keeps_crlFragment {a0 a1 a2} {s : State} (h : sound s) : sound (crlFragment a0 a1 a2 s).2 := by
  unfold crlFragment
  try dsimp only
  with_reducible repeat' first | assumption | ((fail_if_success (fail_if_success conv => arg 1; arg 30)); refine sound_mk ?_ (by rfl)) | refine keeps_tally ?_ | refine keeps_emit ?_ | split | dsimp only

theorem keeps_crlReceive {a0 a1 a2} {s : State} (h : sound s) : sound (crlReceive a0 a1 a2 s).2 := by
  unfold crlReceive
  try dsimp only
  with_reducible repeat' first | assumption | refine keeps_wholeMsg ?_ | refine keeps_crlFragment ?_

theorem keeps_busFragment {a0 a1} {s : State} (h : sound s) : sound (busFragment a0 a1 s).2 := by
  unfold busFragment
  try dsimp only
  with_reducible repeat' first | assumption | refine keeps_tally ?_ | split

theorem keeps_busReceive {a0 a1} {s : State} (h : sound s) : sound (busReceive a0 a1 s).2 := by
  unfold busReceive
  try dsimp only
  with_reducible repeat' first | assumption | refine keeps_wholeMsg ?_ | refine keeps_busFragment ?_

theorem keeps_execFragmentTimeout {a0 a1 a2} {s : State} (h : sound s) : soundRes (execFragmentTimeout a0 a1 a2 s) := by
  unfold execFragmentTimeout
  try dsimp only
  with_reducible repeat' first | assumption | ((fail_if_success (fail_if_success conv => arg 1; arg 30)); refine sound_mk ?_ (by rfl)) | refine soundRes_next ?_ | refine keeps_advanceTo ?_ | split

theorem keeps_commitMessage {a0 a1 a2 a3} {s : State} (fa3 : ∀ x0 x1, sound x1 → sound (a3 x0 x1)) (h : sound s) : sound (commitMessage a0 a1 a2 a3 s) := by
  unfold commitMessage
  try dsimp only
  with_reducible repeat' first | assumption | refine keeps_crlReceive ?_ | refine fa3 _ _ ?_ | refine sound_of_pair (by assumption) ?_ | split

theorem keeps_updCommit {a0 a1 a2} {s : State} (h : sound s) : sound (updCommit a0 a1 a2 s) := by
  unfold updCommit
  try dsimp only
  with_reducible repeat' first | assumption | ((fail_if_success (fail_if_success conv => arg 1; arg 30)); refine sound_mk ?_ (by rfl))

theorem keeps_onAck {a0} {s : State} (h : sound s) : sound (onAck a0 s) := by
  unfold onAck
  try dsimp only
  with_reducible repeat' first | assumption | refine keeps_updCommit ?_ | split

theorem keeps_execAck {a0 a1} {s : State} (h : sound s) : soundRes (execAck a0 a1 s) := by
  unfold execAck
  try dsimp only
  with_reducible repeat' first | assumption | refine soundRes_next ?_ | refine keeps_commitMessage ?_ ?_ | refine keeps_onAck ?_ | intro _

theorem keeps_withdrawNew {a0} {s : State} (h : sound s) : sound (withdrawNew a0 s) := by
  unfold withdrawNew
  try dsimp only
  with_reducible repeat' first | assumption | refine keeps_announceChange ?_ | refine sound_foldl ?_ ?_ | intro _

theorem keeps_changeEpoch {a0 a1 a2 a3} {s : State} (h : sound s) : sound (changeEpoch a0 a1 a2 a3 s) := by
  unfold changeEpoch
  try dsimp only
  with_reducible repeat' first | assumption | refine keeps_withdrawNew ?_ | refine keeps_switchTo ?_

theorem keeps_answerCommit {a0 a1} {s : State} (h : sound s) : sound (answerCommit a0 a1 s) := by
  unfold answerCommit
  try dsimp only
  with_reducible repeat' first | assumption | refine keeps_finishWaiting ?_

theorem keeps_keepOutcome {a0} {s : State} (h : sound s) : sound (keepOutcome a0 s) := by
  unfold keepOutcome
  try dsimp only
  with_reducible repeat' first | assumption | ((fail_if_success (fail_if_success conv => arg 1; arg 30)); refine sound_mk ?_ (by rfl))

theorem keeps_endCommit {a0 a1 a2} {s : State} (h : sound s) : sound (endCommit a0 a1 a2 s) := by
  unfold endCommit
  try dsimp only
  with_reducible repeat' first | assumption | ((fail_if_success (fail_if_success conv => arg 1; arg 30)); refine sound_mk ?_ (by rfl)) | refine keeps_keepOutcome ?_

theorem keeps_restage {a0} {s : State} (h : sound s) : sound (restage a0 s) := by
  unfold restage
  try dsimp only
  with_reducible repeat' first | assumption | ((fail_if_success (fail_if_success conv => arg 1; arg 30)); refine sound_mk ?_ (by rfl))

theorem keeps_dropLater {a0} {s : State} (h : sound s) : sound (dropLater a0 s) := by
  unfold dropLater
  try dsimp only
  with_reducible repeat' first | assumption | refine keeps_answerCommit ?_ | refine keeps_endCommit ?_ | refine keeps_restage ?_ | refine sound_foldl ?_ ?_ | intro _

theorem keeps_journalOutcome {a0 a1} {s : State} (h : sound s) : sound (journalOutcome a0 a1 s) := by
  unfold journalOutcome
  try dsimp only
  with_reducible repeat' first | assumption | refine keeps_journal ?_

theorem keeps_returnCommit {a0 a1 a2} {s : State} (h : sound s) : sound (returnCommit a0 a1 a2 s) := by
  unfold returnCommit
  try dsimp only
  with_reducible repeat' first | assumption | ((fail_if_success (fail_if_success conv => arg 1; arg 30)); refine sound_mk ?_ (by rfl)) | refine keeps_changeEpoch ?_ | refine keeps_dropLater ?_ | refine keeps_endCommit ?_ | refine keeps_journalOutcome ?_ | refine keeps_raiseEvent ?_ | split

theorem keeps_returnAll {a0 a1} {s : State} (h : sound s) : sound (returnAll a0 a1 s) := by
  unfold returnAll
  try dsimp only
  with_reducible repeat' first | assumption | refine sound_ite ?_ ?_ | refine keeps_returnCommit ?_ | refine keeps_endCommit ?_ | refine keeps_restage ?_ | refine sound_foldl ?_ ?_ | intro _

theorem keeps_journalRings {a0} {s : State} (h : sound s) : sound (journalRings a0 s) := by
  unfold journalRings
  try dsimp only
  with_reducible repeat' first | assumption | refine keeps_journal ?_ | refine sound_foldl ?_ ?_ | intro _

theorem keeps_onGo {a0} {s : State} (h : sound s) : sound (onGo a0 s) := by
  unfold onGo
  try dsimp only
  with_reducible repeat' first | assumption | refine keeps_journalRings ?_ | refine keeps_updCommit ?_ | split

theorem keeps_tableCommitQuery {a0} {s : State} (h : sound s) : soundVerdict (tableCommitQuery a0 s) := by
  unfold tableCommitQuery
  try dsimp only
  with_reducible repeat' first | assumption | refine soundVerdict_ite ?_ ?_ | exact soundVerdict_refuse | refine soundVerdict_done ?_

theorem keeps_coordSend {a0 a1} {s : State} (h : sound s) : sound (coordSend a0 a1 s) := by
  unfold coordSend
  try dsimp only
  with_reducible repeat' first | assumption | refine sound_ite ?_ ?_ | refine keeps_flood ?_

theorem keeps_castVote {a0} {s : State} (h : sound s) : sound (castVote a0 s) := by
  unfold castVote
  try dsimp only
  with_reducible repeat' first | assumption | refine sound_ite ?_ ?_ | refine keeps_updCommit ?_ | refine keeps_flood ?_

theorem keeps_takeSealed {a0} {s : State} (h : sound s) : sound (takeSealed a0 s) := by
  unfold takeSealed
  try dsimp only
  with_reducible repeat' first | assumption | ((fail_if_success (fail_if_success conv => arg 1; arg 30)); refine sound_mk ?_ (by rfl))

theorem keeps_onRevert {a0} {s : State} (h : sound s) : sound (onRevert a0 s) := by
  unfold onRevert
  try dsimp only
  with_reducible repeat' first | assumption | refine keeps_dropLater ?_ | refine keeps_updCommit ?_ | refine keeps_journalOutcome ?_ | refine keeps_endCommit ?_ | refine keeps_takeSealed ?_ | split

theorem keeps_execRevert {a0 a1} {s : State} (h : sound s) : soundRes (execRevert a0 a1 s) := by
  unfold execRevert
  try dsimp only
  with_reducible repeat' first | assumption | refine soundRes_next ?_ | refine keeps_commitMessage ?_ ?_ | refine keeps_onRevert ?_ | intro _

theorem keeps_execPreparationDone {s : State} (h : sound s) : soundRes (execPreparationDone s) := by
  unfold execPreparationDone
  try dsimp only
  with_reducible repeat' first | assumption | refine soundRes_next ?_ | refine keeps_advanceTo ?_ | refine keeps_updCommit ?_ | refine keeps_castVote ?_ | split

theorem keeps_onDefer {a0} {s : State} (h : sound s) : sound (onDefer a0 s) := by
  unfold onDefer
  try dsimp only
  with_reducible repeat' first | assumption | refine keeps_updCommit ?_ | refine keeps_castVote ?_ | split

theorem keeps_execDefer {a0 a1} {s : State} (h : sound s) : soundRes (execDefer a0 a1 s) := by
  unfold execDefer
  try dsimp only
  with_reducible repeat' first | assumption | refine soundRes_next ?_ | refine keeps_commitMessage ?_ ?_ | refine keeps_onDefer ?_ | intro _

theorem keeps_execGo {a0 a1} {s : State} (h : sound s) : soundRes (execGo a0 a1 s) := by
  unfold execGo
  try dsimp only
  with_reducible repeat' first | assumption | refine soundRes_next ?_ | refine keeps_commitMessage ?_ ?_ | refine keeps_onGo ?_ | intro _

theorem keeps_adoptSeq {a0} {s : State} (h : sound s) : sound (adoptSeq a0 s) := by
  unfold adoptSeq
  try dsimp only
  with_reducible repeat' first | assumption | ((fail_if_success (fail_if_success conv => arg 1; arg 30)); refine sound_mk ?_ (by rfl)) | refine sound_ite ?_ ?_ | refine sound_foldl ?_ ?_ | refine sound_of_pair (by assumption) ?_ | refine sound_of_some (by assumption) ?_ | refine sound_of_somePair (by assumption) ?_ | split | dsimp only | intro _

theorem keeps_switchCommit {a0 a1 a2} {s : State} (h : sound s) : sound (switchCommit a0 a1 a2 s) := by
  unfold switchCommit
  try dsimp only
  with_reducible repeat' first | assumption | ((fail_if_success (fail_if_success conv => arg 1; arg 30)); refine sound_mk ?_ (by rfl)) | refine keeps_changeEpoch ?_ | refine keeps_takeSealed ?_ | refine keeps_updCommit ?_ | refine keeps_adoptSeq ?_ | refine keeps_flood ?_ | refine keeps_endCommit ?_ | split

theorem keeps_nackCommit {a0} {s : State} (h : sound s) : sound (nackCommit a0 s) := by
  unfold nackCommit
  try dsimp only
  with_reducible repeat' first | assumption | refine sound_ite ?_ ?_ | refine keeps_flood ?_

theorem keeps_switchAll {a0 a1} {s : State} (h : sound s) : sound (switchAll a0 a1 s) := by
  unfold switchAll
  try dsimp only
  with_reducible repeat' first | assumption | refine sound_ite ?_ ?_ | refine keeps_switchCommit ?_ | refine keeps_nackCommit ?_ | refine sound_foldl ?_ ?_ | intro _

theorem keeps_addCommit {a0} {s : State} (h : sound s) : sound (addCommit a0 s) := by
  unfold addCommit
  try dsimp only
  with_reducible repeat' first | assumption | ((fail_if_success (fail_if_success conv => arg 1; arg 30)); refine sound_mk ?_ (by rfl))

theorem keeps_sealInto {a0 a1} {s : State} (h : sound s) : sound (sealInto a0 a1 s) := by
  unfold sealInto
  try dsimp only
  with_reducible repeat' first | assumption | ((fail_if_success (fail_if_success conv => arg 1; arg 30)); refine sound_mk ?_ (by rfl))

theorem keeps_tableCommit {a0} {s : State} (h : sound s) : soundVerdict (tableCommit a0 s) := by
  unfold tableCommit
  try dsimp only
  with_reducible repeat' first | assumption | ((fail_if_success (fail_if_success conv => arg 1; arg 30)); refine sound_mk ?_ (by rfl)) | refine soundVerdict_ite ?_ ?_ | exact soundVerdict_refuse | refine soundVerdict_wait ?_ | refine keeps_addCommit ?_ | refine keeps_sealInto ?_ | refine keeps_flood ?_ | split

theorem keeps_voteAll {a0} {s : State} (h : sound s) : sound (voteAll a0 s) := by
  unfold voteAll
  try dsimp only
  with_reducible repeat' first | assumption | refine sound_ite ?_ ?_ | refine keeps_castVote ?_ | refine sound_foldl ?_ ?_ | intro _

theorem keeps_onAbort {a0} {s : State} (h : sound s) : sound (onAbort a0 s) := by
  unfold onAbort
  try dsimp only
  with_reducible repeat' first | assumption | ((fail_if_success (fail_if_success conv => arg 1; arg 30)); refine sound_mk ?_ (by rfl)) | refine keeps_endCommit ?_ | refine keeps_restage ?_ | split

theorem keeps_decideGo {a0} {s : State} (h : sound s) : sound (decideGo a0 s) := by
  unfold decideGo
  try dsimp only
  with_reducible repeat' first | assumption | refine keeps_journalRings ?_ | refine keeps_answerCommit ?_ | refine keeps_updCommit ?_ | refine keeps_coordSend ?_

theorem keeps_abandonCommit {a0 a1} {s : State} (h : sound s) : sound (abandonCommit a0 a1 s) := by
  unfold abandonCommit
  try dsimp only
  with_reducible repeat' first | assumption | refine sound_ite ?_ ?_ | refine keeps_coordSend ?_ | refine keeps_answerCommit ?_ | refine keeps_endCommit ?_ | refine keeps_restage ?_

theorem keeps_decideDefer {a0 a1} {s : State} (h : sound s) : sound (decideDefer a0 a1 s) := by
  unfold decideDefer
  try dsimp only
  with_reducible repeat' first | assumption | refine sound_ite ?_ ?_ | refine keeps_coordSend ?_ | refine keeps_updCommit ?_ | refine keeps_castVote ?_

theorem keeps_decide1 {a0} {s : State} (h : sound s) : sound (decide1 a0 s) := by
  unfold decide1
  try dsimp only
  with_reducible repeat' first | assumption | ((fail_if_success (fail_if_success conv => arg 1; arg 30)); refine sound_mk ?_ (by rfl)) | refine sound_ite ?_ ?_ | refine keeps_decideGo ?_ | refine keeps_coordSend ?_ | refine keeps_abandonCommit ?_ | refine keeps_decideDefer ?_

theorem keeps_decideAll {a0} {s : State} (h : sound s) : sound (decideAll a0 s) := by
  unfold decideAll
  try dsimp only
  with_reducible repeat' first | assumption | refine sound_ite ?_ ?_ | refine keeps_decide1 ?_ | refine sound_foldl ?_ ?_ | intro _

theorem keeps_onPrepare {a0} {s : State} (h : sound s) : sound (onPrepare a0 s) := by
  unfold onPrepare
  try dsimp only
  with_reducible repeat' first | assumption | refine sound_ite ?_ ?_ | refine keeps_stage ?_ | refine keeps_addCommit ?_ | refine keeps_sealInto ?_ | refine sound_foldl ?_ ?_ | intro _

theorem keeps_execPrepare {a0 a1} {s : State} (h : sound s) : soundRes (execPrepare a0 a1 s) := by
  unfold execPrepare
  try dsimp only
  with_reducible repeat' first | assumption | refine soundRes_next ?_ | refine keeps_commitMessage ?_ ?_ | refine keeps_onPrepare ?_ | intro _

theorem keeps_dropUnarmed {s : State} (h : sound s) : sound (dropUnarmed s) := by
  unfold dropUnarmed
  try dsimp only
  with_reducible repeat' first | assumption | refine sound_ite ?_ ?_ | refine keeps_answerCommit ?_ | refine keeps_endCommit ?_ | refine keeps_restage ?_ | refine sound_foldl ?_ ?_ | intro _

theorem keeps_confirmCommit {a0} {s : State} (h : sound s) : sound (confirmCommit a0 s) := by
  unfold confirmCommit
  try dsimp only
  with_reducible repeat' first | assumption | refine keeps_endCommit ?_ | refine keeps_journalOutcome ?_

theorem keeps_onConfirm {a0} {s : State} (h : sound s) : sound (onConfirm a0 s) := by
  unfold onConfirm
  try dsimp only
  with_reducible repeat' first | assumption | refine keeps_confirmCommit ?_ | split

theorem keeps_execConfirm {a0 a1} {s : State} (h : sound s) : soundRes (execConfirm a0 a1 s) := by
  unfold execConfirm
  try dsimp only
  with_reducible repeat' first | assumption | refine soundRes_next ?_ | refine keeps_commitMessage ?_ ?_ | refine keeps_onConfirm ?_ | intro _

theorem keeps_specTableCommit : soundSpec specTableCommit := by
  intro x s h
  unfold specTableCommit
  with_reducible exact keeps_tableCommit h

theorem keeps_execTableCommit {a0} {s : State} (h : sound s) : soundRes (execTableCommit a0 s) := by
  unfold execTableCommit
  try dsimp only
  with_reducible repeat' first | assumption | exact keeps_specTableCommit | refine keeps_runCmd ?_ ?_

theorem keeps_onVote {a0} {s : State} (h : sound s) : sound (onVote a0 s) := by
  unfold onVote
  try dsimp only
  with_reducible repeat' first | assumption | refine keeps_updCommit ?_ | split

theorem keeps_confirmAll {a0} {s : State} (h : sound s) : sound (confirmAll a0 s) := by
  unfold confirmAll
  try dsimp only
  with_reducible repeat' first | assumption | refine sound_ite ?_ ?_ | refine keeps_raiseEvent ?_ | refine keeps_confirmCommit ?_ | refine keeps_coordSend ?_ | refine keeps_dropLater ?_ | refine keeps_updCommit ?_ | refine sound_foldl ?_ ?_ | intro _

theorem keeps_downbeatNow {s : State} (h : sound s) : sound (downbeatNow s) := by
  unfold downbeatNow
  try dsimp only
  with_reducible repeat' first | assumption | ((fail_if_success (fail_if_success conv => arg 1; arg 30)); refine sound_mk ?_ (by rfl)) | refine keeps_advanceTempo ?_ | refine keeps_releaseQuarantine ?_ | refine keeps_voteAll ?_ | refine keeps_decideAll ?_ | refine keeps_confirmAll ?_ | refine keeps_switchAll ?_ | refine keeps_returnAll ?_

theorem keeps_execVote {a0 a1} {s : State} (h : sound s) : soundRes (execVote a0 a1 s) := by
  unfold execVote
  try dsimp only
  with_reducible repeat' first | assumption | refine soundRes_next ?_ | refine keeps_commitMessage ?_ ?_ | refine keeps_onVote ?_ | intro _

theorem keeps_specTableCommitQuery : soundSpec specTableCommitQuery := by
  intro x s h
  unfold specTableCommitQuery
  with_reducible exact keeps_tableCommitQuery h

theorem keeps_execTableCommitQuery {a0} {s : State} (h : sound s) : soundRes (execTableCommitQuery a0 s) := by
  unfold execTableCommitQuery
  try dsimp only
  with_reducible repeat' first | assumption | exact keeps_specTableCommitQuery | refine keeps_runCmd ?_ ?_

theorem keeps_execAbort {a0 a1} {s : State} (h : sound s) : soundRes (execAbort a0 a1 s) := by
  unfold execAbort
  try dsimp only
  with_reducible repeat' first | assumption | refine soundRes_next ?_ | refine keeps_commitMessage ?_ ?_ | refine keeps_onAbort ?_ | intro _

theorem keeps_switchedOver {s : State} (h : sound s) : sound (switchedOver s) := by
  unfold switchedOver
  try dsimp only
  with_reducible repeat' first | assumption | refine keeps_finishRunning ?_ | refine sound_foldl ?_ ?_ | intro _

theorem keeps_updProt {a0} {s : State} (h : sound s) : sound (updProt a0 s) := by
  unfold updProt
  try dsimp only
  with_reducible repeat' first | assumption | ((fail_if_success (fail_if_success conv => arg 1; arg 30)); refine sound_mk ?_ (by rfl))

theorem keeps_protTo {a0} {s : State} (h : sound s) : sound (protTo a0 s) := by
  unfold protTo
  try dsimp only
  with_reducible repeat' first | assumption | refine keeps_updProt ?_

theorem keeps_protEvent {s : State} (h : sound s) : sound (protEvent s) := by
  unfold protEvent
  try dsimp only
  with_reducible repeat' first | assumption | refine keeps_raiseEvent ?_

theorem keeps_itemDown {a0} {s : State} (h : sound s) : sound (itemDown a0 s) := by
  unfold itemDown
  try dsimp only
  with_reducible repeat' first | assumption | refine sound_ite ?_ ?_ | refine keeps_groupAdminDown ?_ | refine keeps_toAdminDown ?_

theorem keeps_enterHold {s : State} (h : sound s) : sound (enterHold s) := by
  unfold enterHold
  try dsimp only
  with_reducible repeat' first | assumption | refine sound_ite ?_ ?_ | refine keeps_updProt ?_ | refine keeps_itemDown ?_ | refine keeps_moveLane ?_ | refine sound_foldl ?_ ?_ | intro _

theorem keeps_standDown {s : State} (h : sound s) : sound (standDown s) := by
  unfold standDown
  try dsimp only
  with_reducible repeat' first | assumption | refine keeps_dropBuffered ?_ | refine keeps_enterHold ?_

theorem keeps_itemUp {a0} {s : State} (h : sound s) : sound (itemUp a0 s) := by
  unfold itemUp
  try dsimp only
  with_reducible repeat' first | assumption | refine sound_ite ?_ ?_ | refine keeps_groupDown ?_ | refine keeps_toDown ?_

theorem keeps_leaveHold {s : State} (h : sound s) : sound (leaveHold s) := by
  unfold leaveHold
  try dsimp only
  with_reducible repeat' first | assumption | refine keeps_itemUp ?_ | refine keeps_updProt ?_ | refine sound_foldl ?_ ?_ | intro _

theorem keeps_startActive {s : State} (h : sound s) : sound (startActive s) := by
  unfold startActive
  try dsimp only
  with_reducible repeat' first | assumption | ((fail_if_success (fail_if_success conv => arg 1; arg 30)); refine sound_mk ?_ (by rfl)) | refine keeps_updProt ?_ | refine keeps_leaveHold ?_

theorem keeps_dualActive {a0} {s : State} (h : sound s) : sound (dualActive a0 s) := by
  unfold dualActive
  try dsimp only
  with_reducible repeat' first | assumption | refine sound_ite ?_ ?_ | refine keeps_switchedOver ?_ | refine keeps_raiseEvent ?_ | refine keeps_standDown ?_ | refine keeps_updProt ?_ | refine keeps_releaseMirror ?_

theorem keeps_sendResync {s : State} (h : sound s) : sound (sendResync s) := by
  unfold sendResync
  try dsimp only
  with_reducible repeat' first | assumption | refine keeps_mirrorOut ?_ | refine keeps_drawn ?_ | refine keeps_updProt ?_ | refine keeps_mirrorFlow ?_ | refine sound_foldl ?_ ?_ | intro _

theorem keeps_activeSees {a0} {s : State} (h : sound s) : sound (activeSees a0 s) := by
  unfold activeSees
  try dsimp only
  with_reducible repeat' first | assumption | refine sound_ite ?_ ?_ | refine keeps_updProt ?_ | refine keeps_sendResync ?_ | refine keeps_releaseMirror ?_

theorem keeps_followWtr {a0} {s : State} (h : sound s) : sound (followWtr a0 s) := by
  unfold followWtr
  try dsimp only
  with_reducible repeat' first | assumption | ((fail_if_success (fail_if_success conv => arg 1; arg 30)); refine sound_mk ?_ (by rfl)) | refine sound_ite ?_ ?_ | refine keeps_updProt ?_ | refine sound_foldl ?_ ?_ | refine sound_of_pair (by assumption) ?_ | refine sound_of_some (by assumption) ?_ | refine sound_of_somePair (by assumption) ?_ | split | dsimp only | intro _

theorem keeps_triggerSwitch {a0} {s : State} (h : sound s) : sound (triggerSwitch a0 s) := by
  unfold triggerSwitch
  try dsimp only
  with_reducible repeat' first | assumption | refine sound_ite ?_ ?_ | refine keeps_updProt ?_

theorem keeps_peerBeat {a0} {s : State} (h : sound s) : sound (peerBeat a0 s) := by
  unfold peerBeat
  try dsimp only
  with_reducible repeat' first | assumption | refine sound_ite ?_ ?_ | refine keeps_updProt ?_ | refine keeps_protTo ?_ | refine keeps_protEvent ?_ | refine keeps_releaseMirror ?_ | refine keeps_standDown ?_ | refine keeps_startActive ?_ | refine keeps_dualActive ?_ | refine keeps_activeSees ?_ | refine keeps_followWtr ?_ | refine keeps_switchedOver ?_ | refine keeps_triggerSwitch ?_

theorem keeps_sendMirrorAck {s : State} (h : sound s) : sound (sendMirrorAck s) := by
  unfold sendMirrorAck
  try dsimp only
  with_reducible repeat' first | assumption | refine keeps_flood ?_

theorem keeps_mirrorDone {a0} {s : State} (h : sound s) : sound (mirrorDone a0 s) := by
  unfold mirrorDone
  try dsimp only
  with_reducible repeat' first | assumption | refine keeps_sendMirrorAck ?_ | refine keeps_updProt ?_

theorem keeps_fabricOff {s : State} (h : sound s) : sound (fabricOff s) := by
  unfold fabricOff
  try dsimp only
  with_reducible repeat' first | assumption | ((fail_if_success (fail_if_success conv => arg 1; arg 30)); refine sound_mk ?_ (by rfl)) | refine keeps_lookReach ?_ | refine keeps_applyLanes ?_

theorem keeps_releaseOutside {a0 a1} {s : State} (h : sound s) : sound (releaseOutside a0 a1 s) := by
  unfold releaseOutside
  try dsimp only
  with_reducible repeat' first | assumption | refine sound_foldl ?_ ?_ | refine sound_ite ?_ ?_ | refine keeps_itemUp ?_ | split | intro _

theorem keeps_protectPairDelete {a0} {s : State} (h : sound s) : soundVerdict (protectPairDelete a0 s) := by
  unfold protectPairDelete
  try dsimp only
  with_reducible repeat' first | assumption | ((fail_if_success (fail_if_success conv => arg 1; arg 30)); refine sound_mk ?_ (by rfl)) | exact soundVerdict_refuse | refine soundVerdict_done ?_ | refine keeps_releaseMirror ?_ | refine keeps_groupAdminDown ?_ | refine keeps_toAdminDown ?_ | refine keeps_releaseOutside ?_ | refine keeps_fabricOff ?_ | refine sound_foldl ?_ ?_ | split | intro _

theorem keeps_specProtectPairDelete : soundSpec specProtectPairDelete := by
  intro x s h
  unfold specProtectPairDelete
  with_reducible exact keeps_protectPairDelete h

theorem keeps_execProtectPairDelete {a0} {s : State} (h : sound s) : soundRes (execProtectPairDelete a0 s) := by
  unfold execProtectPairDelete
  try dsimp only
  with_reducible repeat' first | assumption | exact keeps_specProtectPairDelete | refine keeps_runCmd ?_ ?_

theorem keeps_takeOver {a0} {s : State} (h : sound s) : sound (takeOver a0 s) := by
  unfold takeOver
  try dsimp only
  with_reducible repeat' first | assumption | refine keeps_startActive ?_ | refine keeps_updProt ?_ | refine keeps_switchedOver ?_ | refine keeps_raiseEvent ?_

theorem keeps_execRelinquish {a0 a1} {s : State} (h : sound s) : soundRes (execRelinquish a0 a1 s) := by
  unfold execRelinquish
  try dsimp only
  with_reducible repeat' first | assumption | refine soundRes_next ?_ | refine keeps_crlReceive ?_ | refine keeps_takeOver ?_ | refine sound_of_pair (by assumption) ?_ | split

theorem keeps_pairNow {a0} {s : State} (h : sound s) : sound (pairNow a0 s) := by
  unfold pairNow
  try dsimp only
  with_reducible repeat' first | assumption | ((fail_if_success (fail_if_success conv => arg 1; arg 30)); refine sound_mk ?_ (by rfl)) | refine sound_ite ?_ ?_ | refine keeps_updProt ?_ | refine sound_foldl ?_ ?_ | refine sound_of_pair (by assumption) ?_ | refine sound_of_some (by assumption) ?_ | refine sound_of_somePair (by assumption) ?_ | split | dsimp only | intro _

theorem keeps_protectPairSet {a0} {s : State} (h : sound s) : soundVerdict (protectPairSet a0 s) := by
  unfold protectPairSet
  try dsimp only
  with_reducible repeat' first | assumption | refine soundVerdict_ite ?_ ?_ | exact soundVerdict_refuse | refine soundVerdict_done ?_ | refine sound_ite ?_ ?_ | refine keeps_pairNow ?_ | refine keeps_updProt ?_ | refine keeps_protTo ?_ | refine keeps_enterHold ?_

theorem keeps_applyMirrorFlow {a0 a1} {s : State} (h : sound s) : sound (applyMirrorFlow a0 a1 s) := by
  unfold applyMirrorFlow
  try dsimp only
  with_reducible repeat' first | assumption | refine keeps_dropFlow ?_ | refine keeps_updFlow ?_ | refine keeps_storeFlow ?_ | split

theorem keeps_execMirrorFlow {a0 a1} {s : State} (h : sound s) : soundRes (execMirrorFlow a0 a1 s) := by
  unfold execMirrorFlow
  try dsimp only
  with_reducible repeat' first | assumption | refine soundRes_next ?_ | refine keeps_crlReceive ?_ | refine keeps_mirrorDone ?_ | refine keeps_applyMirrorFlow ?_ | refine keeps_sendMirrorAck ?_ | refine sound_of_pair (by assumption) ?_ | split

theorem keeps_syncAtDownbeat {s : State} (h : sound s) : sound (syncAtDownbeat s) := by
  unfold syncAtDownbeat
  try dsimp only
  with_reducible repeat' first | assumption | refine sound_ite ?_ ?_ | refine keeps_updProt ?_

theorem keeps_stepDown {a0} {s : State} (h : sound s) : sound (stepDown a0 s) := by
  unfold stepDown
  try dsimp only
  with_reducible repeat' first | assumption | refine keeps_standDown ?_ | refine keeps_updProt ?_ | refine keeps_releaseMirror ?_ | refine keeps_sendRelinquish ?_

theorem keeps_orderSwitch {a0} {s : State} (h : sound s) : sound (orderSwitch a0 s) := by
  unfold orderSwitch
  try dsimp only
  with_reducible repeat' first | assumption | refine sound_ite ?_ ?_ | refine keeps_stepDown ?_ | refine keeps_triggerSwitch ?_

theorem keeps_protectSwitch {a0} {s : State} (h : sound s) : soundVerdict (protectSwitch a0 s) := by
  unfold protectSwitch
  try dsimp only
  with_reducible repeat' first | assumption | refine soundVerdict_ite ?_ ?_ | exact soundVerdict_refuse | refine soundVerdict_done ?_ | refine soundVerdict_wait ?_ | refine sound_ite ?_ ?_ | refine keeps_updProt ?_ | refine keeps_protTo ?_ | refine keeps_orderSwitch ?_

theorem keeps_applyPair {s : State} (h : sound s) : sound (applyPair s) := by
  unfold applyPair
  try dsimp only
  with_reducible repeat' first | assumption | ((fail_if_success (fail_if_success conv => arg 1; arg 30)); refine sound_mk ?_ (by rfl)) | refine sound_ite ?_ ?_ | refine keeps_enterHold ?_ | refine keeps_pairNow ?_ | refine keeps_leaveHold ?_ | refine sound_foldl ?_ ?_ | refine sound_of_pair (by assumption) ?_ | refine sound_of_some (by assumption) ?_ | refine sound_of_somePair (by assumption) ?_ | split | dsimp only | intro _

theorem keeps_execPeerLost {s : State} (h : sound s) : soundRes (execPeerLost s) := by
  unfold execPeerLost
  try dsimp only
  with_reducible repeat' first | assumption | refine soundRes_next ?_ | refine keeps_updProt ?_ | refine keeps_advanceTo ?_ | refine keeps_releaseMirror ?_ | refine keeps_takeOver ?_ | refine keeps_protEvent ?_ | refine keeps_protTo ?_ | split

theorem keeps_execRelinquishWaitExpiry {s : State} (h : sound s) : soundRes (execRelinquishWaitExpiry s) := by
  unfold execRelinquishWaitExpiry
  try dsimp only
  with_reducible repeat' first | assumption | refine soundRes_next ?_ | refine keeps_takeOver ?_ | refine keeps_advanceTo ?_ | split

theorem keeps_protectQuery {a0} {s : State} (h : sound s) : soundVerdict (protectQuery a0 s) := by
  unfold protectQuery
  try dsimp only
  with_reducible repeat' first | assumption | refine soundVerdict_ite ?_ ?_ | exact soundVerdict_refuse | refine soundVerdict_done ?_

theorem keeps_specProtectPairSet : soundSpec specProtectPairSet := by
  intro x s h
  unfold specProtectPairSet
  with_reducible exact keeps_protectPairSet h

theorem keeps_execProtectPairSet {a0} {s : State} (h : sound s) : soundRes (execProtectPairSet a0 s) := by
  unfold execProtectPairSet
  try dsimp only
  with_reducible repeat' first | assumption | exact keeps_specProtectPairSet | refine keeps_runCmd ?_ ?_

theorem keeps_execPairBeat {a0 a1 a2} {s : State} (h : sound s) : soundRes (execPairBeat a0 a1 a2 s) := by
  unfold execPairBeat
  try dsimp only
  with_reducible repeat' first | assumption | refine soundRes_next ?_ | refine keeps_busReceive ?_ | refine keeps_crlReceive ?_ | refine keeps_peerBeat ?_ | refine sound_of_pair (by assumption) ?_ | split

theorem keeps_execPairingTimeout {s : State} (h : sound s) : soundRes (execPairingTimeout s) := by
  unfold execPairingTimeout
  try dsimp only
  with_reducible repeat' first | assumption | refine soundRes_next ?_ | refine sound_ite ?_ ?_ | refine keeps_startActive ?_ | refine keeps_advanceTo ?_

theorem keeps_execMirrorAck {a0 a1} {s : State} (h : sound s) : soundRes (execMirrorAck a0 a1 s) := by
  unfold execMirrorAck
  try dsimp only
  with_reducible repeat' first | assumption | refine soundRes_next ?_ | refine keeps_crlReceive ?_ | refine keeps_updProt ?_ | refine keeps_postMirrored ?_ | refine keeps_finishMirrored ?_ | refine sound_foldl ?_ ?_ | refine sound_of_pair (by assumption) ?_ | split | intro _

theorem keeps_specProtectQuery : soundSpec specProtectQuery := by
  intro x s h
  unfold specProtectQuery
  with_reducible exact keeps_protectQuery h

theorem keeps_execProtectQuery {a0} {s : State} (h : sound s) : soundRes (execProtectQuery a0 s) := by
  unfold execProtectQuery
  try dsimp only
  with_reducible repeat' first | assumption | exact keeps_specProtectQuery | refine keeps_runCmd ?_ ?_

theorem keeps_execWtrExpiry {s : State} (h : sound s) : soundRes (execWtrExpiry s) := by
  unfold execWtrExpiry
  try dsimp only
  with_reducible repeat' first | assumption | refine soundRes_next ?_ | refine keeps_stepDown ?_ | refine keeps_advanceTo ?_ | refine keeps_triggerSwitch ?_ | split

theorem keeps_execPairBeatSend {s : State} (h : sound s) : soundRes (execPairBeatSend s) := by
  unfold execPairBeatSend
  try dsimp only
  with_reducible repeat' first | assumption | refine soundRes_next ?_ | refine sound_ite ?_ ?_ | refine keeps_applyPair ?_ | refine keeps_advanceTo ?_ | refine keeps_busSend ?_ | refine keeps_flood ?_ | refine keeps_updProt ?_

theorem keeps_outOfSync {s : State} (h : sound s) : sound (outOfSync s) := by
  unfold outOfSync
  try dsimp only
  with_reducible repeat' first | assumption | refine sound_ite ?_ ?_ | refine keeps_updProt ?_

theorem keeps_specProtectSwitch : soundSpec specProtectSwitch := by
  intro x s h
  unfold specProtectSwitch
  with_reducible exact keeps_protectSwitch h

theorem keeps_execProtectSwitch {a0} {s : State} (h : sound s) : soundRes (execProtectSwitch a0 s) := by
  unfold execProtectSwitch
  try dsimp only
  with_reducible repeat' first | assumption | exact keeps_specProtectSwitch | refine keeps_runCmd ?_ ?_

theorem keeps_setTempo {a0} {s : State} (h : sound s) : sound (setTempo a0 s) := by
  unfold setTempo
  try dsimp only
  with_reducible repeat' first | assumption | ((fail_if_success (fail_if_success conv => arg 1; arg 30)); refine sound_mk ?_ (by rfl))

theorem keeps_correctPhase {a0} {s : State} (h : sound s) : sound (correctPhase a0 s) := by
  unfold correctPhase
  try dsimp only
  with_reducible repeat' first | assumption | refine keeps_setTempo ?_

theorem keeps_todEdge {a0} {s : State} (h : sound s) : sound (todEdge a0 s) := by
  unfold todEdge
  try dsimp only
  with_reducible repeat' first | assumption | refine keeps_finishRunning ?_ | refine keeps_correctPhase ?_ | refine keeps_setTempo ?_ | refine sound_foldl ?_ ?_ | split | intro _

theorem keeps_tempoTodSet {a0} {s : State} (h : sound s) : soundVerdict (tempoTodSet a0 s) := by
  unfold tempoTodSet
  try dsimp only
  with_reducible repeat' first | assumption | refine soundVerdict_ite ?_ ?_ | exact soundVerdict_refuse | refine soundVerdict_wait ?_

theorem keeps_specTempoTodSet : soundSpec specTempoTodSet := by
  intro x s h
  unfold specTempoTodSet
  with_reducible exact keeps_tempoTodSet h

theorem keeps_execTempoTodSet {a0} {s : State} (h : sound s) : soundRes (execTempoTodSet a0 s) := by
  unfold execTempoTodSet
  try dsimp only
  with_reducible repeat' first | assumption | exact keeps_specTempoTodSet | refine keeps_runCmd ?_ ?_

theorem keeps_tempoQuery {a0} {s : State} (h : sound s) : soundVerdict (tempoQuery a0 s) := by
  unfold tempoQuery
  try dsimp only
  with_reducible repeat' first | assumption | refine soundVerdict_done ?_ | refine keeps_drawn ?_

theorem keeps_tempoEvent {a0} {s : State} (h : sound s) : sound (tempoEvent a0 s) := by
  unfold tempoEvent
  try dsimp only
  with_reducible repeat' first | assumption | refine keeps_raiseEvent ?_

theorem keeps_selectSource {a0} {s : State} (h : sound s) : sound (selectSource a0 s) := by
  unfold selectSource
  try dsimp only
  with_reducible repeat' first | assumption | refine sound_ite ?_ ?_ | refine keeps_setTempo ?_ | refine keeps_tempoEvent ?_

theorem keeps_tempoStep {a0} {s : State} (h : sound s) : soundVerdict (tempoStep a0 s) := by
  unfold tempoStep
  try dsimp only
  with_reducible repeat' first | assumption | refine soundVerdict_ite ?_ ?_ | exact soundVerdict_refuse | refine soundVerdict_wait ?_

theorem keeps_tempoSourceSet {a0} {s : State} (h : sound s) : soundVerdict (tempoSourceSet a0 s) := by
  unfold tempoSourceSet
  try dsimp only
  with_reducible repeat' first | assumption | refine soundVerdict_ite ?_ ?_ | exact soundVerdict_refuse | refine soundVerdict_done ?_ | refine keeps_selectSource ?_

theorem keeps_specTempoSourceSet : soundSpec specTempoSourceSet := by
  intro x s h
  unfold specTempoSourceSet
  with_reducible exact keeps_tempoSourceSet h

theorem keeps_execTempoSourceSet {a0} {s : State} (h : sound s) : soundRes (execTempoSourceSet a0 s) := by
  unfold execTempoSourceSet
  try dsimp only
  with_reducible repeat' first | assumption | exact keeps_specTempoSourceSet | refine keeps_runCmd ?_ ?_

theorem keeps_stepTempo {a0} {s : State} (h : sound s) : sound (stepTempo a0 s) := by
  unfold stepTempo
  try dsimp only
  with_reducible repeat' first | assumption | ((fail_if_success (fail_if_success conv => arg 1; arg 30)); refine sound_mk ?_ (by rfl)) | refine keeps_settleShapers ?_ | refine keeps_setTempo ?_ | refine keeps_raiseEvent ?_

theorem keeps_applySteps {s : State} (h : sound s) : sound (applySteps s) := by
  unfold applySteps
  try dsimp only
  with_reducible repeat' first | assumption | refine sound_ite ?_ ?_ | refine keeps_finishRunning ?_ | refine keeps_stepTempo ?_ | refine keeps_setTempo ?_ | refine sound_foldl ?_ ?_ | intro _

theorem keeps_servoCorrect {a0} {s : State} (h : sound s) : sound (servoCorrect a0 s) := by
  unfold servoCorrect
  try dsimp only
  with_reducible repeat' first | assumption | refine keeps_correctPhase ?_ | refine keeps_setTempo ?_ | refine keeps_drawn ?_

theorem keeps_edgeMode {a0 a1} {s : State} (h : sound s) : sound (edgeMode a0 a1 s) := by
  unfold edgeMode
  try dsimp only
  with_reducible repeat' first | assumption | refine keeps_tempoEvent ?_ | refine keeps_setTempo ?_ | split

theorem keeps_execPpsInEdge {a0} {s : State} (h : sound s) : soundRes (execPpsInEdge a0 s) := by
  unfold execPpsInEdge
  try dsimp only
  with_reducible repeat' first | assumption | refine soundRes_next ?_ | refine sound_ite ?_ ?_ | refine keeps_setTempo ?_ | refine keeps_todEdge ?_ | refine keeps_servoCorrect ?_ | refine keeps_edgeMode ?_

theorem keeps_holdover {s : State} (h : sound s) : sound (holdover s) := by
  unfold holdover
  try dsimp only
  with_reducible repeat' first | assumption | refine keeps_tempoEvent ?_ | refine keeps_setTempo ?_

theorem keeps_silence {a0 a1} {s : State} (h : sound s) : sound (silence a0 a1 s) := by
  unfold silence
  try dsimp only
  with_reducible repeat' first | assumption | refine sound_ite ?_ ?_ | refine keeps_holdover ?_ | refine keeps_advanceTo ?_

theorem keeps_execPpsLoss {s : State} (h : sound s) : soundRes (execPpsLoss s) := by
  unfold execPpsLoss
  try dsimp only
  with_reducible repeat' first | assumption | refine soundRes_next ?_ | refine keeps_silence ?_

theorem keeps_tempoGridSet {a0} {s : State} (h : sound s) : soundVerdict (tempoGridSet a0 s) := by
  unfold tempoGridSet
  try dsimp only
  with_reducible repeat' first | assumption | refine soundVerdict_ite ?_ ?_ | exact soundVerdict_refuse | refine keeps_staged ?_

theorem keeps_execHostAdjustSilence {s : State} (h : sound s) : soundRes (execHostAdjustSilence s) := by
  unfold execHostAdjustSilence
  try dsimp only
  with_reducible repeat' first | assumption | refine soundRes_next ?_ | refine keeps_silence ?_

theorem keeps_hostAdjust {a0 a1 a2} {s : State} (h : sound s) : sound (hostAdjust a0 a1 a2 s) := by
  unfold hostAdjust
  try dsimp only
  with_reducible repeat' first | assumption | refine sound_ite ?_ ?_ | refine keeps_setTempo ?_ | refine keeps_tempoEvent ?_

theorem keeps_tempoAdjust {a0} {s : State} (h : sound s) : soundVerdict (tempoAdjust a0 s) := by
  unfold tempoAdjust
  try dsimp only
  with_reducible repeat' first | assumption | refine soundVerdict_ite ?_ ?_ | exact soundVerdict_refuse | refine soundVerdict_done ?_ | refine keeps_hostAdjust ?_

theorem keeps_specTempoGridSet : soundSpec specTempoGridSet := by
  intro x s h
  unfold specTempoGridSet
  with_reducible exact keeps_tempoGridSet h

theorem keeps_execTempoGridSet {a0} {s : State} (h : sound s) : soundRes (execTempoGridSet a0 s) := by
  unfold execTempoGridSet
  try dsimp only
  with_reducible repeat' first | assumption | exact keeps_specTempoGridSet | refine keeps_runCmd ?_ ?_

theorem keeps_specTempoStep : soundSpec specTempoStep := by
  intro x s h
  unfold specTempoStep
  with_reducible exact keeps_tempoStep h

theorem keeps_execTempoStep {a0} {s : State} (h : sound s) : soundRes (execTempoStep a0 s) := by
  unfold execTempoStep
  try dsimp only
  with_reducible repeat' first | assumption | exact keeps_specTempoStep | refine keeps_runCmd ?_ ?_

theorem keeps_specTempoAdjust : soundSpec specTempoAdjust := by
  intro x s h
  unfold specTempoAdjust
  with_reducible exact keeps_tempoAdjust h

theorem keeps_execTempoAdjust {a0} {s : State} (h : sound s) : soundRes (execTempoAdjust a0 s) := by
  unfold execTempoAdjust
  try dsimp only
  with_reducible repeat' first | assumption | exact keeps_specTempoAdjust | refine keeps_runCmd ?_ ?_

theorem keeps_specTempoQuery : soundSpec specTempoQuery := by
  intro x s h
  unfold specTempoQuery
  with_reducible exact keeps_tempoQuery h

theorem keeps_execTempoQuery {a0} {s : State} (h : sound s) : soundRes (execTempoQuery a0 s) := by
  unfold execTempoQuery
  try dsimp only
  with_reducible repeat' first | assumption | exact keeps_specTempoQuery | refine keeps_runCmd ?_ ?_

theorem keeps_tempoMaxAgeSet {a0} {s : State} (h : sound s) : soundVerdict (tempoMaxAgeSet a0 s) := by
  unfold tempoMaxAgeSet
  try dsimp only
  with_reducible repeat' first | assumption | refine soundVerdict_ite ?_ ?_ | exact soundVerdict_refuse | refine keeps_staged ?_

theorem keeps_specTempoMaxAgeSet : soundSpec specTempoMaxAgeSet := by
  intro x s h
  unfold specTempoMaxAgeSet
  with_reducible exact keeps_tempoMaxAgeSet h

theorem keeps_execTempoMaxAgeSet {a0} {s : State} (h : sound s) : soundRes (execTempoMaxAgeSet a0 s) := by
  unfold execTempoMaxAgeSet
  try dsimp only
  with_reducible repeat' first | assumption | exact keeps_specTempoMaxAgeSet | refine keeps_runCmd ?_ ?_

theorem keeps_updCrl {a0} {s : State} (h : sound s) : sound (updCrl a0 s) := by
  unfold updCrl
  try dsimp only
  with_reducible repeat' first | assumption | ((fail_if_success (fail_if_success conv => arg 1; arg 30)); refine sound_mk ?_ (by rfl))

theorem keeps_keepMember {a0} {s : State} (h : sound s) : sound (keepMember a0 s) := by
  unfold keepMember
  try dsimp only
  with_reducible repeat' first | assumption | refine sound_ite ?_ ?_ | refine keeps_updCrl ?_

theorem keeps_seenTerm {a0} {s : State} (h : sound s) : sound (seenTerm a0 s) := by
  unfold seenTerm
  try dsimp only
  with_reducible repeat' first | assumption | refine keeps_updCrl ?_

theorem keeps_sendMember {s : State} (h : sound s) : sound (sendMember s) := by
  unfold sendMember
  try dsimp only
  with_reducible repeat' first | assumption | refine sound_ite ?_ ?_ | refine keeps_flood ?_ | refine keeps_updCrl ?_

theorem keeps_positionDown {a0} {s : State} (h : sound s) : sound (positionDown a0 s) := by
  unfold positionDown
  try dsimp only
  with_reducible repeat' first | assumption | refine sound_ite ?_ ?_ | refine keeps_crlNeighbour ?_

theorem keeps_becomeFollower {a0 a1} {s : State} (h : sound s) : sound (becomeFollower a0 a1 s) := by
  unfold becomeFollower
  try dsimp only
  with_reducible repeat' first | assumption | refine keeps_selectSource ?_ | refine keeps_updCrl ?_ | refine keeps_sendMember ?_ | refine keeps_positionDown ?_ | refine keeps_raiseEvent ?_

theorem keeps_leaveCarillonTime {s : State} (h : sound s) : sound (leaveCarillonTime s) := by
  unfold leaveCarillonTime
  try dsimp only
  with_reducible repeat' first | assumption | refine sound_ite ?_ ?_ | refine keeps_selectSource ?_

theorem keeps_onPosition {a0} {s : State} (h : sound s) : sound (onPosition a0 s) := by
  unfold onPosition
  try dsimp only
  with_reducible repeat' first | assumption | refine keeps_seenTerm ?_ | refine keeps_becomeFollower ?_ | refine keeps_raiseEvent ?_ | refine keeps_leaveCarillonTime ?_ | refine keeps_updCrl ?_ | split

theorem keeps_execPosition {a0 a1} {s : State} (h : sound s) : soundRes (execPosition a0 a1 s) := by
  unfold execPosition
  try dsimp only
  with_reducible repeat' first | assumption | refine soundRes_next ?_ | refine keeps_crlReceive ?_ | refine keeps_onPosition ?_ | refine sound_of_pair (by assumption) ?_ | split

theorem keeps_scheduleDone {a0 a1} {s : State} (h : sound s) : sound (scheduleDone a0 a1 s) := by
  unfold scheduleDone
  try dsimp only
  with_reducible repeat' first | assumption | ((fail_if_success (fail_if_success conv => arg 1; arg 30)); refine sound_mk ?_ (by rfl)) | refine keeps_raiseEvent ?_ | split

theorem keeps_carillonPark {a0} {s : State} (h : sound s) : soundVerdict (carillonPark a0 s) := by
  unfold carillonPark
  try dsimp only
  with_reducible repeat' first | assumption | refine soundVerdict_ite ?_ ?_ | exact soundVerdict_refuse | refine soundVerdict_done ?_ | refine keeps_updCrl ?_

theorem keeps_specCarillonPark : soundSpec specCarillonPark := by
  intro x s h
  unfold specCarillonPark
  with_reducible exact keeps_carillonPark h

theorem keeps_execCarillonPark {a0} {s : State} (h : sound s) : soundRes (execCarillonPark a0 s) := by
  unfold execCarillonPark
  try dsimp only
  with_reducible repeat' first | assumption | exact keeps_specCarillonPark | refine keeps_runCmd ?_ ?_

theorem keeps_miswired {a0 a1} {s : State} (h : sound s) : sound (miswired a0 a1 s) := by
  unfold miswired
  try dsimp only
  with_reducible repeat' first | assumption | refine sound_ite ?_ ?_ | refine keeps_updCrlPort ?_ | refine keeps_raiseEvent ?_

theorem keeps_carillonConfig {a0} {s : State} (h : sound s) : soundVerdict (carillonConfig a0 s) := by
  unfold carillonConfig
  try dsimp only
  with_reducible repeat' first | assumption | refine soundVerdict_ite ?_ ?_ | exact soundVerdict_refuse | refine keeps_changeSetting ?_

theorem keeps_specCarillonConfig : soundSpec specCarillonConfig := by
  intro x s h
  unfold specCarillonConfig
  with_reducible exact keeps_carillonConfig h

theorem keeps_execCarillonConfig {a0} {s : State} (h : sound s) : soundRes (execCarillonConfig a0 s) := by
  unfold execCarillonConfig
  try dsimp only
  with_reducible repeat' first | assumption | exact keeps_specCarillonConfig | refine keeps_runCmd ?_ ?_

theorem keeps_endDistribution {s : State} (h : sound s) : sound (endDistribution s) := by
  unfold endDistribution
  try dsimp only
  with_reducible repeat' first | assumption | ((fail_if_success (fail_if_success conv => arg 1; arg 30)); refine sound_mk ?_ (by rfl)) | refine keeps_finishWaiting ?_ | refine keeps_drawn ?_ | split

theorem keeps_loseMembers {s : State} (h : sound s) : sound (loseMembers s) := by
  unfold loseMembers
  try dsimp only
  with_reducible repeat' first | assumption | ((fail_if_success (fail_if_success conv => arg 1; arg 30)); refine sound_mk ?_ (by rfl)) | refine keeps_endDistribution ?_ | split

theorem keeps_sendChunks {a0 a1 a2 a3 a4} {s : State} (h : sound s) : sound (sendChunks a0 a1 a2 a3 a4 s) := by
  induction a0 generalizing a1 a2 a3 a4 s with
  | zero =>
    unfold sendChunks
    with_reducible repeat' first | assumption | refine ih ?_ | refine sound_ite ?_ ?_ | refine keeps_crlOut ?_ | refine keeps_nextMsg ?_
  | succ fuel ih =>
    unfold sendChunks
    try dsimp only
    with_reducible repeat' first | assumption | refine ih ?_ | refine sound_ite ?_ ?_ | refine keeps_crlOut ?_ | refine keeps_nextMsg ?_

theorem keeps_distributeFrom {a0} {s : State} (h : sound s) : sound (distributeFrom a0 s) := by
  unfold distributeFrom
  try dsimp only
  with_reducible repeat' first | assumption | refine keeps_sendChunks ?_ | split

theorem keeps_distributeOpen {s : State} (h : sound s) : sound (distributeOpen s) := by
  unfold distributeOpen
  try dsimp only
  with_reducible repeat' first | assumption | ((fail_if_success (fail_if_success conv => arg 1; arg 30)); refine sound_mk ?_ (by rfl)) | refine sound_ite ?_ ?_ | refine keeps_distributeFrom ?_ | refine sound_foldl ?_ ?_ | refine sound_of_pair (by assumption) ?_ | refine sound_of_some (by assumption) ?_ | refine sound_of_somePair (by assumption) ?_ | split | dsimp only | intro _

theorem keeps_loseNeighbour {a0} {s : State} (h : sound s) : sound (loseNeighbour a0 s) := by
  unfold loseNeighbour
  try dsimp only
  with_reducible repeat' first | assumption | refine keeps_updCrlPort ?_ | refine keeps_raiseEvent ?_ | refine keeps_tally ?_ | refine keeps_updCrl ?_ | refine keeps_distributeOpen ?_ | split

theorem keeps_dropRelays {s : State} (h : sound s) : sound (dropRelays s) := by
  unfold dropRelays
  try dsimp only
  with_reducible repeat' first | assumption | refine keeps_finishRunning ?_ | refine keeps_updCrl ?_ | refine sound_foldl ?_ ?_ | intro _

theorem keeps_exchange {a0 a1 a2 a3} {s : State} (h : sound s) : sound (exchange a0 a1 a2 a3 s) := by
  unfold exchange
  try dsimp only
  with_reducible repeat' first | assumption | ((fail_if_success (fail_if_success conv => arg 1; arg 30)); refine sound_mk ?_ (by rfl)) | refine sound_ite ?_ ?_ | refine keeps_correctPhase ?_ | refine keeps_setTempo ?_ | refine keeps_updCrlPort ?_ | refine keeps_raiseEvent ?_ | refine sound_foldl ?_ ?_ | refine sound_of_pair (by assumption) ?_ | refine sound_of_some (by assumption) ?_ | refine sound_of_somePair (by assumption) ?_ | split | dsimp only | intro _

theorem keeps_followNeighbour {a0 a1 a2 a3} {s : State} (h : sound s) : sound (followNeighbour a0 a1 a2 a3 s) := by
  unfold followNeighbour
  try dsimp only
  with_reducible repeat' first | assumption | refine sound_ite ?_ ?_ | refine keeps_stepTempo ?_ | refine keeps_exchange ?_

theorem keeps_endSchedule {s : State} (h : sound s) : sound (endSchedule s) := by
  unfold endSchedule
  try dsimp only
  with_reducible repeat' first | assumption | ((fail_if_success (fail_if_success conv => arg 1; arg 30)); refine sound_mk ?_ (by rfl)) | refine keeps_finishWaiting ?_ | refine keeps_drawn ?_ | split

theorem keeps_sendClaim {a0} {s : State} (h : sound s) : sound (sendClaim a0 s) := by
  unfold sendClaim
  try dsimp only
  with_reducible repeat' first | assumption | refine sound_ite ?_ ?_ | refine keeps_crlNeighbour ?_

theorem keeps_claimTerm {a0} {s : State} (h : sound s) : sound (claimTerm a0 s) := by
  unfold claimTerm
  try dsimp only
  with_reducible repeat' first | assumption | refine keeps_updCrl ?_ | refine keeps_sendClaim ?_

theorem keeps_enterElecting {s : State} (h : sound s) : sound (enterElecting s) := by
  unfold enterElecting
  try dsimp only
  with_reducible repeat' first | assumption | refine keeps_updCrl ?_ | refine keeps_endSchedule ?_ | refine keeps_loseMembers ?_ | refine keeps_claimTerm ?_ | refine keeps_dropRelays ?_ | refine keeps_dropUnarmed ?_

theorem keeps_onHeartbeat {a0 a1} {s : State} (h : sound s) : sound (onHeartbeat a0 a1 s) := by
  unfold onHeartbeat
  try dsimp only
  with_reducible repeat' first | assumption | refine sound_ite ?_ ?_ | refine keeps_updCrlPort ?_ | refine keeps_seenTerm ?_ | refine keeps_raiseEvent ?_ | refine keeps_tally ?_ | refine keeps_followNeighbour ?_ | refine keeps_updCrl ?_ | refine keeps_triggerSwitch ?_ | refine keeps_enterElecting ?_

theorem keeps_stopSchedule {a0 a1} {s : State} (h : sound s) : sound (stopSchedule a0 a1 s) := by
  unfold stopSchedule
  try dsimp only
  with_reducible repeat' first | assumption | ((fail_if_success (fail_if_success conv => arg 1; arg 30)); refine sound_mk ?_ (by rfl)) | refine keeps_endSchedule ?_ | refine keeps_raiseEvent ?_ | split

theorem keeps_scheduleLate {s : State} (h : sound s) : sound (scheduleLate s) := by
  unfold scheduleLate
  try dsimp only
  with_reducible repeat' first | assumption | refine keeps_stopSchedule ?_ | split

theorem keeps_execDownbeat {s : State} (h : sound s) : soundRes (execDownbeat s) := by
  unfold execDownbeat
  try dsimp only
  with_reducible repeat' first | assumption | refine soundRes_next ?_ | refine sound_ite ?_ ?_ | refine keeps_syncAtDownbeat ?_ | refine keeps_downbeatNow ?_

theorem keeps_heartbeatOut {a0} {s : State} (h : sound s) : sound (heartbeatOut a0 s) := by
  unfold heartbeatOut
  try dsimp only
  with_reducible repeat' first | assumption | refine sound_ite ?_ ?_ | refine keeps_crlOut ?_ | refine keeps_nextMsg ?_

theorem keeps_onClaim {a0} {s : State} (h : sound s) : sound (onClaim a0 s) := by
  unfold onClaim
  try dsimp only
  with_reducible repeat' first | assumption | refine sound_ite ?_ ?_ | refine keeps_seenTerm ?_ | refine keeps_sendClaim ?_ | refine keeps_updCrl ?_

theorem keeps_execClaim {a0 a1} {s : State} (h : sound s) : soundRes (execClaim a0 a1 s) := by
  unfold execClaim
  try dsimp only
  with_reducible repeat' first | assumption | refine soundRes_next ?_ | refine keeps_crlReceive ?_ | refine keeps_onClaim ?_ | refine sound_of_pair (by assumption) ?_ | split

theorem keeps_compareCseq {a0} {s : State} (h : sound s) : sound (compareCseq a0 s) := by
  unfold compareCseq
  try dsimp only
  with_reducible repeat' first | assumption | refine sound_ite ?_ ?_ | refine keeps_updCrl ?_ | refine keeps_raiseEvent ?_

theorem keeps_onBeacon {a0 a1} {s : State} (h : sound s) : sound (onBeacon a0 a1 s) := by
  unfold onBeacon
  try dsimp only
  with_reducible repeat' first | assumption | refine sound_ite ?_ ?_ | refine keeps_seenTerm ?_ | refine keeps_compareCseq ?_ | refine keeps_updCrl ?_

theorem keeps_carillonStatus {a0} {s : State} (h : sound s) : soundVerdict (carillonStatus a0 s) := by
  unfold carillonStatus
  try dsimp only
  with_reducible repeat' first | assumption | refine soundVerdict_done ?_

theorem keeps_specCarillonStatus : soundSpec specCarillonStatus := by
  intro x s h
  unfold specCarillonStatus
  with_reducible exact keeps_carillonStatus h

theorem keeps_execCarillonStatus {a0} {s : State} (h : sound s) : soundRes (execCarillonStatus a0 s) := by
  unfold execCarillonStatus
  try dsimp only
  with_reducible repeat' first | assumption | exact keeps_specCarillonStatus | refine keeps_runCmd ?_ ?_

theorem keeps_becomeHead {s : State} (h : sound s) : sound (becomeHead s) := by
  unfold becomeHead
  try dsimp only
  with_reducible repeat' first | assumption | refine keeps_leaveCarillonTime ?_ | refine keeps_updCrl ?_ | refine keeps_positionDown ?_ | refine keeps_raiseEvent ?_ | refine keeps_sendMember ?_

theorem keeps_setCarillon {a0} {s : State} (h : sound s) : sound (setCarillon a0 s) := by
  unfold setCarillon
  try dsimp only
  with_reducible repeat' first | assumption | refine sound_ite ?_ ?_ | refine keeps_updCrl ?_ | refine keeps_dropRelays ?_ | refine keeps_dropUnarmed ?_ | refine keeps_endSchedule ?_ | refine keeps_loseMembers ?_ | refine keeps_leaveCarillonTime ?_ | refine keeps_claimTerm ?_ | refine keeps_enterElecting ?_

theorem keeps_execHeadBeacon {a0 a1} {s : State} (h : sound s) : soundRes (execHeadBeacon a0 a1 s) := by
  unfold execHeadBeacon
  try dsimp only
  with_reducible repeat' first | assumption | refine soundRes_next ?_ | refine keeps_crlReceive ?_ | refine keeps_onBeacon ?_ | refine sound_of_pair (by assumption) ?_ | split

theorem keeps_execElectionRetry {s : State} (h : sound s) : soundRes (execElectionRetry s) := by
  unfold execElectionRetry
  try dsimp only
  with_reducible repeat' first | assumption | refine soundRes_next ?_ | refine sound_ite ?_ ?_ | refine keeps_claimTerm ?_ | refine keeps_advanceTo ?_

theorem keeps_execHeartbeat {a0 a1} {s : State} (h : sound s) : soundRes (execHeartbeat a0 a1 s) := by
  unfold execHeartbeat
  try dsimp only
  with_reducible repeat' first | assumption | refine soundRes_next ?_ | refine sound_ite ?_ ?_ | refine keeps_updCrlPort ?_ | refine keeps_tally ?_ | refine keeps_miswired ?_ | refine keeps_onHeartbeat ?_

theorem keeps_execHeadLost {s : State} (h : sound s) : soundRes (execHeadLost s) := by
  unfold execHeadLost
  try dsimp only
  with_reducible repeat' first | assumption | refine soundRes_next ?_ | refine sound_ite ?_ ?_ | refine keeps_enterElecting ?_ | refine keeps_advanceTo ?_

theorem keeps_execHeartbeatSend {s : State} (h : sound s) : soundRes (execHeartbeatSend s) := by
  unfold execHeartbeatSend
  try dsimp only
  with_reducible repeat' first | assumption | refine soundRes_next ?_ | refine sound_ite ?_ ?_ | refine keeps_setTempo ?_ | refine keeps_advanceTempo ?_ | refine keeps_scheduleLate ?_ | refine keeps_heartbeatOut ?_ | refine keeps_updCrl ?_ | refine keeps_flood ?_

theorem keeps_execElectionSettle {s : State} (h : sound s) : soundRes (execElectionSettle s) := by
  unfold execElectionSettle
  try dsimp only
  with_reducible repeat' first | assumption | refine soundRes_next ?_ | refine sound_ite ?_ ?_ | refine keeps_advanceTo ?_ | refine keeps_becomeHead ?_

theorem keeps_execNeighbourLost {a0 a1} {s : State} (h : sound s) : soundRes (execNeighbourLost a0 a1 s) := by
  unfold execNeighbourLost
  try dsimp only
  with_reducible repeat' first | assumption | refine soundRes_next ?_ | refine keeps_loseNeighbour ?_ | refine keeps_updCrlPort ?_ | refine keeps_advanceTo ?_ | split

end Sys2Proof.Laws
end

