-- ==== Sys2Proof/Laws/KeepsFirmware.lean ====
section
/-! SUPPORT. The operations keep sound states sound: boot, firmware and the system commands. One lemma for each definition of those files. -/

namespace Sys2Proof.Laws
open Sys2Proof Sys2Proof.Machine

theorem keeps_startCopy {a0 a1 a2} {s : State} (h : sound s) : sound (startCopy a0 a1 a2 s) := by
  unfold startCopy
  try dsimp only
  with_reducible repeat' first | assumption | refine keeps_updFw ?_ (by rfl) | refine keeps_flashErase ?_

theorem keeps_resumeCopy {s : State} (h : sound s) : sound (resumeCopy s) := by
  unfold resumeCopy
  try dsimp only
  with_reducible repeat' first | assumption | refine keeps_startCopy ?_ | split

theorem keeps_trySlot {a0} {s : State} (h : sound s) : sound (trySlot a0 s).2 := by
  unfold trySlot
  try dsimp only
  with_reducible repeat' first | assumption | refine keeps_updFw ?_ (by rfl) | refine keeps_drawn ?_ | split

theorem keeps_oneSlot {a0} {s : State} (h : sound s) : sound (oneSlot a0 s).2 := by
  unfold oneSlot
  try dsimp only
  with_reducible repeat' first | assumption | refine keeps_trySlot ?_

theorem keeps_toReverting {a0} {s : State} (h : sound s) : sound (toReverting a0 s) := by
  unfold toReverting
  try dsimp only
  with_reducible repeat' first | assumption | refine keeps_moveRec ?_

theorem keeps_bootChoice {s : State} (h : sound s) : sound (bootChoice s).2 := by
  unfold bootChoice
  try dsimp only
  with_reducible repeat' first | assumption | refine keeps_updFw ?_ (by rfl) | refine keeps_trySlot ?_ | refine keeps_oneSlot ?_ | refine keeps_moveRec ?_ | refine keeps_raiseEvent ?_ | refine keeps_toReverting ?_ | split

theorem keeps_loadSlot {a0} {s : State} (h : sound s) : sound (loadSlot a0 s) := by
  unfold loadSlot
  try dsimp only
  with_reducible repeat' first | assumption | refine keeps_updFw ?_ (by rfl)

theorem keeps_reportBadSlots {s : State} (h : sound s) : sound (reportBadSlots s) := by
  unfold reportBadSlots
  try dsimp only
  with_reducible repeat' first | assumption | refine keeps_updFw ?_ (by rfl) | refine keeps_raiseEvent ?_ | refine sound_foldl ?_ ?_ | intro _

theorem keeps_excludePage {a0} {s : State} (h : sound s) : sound (excludePage a0 s) := by
  unfold excludePage
  try dsimp only
  with_reducible repeat' first | assumption | ((fail_if_success (fail_if_success conv => arg 1; arg 30)); refine sound_mk ?_ (by rfl))

theorem keeps_finishConfirm {s : State} (h : sound s) : sound (finishConfirm s) := by
  have h1 : sound (updFw (fun f => { f with fuseCounter := max f.fuseCounter (min 64 (rd (updRec s) 26 1)) }) s) :=
    sound_fw h (flash_of h) (Nat.max_le.2 ⟨(fuses_of h).1, Nat.min_le_left _ _⟩) (fuses_of h).2
  exact keeps_raiseEvent (keeps_moveRec h1)

theorem keeps_migrate {s : State} (h : sound s) : sound (migrate s).2 := by
  unfold migrate
  try dsimp only
  with_reducible repeat' first | assumption | refine keeps_updFw ?_ (by rfl) | refine keeps_writeSnapshot ?_ | refine keeps_writeRec ?_ | refine keeps_raiseEvent ?_ | refine keeps_toReverting ?_ | split

theorem keeps_setBus {a0} {s : State} (h : sound s) : sound (setBus a0 s) := by
  unfold setBus
  try dsimp only
  with_reducible repeat' first | assumption | ((fail_if_success (fail_if_success conv => arg 1; arg 30)); refine sound_mk ?_ (by rfl))

theorem keeps_applySettings {s : State} (h : sound s) : sound (applySettings s) := by
  unfold applySettings
  try dsimp only
  with_reducible repeat' first | assumption | ((fail_if_success (fail_if_success conv => arg 1; arg 30)); refine sound_mk ?_ (by rfl)) | refine keeps_setBus ?_ | refine keeps_setCarillon ?_ | refine keeps_excludePage ?_ | refine sound_foldl ?_ ?_ | intro _

theorem keeps_teruoRuns {s : State} (h : sound s) : sound (teruoRuns s).2 := by
  unfold teruoRuns
  try dsimp only
  with_reducible repeat' first | assumption | refine keeps_updFw ?_ (by rfl) | refine keeps_reportBadSlots ?_ | refine keeps_finishConfirm ?_ | refine keeps_migrate ?_ | refine keeps_applySettings ?_ | refine keeps_resumeCopy ?_ | split

theorem keeps_copyImage {a0} {s : State} (h : sound s) : sound (copyImage a0 s) := by
  unfold copyImage
  refine sound_fw h ?_ (fuses_of h).1 (fuses_of h).2
  dsimp only
  have key : ∀ (l : List Host.Cell) (m : List Host.Cell), Flash.wf m = true →
      Flash.wf (l.foldl (fun m x => flashPut m (x.1 - slotBase a0.src + slotBase a0.dst) x.2) m) = true := by
    intro l
    induction l with
    | nil => exact fun m hm => hm
    | cons x l ih => exact fun m hm => ih _ (flashPut_wf _ _ hm)
  exact key _ _ (flash_of h)

theorem keeps_loseMigrated {s : State} (h : sound s) : sound (loseMigrated s).2 := by
  unfold loseMigrated
  try dsimp only
  with_reducible repeat' first | assumption | refine keeps_flashErase ?_ | split

theorem keeps_romAddress {s : State} (h : sound s) : sound (romAddress s) := by
  unfold romAddress
  try dsimp only
  with_reducible repeat' first | assumption | ((fail_if_success (fail_if_success conv => arg 1; arg 30)); refine sound_mk ?_ (by rfl))

theorem keeps_enterRecovery {s : State} (h : sound s) : sound (enterRecovery s) := by
  unfold enterRecovery
  try dsimp only
  with_reducible repeat' first | assumption | refine keeps_updFw ?_ (by rfl) | ((fail_if_success (fail_if_success conv => arg 1; arg 30)); refine sound_mk ?_ (by rfl)) | refine sound_ite ?_ ?_ | refine keeps_haltData ?_ | refine keeps_functionReset ?_ | refine keeps_romAddress ?_ | refine keeps_raiseGlb ?_ | refine keeps_startCopy ?_

theorem keeps_bootImage {s : State} (h : sound s) : sound (bootImage s) := by
  unfold bootImage
  try dsimp only
  with_reducible repeat' first | assumption | refine keeps_updFw ?_ (by rfl) | refine keeps_enterRecovery ?_ | refine keeps_bootChoice ?_ | refine keeps_loadSlot ?_ | split

theorem keeps_startAgain {s : State} (h : sound s) : sound (startAgain s) := by
  unfold startAgain
  try dsimp only
  with_reducible repeat' first | assumption | ((fail_if_success (fail_if_success conv => arg 1; arg 30)); refine sound_mk ?_ (by rfl)) | refine sound_ite ?_ ?_

theorem keeps_beginRestart {a0} {s : State} (h : sound s) : sound (beginRestart a0 s) := by
  unfold beginRestart
  try dsimp only
  with_reducible repeat' first | assumption | ((fail_if_success (fail_if_success conv => arg 1; arg 30)); refine sound_mk ?_ (by rfl)) | refine sound_ite ?_ ?_ | refine keeps_bootImage ?_ | refine keeps_raiseGlb ?_

theorem keeps_copyPassed {s : State} (h : sound s) : sound (copyPassed s) := by
  unfold copyPassed
  try dsimp only
  with_reducible repeat' first | assumption | refine keeps_updFw ?_ (by rfl) | refine sound_ite ?_ ?_ | refine keeps_startCopy ?_ | refine keeps_moveRec ?_ | refine keeps_startAgain ?_ | refine keeps_beginRestart ?_ | refine keeps_loseMigrated ?_ | refine keeps_raiseEvent ?_

theorem keeps_copyFailed {a0} {s : State} (h : sound s) : sound (copyFailed a0 s) := by
  unfold copyFailed
  try dsimp only
  with_reducible repeat' first | assumption | refine keeps_updFw ?_ (by rfl) | refine sound_ite ?_ ?_ | refine keeps_startCopy ?_ | refine keeps_raiseEvent ?_ | refine keeps_moveRec ?_ | refine keeps_toReverting ?_ | refine keeps_drawn ?_

theorem keeps_execFlashCopyChecked {a0} {s : State} (h : sound s) : soundRes (execFlashCopyChecked a0 s) := by
  unfold execFlashCopyChecked
  try dsimp only
  with_reducible repeat' first | assumption | refine soundRes_next ?_ | refine keeps_copyImage ?_ | refine keeps_copyPassed ?_ | refine keeps_copyFailed ?_ | split

theorem keeps_eraseReached {a0 a1} {s : State} (h : sound s) : sound (eraseReached a0 a1 s) := by
  unfold eraseReached
  try dsimp only
  with_reducible repeat' first | assumption | refine sound_ite ?_ ?_ | refine keeps_flashErase ?_

theorem keeps_setStage {a0 a1} {s : State} (h : sound s) : sound (setStage a0 a1 s) := by
  unfold setStage
  try dsimp only
  with_reducible repeat' first | assumption | refine keeps_writeRec ?_

theorem keeps_stageData {a0} {s : State} (h : sound s) : sound (stageData a0 s) := by
  unfold stageData
  try dsimp only
  with_reducible repeat' first | assumption | refine keeps_updFw ?_ (by rfl) | refine sound_ite ?_ ?_ | refine keeps_flashWrite ?_ | refine keeps_eraseReached ?_ | refine keeps_raiseEvent ?_ | refine keeps_setStage ?_

theorem keeps_stageFrom {a0 a1} {s : State} (h : sound s) : sound (stageFrom a0 a1 s) := by
  unfold stageFrom
  try dsimp only
  with_reducible repeat' first | assumption | ((fail_if_success (fail_if_success conv => arg 1; arg 30)); refine sound_mk ?_ (by rfl)) | refine sound_ite ?_ ?_ | refine keeps_stageData ?_ | refine sound_foldl ?_ ?_ | refine sound_of_pair (by assumption) ?_ | refine sound_of_some (by assumption) ?_ | refine sound_of_somePair (by assumption) ?_ | split | dsimp only | intro _

theorem keeps_execProbationLimit {s : State} (h : sound s) : soundRes (execProbationLimit s) := by
  unfold execProbationLimit
  try dsimp only
  with_reducible repeat' first | assumption | refine soundRes_next ?_ | refine sound_ite ?_ ?_ | refine keeps_beginRestart ?_ | refine keeps_toReverting ?_ | refine keeps_advanceTo ?_

theorem keeps_settingTakesHold {a0 a1} {s : State} (h : sound s) : sound (settingTakesHold a0 a1 s) := by
  unfold settingTakesHold
  try dsimp only
  with_reducible repeat' first | assumption | ((fail_if_success (fail_if_success conv => arg 1; arg 30)); refine sound_mk ?_ (by rfl)) | refine sound_ite ?_ ?_ | refine keeps_setCarillon ?_ | refine keeps_setBus ?_

theorem keeps_attestQuote {a0} {s : State} (h : sound s) : soundVerdict (attestQuote a0 s) := by
  unfold attestQuote
  try dsimp only
  with_reducible repeat' first | assumption | refine soundVerdict_done ?_

theorem keeps_ownRelay {a0 a1 a2 a3} {s : State} (h : sound s) : sound (ownRelay a0 a1 a2 a3 s) := by
  unfold ownRelay
  try dsimp only
  with_reducible repeat' first | assumption | refine keeps_flood ?_ | refine keeps_updCrl ?_

theorem keeps_memberStatus {a0 a1 a2} {s : State} (h : sound s) : sound (memberStatus a0 a1 a2 s) := by
  unfold memberStatus
  try dsimp only
  with_reducible repeat' first | assumption | refine keeps_updFw ?_ (by rfl) | refine keeps_ownRelay ?_ | refine keeps_drawn ?_ | refine keeps_endDistribution ?_ | split

theorem keeps_fwRevert {a0} {s : State} (h : sound s) : soundVerdict (fwRevert a0 s) := by
  unfold fwRevert
  try dsimp only
  with_reducible repeat' first | assumption | refine keeps_updFw ?_ (by rfl) | refine soundVerdict_ite ?_ ?_ | exact soundVerdict_refuse | refine soundVerdict_done ?_ | refine keeps_flashErase ?_ | refine keeps_moveRec ?_ | refine keeps_startCopy ?_ | refine keeps_toReverting ?_ | refine keeps_beginRestart ?_

theorem keeps_execFlashWriteDone {s : State} (h : sound s) : soundRes (execFlashWriteDone s) := by
  unfold execFlashWriteDone
  try dsimp only
  with_reducible repeat' first | assumption | refine keeps_updFw ?_ (by rfl) | refine soundRes_next ?_ | refine keeps_settingTakesHold ?_ | refine keeps_appendSetting ?_ | refine keeps_finishRunning ?_ | refine keeps_stageFrom ?_ | split

theorem keeps_fwDistribute {a0} {s : State} (h : sound s) : soundVerdict (fwDistribute a0 s) := by
  unfold fwDistribute
  try dsimp only
  with_reducible repeat' first | assumption | refine keeps_updFw ?_ (by rfl) | refine soundVerdict_ite ?_ ?_ | exact soundVerdict_refuse | refine soundVerdict_done ?_ | refine soundVerdict_wait ?_ | refine keeps_drawn ?_ | refine keeps_distributeFrom ?_

theorem keeps_recoveryActivate {s : State} (h : sound s) : sound (recoveryActivate s) := by
  unfold recoveryActivate
  try dsimp only
  with_reducible repeat' first | assumption | refine keeps_startCopy ?_ | refine keeps_moveRec ?_

theorem keeps_scheduleReverted {a0 a1} {s : State} (h : sound s) : sound (scheduleReverted a0 a1 s) := by
  unfold scheduleReverted
  try dsimp only
  with_reducible repeat' first | assumption | refine keeps_stopSchedule ?_ | refine keeps_drawn ?_ | split

theorem revoked_lt {k r : Nat} (hk : k ≤ 2) (hr : r < 8) : r ||| 2 ^ k < 8 := by
  have h2 : 2 ^ k < 2 ^ 3 := Nat.pow_lt_pow_right (by omega) (by omega)
  exact Nat.or_lt_two_pow (n := 3) hr h2

theorem keeps_keyRevoke {a0} {s : State} (h : sound s) : soundVerdict (keyRevoke a0 s) := by
  unfold keyRevoke
  extract_lets k names
  clear_value k names
  split
  · exact soundVerdict_refuse
  · rename_i hc
    have hk : k ≤ 2 := Nat.le_of_not_lt (fun h2 => hc (by simp only [h2, decide_true, Bool.true_or]))
    clear hc
    split
    · exact soundVerdict_refuse
    split
    · exact soundVerdict_refuse
    refine soundVerdict_done ?_
    refine keeps_raiseEvent ?_
    exact keeps_updFw_at h (flash_of h) (fuses_of h).1 (revoked_lt hk (fuses_of h).2)

theorem keeps_specKeyRevoke : soundSpec specKeyRevoke := by
  intro x s h
  unfold specKeyRevoke
  with_reducible exact keeps_keyRevoke h

theorem keeps_execKeyRevoke {a0} {s : State} (h : sound s) : soundRes (execKeyRevoke a0 s) := by
  unfold execKeyRevoke
  try dsimp only
  with_reducible repeat' first | assumption | exact keeps_specKeyRevoke | refine keeps_runCmd ?_ ?_

theorem keeps_settingsWrite {a0} {s : State} (h : sound s) : soundVerdict (settingsWrite a0 s) := by
  unfold settingsWrite
  try dsimp only
  with_reducible repeat' first | assumption | refine soundVerdict_ite ?_ ?_ | exact soundVerdict_refuse | refine keeps_changeSetting ?_

theorem keeps_execRetiredPageRecord {s : State} (h : sound s) : soundRes (execRetiredPageRecord s) := by
  unfold execRetiredPageRecord
  try dsimp only
  with_reducible repeat' first | assumption | ((fail_if_success (fail_if_success conv => arg 1; arg 30)); refine sound_mk ?_ (by rfl)) | refine soundRes_next ?_ | refine keeps_appendSetting ?_ | split

theorem keeps_onRelayResp {a0} {s : State} (h : sound s) : sound (onRelayResp a0 s) := by
  unfold onRelayResp
  try dsimp only
  with_reducible repeat' first | assumption | refine keeps_finishRunning ?_ | refine keeps_updCrl ?_ | refine keeps_memberStatus ?_ | refine keeps_stopSchedule ?_ | split

theorem keeps_execRelayResp {a0 a1} {s : State} (h : sound s) : soundRes (execRelayResp a0 a1 s) := by
  unfold execRelayResp
  try dsimp only
  with_reducible repeat' first | assumption | refine soundRes_next ?_ | refine keeps_crlReceive ?_ | refine keeps_onRelayResp ?_ | refine sound_of_pair (by assumption) ?_ | split

theorem keeps_verifyDone {a0} {s : State} (h : sound s) : sound (verifyDone a0 s) := by
  unfold verifyDone
  try dsimp only
  with_reducible repeat' first | assumption | refine keeps_finishRunning ?_ | refine sound_foldl ?_ ?_ | intro _

theorem keeps_fwConfirm {a0} {s : State} (h : sound s) : soundVerdict (fwConfirm a0 s) := by
  unfold fwConfirm
  try dsimp only
  with_reducible repeat' first | assumption | refine soundVerdict_ite ?_ ?_ | exact soundVerdict_refuse | refine soundVerdict_done ?_ | refine sound_ite ?_ ?_ | refine keeps_finishConfirm ?_ | refine keeps_moveRec ?_ | refine keeps_ownRelay ?_ | refine sound_foldl ?_ ?_ | intro _

theorem keeps_specFwConfirm : soundSpec specFwConfirm := by
  intro x s h
  unfold specFwConfirm
  with_reducible exact keeps_fwConfirm h

theorem keeps_execFwConfirm {a0} {s : State} (h : sound s) : soundRes (execFwConfirm a0 s) := by
  unfold execFwConfirm
  try dsimp only
  with_reducible repeat' first | assumption | exact keeps_specFwConfirm | refine keeps_runCmd ?_ ?_

theorem keeps_activatePackage {a0} {s : State} (h : sound s) : sound (activatePackage a0 s) := by
  unfold activatePackage
  try dsimp only
  with_reducible repeat' first | assumption | refine keeps_startCopy ?_ | refine keeps_moveRec ?_

theorem keeps_scheduleStep {a0} {s : State} (h : sound s) : sound (scheduleStep a0 s) := by
  induction a0 generalizing s with
  | zero =>
    unfold scheduleStep
    with_reducible repeat' first | assumption | refine ih ?_ | ((fail_if_success (fail_if_success conv => arg 1; arg 30)); refine sound_mk ?_ (by rfl)) | refine keeps_endSchedule ?_ | refine keeps_stopSchedule ?_ | refine keeps_activatePackage ?_ | refine keeps_ownRelay ?_ | split
  | succ fuel ih =>
    unfold scheduleStep
    try dsimp only
    with_reducible repeat' first | assumption | refine ih ?_ | ((fail_if_success (fail_if_success conv => arg 1; arg 30)); refine sound_mk ?_ (by rfl)) | refine keeps_endSchedule ?_ | refine keeps_stopSchedule ?_ | refine keeps_activatePackage ?_ | refine keeps_ownRelay ?_ | split

theorem keeps_fwActivate {a0} {s : State} (h : sound s) : soundVerdict (fwActivate a0 s) := by
  unfold fwActivate
  try dsimp only
  with_reducible repeat' first | assumption | refine keeps_updFw ?_ (by rfl) | exact soundVerdict_refuse | refine soundVerdict_done ?_ | refine soundVerdict_wait ?_ | refine keeps_recoveryActivate ?_ | refine keeps_activatePackage ?_ | refine keeps_scheduleStep ?_ | refine keeps_drawn ?_ | split

theorem keeps_fwStatus {a0} {s : State} (h : sound s) : soundVerdict (fwStatus a0 s) := by
  unfold fwStatus
  try dsimp only
  with_reducible repeat' first | assumption | refine soundVerdict_done ?_

theorem keeps_specAttestQuote : soundSpec specAttestQuote := by
  intro x s h
  unfold specAttestQuote
  with_reducible exact keeps_attestQuote h

theorem keeps_execAttestQuote {a0} {s : State} (h : sound s) : soundRes (execAttestQuote a0 s) := by
  unfold execAttestQuote
  try dsimp only
  with_reducible repeat' first | assumption | exact keeps_specAttestQuote | refine keeps_runCmd ?_ ?_

theorem keeps_formatFlash {s : State} (h : sound s) : sound (formatFlash s) := by
  unfold formatFlash
  try dsimp only
  with_reducible repeat' first | assumption | refine sound_ite ?_ ?_ | refine keeps_writeRec ?_ | refine keeps_flashWrite ?_

theorem keeps_settingsRead {a0} {s : State} (h : sound s) : soundVerdict (settingsRead a0 s) := by
  unfold settingsRead
  try dsimp only
  with_reducible repeat' first | assumption | exact soundVerdict_refuse | refine soundVerdict_done ?_ | split

theorem keeps_specSettingsRead : soundSpec specSettingsRead := by
  intro x s h
  unfold specSettingsRead
  with_reducible exact keeps_settingsRead h

theorem keeps_execSettingsRead {a0} {s : State} (h : sound s) : soundRes (execSettingsRead a0 s) := by
  unfold execSettingsRead
  try dsimp only
  with_reducible repeat' first | assumption | exact keeps_specSettingsRead | refine keeps_runCmd ?_ ?_

theorem keeps_beginVerify {s : State} (h : sound s) : sound (beginVerify s) := by
  unfold beginVerify
  try dsimp only
  with_reducible repeat' first | assumption | refine keeps_updFw ?_ (by rfl) | refine keeps_writeRec ?_

theorem keeps_fwVerify {a0} {s : State} (h : sound s) : soundVerdict (fwVerify a0 s) := by
  unfold fwVerify
  try dsimp only
  with_reducible repeat' first | assumption | refine soundVerdict_ite ?_ ?_ | exact soundVerdict_refuse | refine soundVerdict_wait ?_ | refine keeps_beginVerify ?_

theorem keeps_specFwVerify : soundSpec specFwVerify := by
  intro x s h
  unfold specFwVerify
  with_reducible exact keeps_fwVerify h

theorem keeps_execFwVerify {a0} {s : State} (h : sound s) : soundRes (execFwVerify a0 s) := by
  unfold execFwVerify
  try dsimp only
  with_reducible repeat' first | assumption | exact keeps_specFwVerify | refine keeps_runCmd ?_ ?_

theorem keeps_execFlashOperationTimeout {a0 a1} {s : State} (h : sound s) : soundRes (execFlashOperationTimeout a0 a1 s) := by
  unfold execFlashOperationTimeout
  try dsimp only
  with_reducible repeat' first | assumption | refine soundRes_next ?_ | refine keeps_raiseEvent ?_ | refine keeps_copyFailed ?_ | refine keeps_finishWaiting ?_ | split

theorem keeps_onImageAck {a0} {s : State} (h : sound s) : sound (onImageAck a0 s) := by
  unfold onImageAck
  try dsimp only
  with_reducible repeat' first | assumption | refine keeps_updFw ?_ (by rfl) | refine keeps_distributeFrom ?_ | refine keeps_endDistribution ?_ | refine keeps_ownRelay ?_ | split

theorem keeps_beginStaging {a0} {s : State} (h : sound s) : sound (beginStaging a0 s) := by
  unfold beginStaging
  try dsimp only
  with_reducible repeat' first | assumption | refine keeps_updFw ?_ (by rfl) | refine keeps_formatFlash ?_ | refine keeps_writeRec ?_

theorem keeps_imageAck {a0 a1} {s : State} (h : sound s) : sound (imageAck a0 a1 s) := by
  unfold imageAck
  try dsimp only
  with_reducible repeat' first | assumption | refine sound_ite ?_ ?_ | refine keeps_crlOut ?_ | refine keeps_nextMsg ?_ | refine keeps_flood ?_

theorem keeps_newTransfer {a0 a1} {s : State} (h : sound s) : soundOpt (newTransfer a0 a1 s) := by
  unfold newTransfer
  try dsimp only
  with_reducible repeat' first | assumption | refine keeps_updFw ?_ (by rfl) | exact soundOpt_none | refine soundOpt_some ?_ | refine keeps_beginStaging ?_ | split

theorem keeps_specFwRevert : soundSpec specFwRevert := by
  intro x s h
  unfold specFwRevert
  with_reducible exact keeps_fwRevert h

theorem keeps_execFwRevert {a0} {s : State} (h : sound s) : soundRes (execFwRevert a0 s) := by
  unfold execFwRevert
  try dsimp only
  with_reducible repeat' first | assumption | exact keeps_specFwRevert | refine keeps_runCmd ?_ ?_

theorem keeps_fwDownload {a0} {s : State} (h : sound s) : soundVerdict (fwDownload a0 s) := by
  unfold fwDownload
  try dsimp only
  with_reducible repeat' first | assumption | refine keeps_updFw ?_ (by rfl) | exact soundVerdict_refuse | refine soundVerdict_wait ?_ | refine keeps_beginStaging ?_ | split

theorem keeps_specFwDownload : soundSpec specFwDownload := by
  intro x s h
  unfold specFwDownload
  with_reducible exact keeps_fwDownload h

theorem keeps_execFwDownload {a0} {s : State} (h : sound s) : soundRes (execFwDownload a0 s) := by
  unfold execFwDownload
  try dsimp only
  with_reducible repeat' first | assumption | exact keeps_specFwDownload | refine keeps_runCmd ?_ ?_

theorem keeps_execMember {a0 a1} {s : State} (h : sound s) : soundRes (execMember a0 a1 s) := by
  unfold execMember
  try dsimp only
  with_reducible repeat' first | assumption | refine soundRes_next ?_ | refine keeps_crlReceive ?_ | refine keeps_keepMember ?_ | refine keeps_scheduleStep ?_ | refine keeps_scheduleReverted ?_ | refine keeps_scheduleDone ?_ | refine sound_of_pair (by assumption) ?_ | split

theorem keeps_specFwActivate : soundSpec specFwActivate := by
  intro x s h
  unfold specFwActivate
  with_reducible exact keeps_fwActivate h

theorem keeps_execFwActivate {a0} {s : State} (h : sound s) : soundRes (execFwActivate a0 s) := by
  unfold execFwActivate
  try dsimp only
  with_reducible repeat' first | assumption | exact keeps_specFwActivate | refine keeps_runCmd ?_ ?_

theorem keeps_mgmtBusConfig {a0} {s : State} (h : sound s) : soundVerdict (mgmtBusConfig a0 s) := by
  unfold mgmtBusConfig
  try dsimp only
  with_reducible repeat' first | assumption | refine soundVerdict_ite ?_ ?_ | exact soundVerdict_refuse | refine keeps_changeSetting ?_

theorem keeps_onChunk {a0 a1 a2} {s : State} (h : sound s) : sound (onChunk a0 a1 a2 s) := by
  unfold onChunk
  try dsimp only
  with_reducible repeat' first | assumption | refine keeps_newTransfer ?_ | refine keeps_imageAck ?_ | refine keeps_stageFrom ?_ | refine keeps_emit ?_ | refine keeps_beginVerify ?_ | refine sound_of_some (by assumption) ?_ | split

theorem keeps_execImageChunk {a0 a1} {s : State} (h : sound s) : soundRes (execImageChunk a0 a1 s) := by
  unfold execImageChunk
  try dsimp only
  with_reducible repeat' first | assumption | refine soundRes_next ?_ | refine keeps_crlReceive ?_ | refine keeps_onChunk ?_ | refine sound_of_pair (by assumption) ?_ | split

theorem keeps_specSettingsWrite : soundSpec specSettingsWrite := by
  intro x s h
  unfold specSettingsWrite
  with_reducible exact keeps_settingsWrite h

theorem keeps_execSettingsWrite {a0} {s : State} (h : sound s) : soundRes (execSettingsWrite a0 s) := by
  unfold execSettingsWrite
  try dsimp only
  with_reducible repeat' first | assumption | exact keeps_specSettingsWrite | refine keeps_runCmd ?_ ?_

theorem keeps_specFwStatus : soundSpec specFwStatus := by
  intro x s h
  unfold specFwStatus
  with_reducible exact keeps_fwStatus h

theorem keeps_execFwStatus {a0} {s : State} (h : sound s) : soundRes (execFwStatus a0 s) := by
  unfold execFwStatus
  try dsimp only
  with_reducible repeat' first | assumption | exact keeps_specFwStatus | refine keeps_runCmd ?_ ?_

theorem keeps_specFwDistribute : soundSpec specFwDistribute := by
  intro x s h
  unfold specFwDistribute
  with_reducible exact keeps_fwDistribute h

theorem keeps_execFwDistribute {a0} {s : State} (h : sound s) : soundRes (execFwDistribute a0 s) := by
  unfold execFwDistribute
  try dsimp only
  with_reducible repeat' first | assumption | exact keeps_specFwDistribute | refine keeps_runCmd ?_ ?_

theorem keeps_execVerificationComplete {s : State} (h : sound s) : soundRes (execVerificationComplete s) := by
  unfold execVerificationComplete
  try dsimp only
  with_reducible repeat' first | assumption | refine keeps_updFw ?_ (by rfl) | refine soundRes_next ?_ | refine sound_ite ?_ ?_ | refine keeps_writeRec ?_ | refine keeps_raiseEvent ?_ | refine keeps_verifyDone ?_ | refine keeps_recoveryActivate ?_

theorem keeps_specMgmtBusConfig : soundSpec specMgmtBusConfig := by
  intro x s h
  unfold specMgmtBusConfig
  with_reducible exact keeps_mgmtBusConfig h

theorem keeps_execMgmtBusConfig {a0} {s : State} (h : sound s) : soundRes (execMgmtBusConfig a0 s) := by
  unfold execMgmtBusConfig
  try dsimp only
  with_reducible repeat' first | assumption | exact keeps_specMgmtBusConfig | refine keeps_runCmd ?_ ?_

theorem keeps_execSettingsCompaction {s : State} (h : sound s) : soundRes (execSettingsCompaction s) := by
  unfold execSettingsCompaction
  try dsimp only
  with_reducible repeat' first | assumption | refine soundRes_next ?_ | refine keeps_writeSnapshot ?_ | split

theorem keeps_execImageAck {a0 a1} {s : State} (h : sound s) : soundRes (execImageAck a0 a1 s) := by
  unfold execImageAck
  try dsimp only
  with_reducible repeat' first | assumption | refine soundRes_next ?_ | refine keeps_onImageAck ?_ | refine keeps_crlReceive ?_ | refine sound_of_pair (by assumption) ?_ | split

theorem keeps_sysInfo {a0} {s : State} (h : sound s) : soundVerdict (sysInfo a0 s) := by
  unfold sysInfo
  try dsimp only
  with_reducible repeat' first | assumption | refine soundVerdict_done ?_

theorem keeps_specSysInfo : soundSpec specSysInfo := by
  intro x s h
  unfold specSysInfo
  with_reducible exact keeps_sysInfo h

theorem keeps_execSysInfo {a0} {s : State} (h : sound s) : soundRes (execSysInfo a0 s) := by
  unfold execSysInfo
  try dsimp only
  with_reducible repeat' first | assumption | exact keeps_specSysInfo | refine keeps_runCmd ?_ ?_

theorem keeps_eventBind {a0} {s : State} (h : sound s) : soundVerdict (eventBind a0 s) := by
  unfold eventBind
  try dsimp only
  with_reducible repeat' first | assumption | refine keeps_updFn ?_ (fun _ => by rfl) | exact soundVerdict_refuse | refine soundVerdict_done ?_ | refine keeps_flushEvents ?_ | split

theorem keeps_specEventBind : soundSpec specEventBind := by
  intro x s h
  unfold specEventBind
  with_reducible exact keeps_eventBind h

theorem keeps_execEventBind {a0} {s : State} (h : sound s) : soundRes (execEventBind a0 s) := by
  unfold execEventBind
  try dsimp only
  with_reducible repeat' first | assumption | exact keeps_specEventBind | refine keeps_runCmd ?_ ?_

theorem keeps_execManagementRestart {a0} {s : State} (h : sound s) : soundRes (execManagementRestart a0 s) := by
  unfold execManagementRestart
  try dsimp only
  with_reducible repeat' first | assumption | refine soundRes_next ?_ | refine keeps_beginRestart ?_ | split

theorem keeps_journalRead {a0} {s : State} (h : sound s) : soundVerdict (journalRead a0 s) := by
  unfold journalRead
  try dsimp only
  with_reducible repeat' first | assumption | ((fail_if_success (fail_if_success conv => arg 1; arg 30)); refine sound_mk ?_ (by rfl)) | refine soundVerdict_ite ?_ ?_ | exact soundVerdict_refuse | refine soundVerdict_done ?_ | refine soundVerdict_wait ?_ | refine sound_ite ?_ ?_ | refine sound_foldl ?_ ?_ | refine sound_of_pair (by assumption) ?_ | refine sound_of_some (by assumption) ?_ | refine sound_of_somePair (by assumption) ?_ | split | dsimp only | intro _

theorem keeps_specJournalRead : soundSpec specJournalRead := by
  intro x s h
  unfold specJournalRead
  with_reducible exact keeps_journalRead h

theorem keeps_execJournalRead {a0} {s : State} (h : sound s) : soundRes (execJournalRead a0 s) := by
  unfold execJournalRead
  try dsimp only
  with_reducible repeat' first | assumption | exact keeps_specJournalRead | refine keeps_runCmd ?_ ?_

theorem keeps_sysRestart {a0} {s : State} (h : sound s) : soundVerdict (sysRestart a0 s) := by
  unfold sysRestart
  try dsimp only
  with_reducible repeat' first | assumption | ((fail_if_success (fail_if_success conv => arg 1; arg 30)); refine sound_mk ?_ (by rfl)) | refine soundVerdict_ite ?_ ?_ | exact soundVerdict_refuse | refine soundVerdict_done ?_

theorem keeps_countFailedStart {s : State} (h : sound s) : sound (countFailedStart s) := by
  unfold countFailedStart
  try dsimp only
  with_reducible repeat' first | assumption | refine keeps_updFw ?_ (by rfl)

theorem keeps_execWatchdogExpiry {s : State} (h : sound s) : soundRes (execWatchdogExpiry s) := by
  unfold execWatchdogExpiry
  try dsimp only
  with_reducible repeat' first | assumption | refine soundRes_next ?_ | refine sound_ite ?_ ?_ | refine keeps_advanceTo ?_ | refine keeps_beginRestart ?_ | refine keeps_bootImage ?_ | refine keeps_countFailedStart ?_

theorem keeps_specSysRestart : soundSpec specSysRestart := by
  intro x s h
  unfold specSysRestart
  with_reducible exact keeps_sysRestart h

theorem keeps_execSysRestart {a0} {s : State} (h : sound s) : soundRes (execSysRestart a0 s) := by
  unfold execSysRestart
  try dsimp only
  with_reducible repeat' first | assumption | exact keeps_specSysRestart | refine keeps_runCmd ?_ ?_

end Sys2Proof.Laws
end

