-- ==== Sys2Proof/Laws/KeepsPower.lean ====
section
/-! SUPPORT. The operations keep sound states sound: power, faults, Hum and the memories. One lemma for each definition of those files. -/

namespace Sys2Proof.Laws
open Sys2Proof Sys2Proof.Machine

theorem keeps_updHum {a0 a1} {s : State} (h : sound s) : sound (updHum a0 a1 s) := by
  unfold updHum
  try dsimp only
  with_reducible repeat' first | assumption | refine keeps_updPwr ?_ (by rfl) | ((fail_if_success (fail_if_success conv => arg 1; arg 30)); refine sound_mk ?_ (by rfl)) | refine sound_ite ?_ ?_ | refine sound_foldl ?_ ?_ | refine sound_of_pair (by assumption) ?_ | refine sound_of_some (by assumption) ?_ | refine sound_of_somePair (by assumption) ?_ | split | dsimp only | intro _

theorem keeps_humPass {a0 a1} {s : State} (h : sound s) : sound (humPass a0 a1 s) := by
  unfold humPass
  try dsimp only
  with_reducible repeat' first | assumption | refine keeps_updHum ?_ | refine keeps_drawn ?_

theorem keeps_nextInstant {a0} {s : State} (h : sound s) : sound (nextInstant a0 s) := by
  unfold nextInstant
  try dsimp only
  with_reducible repeat' first | assumption | refine keeps_advanceTempo ?_

theorem keeps_humOverrun {a0} {s : State} (h : sound s) : sound (humOverrun a0 s) := by
  unfold humOverrun
  try dsimp only
  with_reducible repeat' first | assumption | ((fail_if_success (fail_if_success conv => arg 1; arg 30)); refine sound_mk ?_ (by rfl)) | refine sound_ite ?_ ?_ | refine keeps_raiseEvent ?_ | refine keeps_updHum ?_ | refine sound_foldl ?_ ?_ | refine sound_of_pair (by assumption) ?_ | refine sound_of_some (by assumption) ?_ | refine sound_of_somePair (by assumption) ?_ | split | dsimp only | intro _

theorem keeps_humStart {a0 a1 a2} {s : State} (fa2 : ∀ x0, sound x0 → sound (a2 x0)) (h : sound s) : sound (humStart a0 a1 a2 s) := by
  unfold humStart
  try dsimp only
  with_reducible repeat' first | assumption | ((fail_if_success (fail_if_success conv => arg 1; arg 30)); refine sound_mk ?_ (by rfl)) | refine sound_ite ?_ ?_ | refine keeps_nextInstant ?_ | refine keeps_humOverrun ?_ | refine fa2 _ ?_ | refine sound_foldl ?_ ?_ | refine sound_of_pair (by assumption) ?_ | refine sound_of_some (by assumption) ?_ | refine sound_of_somePair (by assumption) ?_ | split | dsimp only | intro _

theorem keeps_noteLevel {s : State} (h : sound s) : sound (noteLevel s) := by
  unfold noteLevel
  try dsimp only
  with_reducible repeat' first | assumption | refine keeps_updPwr ?_ (by rfl)

theorem keeps_levelChanged {a0} {s : State} (h : sound s) : sound (levelChanged a0 s) := by
  unfold levelChanged
  try dsimp only
  with_reducible repeat' first | assumption | refine keeps_noteLevel ?_ | refine keeps_raiseGlb ?_ | refine keeps_raiseEvent ?_

theorem keeps_enterLevel {k} {s : State} (hk : k ≤ 5) (h : sound s) : sound (enterLevel k s) := by
  obtain ⟨l1, l2, l3, l4, l5⟩ := legal_of h
  have h0 : sound (updPwr (fun p => { p with level := k }) s) := sound_pwr h (bounded_of h).2.2.2.2.2.2 l1 l2 l3 l4 hk
  have h1 := keeps_tally (a0 := ctrId 9 0 (k - 1)) h0
  unfold enterLevel
  dsimp only
  exact sound_ite (sound_mk h1 rfl) (sound_ite (keeps_disableSpill h1) (sound_ite (keeps_updPwr h1 rfl)
    (sound_ite (keeps_haltData (keeps_protFail (keeps_updPwr h1 rfl))) h1)))

theorem keeps_raiseLevel {r} {s : State} (hr : r ≤ 5) (h : sound s) : sound (raiseLevel r s) := by
  unfold raiseLevel
  refine keeps_levelChanged (sound_foldl_mem (fun t k hk => keeps_enterLevel ?_) (keeps_updPwr h rfl))
  have hk := List.mem_range.1 hk
  omega

/-- The highest request is below S5. -/
theorem highestAsk_le {s : State} (h : sound s) : highestAsk s.pwr ≤ 4 := by
  obtain ⟨l1, l2, l3, l4, l5⟩ := legal_of h
  have h4 : (if s.pwr.railLow = true then 4 else 0) ≤ 4 := by split <;> decide
  unfold highestAsk
  exact Nat.max_le.2 ⟨Nat.max_le.2 ⟨by omega, l2⟩, Nat.max_le.2 ⟨Nat.max_le.2 ⟨l3, by omega⟩, h4⟩⟩

theorem keeps_settleShed {s : State} (h : sound s) : sound (settleShed s) := by
  unfold settleShed
  dsimp only
  exact sound_ite h (sound_ite (keeps_raiseLevel (Nat.le_succ_of_le (highestAsk_le h)) h)
    (sound_ite (keeps_updPwr h rfl) (keeps_updPwr h rfl)))

theorem keeps_execShedRequestChange {a0} {s : State} (h : sound s) : soundRes (execShedRequestChange a0 s) := by
  obtain ⟨l1, l2, l3, l4, l5⟩ := legal_of h
  unfold execShedRequestChange
  exact soundRes_next (sound_ite (keeps_settleShed (sound_pwr h (bounded_of h).2.2.2.2.2.2
    (Nat.le_of_lt_succ (Nat.mod_lt a0 (by decide))) l2 l3 l4 l5)) h)

theorem keeps_leaveS2 {s : State} (h : sound s) : sound (leaveS2 s) := by
  unfold leaveS2
  try dsimp only
  with_reducible repeat' first | assumption | ((fail_if_success (fail_if_success conv => arg 1; arg 30)); refine sound_mk ?_ (by rfl)) | refine sound_ite ?_ ?_ | refine keeps_enableSpill ?_ | refine keeps_raiseEvent ?_

theorem keeps_leaveS4 {s : State} (h : sound s) : sound (leaveS4 s) := by
  unfold leaveS4
  try dsimp only
  with_reducible repeat' first | assumption | refine keeps_updPwr ?_ (by rfl) | refine sound_ite ?_ ?_ | refine keeps_applyLanes ?_

theorem keeps_exitLevel {k} {s : State} (hk : k ≤ 5) (h : sound s) : sound (exitLevel k s) := by
  obtain ⟨l1, l2, l3, l4, l5⟩ := legal_of h
  have h1 : sound (updPwr (fun p => { p with level := k - 1 }) s) :=
    sound_pwr h (bounded_of h).2.2.2.2.2.2 l1 l2 l3 l4 (Nat.le_trans (Nat.sub_le k 1) hk)
  unfold exitLevel
  dsimp only
  exact sound_ite (sound_mk h1 rfl) (sound_ite (keeps_leaveS2 h1) (sound_ite (keeps_updPwr h1 rfl) (sound_ite (keeps_leaveS4 h1) h1)))

theorem keeps_execShedLevelDecay {s : State} (h : sound s) : soundRes (execShedLevelDecay s) := by
  unfold execShedLevelDecay
  refine soundRes_next ?_
  split
  · exact h
  · exact sound_ite h (keeps_settleShed (keeps_levelChanged (keeps_exitLevel (legal_of h).2.2.2.2 (keeps_updPwr (keeps_advanceTo h) rfl))))

theorem keeps_setShed {f k} {s : State} (hf : f ≤ 4) (h : sound s) : sound (setShed f k s) := by
  obtain ⟨l1, l2, l3, l4, l5⟩ := legal_of h
  have h1 : sound (updPwr (fun p => { p with floor := f, keepRank := k }) s) :=
    sound_pwr h (bounded_of h).2.2.2.2.2.2 l1 hf l3 l4 l5
  exact keeps_settleShed (sound_ite (keeps_updPwr h1 rfl) h1)

theorem keeps_powerShedConfig {a0} {s : State} (h : sound s) : soundVerdict (powerShedConfig a0 s) := by
  unfold powerShedConfig
  split
  · exact soundVerdict_refuse
  · rename_i hk
    have hf : par a0 0 1 ≤ 4 := by
      simp only [Bool.or_eq_true, decide_eq_true_eq, not_or] at hk
      omega
    exact soundVerdict_done (keeps_setShed hf h)

theorem keeps_goQuiet {s : State} (h : sound s) : sound (goQuiet s) := by
  unfold goQuiet
  try dsimp only
  with_reducible repeat' first | assumption | refine keeps_updFn ?_ (fun _ => by rfl) | ((fail_if_success (fail_if_success conv => arg 1; arg 30)); refine sound_mk ?_ (by rfl))

theorem keeps_writeKnell {a0} {s : State} (h : sound s) : sound (writeKnell a0 s) := by
  unfold writeKnell
  try dsimp only
  with_reducible repeat' first | assumption | refine sound_ite ?_ ?_ | refine keeps_drawn ?_ | refine keeps_flashWrite ?_

theorem keeps_enterS5 {a0} {s : State} (h : sound s) : sound (enterS5 a0 s) := by
  have h1 := keeps_writeKnell (a0 := a0) h
  obtain ⟨l1, l2, l3, l4, l5⟩ := legal_of h1
  have h2 : sound (updPwr (fun p => { p with level := 5, belowSince := none, toSleep := [], toWake := [] }) (writeKnell a0 s)) :=
    sound_pwr h1 (bounded_of h1).2.2.2.2.2.2 l1 l2 l3 l4 (Nat.le_refl 5)
  unfold enterS5
  exact sound_ite h (keeps_goQuiet (sound_ite h2 (keeps_haltData h2)))

theorem keeps_execS3DormantStep {s : State} (h : sound s) : soundRes (execS3DormantStep s) := by
  unfold execS3DormantStep
  try dsimp only
  with_reducible repeat' first | assumption | refine keeps_updPwr ?_ (by rfl) | refine soundRes_next ?_ | refine keeps_sleepItem ?_ | refine keeps_tickBy ?_ | refine keeps_wakeItem ?_ | split

theorem keeps_crossings {a0 a1 a2 a3} {s : State} (h : sound s) : sound (crossings a0 a1 a2 a3 s) := by
  unfold crossings
  try dsimp only
  with_reducible repeat' first | assumption | refine sound_ite ?_ ?_ | refine keeps_raiseEvent ?_ | refine sound_foldl ?_ ?_ | intro _

theorem keeps_knellRead {a0} {s : State} (h : sound s) : soundVerdict (knellRead a0 s) := by
  unfold knellRead
  try dsimp only
  with_reducible repeat' first | assumption | exact soundVerdict_refuse | refine soundVerdict_done ?_ | split

theorem keeps_eraseKnell {s : State} (h : sound s) : sound (eraseKnell s) := by
  unfold eraseKnell
  try dsimp only
  with_reducible repeat' first | assumption | refine sound_ite ?_ ?_ | refine keeps_flashErase ?_

theorem keeps_execKnellSectorErase {s : State} (h : sound s) : soundRes (execKnellSectorErase s) := by
  unfold execKnellSectorErase
  try dsimp only
  with_reducible repeat' first | assumption | refine soundRes_next ?_ | refine sound_ite ?_ ?_ | refine keeps_eraseKnell ?_

theorem keeps_powerFails {s : State} (h : sound s) : sound (powerFails s) := by
  unfold powerFails
  try dsimp only
  with_reducible repeat' first | assumption | refine keeps_updPwr ?_ (by rfl) | refine keeps_enterS5 ?_

theorem keeps_railStep {a0} {s : State} (h : sound s) : sound (railStep a0 s) := by
  unfold railStep
  try dsimp only
  with_reducible repeat' first | assumption | refine keeps_updPwr ?_ (by rfl) | split

theorem keeps_humDone {a0} {s : State} (h : sound s) : sound (humDone a0 s) := by
  unfold humDone
  try dsimp only
  with_reducible repeat' first | assumption | ((fail_if_success (fail_if_success conv => arg 1; arg 30)); refine sound_mk ?_ (by rfl)) | refine sound_ite ?_ ?_ | refine keeps_updHum ?_ | refine sound_foldl ?_ ?_ | refine sound_of_pair (by assumption) ?_ | refine sound_of_some (by assumption) ?_ | refine sound_of_somePair (by assumption) ?_ | split | dsimp only | intro _

theorem hbmLevel_le (l : List Int) (w : Nat) : hbmLevel l w ≤ 2 := by unfold hbmLevel; split <;> decide

theorem dieLevel_le (t : Int) (w : Nat) : dieLevel t w ≤ 4 := by
  unfold dieLevel
  have key : ∀ (l : List Nat) (m : Nat), (∀ k ∈ l, k < 4) → m ≤ 4 → l.foldl (fun m k => max m (k + 1)) m ≤ 4 := by
    intro l
    induction l with
    | nil => exact fun m _ hm => hm
    | cons k l ih =>
      intro m hl hm
      exact ih _ (fun j hj => hl j (List.mem_cons_of_mem k hj)) (Nat.max_le.2 ⟨hm, hl k List.mem_cons_self⟩)
  exact key _ 0 (fun k hk => List.mem_range.1 (List.mem_filter.1 hk).1) (Nat.zero_le 4)

theorem keeps_sensed {s : State} {m : Mem} {x y : Int} {r : Nat} {u : List Int} (h : sound s) :
    sound (updPwr (fun p => { p with tempFd := x, tempQd := y, rail := r, dieAsk := dieLevel (max x y) p.dieAsk, hbmAsk := hbmLevel u p.hbmAsk })
      { s with mem := m }) := by
  obtain ⟨l1, l2, l3, l4, l5⟩ := legal_of h
  exact sound_pwr (sound_mem h) (bounded_of h).2.2.2.2.2.2 l1 l2 (dieLevel_le _ _) (hbmLevel_le _ _) l5

theorem keeps_sampled {s : State} {r : Nat} {l : List Int} {p q x y : Int} {f g : Nat → Int} (h : sound s) : sound (
   let s3 := railStep r (if s.pwr.level = 0 then humDone 5 (humDone 0 s) else humDone 0 s)
      if 5 ≤ s3.pwr.level then s3
      else settleShed ((List.range 4).foldl (fun s k => crossings (2 + k) [95] (f k) (g k) s) (crossings 1 l p x (crossings 0 l q y s3)))) := by
  extract_lets s3
  have h3 : sound s3 := keeps_railStep (sound_ite (keeps_humDone (keeps_humDone h)) (keeps_humDone h))
  exact sound_ite h3 (keeps_settleShed (sound_foldl (f := fun s k => crossings (2 + k) [95] (f k) (g k) s) (fun s k hs => keeps_crossings hs) (keeps_crossings (keeps_crossings h3))))

theorem keeps_execSensorSample {a0 a1 a2} {s : State} (h : sound s) : soundRes (execSensorSample a0 a1 a2 s) := by
  unfold execSensorSample
  refine soundRes_next (sound_ite h ?_)
  have h1 : sound (nextInstant 1000000 s) := keeps_nextInstant h
  generalize nextInstant 1000000 s = s1 at h1 ⊢
  exact keeps_sampled (keeps_sensed h1)

theorem keeps_forgetPowerSettings {s : State} (h : sound s) : sound (forgetPowerSettings s) :=
  keeps_setShed (Nat.zero_le 4) (keeps_updPwr h rfl)

theorem keeps_powerStatus {a0} {s : State} (h : sound s) : soundVerdict (powerStatus a0 s) := by
  unfold powerStatus
  try dsimp only
  with_reducible repeat' first | assumption | refine soundVerdict_done ?_

theorem keeps_execPwrFailNAccepted {s : State} (h : sound s) : soundRes (execPwrFailNAccepted s) := by
  unfold execPwrFailNAccepted
  try dsimp only
  with_reducible repeat' first | assumption | refine soundRes_next ?_ | refine sound_ite ?_ ?_ | refine keeps_powerFails ?_

theorem keeps_specKnellRead : soundSpec specKnellRead := by
  intro x s h
  unfold specKnellRead
  with_reducible exact keeps_knellRead h

theorem keeps_execKnellRead {a0} {s : State} (h : sound s) : soundRes (execKnellRead a0 s) := by
  unfold execKnellRead
  try dsimp only
  with_reducible repeat' first | assumption | exact keeps_specKnellRead | refine keeps_runCmd ?_ ?_

theorem keeps_execThermalTrip {s : State} (h : sound s) : soundRes (execThermalTrip s) := by
  unfold execThermalTrip
  try dsimp only
  with_reducible repeat' first | assumption | refine keeps_updPwr ?_ (by rfl) | refine soundRes_next ?_ | refine sound_ite ?_ ?_ | refine keeps_emit ?_ | refine keeps_enterS5 ?_

theorem keeps_specPowerShedConfig : soundSpec specPowerShedConfig := by
  intro x s h
  unfold specPowerShedConfig
  with_reducible exact keeps_powerShedConfig h

theorem keeps_execPowerShedConfig {a0} {s : State} (h : sound s) : soundRes (execPowerShedConfig a0 s) := by
  unfold execPowerShedConfig
  try dsimp only
  with_reducible repeat' first | assumption | exact keeps_specPowerShedConfig | refine keeps_runCmd ?_ ?_

theorem keeps_specPowerStatus : soundSpec specPowerStatus := by
  intro x s h
  unfold specPowerStatus
  with_reducible exact keeps_powerStatus h

theorem keeps_execPowerStatus {a0} {s : State} (h : sound s) : soundRes (execPowerStatus a0 s) := by
  unfold execPowerStatus
  try dsimp only
  with_reducible repeat' first | assumption | exact keeps_specPowerStatus | refine keeps_runCmd ?_ ?_

theorem keeps_loseInLeaf {a0 a1} {s : State} (h : sound s) : sound (loseInLeaf a0 a1 s) := by
  unfold loseInLeaf
  try dsimp only
  with_reducible repeat' first | assumption | refine sound_ite ?_ ?_ | refine keeps_directDone ?_ | refine keeps_endPkt ?_ | refine keeps_dropCause ?_ | refine keeps_setLeaf ?_ | refine sound_foldl ?_ ?_ | intro _

theorem keeps_loseOnBridge {a0} {s : State} (h : sound s) : sound (loseOnBridge a0 s) := by
  unfold loseOnBridge
  try dsimp only
  with_reducible repeat' first | assumption | ((fail_if_success (fail_if_success conv => arg 1; arg 30)); refine sound_mk ?_ (by rfl)) | refine keeps_dropXfer ?_ | refine sound_foldl ?_ ?_ | intro _

theorem keeps_loseContext {a0 a1} {s : State} (h : sound s) : sound (loseContext a0 a1 s) := by
  unfold loseContext
  try dsimp only
  with_reducible repeat' first | assumption | refine keeps_raiseEvent ?_ | refine keeps_tally ?_ | refine keeps_dropFlow ?_ | split

theorem keeps_loseQueue {a0 a1} {s : State} (h : sound s) : sound (loseQueue a0 a1 s) := by
  unfold loseQueue
  try dsimp only
  with_reducible repeat' first | assumption | refine sound_ite ?_ ?_ | refine keeps_raiseEvent ?_ | refine keeps_checkHbmIdle ?_ | refine keeps_emptyVoqOf ?_ | refine keeps_bump ?_ | refine keeps_directDone ?_ | refine keeps_endPkt ?_ | refine keeps_dropCause ?_ | refine keeps_setLeaf ?_ | refine keeps_emptyPunt ?_ | refine sound_foldl ?_ ?_ | intro _

theorem keeps_bufError {s : State} (h : sound s) : sound (bufError s) := by
  unfold bufError
  try dsimp only
  with_reducible repeat' first | assumption | refine keeps_tally ?_

theorem keeps_countUe {a0} {s : State} (h : sound s) : sound (countUe a0 s) := by
  unfold countUe
  try dsimp only
  with_reducible repeat' first | assumption | refine keeps_updPwr ?_ (by rfl) | refine sound_ite ?_ ?_ | refine keeps_fatalReport ?_

theorem keeps_refillState {a0 a1} {s : State} (h : sound s) : sound (refillState a0 a1 s) := by
  unfold refillState
  try dsimp only
  with_reducible repeat' first | assumption | ((fail_if_success (fail_if_success conv => arg 1; arg 30)); refine sound_mk ?_ (by rfl)) | refine sound_ite ?_ ?_

theorem keeps_loseDelta {a0} {s : State} (h : sound s) : sound (loseDelta a0 s) :=
  sound_mk (s := { s with ctrs := aset s.ctrs a0 (min (ctr a0 s) (agetD s.toll.snap a0 0)) }) (sound_ctrs h (awf_aset _ _ (ctrs_of h))) rfl

theorem keeps_loseRx {a0} {s : State} (h : sound s) : sound (loseRx a0 s) := by
  unfold loseRx
  try dsimp only
  with_reducible repeat' first | assumption | refine keeps_checkXoff ?_ | refine keeps_updMac ?_ | refine keeps_dropCause ?_ | split

theorem keeps_loseTx {a0} {s : State} (h : sound s) : sound (loseTx a0 s) := by
  unfold loseTx
  try dsimp only
  with_reducible repeat' first | assumption | refine keeps_endPkt ?_ | refine keeps_dropCause ?_ | refine keeps_updMac ?_ | split

theorem keeps_loseReadBack {a0} {s : State} (h : sound s) : sound (loseReadBack a0 s) := by
  unfold loseReadBack
  try dsimp only
  with_reducible repeat' first | assumption | refine keeps_settleCredit ?_ | refine keeps_checkUnspill ?_ | refine keeps_discardVoq ?_ | refine keeps_updVoq ?_ | split

theorem keeps_loseInVoq {a0 a1} {s : State} (h : sound s) : sound (loseInVoq a0 a1 s) := by
  unfold loseInVoq
  try dsimp only
  with_reducible repeat' first | assumption | refine sound_ite ?_ ?_ | refine keeps_updVoq ?_ | refine keeps_setSegment ?_ | refine keeps_settleCredit ?_ | refine keeps_checkUnspill ?_ | refine keeps_discardVoq ?_ | refine sound_foldl ?_ ?_ | intro _

theorem keeps_loseInPunt {a0 a1} {s : State} (h : sound s) : sound (loseInPunt a0 a1 s) := by
  unfold loseInPunt
  try dsimp only
  with_reducible repeat' first | assumption | ((fail_if_success (fail_if_success conv => arg 1; arg 30)); refine sound_mk ?_ (by rfl)) | refine sound_ite ?_ ?_ | refine keeps_unref ?_ | refine keeps_dropCause ?_ | refine sound_foldl ?_ ?_ | intro _

theorem keeps_loseInTxq {a0 a1} {s : State} (h : sound s) : sound (loseInTxq a0 a1 s) := by
  unfold loseInTxq
  try dsimp only
  with_reducible repeat' first | assumption | refine keeps_endPkt ?_ | refine keeps_dropCause ?_ | refine keeps_updMac ?_ | refine sound_foldl ?_ ?_ | split | intro _

theorem keeps_loseStored {a0} {s : State} (h : sound s) : sound (loseStored a0 s) := by
  unfold loseStored
  try dsimp only
  with_reducible repeat' first | assumption | refine keeps_loseInVoq ?_ | refine keeps_loseInLeaf ?_ | refine keeps_loseInPunt ?_ | refine keeps_loseInTxq ?_ | refine keeps_loseOnBridge ?_ | refine sound_foldl ?_ ?_ | intro _

theorem keeps_losePacket {a0 a1} {s : State} (h : sound s) : sound (losePacket a0 a1 s) := by
  unfold losePacket
  try dsimp only
  with_reducible repeat' first | assumption | refine sound_ite ?_ ?_ | refine keeps_bufError ?_ | refine keeps_loseRx ?_ | refine keeps_loseTx ?_ | refine keeps_loseReadBack ?_ | refine keeps_loseStored ?_

theorem keeps_loseCell {a0 a1} {s : State} (h : sound s) : sound (loseCell a0 a1 s) := by
  unfold loseCell
  try dsimp only
  with_reducible repeat' first | assumption | ((fail_if_success (fail_if_success conv => arg 1; arg 30)); refine sound_mk ?_ (by rfl)) | refine keeps_settleStream ?_ | split

theorem keeps_zeroSched {a0 a1} {s : State} (h : sound s) : sound (zeroSched a0 a1 s) := by
  unfold zeroSched
  try dsimp only
  with_reducible repeat' first | assumption | ((fail_if_success (fail_if_success conv => arg 1; arg 30)); refine sound_mk ?_ (by rfl)) | refine sound_ite ?_ ?_ | refine keeps_setShaper ?_

theorem keeps_containWord {a0} {s : State} (h : sound s) : sound (containWord a0 s) := by
  unfold containWord
  try dsimp only
  with_reducible repeat' first | assumption | refine keeps_updPwr ?_ (by rfl) | refine keeps_refillState ?_ | refine keeps_loseDelta ?_ | refine keeps_loseContext ?_ | refine keeps_losePacket ?_ | refine keeps_loseCell ?_ | refine keeps_loseQueue ?_ | refine keeps_zeroSched ?_ | refine keeps_beginRestart ?_ | refine keeps_fatalReport ?_ | split

theorem keeps_sramError {a0} {s : State} (h : sound s) : sound (sramError a0 s) := by
  unfold sramError
  try dsimp only
  with_reducible repeat' first | assumption | refine sound_ite ?_ ?_ | refine keeps_tally ?_ | refine keeps_countUe ?_ | refine keeps_containWord ?_ | refine keeps_raiseEvent ?_

theorem keeps_storeInjection {s : State} (h : sound s) : sound (storeInjection s) := by
  unfold storeInjection
  try dsimp only
  with_reducible repeat' first | assumption | ((fail_if_success (fail_if_success conv => arg 1; arg 30)); refine sound_mk ?_ (by rfl)) | split

theorem keeps_setCtx {a0 a1} {s : State} (h : sound s) : sound (setCtx a0 a1 s) := by
  unfold setCtx
  try dsimp only
  with_reducible repeat' first | assumption | refine keeps_updPwr ?_ (by rfl)

theorem keeps_endScan {a0} {s : State} (h : sound s) : sound (endScan a0 s) := by
  unfold endScan
  try dsimp only
  with_reducible repeat' first | assumption | refine keeps_updPwr ?_ (by rfl) | refine keeps_setCtx ?_

theorem keeps_execTcamScrubPass {a0} {s : State} (h : sound s) : soundRes (execTcamScrubPass a0 s) := by
  unfold execTcamScrubPass
  try dsimp only
  with_reducible repeat' first | assumption | ((fail_if_success (fail_if_success conv => arg 1; arg 30)); refine sound_mk ?_ (by rfl)) | refine soundRes_next ?_ | refine sound_ite ?_ ?_ | refine keeps_humStart ?_ ?_ | refine keeps_humPass ?_ | refine keeps_bump ?_ | refine sound_foldl ?_ ?_ | refine sound_of_pair (by assumption) ?_ | refine sound_of_some (by assumption) ?_ | refine sound_of_somePair (by assumption) ?_ | split | dsimp only | intro _

theorem keeps_auditContextRead {a0} {s : State} (h : sound s) : soundVerdict (auditContextRead a0 s) := by
  unfold auditContextRead
  try dsimp only
  with_reducible repeat' first | assumption | refine soundVerdict_ite ?_ ?_ | exact soundVerdict_refuse | refine soundVerdict_done ?_

theorem keeps_specAuditContextRead : soundSpec specAuditContextRead := by
  intro x s h
  unfold specAuditContextRead
  with_reducible exact keeps_auditContextRead h

theorem keeps_execAuditContextRead {a0} {s : State} (h : sound s) : soundRes (execAuditContextRead a0 s) := by
  unfold execAuditContextRead
  try dsimp only
  with_reducible repeat' first | assumption | exact keeps_specAuditContextRead | refine keeps_runCmd ?_ ?_

theorem keeps_teruoContext {a0 a1} {s : State} (h : sound s) : sound (teruoContext a0 a1 s) := by
  unfold teruoContext
  try dsimp only
  with_reducible repeat' first | assumption | refine keeps_setCtx ?_ | refine keeps_drawn ?_

theorem keeps_patrolSlot {a0} {s : State} (h : sound s) : sound (patrolSlot a0 s) := by
  unfold patrolSlot
  try dsimp only
  with_reducible repeat' first | assumption | refine sound_ite ?_ ?_ | refine keeps_raiseEvent ?_

theorem keeps_auditMismatch {a0 a1 a2} {s : State} (h : sound s) : sound (auditMismatch a0 a1 a2 s) := by
  unfold auditMismatch
  try dsimp only
  with_reducible repeat' first | assumption | refine keeps_updPwr ?_ (by rfl) | refine sound_ite ?_ ?_ | refine keeps_sendMsix ?_ | refine keeps_raiseEvent ?_

theorem keeps_teruoMismatch {a0} {s : State} (h : sound s) : sound (teruoMismatch a0 s) := by
  unfold teruoMismatch
  try dsimp only
  with_reducible repeat' first | assumption | refine keeps_auditMismatch ?_ | refine keeps_drawn ?_

theorem keeps_execFlashPatrol {s : State} (h : sound s) : soundRes (execFlashPatrol s) := by
  unfold execFlashPatrol
  try dsimp only
  with_reducible repeat' first | assumption | refine soundRes_next ?_ | refine sound_ite ?_ ?_ | refine keeps_humStart ?_ ?_ | refine keeps_teruoContext ?_ | refine keeps_patrolSlot ?_ | refine keeps_humPass ?_ | refine keeps_teruoMismatch ?_ | refine sound_foldl ?_ ?_ | intro _

theorem keeps_execBufferAuditPass {s : State} (h : sound s) : soundRes (execBufferAuditPass s) := by
  unfold execBufferAuditPass
  try dsimp only
  with_reducible repeat' first | assumption | refine soundRes_next ?_ | refine sound_ite ?_ ?_ | refine keeps_humStart ?_ ?_ | refine keeps_setRefs ?_ | refine keeps_bump ?_ | refine keeps_raiseEvent ?_ | refine keeps_humPass ?_ | refine sound_foldl ?_ ?_ | intro _

theorem keeps_finishScan {a0 a1 a2} {s : State} (h : sound s) : sound (finishScan a0 a1 a2 s) := by
  unfold finishScan
  try dsimp only
  with_reducible repeat' first | assumption | refine keeps_finishWaiting ?_ | refine keeps_endScan ?_

theorem keeps_stopScan {a0 a1} {s : State} (h : sound s) : sound (stopScan a0 a1 s) := by
  unfold stopScan
  try dsimp only
  with_reducible repeat' first | assumption | ((fail_if_success (fail_if_success conv => arg 1; arg 30)); refine sound_mk ?_ (by rfl)) | refine sound_ite ?_ ?_ | refine keeps_finishScan ?_ | refine sound_foldl ?_ ?_ | refine sound_of_pair (by assumption) ?_ | refine sound_of_some (by assumption) ?_ | refine sound_of_somePair (by assumption) ?_ | split | dsimp only | intro _

theorem keeps_stopContext {a0 a1} {s : State} (h : sound s) : sound (stopContext a0 a1 s) := by
  unfold stopContext
  try dsimp only
  with_reducible repeat' first | assumption | ((fail_if_success (fail_if_success conv => arg 1; arg 30)); refine sound_mk ?_ (by rfl)) | refine sound_ite ?_ ?_ | refine keeps_stopScan ?_ | refine sound_foldl ?_ ?_ | refine sound_of_pair (by assumption) ?_ | refine sound_of_some (by assumption) ?_ | refine sound_of_somePair (by assumption) ?_ | split | dsimp only | intro _

theorem keeps_execConfigWordRewrite {a0 a1} {s : State} (h : sound s) : soundRes (execConfigWordRewrite a0 a1 s) := by
  unfold execConfigWordRewrite
  try dsimp only
  with_reducible repeat' first | assumption | refine keeps_updPwr ?_ (by rfl) | refine soundRes_next ?_ | refine sound_ite ?_ ?_

theorem keeps_auditStatus {a0} {s : State} (h : sound s) : soundVerdict (auditStatus a0 s) := by
  unfold auditStatus
  try dsimp only
  with_reducible repeat' first | assumption | refine soundVerdict_done ?_

theorem keeps_specAuditStatus : soundSpec specAuditStatus := by
  intro x s h
  unfold specAuditStatus
  with_reducible exact keeps_auditStatus h

theorem keeps_execAuditStatus {a0} {s : State} (h : sound s) : soundRes (execAuditStatus a0 s) := by
  unfold execAuditStatus
  try dsimp only
  with_reducible repeat' first | assumption | exact keeps_specAuditStatus | refine keeps_runCmd ?_ ?_

theorem keeps_diagFaultQuery {a0} {s : State} (h : sound s) : soundVerdict (diagFaultQuery a0 s) := by
  unfold diagFaultQuery
  try dsimp only
  with_reducible repeat' first | assumption | refine soundVerdict_done ?_

theorem keeps_specDiagFaultQuery : soundSpec specDiagFaultQuery := by
  intro x s h
  unfold specDiagFaultQuery
  with_reducible exact keeps_diagFaultQuery h

theorem keeps_execDiagFaultQuery {a0} {s : State} (h : sound s) : soundRes (execDiagFaultQuery a0 s) := by
  unfold execDiagFaultQuery
  try dsimp only
  with_reducible repeat' first | assumption | exact keeps_specDiagFaultQuery | refine keeps_runCmd ?_ ?_

theorem keeps_auditContextWrite {a0} {s : State} (h : sound s) : soundVerdict (auditContextWrite a0 s) := by
  unfold auditContextWrite
  try dsimp only
  with_reducible repeat' first | assumption | refine soundVerdict_ite ?_ ?_ | exact soundVerdict_refuse | refine soundVerdict_done ?_ | refine keeps_setCtx ?_

theorem keeps_specAuditContextWrite : soundSpec specAuditContextWrite := by
  intro x s h
  unfold specAuditContextWrite
  with_reducible exact keeps_auditContextWrite h

theorem keeps_execAuditContextWrite {a0} {s : State} (h : sound s) : soundRes (execAuditContextWrite a0 s) := by
  unfold execAuditContextWrite
  try dsimp only
  with_reducible repeat' first | assumption | exact keeps_specAuditContextWrite | refine keeps_runCmd ?_ ?_

theorem keeps_auditScan {a0} {s : State} (h : sound s) : soundVerdict (auditScan a0 s) := by
  unfold auditScan
  try dsimp only
  with_reducible repeat' first | assumption | refine keeps_updPwr ?_ (by rfl) | refine soundVerdict_ite ?_ ?_ | exact soundVerdict_refuse | refine soundVerdict_wait ?_ | refine keeps_setCtx ?_

theorem keeps_specAuditScan : soundSpec specAuditScan := by
  intro x s h
  unfold specAuditScan
  with_reducible exact keeps_auditScan h

theorem keeps_execAuditScan {a0} {s : State} (h : sound s) : soundRes (execAuditScan a0 s) := by
  unfold execAuditScan
  try dsimp only
  with_reducible repeat' first | assumption | exact keeps_specAuditScan | refine keeps_runCmd ?_ ?_

theorem keeps_endOfScan {a0} {s : State} (h : sound s) : sound (endOfScan a0 s) := by
  unfold endOfScan
  try dsimp only
  with_reducible repeat' first | assumption | ((fail_if_success (fail_if_success conv => arg 1; arg 30)); refine sound_mk ?_ (by rfl)) | refine sound_ite ?_ ?_ | refine keeps_finishScan ?_ | refine keeps_auditMismatch ?_ | refine sound_foldl ?_ ?_ | refine sound_of_pair (by assumption) ?_ | refine sound_of_some (by assumption) ?_ | refine sound_of_somePair (by assumption) ?_ | split | dsimp only | intro _

theorem keeps_execAuditScanComplete {a0 a1} {s : State} (h : sound s) : soundRes (execAuditScanComplete a0 a1 s) := by
  unfold execAuditScanComplete
  try dsimp only
  with_reducible repeat' first | assumption | refine keeps_updPwr ?_ (by rfl) | refine soundRes_next ?_ | refine keeps_setCtx ?_ | refine keeps_endOfScan ?_ | refine keeps_stopScan ?_ | split

theorem keeps_humConfig {a0} {s : State} (h : sound s) : soundVerdict (humConfig a0 s) := by
  unfold humConfig
  try dsimp only
  with_reducible repeat' first | assumption | refine keeps_updPwr ?_ (by rfl) | refine soundVerdict_ite ?_ ?_ | exact soundVerdict_refuse | refine soundVerdict_done ?_

theorem keeps_specHumConfig : soundSpec specHumConfig := by
  intro x s h
  unfold specHumConfig
  with_reducible exact keeps_humConfig h

theorem keeps_execHumConfig {a0} {s : State} (h : sound s) : soundRes (execHumConfig a0 s) := by
  unfold execHumConfig
  try dsimp only
  with_reducible repeat' first | assumption | exact keeps_specHumConfig | refine keeps_runCmd ?_ ?_

theorem keeps_humStatus {a0} {s : State} (h : sound s) : soundVerdict (humStatus a0 s) := by
  unfold humStatus
  try dsimp only
  with_reducible repeat' first | assumption | refine soundVerdict_done ?_

theorem keeps_specHumStatus : soundSpec specHumStatus := by
  intro x s h
  unfold specHumStatus
  with_reducible exact keeps_humStatus h

theorem keeps_execHumStatus {a0} {s : State} (h : sound s) : soundRes (execHumStatus a0 s) := by
  unfold execHumStatus
  try dsimp only
  with_reducible repeat' first | assumption | exact keeps_specHumStatus | refine keeps_runCmd ?_ ?_

theorem keeps_execSramScrubPass {a0} {s : State} (h : sound s) : soundRes (execSramScrubPass a0 s) := by
  unfold execSramScrubPass
  try dsimp only
  with_reducible repeat' first | assumption | ((fail_if_success (fail_if_success conv => arg 1; arg 30)); refine sound_mk ?_ (by rfl)) | refine soundRes_next ?_ | refine sound_ite ?_ ?_ | refine keeps_humStart ?_ ?_ | refine keeps_storeInjection ?_ | refine keeps_drawn ?_ | refine keeps_humPass ?_ | refine keeps_bump ?_ | refine keeps_sramError ?_ | refine sound_foldl ?_ ?_ | intro _

theorem keeps_execConfigAuditPass {a0} {s : State} (h : sound s) : soundRes (execConfigAuditPass a0 s) := by
  unfold execConfigAuditPass
  try dsimp only
  with_reducible repeat' first | assumption | refine soundRes_next ?_ | refine sound_ite ?_ ?_ | refine keeps_humStart ?_ ?_ | refine keeps_teruoContext ?_ | refine keeps_raiseEvent ?_ | refine keeps_teruoMismatch ?_ | refine keeps_bump ?_ | refine keeps_humPass ?_ | refine sound_foldl ?_ ?_ | intro _

theorem keeps_execTcamEntryRewrite {a0} {s : State} (h : sound s) : soundRes (execTcamEntryRewrite a0 s) := by
  unfold execTcamEntryRewrite
  try dsimp only
  with_reducible repeat' first | assumption | ((fail_if_success (fail_if_success conv => arg 1; arg 30)); refine sound_mk ?_ (by rfl)) | refine soundRes_next ?_ | split

theorem keeps_loseStaging {s : State} (h : sound s) : sound (loseStaging s) := by
  unfold loseStaging
  try dsimp only
  with_reducible repeat' first | assumption | ((fail_if_success (fail_if_success conv => arg 1; arg 30)); refine sound_mk ?_ (by rfl)) | refine keeps_updCommit ?_ | refine keeps_raiseEvent ?_ | split

theorem keeps_failScan {a0} {s : State} (h : sound s) : sound (failScan a0 s) := by
  unfold failScan
  try dsimp only
  with_reducible repeat' first | assumption | refine keeps_finishScan ?_ | refine keeps_setCtx ?_ | refine keeps_drawn ?_ | split

theorem keeps_scrubWord {a0 a1 a3} {s : State} (h : sound s) : sound (scrubWord a0 a1 s a3) := by
  unfold scrubWord
  try dsimp only
  with_reducible repeat' first | assumption | ((fail_if_success (fail_if_success conv => arg 1; arg 30)); refine sound_mk ?_ (by rfl)) | refine sound_ite ?_ ?_ | refine keeps_ddrRead ?_ | refine keeps_updHum ?_ | refine keeps_tally ?_ | refine sound_foldl ?_ ?_ | refine sound_of_pair (by assumption) ?_ | refine sound_of_some (by assumption) ?_ | refine sound_of_somePair (by assumption) ?_ | split | dsimp only | intro _

theorem keeps_execDdrScrub {a0 a1 a2} {s : State} (h : sound s) : soundRes (execDdrScrub a0 a1 a2 s) := by
  unfold execDdrScrub
  try dsimp only
  with_reducible repeat' first | assumption | ((fail_if_success (fail_if_success conv => arg 1; arg 30)); refine sound_mk ?_ (by rfl)) | refine soundRes_next ?_ | refine sound_ite ?_ ?_ | refine keeps_scrubWord ?_ | refine keeps_updDdr ?_ | refine keeps_humDone ?_ | refine sound_foldl ?_ ?_ | intro _

theorem keeps_recenter {a0 a1} {s : State} (h : sound s) : sound (recenter a0 a1 s) := by
  unfold recenter
  try dsimp only
  with_reducible repeat' first | assumption | refine sound_ite ?_ ?_ | refine keeps_updDdr ?_ | refine keeps_raiseEvent ?_

theorem keeps_execDdrRecenter {a0} {s : State} (h : sound s) : soundRes (execDdrRecenter a0 s) := by
  unfold execDdrRecenter
  try dsimp only
  with_reducible repeat' first | assumption | refine soundRes_next ?_ | refine keeps_nextInstant ?_ | refine keeps_recenter ?_ | refine keeps_updDdr ?_ | refine keeps_humOverrun ?_ | refine keeps_humPass ?_ | refine sound_foldl ?_ ?_ | split | intro _

theorem keeps_trainStacks {a0} {s : State} (h : sound s) : sound (trainStacks a0 s) := by
  unfold trainStacks
  try dsimp only
  with_reducible repeat' first | assumption | ((fail_if_success (fail_if_success conv => arg 1; arg 30)); refine sound_mk ?_ (by rfl)) | refine sound_ite ?_ ?_ | refine keeps_raiseEvent ?_ | refine keeps_reportHbm ?_ | refine keeps_hbmPowerDown ?_ | refine keeps_checkHbmIdle ?_ | refine keeps_enableSpill ?_ | refine sound_foldl ?_ ?_ | intro _

theorem keeps_activate {a0 a1 a2} {s : State} (h : sound s) : sound (activate a0 a1 a2 s) := by
  unfold activate
  try dsimp only
  with_reducible repeat' first | assumption | refine keeps_bump ?_ | refine keeps_updDdr ?_

theorem keeps_execHbmTrainingDone {a0} {s : State} (h : sound s) : soundRes (execHbmTrainingDone a0 s) := by
  unfold execHbmTrainingDone
  try dsimp only
  with_reducible repeat' first | assumption | refine soundRes_next ?_ | refine sound_ite ?_ ?_ | refine keeps_trainStacks ?_

theorem keeps_memStatus {a0} {s : State} (h : sound s) : soundVerdict (memStatus a0 s) := by
  unfold memStatus
  try dsimp only
  with_reducible repeat' first | assumption | refine soundVerdict_done ?_

theorem keeps_zeroDumped {a0} {s : State} (h : sound s) : sound (zeroDumped a0 s) := by
  unfold zeroDumped
  try dsimp only
  with_reducible repeat' first | assumption | refine keeps_updFn ?_ (fun _ => by rfl) | refine keeps_raiseEvent ?_ | refine keeps_tally ?_ | split

theorem keeps_restartTotals {a0} {s : State} (h : sound s) : sound (restartTotals a0 s) := by
  unfold restartTotals
  exact sound_foldl (fun t id ht => sound_ite (sound_mk (s := { t with ctrs := aset t.ctrs id (ctr id t - agetD t.toll.snap id 0) })
    (sound_ctrs ht (awf_aset _ _ (ctrs_of ht))) rfl) ht) h

theorem keeps_loseContexts {a0} {s : State} (h : sound s) : sound (loseContexts a0 s) := by
  unfold loseContexts
  try dsimp only
  with_reducible repeat' first | assumption | ((fail_if_success (fail_if_success conv => arg 1; arg 30)); refine sound_mk ?_ (by rfl)) | refine sound_ite ?_ ?_ | refine keeps_writeBackFailed ?_ | refine keeps_raiseEvent ?_ | refine keeps_tally ?_ | refine keeps_dropFlow ?_ | refine sound_foldl ?_ ?_ | refine sound_of_pair (by assumption) ?_ | refine sound_of_some (by assumption) ?_ | refine sound_of_somePair (by assumption) ?_ | split | dsimp only | intro _

theorem keeps_requesterError {a0 a1} {s : State} (h : sound s) : sound (requesterError a0 a1 s) := by
  unfold requesterError
  try dsimp only
  with_reducible repeat' first | assumption | ((fail_if_success (fail_if_success conv => arg 1; arg 30)); refine sound_mk ?_ (by rfl)) | refine sound_ite ?_ ?_ | refine keeps_loseContexts ?_ | refine keeps_beginRestart ?_ | refine keeps_zeroDumped ?_ | refine keeps_loseStaging ?_ | refine keeps_restartTotals ?_ | refine keeps_failScan ?_ | refine sound_foldl ?_ ?_ | refine sound_of_pair (by assumption) ?_ | refine sound_of_some (by assumption) ?_ | refine sound_of_somePair (by assumption) ?_ | split | dsimp only | intro _

theorem keeps_readFor {a0 a1 a2 a3 a4} {s : State} (h : sound s) : sound (readFor a0 a1 a2 a3 a4 s) := by
  unfold readFor
  try dsimp only
  with_reducible repeat' first | assumption | ((fail_if_success (fail_if_success conv => arg 1; arg 30)); refine sound_mk ?_ (by rfl)) | refine sound_ite ?_ ?_ | refine keeps_ddrRead ?_ | refine keeps_requesterError ?_ | refine sound_foldl ?_ ?_ | refine sound_of_pair (by assumption) ?_ | refine sound_of_some (by assumption) ?_ | refine sound_of_somePair (by assumption) ?_ | split | dsimp only | intro _

theorem keeps_countLate {a0} {s : State} (h : sound s) : sound (countLate a0 s) := by
  unfold countLate
  try dsimp only
  with_reducible repeat' first | assumption | ((fail_if_success (fail_if_success conv => arg 1; arg 30)); refine sound_mk ?_ (by rfl)) | refine sound_ite ?_ ?_ | refine keeps_tally ?_ | refine keeps_updDdr ?_ | refine sound_foldl ?_ ?_ | refine sound_of_pair (by assumption) ?_ | refine sound_of_some (by assumption) ?_ | refine sound_of_somePair (by assumption) ?_ | split | dsimp only | intro _

theorem keeps_specMemStatus : soundSpec specMemStatus := by
  intro x s h
  unfold specMemStatus
  with_reducible exact keeps_memStatus h

theorem keeps_execMemStatus {a0} {s : State} (h : sound s) : soundRes (execMemStatus a0 s) := by
  unfold execMemStatus
  try dsimp only
  with_reducible repeat' first | assumption | exact keeps_specMemStatus | refine keeps_runCmd ?_ ?_

theorem keeps_memRetiredQuery {a0} {s : State} (h : sound s) : soundVerdict (memRetiredQuery a0 s) := by
  unfold memRetiredQuery
  try dsimp only
  with_reducible repeat' first | assumption | refine soundVerdict_ite ?_ ?_ | exact soundVerdict_refuse | refine soundVerdict_done ?_

theorem keeps_withdrawRead {a0 a1 a2} {s : State} (h : sound s) : sound (withdrawRead a0 a1 a2 s) := by
  unfold withdrawRead
  try dsimp only
  with_reducible repeat' first | assumption | ((fail_if_success (fail_if_success conv => arg 1; arg 30)); refine sound_mk ?_ (by rfl)) | refine sound_ite ?_ ?_ | refine keeps_updDdr ?_ | refine sound_foldl ?_ ?_ | refine sound_of_pair (by assumption) ?_ | refine sound_of_some (by assumption) ?_ | refine sound_of_somePair (by assumption) ?_ | split | dsimp only | intro _

theorem keeps_execRowWindowStart {a0} {s : State} (h : sound s) : soundRes (execRowWindowStart a0 s) := by
  unfold execRowWindowStart
  try dsimp only
  with_reducible repeat' first | assumption | ((fail_if_success (fail_if_success conv => arg 1; arg 30)); refine sound_mk ?_ (by rfl)) | refine soundRes_next ?_ | refine sound_ite ?_ ?_ | refine keeps_activate ?_ | refine keeps_nextInstant ?_ | refine sound_foldl ?_ ?_ | intro _

theorem keeps_specMemRetiredQuery : soundSpec specMemRetiredQuery := by
  intro x s h
  unfold specMemRetiredQuery
  with_reducible exact keeps_memRetiredQuery h

theorem keeps_execMemRetiredQuery {a0} {s : State} (h : sound s) : soundRes (execMemRetiredQuery a0 s) := by
  unfold execMemRetiredQuery
  try dsimp only
  with_reducible repeat' first | assumption | exact keeps_specMemRetiredQuery | refine keeps_runCmd ?_ ?_

theorem keeps_execDdrRequestTimeout {a0 a1 a2 a3} {s : State} (h : sound s) : soundRes (execDdrRequestTimeout a0 a1 a2 a3 s) := by
  unfold execDdrRequestTimeout
  try dsimp only
  with_reducible repeat' first | assumption | refine soundRes_next ?_ | refine sound_ite ?_ ?_ | refine keeps_countLate ?_ | refine keeps_tickBy ?_ | refine keeps_requesterError ?_ | refine keeps_raiseEvent ?_ | refine keeps_tally ?_ | refine keeps_withdrawRead ?_

end Sys2Proof.Laws
end

