-- ==== Sys2Proof/Laws/KeepsRows.lean ====
section
/-! SUPPORT. The operations keep sound states sound: registers, resets, table descriptors, the transport rows and the idle step. One lemma for each definition of those files. -/

namespace Sys2Proof.Laws
open Sys2Proof Sys2Proof.Machine

theorem keeps_writeThrough {a0 a1} {s : State} (fa1 : ∀ x0, sound x0 → sound (a1 x0)) (h : sound s) : sound (writeThrough a0 a1 s) := by
  unfold writeThrough
  try dsimp only
  with_reducible repeat' first | assumption | refine sound_ite ?_ ?_ | refine fa1 _ ?_

theorem keeps_journalAs {a0} {s : State} (h : sound s) : sound (journalAs a0 s) :=
  sound_mgmt h (bounded_of h).1 (List.length_take_le _ _) (bounded_of h).2.2.1 (bounded_of h).2.2.2.1

theorem keeps_captureWrite {a0 a1 a2} {s : State} (h : sound s) : sound (captureWrite a0 a1 a2 s) := by
  unfold captureWrite
  refine sound_ite h (sound_ite (keeps_journalAs h) ?_)
  split
  · rename_i hl
    refine sound_mgmt h (bounded_of h).1 (bounded_of h).2.1 ?_ (bounded_of h).2.2.2.1
    dsimp only
    rw [List.length_append]
    exact hl
  · exact sound_mk h rfl

theorem keeps_updGlb {a0} {s : State} (h : sound s) : sound (updGlb a0 s) := by
  unfold updGlb
  try dsimp only
  with_reducible repeat' first | assumption | ((fail_if_success (fail_if_success conv => arg 1; arg 30)); refine sound_mk ?_ (by rfl))

theorem keeps_execGlbIntEnableWrite {a0 a1} {s : State} (h : sound s) : soundRes (execGlbIntEnableWrite a0 a1 s) := by
  unfold execGlbIntEnableWrite
  try dsimp only
  with_reducible repeat' first | assumption | refine soundRes_next ?_ | refine sound_ite ?_ ?_ | refine keeps_writeThrough ?_ ?_ | refine keeps_captureWrite ?_ | refine keeps_updGlb ?_ | refine keeps_sendMsix ?_ | intro _

theorem keeps_setMismatch {a0 a1} {s : State} (h : sound s) : sound (setMismatch a0 a1 s) := by
  unfold setMismatch
  try dsimp only
  with_reducible repeat' first | assumption | refine keeps_updPwr ?_ (by rfl) | refine sound_ite ?_ ?_ | refine keeps_sendMsix ?_

theorem keeps_writeOnes {a0 a1 a2} {s : State} (h : sound s) : sound (writeOnes a0 a1 a2 s) := by
  unfold writeOnes
  try dsimp only
  with_reducible repeat' first | assumption | ((fail_if_success (fail_if_success conv => arg 1; arg 30)); refine sound_mk ?_ (by rfl)) | refine keeps_updGlb ?_ | refine keeps_raiseGlb ?_ | refine keeps_setMismatch ?_ | split

theorem keeps_execW1cClear {a0 a1 a2 a3} {s : State} (h : sound s) : soundRes (execW1cClear a0 a1 a2 a3 s) := by
  unfold execW1cClear
  try dsimp only
  with_reducible repeat' first | assumption | refine soundRes_next ?_ | refine keeps_writeThrough ?_ ?_ | refine keeps_writeOnes ?_ | intro _

theorem keeps_readThrough {a0 a1} {s : State} (fa1 : ∀ x0, sound x0 → sound (a1 x0)) (h : sound s) : sound (readThrough a0 a1 s) := by
  unfold readThrough
  try dsimp only
  with_reducible repeat' first | assumption | refine sound_ite ?_ ?_ | refine keeps_emit ?_ | refine fa1 _ ?_

theorem keeps_latchCounter {s : State} (h : sound s) : sound (latchCounter s) := by
  unfold latchCounter
  try dsimp only
  with_reducible repeat' first | assumption | ((fail_if_success (fail_if_success conv => arg 1; arg 30)); refine sound_mk ?_ (by rfl)) | refine sound_ite ?_ ?_ | refine keeps_emit ?_ | refine keeps_drawn ?_

theorem keeps_execCntValRead {a0} {s : State} (h : sound s) : soundRes (execCntValRead a0 s) := by
  unfold execCntValRead
  try dsimp only
  with_reducible repeat' first | assumption | refine soundRes_next ?_ | refine keeps_readThrough ?_ ?_ | refine keeps_latchCounter ?_ | intro _

theorem keeps_clearingRead {a0 a1 a2} {s : State} (h : sound s) : sound (clearingRead a0 a1 a2 s) := by
  unfold clearingRead
  exact keeps_emit (keeps_updGlb (sound_ite (keeps_bump h) (sound_mk (s := { s with ctrs := aset s.ctrs a1 a2 })
    (sound_ctrs h (awf_aset _ _ (ctrs_of h))) rfl)))

theorem keeps_execCounterClearingRead {a0 a1 a2} {s : State} (h : sound s) : soundRes (execCounterClearingRead a0 a1 a2 s) := by
  unfold execCounterClearingRead
  try dsimp only
  with_reducible repeat' first | assumption | refine soundRes_next ?_ | refine keeps_readThrough ?_ ?_ | refine keeps_clearingRead ?_ | split | intro _

theorem keeps_latchGroupAt {a0 a1} {s : State} (h : sound s) : sound (latchGroupAt a0 a1 s) := by
  unfold latchGroupAt
  try dsimp only
  with_reducible repeat' first | assumption | refine keeps_updGlb ?_

theorem keeps_readReg {a0} {s : State} (h : sound s) : sound (readReg a0 s) := by
  unfold readReg
  try dsimp only
  with_reducible repeat' first | assumption | refine keeps_clearingRead ?_ | refine keeps_latchCounter ?_ | refine keeps_emit ?_ | refine keeps_latchGroupAt ?_ | split

theorem keeps_flushRegLog {s : State} (h : sound s) : sound (flushRegLog s) := by
  have h1 : sound { s with mgmt := { s.mgmt with regLog := [], regLost := 0 } } :=
    sound_mgmt h (bounded_of h).1 (bounded_of h).2.1 (Nat.zero_le _) (bounded_of h).2.2.2.1
  have h2 := sound_foldl (l := s.mgmt.regLog) (f := fun s j => journalAs j s) (fun _ j => keeps_journalAs (a0 := j)) h1
  unfold flushRegLog
  exact sound_ite h2 (keeps_raiseEvent h2)

theorem keeps_writeMsix {a0 a1 a2} {s : State} (h : sound s) : sound (writeMsix a0 a1 a2 s) := by
  unfold writeMsix
  try dsimp only
  with_reducible repeat' first | assumption | refine keeps_updFn ?_ (fun _ => by rfl) | refine sound_ite ?_ ?_ | refine keeps_sendMsix ?_

theorem keeps_execGroupLatchRead {a0 a1} {s : State} (h : sound s) : soundRes (execGroupLatchRead a0 a1 s) := by
  unfold execGroupLatchRead
  try dsimp only
  with_reducible repeat' first | assumption | refine soundRes_next ?_ | refine sound_ite ?_ ?_ | refine keeps_readThrough ?_ ?_ | refine keeps_readReg ?_ | intro _

theorem keeps_armInjection {a0} {s : State} (h : sound s) : sound (armInjection a0 s) := by
  unfold armInjection
  try dsimp only
  with_reducible repeat' first | assumption | refine sound_ite ?_ ?_ | refine keeps_updGlb ?_

theorem keeps_execDbgInject {a0 a1} {s : State} (h : sound s) : soundRes (execDbgInject a0 a1 s) := by
  unfold execDbgInject
  try dsimp only
  with_reducible repeat' first | assumption | refine soundRes_next ?_ | refine sound_ite ?_ ?_ | refine keeps_writeThrough ?_ ?_ | refine keeps_armInjection ?_ | refine keeps_recordAccess ?_ | intro _

theorem keeps_storeReg {a0 a1} {s : State} (h : sound s) : soundOpt (storeReg a0 a1 s) := by
  unfold storeReg
  try dsimp only
  with_reducible repeat' first | assumption | refine keeps_updPwr ?_ (by rfl) | ((fail_if_success (fail_if_success conv => arg 1; arg 30)); refine sound_mk ?_ (by rfl)) | exact soundOpt_none | refine soundOpt_some ?_ | refine keeps_updGlb ?_ | split

theorem keeps_writeReg {a0 a1 a2} {s : State} (h : sound s) : sound (writeReg a0 a1 a2 s) := by
  unfold writeReg
  try dsimp only
  with_reducible repeat' first | assumption | refine keeps_storeReg ?_ | refine keeps_captureWrite ?_ | refine keeps_updGlb ?_ | refine keeps_writeMsix ?_ | refine sound_of_some (by assumption) ?_ | split

theorem keeps_execRegisterWrite {a0 a1 a2} {s : State} (h : sound s) : soundRes (execRegisterWrite a0 a1 a2 s) := by
  unfold execRegisterWrite
  try dsimp only
  with_reducible repeat' first | assumption | refine soundRes_next ?_ | refine sound_ite ?_ ?_ | refine keeps_writeThrough ?_ ?_ | refine keeps_writeReg ?_ | intro _

theorem keeps_execDdrRhThresholdWrite {a0 a1} {s : State} (h : sound s) : soundRes (execDdrRhThresholdWrite a0 a1 s) := by
  unfold execDdrRhThresholdWrite
  try dsimp only
  with_reducible repeat' first | assumption | ((fail_if_success (fail_if_success conv => arg 1; arg 30)); refine sound_mk ?_ (by rfl)) | refine soundRes_next ?_ | refine sound_ite ?_ ?_ | refine keeps_writeThrough ?_ ?_ | refine keeps_captureWrite ?_ | intro _

theorem keeps_execBar0BadAccess {a0 a1 a2} {s : State} (h : sound s) : soundRes (execBar0BadAccess a0 a1 a2 s) := by
  unfold execBar0BadAccess
  try dsimp only
  with_reducible repeat' first | assumption | refine soundRes_next ?_ | refine sound_ite ?_ ?_ | refine keeps_recordAccess ?_ | refine keeps_writeThrough ?_ ?_ | refine keeps_readThrough ?_ ?_ | refine keeps_emit ?_ | intro _

theorem keeps_execUnmappedAccess {a0 a1 a2} {s : State} (h : sound s) : soundRes (execUnmappedAccess a0 a1 a2 s) := by
  unfold execUnmappedAccess
  try dsimp only
  with_reducible repeat' first | assumption | refine soundRes_next ?_ | refine sound_ite ?_ ?_ | refine keeps_recordAccess ?_ | refine keeps_writeThrough ?_ ?_ | refine keeps_readThrough ?_ ?_ | refine keeps_emit ?_ | intro _

theorem keeps_trainLink {a0} {s : State} (h : sound s) : sound (trainLink a0 s) := by
  unfold trainLink
  try dsimp only
  with_reducible repeat' first | assumption | refine keeps_updFn ?_ (fun _ => by rfl) | refine sound_ite ?_ ?_ | refine keeps_drawn ?_

theorem keeps_warmed {s : State} (h : sound s) : sound (warmed s) := by
  have e1 := hostMem_of h
  have e2 := flash_of h
  have e3 := fuses_of h
  exact ⟨e1, e2, rfl, ⟨Nat.zero_le _, Nat.zero_le _, Nat.zero_le _, Nat.zero_le _, Nat.zero_le _, Nat.zero_le _,
    (bounded_of h).2.2.2.2.2.2⟩, ⟨(legal_of h).1, Nat.zero_le _, (legal_of h).2.2.1, (legal_of h).2.2.2.1, (legal_of h).2.2.2.2⟩, e3⟩

theorem keeps_coreReset {a0} {s : State} (h : sound s) : sound (coreReset a0 s) := by
  have e1 := hostMem_of h
  have e2 := flash_of h
  have e3 := fuses_of h
  exact ⟨e1, e2, rfl, ⟨Nat.zero_le _, Nat.zero_le _, Nat.zero_le _, Nat.zero_le _, Nat.zero_le _, Nat.zero_le _,
    Nat.zero_le _⟩, ⟨Nat.zero_le _, Nat.zero_le _, Nat.zero_le _, Nat.zero_le _, Nat.zero_le _⟩, e3⟩

theorem keeps_releasePins {s : State} (h : sound s) : sound (releasePins s) := by
  unfold releasePins
  try dsimp only
  with_reducible repeat' first | assumption | refine sound_ite ?_ ?_ | refine keeps_emit ?_

theorem keeps_execRailFault {a0} {s : State} (h : sound s) : soundRes (execRailFault a0 s) := by
  unfold execRailFault
  try dsimp only
  with_reducible repeat' first | assumption | refine keeps_updPwr ?_ (by rfl) | ((fail_if_success (fail_if_success conv => arg 1; arg 30)); refine sound_mk ?_ (by rfl)) | refine soundRes_next ?_ | refine keeps_settleShed ?_ | refine keeps_coreReset ?_ | refine keeps_releasePins ?_ | refine keeps_powerFails ?_ | split

theorem keeps_warmReset {s : State} (h : sound s) : sound (warmReset s) := by
  unfold warmReset
  try dsimp only
  with_reducible repeat' first | assumption | refine keeps_settleShed ?_ | refine keeps_checkHbmIdle ?_ | refine keeps_leaveCarillonTime ?_ | refine keeps_warmed ?_

theorem keeps_execWarmReset {a0 a1} {s : State} (h : sound s) : soundRes (execWarmReset a0 a1 s) := by
  unfold execWarmReset
  try dsimp only
  with_reducible repeat' first | assumption | refine soundRes_next ?_ | refine sound_ite ?_ ?_ | refine keeps_writeThrough ?_ ?_ | refine keeps_recordAccess ?_ | refine keeps_warmReset ?_ | intro _

theorem keeps_nowReady {s : State} (h : sound s) : sound (nowReady s) := by
  unfold nowReady
  try dsimp only
  with_reducible repeat' first | assumption | ((fail_if_success (fail_if_success conv => arg 1; arg 30)); refine sound_mk ?_ (by rfl)) | refine keeps_flushRegLog ?_

theorem keeps_reportKnell {s : State} (h : sound s) : sound (reportKnell s) := by
  unfold reportKnell
  try dsimp only
  with_reducible repeat' first | assumption | refine keeps_flashWrite ?_ | refine keeps_raiseEvent ?_ | refine sound_foldl ?_ ?_ | split | intro _

theorem keeps_startTeruo {s : State} (h : sound s) : sound (startTeruo s) := by
  unfold startTeruo
  try dsimp only
  with_reducible repeat' first | assumption | refine sound_ite ?_ ?_ | refine keeps_bootImage ?_ | refine keeps_teruoRuns ?_ | refine keeps_nowReady ?_ | refine keeps_reportKnell ?_ | refine keeps_eraseKnell ?_ | refine keeps_beginRestart ?_

theorem keeps_execPwrFailNRise {s : State} (h : sound s) : soundRes (execPwrFailNRise s) := by
  unfold execPwrFailNRise
  try dsimp only
  with_reducible repeat' first | assumption | refine keeps_updPwr ?_ (by rfl) | refine soundRes_next ?_

theorem keeps_linkDown {a0} {s : State} (h : sound s) : sound (linkDown a0 s) := by
  unfold linkDown
  try dsimp only
  with_reducible repeat' first | assumption | refine keeps_updFn ?_ (fun _ => by rfl) | refine keeps_functionReset ?_

theorem keeps_execPerst {a0 a1} {s : State} (h : sound s) : soundRes (execPerst a0 a1 s) := by
  unfold execPerst
  try dsimp only
  with_reducible repeat' first | assumption | refine keeps_updFn ?_ (fun _ => by rfl) | refine soundRes_next ?_ | refine sound_ite ?_ ?_ | refine keeps_linkDown ?_ | refine keeps_trainLink ?_

theorem keeps_flushPorts {s : State} (h : sound s) : sound (flushPorts s) := by
  unfold flushPorts
  try dsimp only
  with_reducible repeat' first | assumption | refine keeps_flush ?_ | refine sound_foldl ?_ ?_ | intro _

theorem keeps_powerOn {a0 a1} {s : State} (h : sound s) : sound (powerOn a0 a1 s) := by
  unfold powerOn
  try dsimp only
  with_reducible repeat' first | assumption | ((fail_if_success (fail_if_success conv => arg 1; arg 30)); refine sound_mk ?_ (by rfl)) | refine keeps_coreReset ?_ | refine keeps_releasePins ?_ | refine keeps_trainLink ?_

theorem keeps_execWake {a0} {s : State} (h : sound s) : soundRes (execWake a0 s) := by
  unfold execWake
  try dsimp only
  with_reducible repeat' first | assumption | refine soundRes_next ?_ | refine sound_ite ?_ ?_ | refine keeps_powerOn ?_

theorem keeps_trainDdr {a0} {s : State} (h : sound s) : sound (trainDdr a0 s) := by
  unfold trainDdr
  try dsimp only
  with_reducible repeat' first | assumption | ((fail_if_success (fail_if_success conv => arg 1; arg 30)); refine sound_mk ?_ (by rfl))

theorem keeps_execParkEntry {s : State} (h : sound s) : soundRes (execParkEntry s) := by
  unfold execParkEntry
  try dsimp only
  with_reducible repeat' first | assumption | ((fail_if_success (fail_if_success conv => arg 1; arg 30)); refine sound_mk ?_ (by rfl)) | refine soundRes_next ?_ | refine keeps_releasePins ?_ | refine keeps_haltData ?_ | refine keeps_flushPorts ?_ | refine keeps_advanceTo ?_ | refine keeps_coreReset ?_ | split

theorem keeps_execStartReady {a0} {s : State} (h : sound s) : soundRes (execStartReady a0 s) := by
  unfold execStartReady
  try dsimp only
  with_reducible repeat' first | assumption | refine soundRes_next ?_ | refine sound_ite ?_ ?_ | refine keeps_trainDdr ?_ | refine keeps_enterRecovery ?_ | refine keeps_startTeruo ?_

theorem keeps_execPowerOnReset {a0} {s : State} (h : sound s) : soundRes (execPowerOnReset a0 s) := by
  unfold execPowerOnReset
  try dsimp only
  with_reducible repeat' first | assumption | refine soundRes_next ?_ | refine keeps_emit ?_ | refine keeps_powerOn ?_

theorem keeps_sysCmdQuery {a0} {s : State} (h : sound s) : soundVerdict (sysCmdQuery a0 s) := by
  unfold sysCmdQuery
  try dsimp only
  with_reducible repeat' first | assumption | exact soundVerdict_refuse | refine soundVerdict_done ?_ | split

theorem keeps_specSysCmdQuery : soundSpec specSysCmdQuery := by
  intro x s h
  unfold specSysCmdQuery
  with_reducible exact keeps_sysCmdQuery h

theorem keeps_execSysCmdQuery {a0} {s : State} (h : sound s) : soundRes (execSysCmdQuery a0 s) := by
  unfold execSysCmdQuery
  try dsimp only
  with_reducible repeat' first | assumption | exact keeps_specSysCmdQuery | refine keeps_runCmd ?_ ?_

theorem keeps_endVerify {a0} {s : State} (h : sound s) : sound (endVerify a0 s) := by
  unfold endVerify
  try dsimp only
  with_reducible repeat' first | assumption | refine keeps_updFw ?_ (by rfl) | refine sound_ite ?_ ?_ | refine keeps_writeRec ?_

theorem keeps_stopActivation {s : State} (h : sound s) : sound (stopActivation s) := by
  unfold stopActivation
  try dsimp only
  with_reducible repeat' first | assumption | refine keeps_updFw ?_ (by rfl) | split

theorem keeps_endEarly {a0 a1} {s : State} (h : sound s) : sound (endEarly a0 a1 s) := by
  unfold endEarly
  try dsimp only
  with_reducible repeat' first | assumption | refine keeps_updFw ?_ (by rfl) | refine keeps_finishRunning ?_ | refine keeps_abandonCommit ?_ | refine keeps_endSwitch ?_ | refine keeps_updRing ?_ | refine keeps_endVerify ?_ | refine keeps_stopActivation ?_ | refine keeps_stopContext ?_ | refine keeps_updProt ?_ | split

theorem keeps_sysAbort {a0} {s : State} (h : sound s) : soundVerdict (sysAbort a0 s) := by
  unfold sysAbort
  try dsimp only
  with_reducible repeat' first | assumption | exact soundVerdict_refuse | refine soundVerdict_done ?_ | refine keeps_endEarly ?_ | split

theorem keeps_execCommandTimeout {a0 a1 a2} {s : State} (h : sound s) : soundRes (execCommandTimeout a0 a1 a2 s) := by
  unfold execCommandTimeout
  try dsimp only
  with_reducible repeat' first | assumption | refine soundRes_next ?_ | refine keeps_endEarly ?_ | refine keeps_advanceTo ?_ | split

theorem keeps_specSysAbort : soundSpec specSysAbort := by
  intro x s h
  unfold specSysAbort
  with_reducible exact keeps_sysAbort h

theorem keeps_execSysAbort {a0} {s : State} (h : sound s) : soundRes (execSysAbort a0 s) := by
  unfold execSysAbort
  try dsimp only
  with_reducible repeat' first | assumption | exact keeps_specSysAbort | refine keeps_runCmd ?_ ?_

theorem keeps_ecmpHashSeed {a0} {s : State} (h : sound s) : soundVerdict (ecmpHashSeed a0 s) := by
  unfold ecmpHashSeed
  try dsimp only
  with_reducible repeat' first | assumption | refine keeps_staged ?_

theorem keeps_specEcmpHashSeed : soundSpec specEcmpHashSeed := by
  intro x s h
  unfold specEcmpHashSeed
  with_reducible exact keeps_ecmpHashSeed h

theorem keeps_execEcmpHashSeed {a0} {s : State} (h : sound s) : soundRes (execEcmpHashSeed a0 s) := by
  unfold execEcmpHashSeed
  try dsimp only
  with_reducible repeat' first | assumption | exact keeps_specEcmpHashSeed | refine keeps_runCmd ?_ ?_

theorem keeps_tableDone {a0 a1 a2 a3 a4 a5 a6 a7} {s : State} (h : sound s) : sound (tableDone a0 a1 a2 a3 a4 a5 a6 a7 s) := by
  unfold tableDone
  try dsimp only
  with_reducible repeat' first | assumption | ((fail_if_success (fail_if_success conv => arg 1; arg 30)); refine sound_mk ?_ (by rfl)) | refine keeps_postCompletion ?_ | split

theorem keeps_noteUnits {a0} {s : State} (h : sound s) : sound (noteUnits a0 s) := by
  unfold noteUnits
  try dsimp only
  with_reducible repeat' first | assumption | ((fail_if_success (fail_if_success conv => arg 1; arg 30)); refine sound_mk ?_ (by rfl))

theorem keeps_noteFlowWork {a0 a1 a2} {s : State} (h : sound s) : sound (noteFlowWork a0 a1 a2 s) := by
  unfold noteFlowWork
  try dsimp only
  with_reducible repeat' first | assumption | ((fail_if_success (fail_if_success conv => arg 1; arg 30)); refine sound_mk ?_ (by rfl))

theorem keeps_runTable {a0} {t : TableOp} {a2} {s : State} (ht : soundTableOp t) (h : sound s) : sound (runTable a0 t a2 s) := by
  unfold runTable
  split
  · exact h
  · rename_i x _
    dsimp only
    have h1 : sound (consume a2.ring { s with fwd := { s.fwd with lastTable := some a2.ring } }) := keeps_consume (sound_mk h rfl)
    refine sound_ite h (sound_ite (keeps_tableDone h1) ?_)
    have h2 : sound (noteUnits 1 (consume a2.ring { s with fwd := { s.fwd with lastTable := some a2.ring } })) := keeps_noteUnits h1
    generalize noteUnits 1 (consume a2.ring { s with fwd := { s.fwd with lastTable := some a2.ring } }) = s1 at h2 ⊢
    have h3 : sound (if 0x10 ≤ a0 then noteFlowWork a2.ring x.partIndex (rd (fit 64 a2.bytes) 4 4) s1 else s1) :=
      sound_ite (keeps_noteFlowWork h2) h2
    generalize (if 0x10 ≤ a0 then noteFlowWork a2.ring x.partIndex (rd (fit 64 a2.bytes) 4 4) s1 else s1) = s2 at h3 ⊢
    have hv := ht (fit 64 a2.bytes) a2.data x.fn s2 h3
    have hr : ∀ {st rel id fr u}, sound u →
        sound (tableDone x (fit 64 a2.bytes) a0 st id rel fr none (if st = St.dmaError then tally (hifCtr 0x108) u else u)) :=
      fun hu => keeps_tableDone (sound_ite (keeps_tally hu) hu)
    refine sound_ite (hr h3) ?_
    split
    · exact sound_ite (hr h3) (hr h3)
    · rename_i ev
      rw [ev] at hv
      exact sound_ite (hr (sound_mk h3 rfl)) (keeps_tableDone hv)
    · exact sound_ite (hr h3) (sound_ite (hr h3)
        (keeps_markDue (keeps_tableDone (keeps_releaseUnmirrored (keeps_mirrorCfg (keeps_noteUnits (sound_mk h3 rfl)))))))

theorem keeps_routeDeleteBody {a0 a1 a2} {s : State} (h : sound s) : soundTable (routeDeleteBody a0 a1 a2 s) := by
  unfold routeDeleteBody
  try dsimp only
  with_reducible repeat' first | exact soundTable_refuse | exact soundTable_stage | split

theorem keeps_opRouteDelete : soundTableOp opRouteDelete := by
  intro d m f s h
  unfold opRouteDelete
  with_reducible exact keeps_routeDeleteBody h

theorem keeps_execRouteDelete {a0} {s : State} (h : sound s) : soundRes (execRouteDelete a0 s) := by
  unfold execRouteDelete
  try dsimp only
  with_reducible repeat' first | assumption | exact keeps_opRouteDelete | refine soundRes_next ?_ | refine keeps_runTable ?_ ?_

theorem keeps_fibVrfConfig {a0} {s : State} (h : sound s) : soundVerdict (fibVrfConfig a0 s) := by
  unfold fibVrfConfig
  try dsimp only
  with_reducible repeat' first | assumption | refine soundVerdict_ite ?_ ?_ | exact soundVerdict_refuse | refine keeps_staged ?_

theorem keeps_specFibVrfConfig : soundSpec specFibVrfConfig := by
  intro x s h
  unfold specFibVrfConfig
  with_reducible exact keeps_fibVrfConfig h

theorem keeps_execFibVrfConfig {a0} {s : State} (h : sound s) : soundRes (execFibVrfConfig a0 s) := by
  unfold execFibVrfConfig
  try dsimp only
  with_reducible repeat' first | assumption | exact keeps_specFibVrfConfig | refine keeps_runCmd ?_ ?_

theorem keeps_descReadFailed {a0 a1} {s : State} (h : sound s) : sound (descReadFailed a0 a1 s) := by
  unfold descReadFailed
  try dsimp only
  with_reducible repeat' first | assumption | refine keeps_consume ?_ | refine keeps_tally ?_ | refine keeps_postCompletion ?_ | split

theorem keeps_execDmaReadError {a0 a1 a2} {s : State} (h : sound s) : soundRes (execDmaReadError a0 a1 a2 s) := by
  unfold execDmaReadError
  try dsimp only
  with_reducible repeat' first | assumption | refine soundRes_next ?_ | refine keeps_descReadFailed ?_ | refine keeps_ringReadFailed ?_ | split

theorem keeps_flowTableFlush {a0} {s : State} (h : sound s) : soundVerdict (flowTableFlush a0 s) := by
  unfold flowTableFlush
  try dsimp only
  with_reducible repeat' first | assumption | refine soundVerdict_ite ?_ ?_ | exact soundVerdict_refuse | refine soundVerdict_done ?_ | refine keeps_dropFlow ?_ | refine sound_foldl ?_ ?_ | intro _

theorem keeps_specFlowTableFlush : soundSpec specFlowTableFlush := by
  intro x s h
  unfold specFlowTableFlush
  with_reducible exact keeps_flowTableFlush h

theorem keeps_execFlowTableFlush {a0} {s : State} (h : sound s) : soundRes (execFlowTableFlush a0 s) := by
  unfold execFlowTableFlush
  try dsimp only
  with_reducible repeat' first | assumption | exact keeps_specFlowTableFlush | refine keeps_runCmd ?_ ?_

theorem keeps_ecmpSetBody {a0 a1 a2} {s : State} (h : sound s) : soundTable (ecmpSetBody a0 a1 a2 s) := by
  unfold ecmpSetBody
  try dsimp only
  with_reducible repeat' first | exact soundTable_refuse | exact soundTable_stage | split

theorem keeps_opEcmpSet : soundTableOp opEcmpSet := by
  intro d m f s h
  unfold opEcmpSet
  with_reducible exact keeps_ecmpSetBody h

theorem keeps_execEcmpSet {a0} {s : State} (h : sound s) : soundRes (execEcmpSet a0 s) := by
  unfold execEcmpSet
  try dsimp only
  with_reducible repeat' first | assumption | exact keeps_opEcmpSet | refine soundRes_next ?_ | refine keeps_runTable ?_ ?_

theorem keeps_flowDeleteBody {a0 a1 a2} {s : State} (h : sound s) : soundTable (flowDeleteBody a0 a1 a2 s) := by
  unfold flowDeleteBody
  try dsimp only
  with_reducible repeat' first | assumption | exact soundTable_refuse | refine soundTable_acted ?_ | refine keeps_dropFlow ?_ | split

theorem keeps_opFlowDelete : soundTableOp opFlowDelete := by
  intro d m f s h
  unfold opFlowDelete
  with_reducible exact keeps_flowDeleteBody h

theorem keeps_execFlowDelete {a0} {s : State} (h : sound s) : soundRes (execFlowDelete a0 s) := by
  unfold execFlowDelete
  try dsimp only
  with_reducible repeat' first | assumption | exact keeps_opFlowDelete | refine soundRes_next ?_ | refine keeps_runTable ?_ ?_

theorem keeps_flowTableDelete {a0} {s : State} (h : sound s) : soundVerdict (flowTableDelete a0 s) := by
  unfold flowTableDelete
  try dsimp only
  with_reducible repeat' first | assumption | ((fail_if_success (fail_if_success conv => arg 1; arg 30)); refine sound_mk ?_ (by rfl)) | refine soundVerdict_ite ?_ ?_ | exact soundVerdict_refuse | refine soundVerdict_done ?_ | refine keeps_dropFlow ?_ | refine sound_foldl ?_ ?_ | intro _

theorem keeps_specFlowTableDelete : soundSpec specFlowTableDelete := by
  intro x s h
  unfold specFlowTableDelete
  with_reducible exact keeps_flowTableDelete h

theorem keeps_execFlowTableDelete {a0} {s : State} (h : sound s) : soundRes (execFlowTableDelete a0 s) := by
  unfold execFlowTableDelete
  try dsimp only
  with_reducible repeat' first | assumption | exact keeps_specFlowTableDelete | refine keeps_runCmd ?_ ?_

theorem keeps_idQuery {a0} {s : State} (h : sound s) : soundVerdict (idQuery a0 s) := by
  unfold idQuery
  try dsimp only
  with_reducible repeat' first | assumption | refine soundVerdict_ite ?_ ?_ | exact soundVerdict_refuse | refine soundVerdict_done ?_

theorem keeps_specIdQuery : soundSpec specIdQuery := by
  intro x s h
  unfold specIdQuery
  with_reducible exact keeps_idQuery h

theorem keeps_execIdQuery {a0} {s : State} (h : sound s) : soundRes (execIdQuery a0 s) := by
  unfold execIdQuery
  try dsimp only
  with_reducible repeat' first | assumption | exact keeps_specIdQuery | refine keeps_runCmd ?_ ?_

theorem keeps_setId {a0 a1 a2 a3} {s : State} (h : sound s) : soundTable (setId a0 a1 a2 a3 s) := by
  unfold setId
  try dsimp only
  with_reducible repeat' first | exact soundTable_refuse | exact soundTable_stage | split

theorem keeps_templateSetBody {a0 a1 a2} {s : State} (h : sound s) : soundTable (templateSetBody a0 a1 a2 s) := by
  unfold templateSetBody
  try dsimp only
  with_reducible repeat' first | assumption | exact soundTable_refuse | refine keeps_setId ?_ | split

theorem keeps_opTemplateSet : soundTableOp opTemplateSet := by
  intro d m f s h
  unfold opTemplateSet
  with_reducible exact keeps_templateSetBody h

theorem keeps_execTemplateSet {a0} {s : State} (h : sound s) : soundRes (execTemplateSet a0 s) := by
  unfold execTemplateSet
  try dsimp only
  with_reducible repeat' first | assumption | exact keeps_opTemplateSet | refine soundRes_next ?_ | refine keeps_runTable ?_ ?_

theorem keeps_flowReadBody {a0 a1 a2} {s : State} (h : sound s) : soundTable (flowReadBody a0 a1 a2 s) := by
  unfold flowReadBody
  try dsimp only
  with_reducible repeat' first | assumption | exact soundTable_refuse | refine soundTable_acted ?_ | refine keeps_dmaWrite ?_ | refine keeps_updFlow ?_ | split

theorem keeps_opFlowRead : soundTableOp opFlowRead := by
  intro d m f s h
  unfold opFlowRead
  with_reducible exact keeps_flowReadBody h

theorem keeps_execFlowRead {a0} {s : State} (h : sound s) : soundRes (execFlowRead a0 s) := by
  unfold execFlowRead
  try dsimp only
  with_reducible repeat' first | assumption | exact keeps_opFlowRead | refine soundRes_next ?_ | refine keeps_runTable ?_ ?_

theorem keeps_nhSetBody {a0 a1 a2} {s : State} (h : sound s) : soundTable (nhSetBody a0 a1 a2 s) := by
  unfold nhSetBody
  try dsimp only
  with_reducible repeat' first | assumption | refine soundTable_ite ?_ ?_ | exact soundTable_refuse | refine keeps_setId ?_

theorem keeps_opNhSet : soundTableOp opNhSet := by
  intro d m f s h
  unfold opNhSet
  with_reducible exact keeps_nhSetBody h

theorem keeps_execNhSet {a0} {s : State} (h : sound s) : soundRes (execNhSet a0 s) := by
  unfold execNhSet
  try dsimp only
  with_reducible repeat' first | assumption | exact keeps_opNhSet | refine soundRes_next ?_ | refine keeps_runTable ?_ ?_

theorem keeps_flowInsert {a0 a1 a2 a3} {s : State} (h : sound s) : soundTable (flowInsert a0 a1 a2 a3 s) := by
  unfold flowInsert
  try dsimp only
  with_reducible repeat' first | assumption | exact soundTable_refuse | refine soundTable_acted ?_ | refine keeps_makeRoom ?_ | refine keeps_storeFlow ?_ | refine sound_of_somePair (by assumption) ?_ | split

theorem keeps_flowWriteBody {a0 a1 a2} {s : State} (h : sound s) : soundTable (flowWriteBody a0 a1 a2 s) := by
  unfold flowWriteBody
  try dsimp only
  with_reducible repeat' first | assumption | exact soundTable_refuse | refine soundTable_acted ?_ | refine keeps_flowInsert ?_ | refine keeps_writeFlow ?_ | split

theorem keeps_freeId {a0 a1 a2} {s : State} (h : sound s) : soundTable (freeId a0 a1 a2 s) := by
  unfold freeId
  try dsimp only
  with_reducible repeat' first | refine soundTable_ite ?_ ?_ | exact soundTable_refuse | exact soundTable_stage

theorem keeps_ecmpFreeBody {a0 a1 a2} {s : State} (h : sound s) : soundTable (ecmpFreeBody a0 a1 a2 s) := by
  unfold ecmpFreeBody
  try dsimp only
  with_reducible repeat' first | assumption | refine soundTable_ite ?_ ?_ | exact soundTable_refuse | refine keeps_freeId ?_

theorem keeps_opFlowWrite : soundTableOp opFlowWrite := by
  intro d m f s h
  unfold opFlowWrite
  with_reducible exact keeps_flowWriteBody h

theorem keeps_execFlowWrite {a0} {s : State} (h : sound s) : soundRes (execFlowWrite a0 s) := by
  unfold execFlowWrite
  try dsimp only
  with_reducible repeat' first | assumption | exact keeps_opFlowWrite | refine soundRes_next ?_ | refine keeps_runTable ?_ ?_

theorem keeps_labelDeleteBody {a0 a1 a2} {s : State} (h : sound s) : soundTable (labelDeleteBody a0 a1 a2 s) := by
  unfold labelDeleteBody
  try dsimp only
  with_reducible repeat' first | refine soundTable_ite ?_ ?_ | exact soundTable_refuse | exact soundTable_stage

theorem keeps_opEcmpFree : soundTableOp opEcmpFree := by
  intro d m f s h
  unfold opEcmpFree
  with_reducible exact keeps_ecmpFreeBody h

theorem keeps_execEcmpFree {a0} {s : State} (h : sound s) : soundRes (execEcmpFree a0 s) := by
  unfold execEcmpFree
  try dsimp only
  with_reducible repeat' first | assumption | exact keeps_opEcmpFree | refine soundRes_next ?_ | refine keeps_runTable ?_ ?_

theorem keeps_flowTableCreate {a0} {s : State} (h : sound s) : soundVerdict (flowTableCreate a0 s) := by
  unfold flowTableCreate
  try dsimp only
  with_reducible repeat' first | assumption | ((fail_if_success (fail_if_success conv => arg 1; arg 30)); refine sound_mk ?_ (by rfl)) | refine soundVerdict_ite ?_ ?_ | exact soundVerdict_refuse | refine soundVerdict_done ?_

theorem keeps_specFlowTableCreate : soundSpec specFlowTableCreate := by
  intro x s h
  unfold specFlowTableCreate
  with_reducible exact keeps_flowTableCreate h

theorem keeps_execFlowTableCreate {a0} {s : State} (h : sound s) : soundRes (execFlowTableCreate a0 s) := by
  unfold execFlowTableCreate
  try dsimp only
  with_reducible repeat' first | assumption | exact keeps_specFlowTableCreate | refine keeps_runCmd ?_ ?_

theorem keeps_fibStatus {a0} {s : State} (h : sound s) : soundVerdict (fibStatus a0 s) := by
  unfold fibStatus
  try dsimp only
  with_reducible repeat' first | assumption | refine soundVerdict_done ?_

theorem keeps_flowStatus {a0} {s : State} (h : sound s) : soundVerdict (flowStatus a0 s) := by
  unfold flowStatus
  try dsimp only
  with_reducible repeat' first | assumption | refine soundVerdict_done ?_

theorem keeps_specFlowStatus : soundSpec specFlowStatus := by
  intro x s h
  unfold specFlowStatus
  with_reducible exact keeps_flowStatus h

theorem keeps_execFlowStatus {a0} {s : State} (h : sound s) : soundRes (execFlowStatus a0 s) := by
  unfold execFlowStatus
  try dsimp only
  with_reducible repeat' first | assumption | exact keeps_specFlowStatus | refine keeps_runCmd ?_ ?_

theorem keeps_opLabelDelete : soundTableOp opLabelDelete := by
  intro d m f s h
  unfold opLabelDelete
  with_reducible exact keeps_labelDeleteBody h

theorem keeps_execLabelDelete {a0} {s : State} (h : sound s) : soundRes (execLabelDelete a0 s) := by
  unfold execLabelDelete
  try dsimp only
  with_reducible repeat' first | assumption | exact keeps_opLabelDelete | refine soundRes_next ?_ | refine keeps_runTable ?_ ?_

theorem keeps_labelAddBody {a0 a1 a2} {s : State} (h : sound s) : soundTable (labelAddBody a0 a1 a2 s) := by
  unfold labelAddBody
  try dsimp only
  with_reducible repeat' first | refine soundTable_ite ?_ ?_ | exact soundTable_refuse | exact soundTable_stage

theorem keeps_opLabelAdd : soundTableOp opLabelAdd := by
  intro d m f s h
  unfold opLabelAdd
  with_reducible exact keeps_labelAddBody h

theorem keeps_execLabelAdd {a0} {s : State} (h : sound s) : soundRes (execLabelAdd a0 s) := by
  unfold execLabelAdd
  try dsimp only
  with_reducible repeat' first | assumption | exact keeps_opLabelAdd | refine soundRes_next ?_ | refine keeps_runTable ?_ ?_

theorem keeps_templateFreeBody {a0 a1 a2} {s : State} (h : sound s) : soundTable (templateFreeBody a0 a1 a2 s) := by
  unfold templateFreeBody
  try dsimp only
  with_reducible repeat' first | assumption | refine soundTable_ite ?_ ?_ | exact soundTable_refuse | refine keeps_freeId ?_

theorem keeps_opTemplateFree : soundTableOp opTemplateFree := by
  intro d m f s h
  unfold opTemplateFree
  with_reducible exact keeps_templateFreeBody h

theorem keeps_execTemplateFree {a0} {s : State} (h : sound s) : soundRes (execTemplateFree a0 s) := by
  unfold execTemplateFree
  try dsimp only
  with_reducible repeat' first | assumption | exact keeps_opTemplateFree | refine soundRes_next ?_ | refine keeps_runTable ?_ ?_

theorem keeps_nhFreeBody {a0 a1 a2} {s : State} (h : sound s) : soundTable (nhFreeBody a0 a1 a2 s) := by
  unfold nhFreeBody
  try dsimp only
  with_reducible repeat' first | assumption | refine soundTable_ite ?_ ?_ | exact soundTable_refuse | refine keeps_freeId ?_

theorem keeps_opNhFree : soundTableOp opNhFree := by
  intro d m f s h
  unfold opNhFree
  with_reducible exact keeps_nhFreeBody h

theorem keeps_execNhFree {a0} {s : State} (h : sound s) : soundRes (execNhFree a0 s) := by
  unfold execNhFree
  try dsimp only
  with_reducible repeat' first | assumption | exact keeps_opNhFree | refine soundRes_next ?_ | refine keeps_runTable ?_ ?_

theorem keeps_routeAddBody {a0 a1 a2} {s : State} (h : sound s) : soundTable (routeAddBody a0 a1 a2 s) := by
  unfold routeAddBody
  try dsimp only
  with_reducible repeat' first | exact soundTable_refuse | exact soundTable_stage | split

theorem keeps_opRouteAdd : soundTableOp opRouteAdd := by
  intro d m f s h
  unfold opRouteAdd
  with_reducible exact keeps_routeAddBody h

theorem keeps_execRouteAdd {a0} {s : State} (h : sound s) : soundRes (execRouteAdd a0 s) := by
  unfold execRouteAdd
  try dsimp only
  with_reducible repeat' first | assumption | exact keeps_opRouteAdd | refine soundRes_next ?_ | refine keeps_runTable ?_ ?_

theorem keeps_specFibStatus : soundSpec specFibStatus := by
  intro x s h
  unfold specFibStatus
  with_reducible exact keeps_fibStatus h

theorem keeps_execFibStatus {a0} {s : State} (h : sound s) : soundRes (execFibStatus a0 s) := by
  unfold execFibStatus
  try dsimp only
  with_reducible repeat' first | assumption | exact keeps_specFibStatus | refine keeps_runCmd ?_ ?_

theorem keeps_catalogue01 : ∀ x ∈ catalogue01, soundSpec x.2 := by
  unfold catalogue01
  simp only [List.forall_mem_cons, List.not_mem_nil, false_implies, implies_true, and_true]
  exact ⟨keeps_specSysInfo, keeps_specSysAbort, keeps_specSysCmdQuery, keeps_specSysRestart, keeps_specEventBind, keeps_specJournalRead⟩

theorem keeps_catalogue02 : ∀ x ∈ catalogue02, soundSpec x.2 := by
  unfold catalogue02
  simp only [List.forall_mem_cons, List.not_mem_nil, false_implies, implies_true, and_true]
  exact ⟨keeps_specPortConfig, keeps_specPortDelete, keeps_specPortAdmin, keeps_specPortQuery, keeps_specPortDegrade, keeps_specPortMacSet⟩

theorem keeps_catalogue03 : ∀ x ∈ catalogue03, soundSpec x.2 := by
  unfold catalogue03
  simp only [List.forall_mem_cons, List.not_mem_nil, false_implies, implies_true, and_true]
  exact ⟨keeps_specFlexeGroupConfig, keeps_specFlexeGroupDelete, keeps_specFlexeGroupAdmin, keeps_specFlexeClientConfig, keeps_specFlexeClientDelete, keeps_specFlexeClientAdmin, keeps_specFlexeCalendarStage, keeps_specFlexeCalendarSwitch, keeps_specFlexeQuery⟩

theorem keeps_catalogue04 : ∀ x ∈ catalogue04, soundSpec x.2 := by
  unfold catalogue04
  simp only [List.forall_mem_cons, List.not_mem_nil, false_implies, implies_true, and_true]
  exact ⟨keeps_specParseSelectLayout, keeps_specProfileWrite, keeps_specProfileDelete, keeps_specProfileSelectAdd, keeps_specProfileSelectDelete, keeps_specParseClassMapSet, keeps_specRuleTableCreate, keeps_specRuleTableDelete, keeps_specRuleAdd, keeps_specRuleDelete, keeps_specRuleModify, keeps_specRuleOverlaps, keeps_specRuleQuery, keeps_specExceptionConfig, keeps_specTcamStatus⟩

theorem keeps_catalogue05 : ∀ x ∈ catalogue05, soundSpec x.2 := by
  unfold catalogue05
  simp only [List.forall_mem_cons, List.not_mem_nil, false_implies, implies_true, and_true]
  exact ⟨keeps_specFibVrfConfig, keeps_specFibStatus, keeps_specIdQuery, keeps_specEcmpHashSeed, keeps_specTableCommit, keeps_specTableCommitQuery, keeps_specFlowTableCreate, keeps_specFlowTableDelete, keeps_specFlowTableFlush, keeps_specFlowStatus⟩

theorem keeps_catalogue06 : ∀ x ∈ catalogue06, soundSpec x.2 := by
  unfold catalogue06
  simp only [List.forall_mem_cons, List.not_mem_nil, false_implies, implies_true, and_true]
  exact ⟨keeps_specVoqDestSet, keeps_specVoqDestDelete, keeps_specVoqProfileSet, keeps_specVoqEplistSet, keeps_specPealListSet, keeps_specPealListDelete, keeps_specBufPoolLayout, keeps_specBufPoolConfig, keeps_specSamplerConfig, keeps_specPuntQueueConfig, keeps_specVoqQuery, keeps_specBufStatus⟩

theorem keeps_catalogue07 : ∀ x ∈ catalogue07, soundSpec x.2 := by
  unfold catalogue07
  simp only [List.forall_mem_cons, List.not_mem_nil, false_implies, implies_true, and_true]
  exact ⟨keeps_specSchedPortConfig, keeps_specSchedNodeSet, keeps_specSchedNodeDelete, keeps_specGateListSet, keeps_specGateListClear, keeps_specCreditConfig, keeps_specCreditPealSet, keeps_specPolicerConfig, keeps_specSchedQuery, keeps_specPolicerQuery⟩

theorem keeps_catalogue08 : ∀ x ∈ catalogue08, soundSpec x.2 := by
  unfold catalogue08
  simp only [List.forall_mem_cons, List.not_mem_nil, false_implies, implies_true, and_true]
  exact ⟨keeps_specFabricConfig, keeps_specFabricQuery, keeps_specFabricLaneQuery⟩

theorem keeps_catalogue09 : ∀ x ∈ catalogue09, soundSpec x.2 := by
  unfold catalogue09
  simp only [List.forall_mem_cons, List.not_mem_nil, false_implies, implies_true, and_true]
  exact ⟨keeps_specRingIndexConfig, keeps_specRingCreate, keeps_specRingEnable, keeps_specRingDisable, keeps_specRingDestroy, keeps_specRingQuery, keeps_specRxGroupConfig, keeps_specPuntQueueBind⟩

theorem keeps_catalogue0A : ∀ x ∈ catalogue0A, soundSpec x.2 := by
  unfold catalogue0A
  simp only [List.forall_mem_cons, List.not_mem_nil, false_implies, implies_true, and_true]
  exact ⟨keeps_specTempoSourceSet, keeps_specTempoTodSet, keeps_specTempoAdjust, keeps_specTempoStep, keeps_specTempoQuery, keeps_specTempoGridSet, keeps_specTempoMaxAgeSet⟩

theorem keeps_catalogue0B : ∀ x ∈ catalogue0B, soundSpec x.2 := by
  unfold catalogue0B
  simp only [List.forall_mem_cons, List.not_mem_nil, false_implies, implies_true, and_true]
  exact ⟨keeps_specCarillonConfig, keeps_specCarillonStatus, keeps_specCarillonPark, keeps_specMgmtBusConfig, keeps_specProtectPairSet, keeps_specProtectPairDelete, keeps_specProtectSwitch, keeps_specProtectQuery⟩

theorem keeps_catalogue0C : ∀ x ∈ catalogue0C, soundSpec x.2 := by
  unfold catalogue0C
  simp only [List.forall_mem_cons, List.not_mem_nil, false_implies, implies_true, and_true]
  exact ⟨keeps_specFwDownload, keeps_specFwVerify, keeps_specFwDistribute, keeps_specFwActivate, keeps_specFwConfirm, keeps_specFwRevert, keeps_specFwStatus, keeps_specSettingsRead, keeps_specSettingsWrite, keeps_specKeyRevoke, keeps_specAttestQuote⟩

theorem keeps_catalogue0D : ∀ x ∈ catalogue0D, soundSpec x.2 := by
  unfold catalogue0D
  simp only [List.forall_mem_cons, List.not_mem_nil, false_implies, implies_true, and_true]
  exact ⟨keeps_specTollConfig, keeps_specTollSelect, keeps_specTollStart, keeps_specTollStop, keeps_specCounterRead, keeps_specTollStatus⟩

theorem keeps_catalogue0E : ∀ x ∈ catalogue0E, soundSpec x.2 := by
  unfold catalogue0E
  simp only [List.forall_mem_cons, List.not_mem_nil, false_implies, implies_true, and_true]
  exact ⟨keeps_specPowerShedConfig, keeps_specPowerStatus, keeps_specHumConfig, keeps_specHumStatus, keeps_specKnellRead⟩

theorem keeps_catalogue0F : ∀ x ∈ catalogue0F, soundSpec x.2 := by
  unfold catalogue0F
  simp only [List.forall_mem_cons, List.not_mem_nil, false_implies, implies_true, and_true]
  exact ⟨keeps_specAuditScan, keeps_specAuditContextRead, keeps_specAuditContextWrite, keeps_specAuditStatus, keeps_specMemStatus, keeps_specMemRetiredQuery, keeps_specDiagFaultQuery⟩

theorem keeps_catalogue : ∀ x ∈ catalogue, soundSpec x.2 := by
  unfold catalogue
  simp only [List.forall_mem_append]
  exact ⟨⟨⟨⟨⟨⟨⟨⟨⟨⟨⟨⟨⟨⟨keeps_catalogue01, keeps_catalogue02⟩, keeps_catalogue03⟩, keeps_catalogue04⟩, keeps_catalogue05⟩, keeps_catalogue06⟩, keeps_catalogue07⟩, keeps_catalogue08⟩, keeps_catalogue09⟩, keeps_catalogue0A⟩, keeps_catalogue0B⟩, keeps_catalogue0C⟩, keeps_catalogue0D⟩, keeps_catalogue0E⟩, keeps_catalogue0F⟩

theorem keeps_specOf {op : Nat} {c : CmdSpec} (e : specOf op = some c) : soundSpec c := by
  unfold specOf at e
  obtain ⟨x, hx, rfl⟩ := Option.map_eq_some_iff.1 e
  exact keeps_catalogue x (List.mem_of_find?_eq_some hx)

theorem keeps_beginAny {a0} {s : State} (h : sound s) : sound (beginAny a0 s) := by
  unfold beginAny
  split
  · rename_i e
    exact keeps_beginCmd (keeps_specOf e) h
  · exact keeps_refuse h

theorem keeps_execUnknownOpcode {a0 a1} {s : State} (h : sound s) : soundRes (execUnknownOpcode a0 a1 s) := by
  unfold execUnknownOpcode
  try dsimp only
  with_reducible repeat' first | assumption | refine soundRes_next ?_ | refine keeps_enter ?_ ?_ | refine keeps_beginAny ?_ | intro _

theorem keeps_accessRow {a0 a1} {s : State} (h : sound s) : sound (accessRow a0 a1 s) := by
  unfold accessRow
  try dsimp only
  with_reducible repeat' first | assumption | ((fail_if_success (fail_if_success conv => arg 1; arg 30)); refine sound_mk ?_ (by rfl)) | refine sound_ite ?_ ?_ | refine keeps_updDdr ?_ | refine keeps_activate ?_ | refine sound_foldl ?_ ?_ | refine sound_of_pair (by assumption) ?_ | refine sound_of_some (by assumption) ?_ | refine sound_of_somePair (by assumption) ?_ | split | dsimp only | intro _

theorem keeps_serveRead {a0 a1 a2 a3} {s : State} (h : sound s) : sound (serveRead a0 a1 a2 a3 s) := by
  unfold serveRead
  try dsimp only
  with_reducible repeat' first | assumption | ((fail_if_success (fail_if_success conv => arg 1; arg 30)); refine sound_mk ?_ (by rfl)) | refine sound_ite ?_ ?_ | refine keeps_readFor ?_ | refine keeps_accessRow ?_ | refine keeps_updDdr ?_ | refine sound_foldl ?_ ?_ | refine sound_of_pair (by assumption) ?_ | refine sound_of_some (by assumption) ?_ | refine sound_of_somePair (by assumption) ?_ | split | dsimp only | intro _

theorem keeps_serveWrite {a0 a1 a2} {s : State} (h : sound s) : sound (serveWrite a0 a1 a2 s) := by
  unfold serveWrite
  try dsimp only
  with_reducible repeat' first | assumption | ((fail_if_success (fail_if_success conv => arg 1; arg 30)); refine sound_mk ?_ (by rfl)) | refine sound_ite ?_ ?_ | refine keeps_serveRead ?_ | refine keeps_updDdr ?_ | refine keeps_accessRow ?_ | refine sound_foldl ?_ ?_ | refine sound_of_pair (by assumption) ?_ | refine sound_of_some (by assumption) ?_ | refine sound_of_somePair (by assumption) ?_ | split | dsimp only | intro _

theorem keeps_serveOne {a0 a1 a2} {s : State} (h : sound s) : sound (serveOne a0 a1 a2 s) := by
  unfold serveOne
  try dsimp only
  with_reducible repeat' first | assumption | ((fail_if_success (fail_if_success conv => arg 1; arg 30)); refine sound_mk ?_ (by rfl)) | refine sound_ite ?_ ?_ | refine keeps_updDdr ?_ | refine keeps_serveRead ?_ | refine keeps_serveWrite ?_ | refine sound_foldl ?_ ?_ | refine sound_of_pair (by assumption) ?_ | refine sound_of_some (by assumption) ?_ | refine sound_of_somePair (by assumption) ?_ | split | dsimp only | intro _

theorem keeps_runDrain {a0 a1} {s : State} (h : sound s) : sound (runDrain a0 a1 s) := by
  induction a1 generalizing a0 s with
  | zero =>
    unfold runDrain
    with_reducible repeat' first | assumption | refine ih ?_ | ((fail_if_success (fail_if_success conv => arg 1; arg 30)); refine sound_mk ?_ (by rfl)) | refine sound_ite ?_ ?_ | refine keeps_serveOne ?_ | refine sound_foldl ?_ ?_ | refine sound_of_pair (by assumption) ?_ | refine sound_of_some (by assumption) ?_ | refine sound_of_somePair (by assumption) ?_ | split | dsimp only | intro _
  | succ fuel ih =>
    unfold runDrain
    try dsimp only
    with_reducible repeat' first | assumption | refine ih ?_ | ((fail_if_success (fail_if_success conv => arg 1; arg 30)); refine sound_mk ?_ (by rfl)) | refine sound_ite ?_ ?_ | refine keeps_serveOne ?_ | refine sound_foldl ?_ ?_ | refine sound_of_pair (by assumption) ?_ | refine sound_of_some (by assumption) ?_ | refine sound_of_somePair (by assumption) ?_ | split | dsimp only | intro _

theorem keeps_arrive {a0 a1} {s : State} (h : sound s) : sound (arrive a0 a1 s) := by
  unfold arrive
  try dsimp only
  with_reducible repeat' first | assumption | ((fail_if_success (fail_if_success conv => arg 1; arg 30)); refine sound_mk ?_ (by rfl)) | refine sound_ite ?_ ?_ | refine keeps_updDdr ?_ | refine sound_foldl ?_ ?_ | refine sound_of_pair (by assumption) ?_ | refine sound_of_some (by assumption) ?_ | refine sound_of_somePair (by assumption) ?_ | split | dsimp only | intro _

theorem keeps_ddrEvent {a0 a2} {s : State} (h : sound s) : sound (ddrEvent a0 s a2) := by
  unfold ddrEvent
  try dsimp only
  with_reducible repeat' first | assumption | ((fail_if_success (fail_if_success conv => arg 1; arg 30)); refine sound_mk ?_ (by rfl)) | refine sound_ite ?_ ?_ | refine keeps_arrive ?_ | refine keeps_serveOne ?_ | refine keeps_countLate ?_ | refine keeps_tickBy ?_ | refine keeps_updDdr ?_ | refine sound_foldl ?_ ?_ | refine sound_of_pair (by assumption) ?_ | refine sound_of_some (by assumption) ?_ | refine sound_of_somePair (by assumption) ?_ | split | dsimp only | intro _

theorem keeps_execDdrWriteQueueAge {a0 a1} {s : State} (h : sound s) : soundRes (execDdrWriteQueueAge a0 a1 s) := by
  unfold execDdrWriteQueueAge
  try dsimp only
  with_reducible repeat' first | assumption | ((fail_if_success (fail_if_success conv => arg 1; arg 30)); refine sound_mk ?_ (by rfl)) | refine soundRes_next ?_ | refine sound_ite ?_ ?_ | refine keeps_ddrEvent ?_ | refine keeps_countLate ?_ | refine keeps_tickBy ?_ | refine keeps_runDrain ?_ | refine keeps_updDdr ?_ | refine sound_foldl ?_ ?_ | refine sound_of_pair (by assumption) ?_ | refine sound_of_some (by assumption) ?_ | refine sound_of_somePair (by assumption) ?_ | split | dsimp only | intro _

theorem keeps_latchGroup {a0 a1} {s : State} (h : sound s) : sound (latchGroup a0 a1 s) := by
  unfold latchGroup
  try dsimp only
  with_reducible repeat' first | assumption | refine keeps_updGroup ?_

theorem keeps_latchLine {a0 a1} {s : State} (h : sound s) : sound (latchLine a0 a1 s) := by
  unfold latchLine
  try dsimp only
  with_reducible repeat' first | assumption | refine keeps_updLine ?_

theorem keeps_latchMac {a0 a1} {s : State} (h : sound s) : sound (latchMac a0 a1 s) := by
  unfold latchMac
  try dsimp only
  with_reducible repeat' first | assumption | refine keeps_updMac ?_ | split

theorem keeps_latchSecond {a0} {s : State} (h : sound s) : sound (latchSecond a0 s) := by
  unfold latchSecond
  try dsimp only
  with_reducible repeat' first | assumption | ((fail_if_success (fail_if_success conv => arg 1; arg 30)); refine sound_mk ?_ (by rfl)) | refine sound_ite ?_ ?_ | refine keeps_latchMac ?_ | refine keeps_latchLine ?_ | refine keeps_latchGroup ?_ | refine keeps_emit ?_ | refine sound_foldl ?_ ?_ | intro _

theorem keeps_journalFlows {s : State} (h : sound s) : sound (journalFlows s) := by
  unfold journalFlows
  try dsimp only
  with_reducible repeat' first | assumption | ((fail_if_success (fail_if_success conv => arg 1; arg 30)); refine sound_mk ?_ (by rfl)) | refine keeps_journal ?_ | refine sound_foldl ?_ ?_ | intro _

theorem keeps_openSecond {n} {s : State} (h : sound s) : sound (openSecond n s) := sound_mk h rfl

theorem keeps_execTempoSecondBoundary {s : State} (h : sound s) : soundRes (execTempoSecondBoundary s) := by
  unfold execTempoSecondBoundary
  refine soundRes_next (sound_let (sound_let (sound_let ?_)))
  have h2 := keeps_openSecond (n := s.tempo.nextSecond) (keeps_advanceTempo (a0 := tempoAt s.tempo.nextSecond 0) h)
  generalize openSecond s.tempo.nextSecond _ = s2 at h2 ⊢
  exact keeps_applySteps (keeps_journalFlows (sound_ite (keeps_latchSecond h2) h2))

theorem keeps_execGateEntryBoundary {a0} {s : State} (h : sound s) : soundRes (execGateEntryBoundary a0 s) := by
  unfold execGateEntryBoundary
  try dsimp only
  with_reducible repeat' first | assumption | refine soundRes_next ?_ | refine sound_ite ?_ ?_ | refine keeps_settleMac ?_ | refine keeps_advanceTempo ?_

theorem advanceTo_pwr (t : Nat) (s : State) : (advanceTo t s).pwr = s.pwr := by
  unfold advanceTo
  split <;> rfl

theorem keeps_execPpsOutEnd {s : State} (h : sound s) : soundRes (execPpsOutEnd s) := by
  unfold execPpsOutEnd
  refine soundRes_next ?_
  split
  · exact h
  · rename_i t _
    have h1 := keeps_advanceTo (a0 := t) h
    have e := advanceTo_pwr t s
    generalize advanceTo t s = s1 at h1 e ⊢
    rw [← e]
    exact keeps_emit (sound_mk h1 rfl)

theorem keeps_execGateListStart {a0} {s : State} (h : sound s) : soundRes (execGateListStart a0 s) := by
  unfold execGateListStart
  try dsimp only
  with_reducible repeat' first | assumption | ((fail_if_success (fail_if_success conv => arg 1; arg 30)); refine sound_mk ?_ (by rfl)) | refine soundRes_next ?_ | refine keeps_settleMac ?_ | refine keeps_advanceTempo ?_ | refine keeps_raiseEvent ?_ | split

theorem keeps_applyMirrorCmd {a0} {s : State} (h : sound s) : sound (applyMirrorCmd a0 s) := by
  unfold applyMirrorCmd
  dsimp only
  split
  · exact h
  · rename_i e
    refine sound_ite h ?_
    have hv := keeps_specOf e (parseBlock 10 0 0 a0.length none a0) s h
    split
    · rename_i ev
      rw [ev] at hv
      exact hv
    · exact h

theorem keeps_applyMirrorDesc {a0} {s : State} (h : sound s) : sound (applyMirrorDesc a0 s) := by
  unfold applyMirrorDesc
  try dsimp only
  with_reducible repeat' first | assumption | refine keeps_noteUnits ?_ | refine keeps_stage ?_ | split

theorem keeps_execMirrorCfg {a0 a1} {s : State} (h : sound s) : soundRes (execMirrorCfg a0 a1 s) := by
  unfold execMirrorCfg
  try dsimp only
  with_reducible repeat' first | assumption | refine soundRes_next ?_ | refine keeps_crlReceive ?_ | refine keeps_mirrorDone ?_ | refine keeps_applyMirrorCmd ?_ | refine keeps_applyMirrorDesc ?_ | refine keeps_updProt ?_ | refine keeps_sendMirrorAck ?_ | refine sound_of_pair (by assumption) ?_ | split

theorem keeps_busAck {a0 a1 a2 a3} {s : State} (h : sound s) : sound (busAck a0 a1 a2 a3 s) := by
  unfold busAck
  try dsimp only
  with_reducible repeat' first | assumption | refine keeps_busSend ?_

theorem keeps_holdFragment {a0 a1 a2} {s : State} (h : sound s) : sound (holdFragment a0 a1 a2 s) := by
  unfold holdFragment
  try dsimp only
  with_reducible repeat' first | assumption | ((fail_if_success (fail_if_success conv => arg 1; arg 30)); refine sound_mk ?_ (by rfl)) | refine sound_ite ?_ ?_

theorem keeps_commandFragment_fresh {a0 a2} {s : State} (h : sound s) : sound (commandFragment.fresh a0 s a2) := by
  unfold commandFragment.fresh
  try dsimp only
  with_reducible repeat' first | assumption | refine keeps_busAck ?_ | refine keeps_assemble ?_ | refine keeps_enter ?_ ?_ | refine keeps_beginAny ?_ | refine sound_of_pair (by assumption) ?_ | split | intro _

theorem keeps_commandFragment {a0} {s : State} (h : sound s) : sound (commandFragment a0 s) := by
  unfold commandFragment
  try dsimp only
  with_reducible repeat' first | assumption | refine keeps_busSendId ?_ | refine keeps_commandFragment_fresh ?_ | split

theorem keeps_execCommand {a0} {s : State} (h : sound s) : soundRes (execCommand a0 s) := by
  unfold execCommand
  try dsimp only
  with_reducible repeat' first | assumption | refine soundRes_next ?_ | refine keeps_busFragment ?_ | refine keeps_holdFragment ?_ | refine keeps_commandFragment ?_ | refine sound_of_pair (by assumption) ?_ | split

theorem keeps_endRestarted {s : State} (h : sound s) : sound (endRestarted s) := by
  unfold endRestarted
  try dsimp only
  with_reducible repeat' first | assumption | refine keeps_endEarly ?_ | refine sound_foldl ?_ ?_ | intro _

theorem keeps_execMbxAbort {a0} {s : State} (h : sound s) : soundRes (execMbxAbort a0 s) := by
  unfold execMbxAbort
  try dsimp only
  with_reducible repeat' first | assumption | refine soundRes_next ?_ | refine keeps_writeThrough ?_ ?_ | refine keeps_endEarly ?_ | split | intro _

theorem keeps_flushDelayed {s : State} (h : sound s) : sound (flushDelayed s) := by
  have h1 : sound { s with mgmt := { s.mgmt with restartEvents := [], restartLost := 0, restartLostFirst := 0 } } :=
    sound_mgmt h (bounded_of h).1 (bounded_of h).2.1 (bounded_of h).2.2.1 (Nat.zero_le _)
  have h2 := sound_foldl (l := s.mgmt.restartEvents) (f := fun s e => busEvent e (giveEvent e 1 (giveEvent e 0 s)))
    (fun _ _ hs => keeps_busEvent (keeps_giveEvent (keeps_giveEvent hs))) h1
  unfold flushDelayed
  exact sound_ite h2 (keeps_raiseEvent h2)

theorem keeps_relayFragment {a0} {s : State} (h : sound s) : sound (relayFragment a0 s) := by
  unfold relayFragment
  try dsimp only
  with_reducible repeat' first | assumption | refine keeps_assemble ?_ | refine keeps_enter ?_ ?_ | refine keeps_beginAny ?_ | refine sound_of_pair (by assumption) ?_ | split | intro _

theorem keeps_releaseHeld {s : State} (h : sound s) : sound (releaseHeld s) := by
  unfold releaseHeld
  try dsimp only
  with_reducible repeat' first | assumption | ((fail_if_success (fail_if_success conv => arg 1; arg 30)); refine sound_mk ?_ (by rfl)) | refine sound_ite ?_ ?_ | refine keeps_relayFragment ?_ | refine keeps_commandFragment ?_ | refine sound_foldl ?_ ?_ | intro _

theorem keeps_restartOver {s : State} (h : sound s) : sound (restartOver s) := by
  unfold restartOver
  try dsimp only
  with_reducible repeat' first | assumption | ((fail_if_success (fail_if_success conv => arg 1; arg 30)); refine sound_mk ?_ (by rfl)) | refine sound_ite ?_ ?_ | refine keeps_flushDelayed ?_ | refine keeps_raiseGlb ?_ | refine keeps_raiseEvent ?_ | refine keeps_endRestarted ?_ | refine keeps_protTo ?_ | refine keeps_releaseHeld ?_ | refine keeps_sendMember ?_ | refine keeps_flushRegLog ?_ | refine keeps_forgetPowerSettings ?_

theorem keeps_beginHeld {s : State} (h : sound s) : soundOpt (beginHeld s) := by
  unfold beginHeld
  try dsimp only
  with_reducible repeat' first | assumption | ((fail_if_success (fail_if_success conv => arg 1; arg 30)); refine sound_mk ?_ (by rfl)) | exact soundOpt_none | refine soundOpt_some ?_ | refine keeps_beginAny ?_ | split

theorem keeps_execManagementRestartEnd {s : State} (h : sound s) : soundRes (execManagementRestartEnd s) := by
  unfold execManagementRestartEnd
  try dsimp only
  with_reducible repeat' first | assumption | refine keeps_updFw ?_ (by rfl) | refine soundRes_next ?_ | refine sound_ite ?_ ?_ | refine keeps_teruoRuns ?_ | refine keeps_restartOver ?_ | refine keeps_beginRestart ?_

theorem keeps_execBusCollision {s : State} (h : sound s) : soundRes (execBusCollision s) := by
  unfold execBusCollision
  try dsimp only
  with_reducible repeat' first | assumption | ((fail_if_success (fail_if_success conv => arg 1; arg 30)); refine sound_mk ?_ (by rfl)) | refine soundRes_next ?_ | refine keeps_tally ?_ | refine keeps_emit ?_ | refine keeps_drawn ?_ | refine keeps_raiseEvent ?_ | split

theorem keeps_execMbxSubmit {a0 a1} {s : State} (h : sound s) : soundRes (execMbxSubmit a0 a1 s) := by
  unfold execMbxSubmit
  try dsimp only
  with_reducible repeat' first | assumption | refine soundRes_next ?_ | refine sound_ite ?_ ?_ | refine keeps_enter ?_ ?_ | refine keeps_beginAny ?_ | intro _

theorem keeps_execRelayCmd {a0 a1} {s : State} (h : sound s) : soundRes (execRelayCmd a0 a1 s) := by
  unfold execRelayCmd
  try dsimp only
  with_reducible repeat' first | assumption | refine soundRes_next ?_ | refine keeps_crlFragment ?_ | refine keeps_holdFragment ?_ | refine keeps_relayFragment ?_ | refine sound_of_pair (by assumption) ?_ | split

theorem keeps_tick {s : State} (h : sound s) : sound (tick s) := by
  unfold tick
  try dsimp only
  with_reducible repeat' first | assumption | refine keeps_storeInjection ?_ | refine keeps_tickBy ?_

theorem keeps_idleStep {s : State} (h : sound s) : sound (idleStep s) := by
  unfold idleStep
  try dsimp only
  with_reducible repeat' first | assumption | refine keeps_beginHeld ?_ | refine keeps_releaseMirror ?_ | refine keeps_tick ?_ | refine sound_of_some (by assumption) ?_ | split

end Sys2Proof.Laws
end

