-- ==== Sys2Proof/Laws/Leaves.lean ====
section
/-! SUPPORT. What a command's bookkeeping leaves alone: the view that completions, events and messages keep, and how it passes through the forms that
the definitions are built of. -/

namespace Sys2Proof.Laws
open Sys2Proof Sys2Proof.Machine

/-- The state's data is that of `r`, and with `k` its RUNNING commands as well. -/
def leaves (k : Bool) (r s : State) : Prop := sameData r s ∧ (k = true → s.mgmt.running = r.mgmt.running)

/-- A verdict that leaves the data alone. -/
def leavesVerdict (k : Bool) (r : State) : Verdict → Prop
  | .refuse _ => True
  | .done _ _ t => leaves k r t
  | .wait _ _ t => leaves k r t

theorem leaves_mk {k : Bool} {r s : State} {a3 a4 mgmt host hostMem ctrs macs crl bus} (h : leaves k r s)
    (e : mgmt.running = s.mgmt.running) :
    leaves k r (State.mk s.pending s.elapsed a3 a4 s.tempo s.cfg s.staged s.commits s.outcomes s.nextPackageSeq s.nextOrder s.quar mgmt
      host hostMem ctrs s.toll s.glb macs s.fwd s.qdm s.sched s.fab s.bridge s.flexe s.mem crl bus s.prot s.fw s.pwr) := ⟨h.1, fun hk => e.trans (h.2 hk)⟩

theorem leaves_ite {k : Bool} {r : State} {p : Prop} [Decidable p] {a b : State} (ha : leaves k r a) (hb : leaves k r b) : leaves k r (if p then a else b) := by
  split <;> assumption

theorem leavesVerdict_ite {k : Bool} {r : State} {p : Prop} [Decidable p] {a b : Verdict} (ha : leavesVerdict k r a) (hb : leavesVerdict k r b) :
    leavesVerdict k r (if p then a else b) := by split <;> assumption

theorem leavesVerdict_refuse {k : Bool} {r : State} {st : Nat} : leavesVerdict k r (.refuse st) := trivial
theorem leavesVerdict_done {k : Bool} {r : State} {st : Nat} {l : List Byte} {t : State} (h : leaves k r t) : leavesVerdict k r (.done st l t) := h
theorem leavesVerdict_wait {k : Bool} {r : State} {w : WaitFor} {l : List Byte} {t : State} (h : leaves k r t) : leavesVerdict k r (.wait w l t) := h

theorem leaves_of_pair {α : Type} {k : Bool} {r : State} {x : α × State} {a : α} {t : State} (e : x = (a, t)) (h : leaves k r x.2) : leaves k r t := by
  rw [e] at h; exact h

theorem leaves_foldl {β : Type} {k : Bool} {r : State} {l : List β} {f : State → β → State} {s : State} (hf : ∀ s b, leaves k r s → leaves k r (f s b))
    (h : leaves k r s) : leaves k r (l.foldl f s) := by
  induction l generalizing s with
  | nil => exact h
  | cons b l ih => exact ih (hf s b h)

/-- An event that the fault log does not record leaves it alone. -/
theorem logFault_none {code a1 a2 : Nat} {s : State} (h : faultClass code = none) : logFault code a1 a2 s = s := by
  unfold logFault
  rw [h]

theorem leaves_updFn {k r a0 a1} {s : State} (h : leaves k r s) : leaves k r (updFn a0 a1 s) := by
  unfold updFn
  exact leaves_ite h h

theorem leaves_emit {k r a0} {s : State} (h : leaves k r s) : leaves k r (emit a0 s) := by
  unfold emit
  try dsimp only
  with_reducible repeat' first | assumption | ((fail_if_success (fail_if_success conv => arg 3; arg 30)); refine leaves_mk ?_ (by rfl)) | refine leaves_ite ?_ ?_ | refine leaves_foldl ?_ ?_ | refine leaves_of_pair (by assumption) ?_ | split | dsimp only | intro _

theorem leaves_bump {k r a0 a1} {s : State} (h : leaves k r s) : leaves k r (bump a0 a1 s) := h

theorem leaves_tally {k r a0} {s : State} (h : leaves k r s) : leaves k r (tally a0 s) := by
  unfold tally
  try dsimp only
  with_reducible repeat' first | assumption | ((fail_if_success (fail_if_success conv => arg 3; arg 30)); refine leaves_mk ?_ (by rfl)) | refine leaves_ite ?_ ?_ | refine leaves_bump ?_ | refine leaves_foldl ?_ ?_ | refine leaves_of_pair (by assumption) ?_ | split | dsimp only | intro _

theorem leaves_busFrame {k r a0} {s : State} (h : leaves k r s) : leaves k r (busFrame a0 s) := by
  unfold busFrame
  try dsimp only
  with_reducible repeat' first | assumption | ((fail_if_success (fail_if_success conv => arg 3; arg 30)); refine leaves_mk ?_ (by rfl)) | refine leaves_ite ?_ ?_ | refine leaves_emit ?_ | refine leaves_tally ?_ | refine leaves_foldl ?_ ?_ | refine leaves_of_pair (by assumption) ?_ | split | dsimp only | intro _

theorem leaves_busSendId {k r a0 a1 a2 a3} {s : State} (h : leaves k r s) : leaves k r (busSendId a0 a1 a2 a3 s) := by
  unfold busSendId
  try dsimp only
  with_reducible repeat' first | assumption | ((fail_if_success (fail_if_success conv => arg 3; arg 30)); refine leaves_mk ?_ (by rfl)) | refine leaves_ite ?_ ?_ | refine leaves_busFrame ?_ | refine leaves_foldl ?_ ?_ | refine leaves_of_pair (by assumption) ?_ | split | dsimp only | intro _

theorem leaves_busSend {k r a0 a1 a2} {s : State} (h : leaves k r s) : leaves k r (busSend a0 a1 a2 s) := by
  unfold busSend
  try dsimp only
  with_reducible repeat' first | assumption | ((fail_if_success (fail_if_success conv => arg 3; arg 30)); refine leaves_mk ?_ (by rfl)) | refine leaves_ite ?_ ?_ | refine leaves_busSendId ?_ | refine leaves_foldl ?_ ?_ | refine leaves_of_pair (by assumption) ?_ | split | dsimp only | intro _

theorem leaves_busEvent {k r a0} {s : State} (h : leaves k r s) : leaves k r (busEvent a0 s) := by
  unfold busEvent
  try dsimp only
  with_reducible repeat' first | assumption | ((fail_if_success (fail_if_success conv => arg 3; arg 30)); refine leaves_mk ?_ (by rfl)) | refine leaves_ite ?_ ?_ | refine leaves_busSend ?_ | refine leaves_foldl ?_ ?_ | refine leaves_of_pair (by assumption) ?_ | split | dsimp only | intro _

theorem leaves_hostWrite {k r a0 a1} {s : State} (h : leaves k r s) : leaves k r (hostWrite a0 a1 s) := h

theorem leaves_updRing {k r a0 a1} {s : State} (h : leaves k r s) : leaves k r (updRing a0 a1 s) := by
  unfold updRing
  try dsimp only
  with_reducible repeat' first | assumption | ((fail_if_success (fail_if_success conv => arg 3; arg 30)); refine leaves_mk ?_ (by rfl)) | refine leaves_ite ?_ ?_ | refine leaves_foldl ?_ ?_ | refine leaves_of_pair (by assumption) ?_ | split | dsimp only | intro _

theorem leaves_sendMsix {k r a0 a1} {s : State} (h : leaves k r s) : leaves k r (sendMsix a0 a1 s) := by
  unfold sendMsix
  try dsimp only
  with_reducible repeat' first | assumption | refine leaves_updFn ?_ | ((fail_if_success (fail_if_success conv => arg 3; arg 30)); refine leaves_mk ?_ (by rfl)) | refine leaves_ite ?_ ?_ | refine leaves_emit ?_ | refine leaves_foldl ?_ ?_ | refine leaves_of_pair (by assumption) ?_ | split | dsimp only | intro _

theorem leaves_signalRing {k r a0} {s : State} (h : leaves k r s) : leaves k r (signalRing a0 s) := by
  unfold signalRing
  try dsimp only
  with_reducible repeat' first | assumption | ((fail_if_success (fail_if_success conv => arg 3; arg 30)); refine leaves_mk ?_ (by rfl)) | refine leaves_ite ?_ ?_ | refine leaves_sendMsix ?_ | refine leaves_updRing ?_ | refine leaves_foldl ?_ ?_ | refine leaves_of_pair (by assumption) ?_ | split | dsimp only | intro _

theorem leaves_moderate {k r a0} {s : State} (h : leaves k r s) : leaves k r (moderate a0 s) := by
  unfold moderate
  try dsimp only
  with_reducible repeat' first | assumption | ((fail_if_success (fail_if_success conv => arg 3; arg 30)); refine leaves_mk ?_ (by rfl)) | refine leaves_ite ?_ ?_ | refine leaves_signalRing ?_ | refine leaves_updRing ?_ | refine leaves_foldl ?_ ?_ | refine leaves_of_pair (by assumption) ?_ | split | dsimp only | intro _

theorem leaves_publish {k r a0} {s : State} (h : leaves k r s) : leaves k r (publish a0 s) := by
  unfold publish
  try dsimp only
  with_reducible repeat' first | assumption | ((fail_if_success (fail_if_success conv => arg 3; arg 30)); refine leaves_mk ?_ (by rfl)) | refine leaves_ite ?_ ?_ | refine leaves_hostWrite ?_ | refine leaves_foldl ?_ ?_ | refine leaves_of_pair (by assumption) ?_ | split | dsimp only | intro _

theorem leaves_writeRecord {k r a0 a1} {s : State} (h : leaves k r s) : leaves k r (writeRecord a0 a1 s) := by
  unfold writeRecord
  try dsimp only
  with_reducible repeat' first | assumption | ((fail_if_success (fail_if_success conv => arg 3; arg 30)); refine leaves_mk ?_ (by rfl)) | refine leaves_ite ?_ ?_ | refine leaves_hostWrite ?_ | refine leaves_updRing ?_ | refine leaves_moderate ?_ | refine leaves_publish ?_ | refine leaves_foldl ?_ ?_ | refine leaves_of_pair (by assumption) ?_ | split | dsimp only | intro _

theorem leaves_flushEvents {k r a0 a1} {s : State} (h : leaves k r s) : leaves k r (flushEvents a0 a1 s) := by
  induction a0 generalizing s with
  | zero => exact h
  | succ fuel ih =>
    unfold flushEvents
    split
    · have h1 : leaves k r { s with mgmt := { s.mgmt with eventSeq := (s.mgmt.eventSeq + 1) % 4294967296 } } := h
      exact leaves_ite (ih (leaves_writeRecord (leaves_updFn h1))) (ih (leaves_writeRecord (leaves_updFn h)))
    · exact h

theorem leaves_giveEvent {k r a0 a1} {s : State} (h : leaves k r s) : leaves k r (giveEvent a0 a1 s) := by
  unfold giveEvent
  exact leaves_ite h (leaves_ite (leaves_updFn h) (leaves_flushEvents (leaves_updFn h)))

theorem leaves_raiseEvent {k r a0 a1 a2 a3} {s : State} (hc : faultClass a0 = none) (h : leaves k r s) : leaves k r (raiseEvent a0 a1 a2 a3 s) := by
  unfold raiseEvent
  rw [logFault_none hc]
  dsimp only
  have h1 : leaves k r { s with mgmt := { s.mgmt with eventSeq := (s.mgmt.eventSeq + 1) % 4294967296 } } := h
  exact leaves_ite (leaves_ite h1 h1) (leaves_busEvent (leaves_giveEvent (leaves_giveEvent h1)))

theorem leaves_checkStall {k r a0} {s : State} (h : leaves k r s) : leaves k r (checkStall a0 s) := by
  unfold checkStall
  try dsimp only
  with_reducible repeat' first | assumption | ((fail_if_success (fail_if_success conv => arg 3; arg 30)); refine leaves_mk ?_ (by rfl)) | refine leaves_ite ?_ ?_ | refine leaves_raiseEvent (by with_unfolding_all rfl) ?_ | refine leaves_tally ?_ | refine leaves_updRing ?_ | refine leaves_foldl ?_ ?_ | refine leaves_of_pair (by assumption) ?_ | split | dsimp only | intro _

theorem leaves_freeTs {k r a0} {s : State} (h : leaves k r s) : leaves k r (freeTs a0 s) := by
  unfold freeTs
  try dsimp only
  with_reducible repeat' first | assumption | ((fail_if_success (fail_if_success conv => arg 3; arg 30)); refine leaves_mk ?_ (by rfl)) | refine leaves_ite ?_ ?_ | refine leaves_foldl ?_ ?_ | refine leaves_of_pair (by assumption) ?_ | split | dsimp only | intro _

theorem leaves_dmaWrite {k r a0 a1 a2} {s : State} (h : leaves k r s) : leaves k r (dmaWrite a0 a1 a2 s) := by
  unfold dmaWrite
  try dsimp only
  with_reducible repeat' first | assumption | refine leaves_updFn ?_ | ((fail_if_success (fail_if_success conv => arg 3; arg 30)); refine leaves_mk ?_ (by rfl)) | refine leaves_ite ?_ ?_ | refine leaves_hostWrite ?_ | refine leaves_foldl ?_ ?_ | refine leaves_of_pair (by assumption) ?_ | split | dsimp only | intro _

theorem leaves_checkStalls {k r} {s : State} (h : leaves k r s) : leaves k r (checkStalls s) := by
  unfold checkStalls
  try dsimp only
  with_reducible repeat' first | assumption | ((fail_if_success (fail_if_success conv => arg 3; arg 30)); refine leaves_mk ?_ (by rfl)) | refine leaves_ite ?_ ?_ | refine leaves_checkStall ?_ | refine leaves_foldl ?_ ?_ | refine leaves_of_pair (by assumption) ?_ | split | dsimp only | intro _

theorem leaves_postCompletion {k r a0 a1} {s : State} (h : leaves k r s) : leaves k r (postCompletion a0 a1 s) := by
  unfold postCompletion
  try dsimp only
  with_reducible repeat' first | assumption | ((fail_if_success (fail_if_success conv => arg 3; arg 30)); refine leaves_mk ?_ (by rfl)) | refine leaves_ite ?_ ?_ | refine leaves_freeTs ?_ | refine leaves_writeRecord ?_ | refine leaves_checkStalls ?_ | refine leaves_updRing ?_ | refine leaves_foldl ?_ ?_ | refine leaves_of_pair (by assumption) ?_ | split | dsimp only | intro _

theorem leaves_journal {k r a0} {s : State} (h : leaves k r s) : leaves k r (journal a0 s) := h

theorem leaves_crlOut {k r a0 a1} {s : State} (h : leaves k r s) : leaves k r (crlOut a0 a1 s) := by
  unfold crlOut
  try dsimp only
  with_reducible repeat' first | assumption | ((fail_if_success (fail_if_success conv => arg 3; arg 30)); refine leaves_mk ?_ (by rfl)) | refine leaves_ite ?_ ?_ | refine leaves_emit ?_ | refine leaves_foldl ?_ ?_ | refine leaves_of_pair (by assumption) ?_ | split | dsimp only | intro _

theorem leaves_floodId {k r a0 a1 a2 a3} {s : State} (h : leaves k r s) : leaves k r (floodId a0 a1 a2 a3 s) := by
  unfold floodId
  try dsimp only
  with_reducible repeat' first | assumption | ((fail_if_success (fail_if_success conv => arg 3; arg 30)); refine leaves_mk ?_ (by rfl)) | refine leaves_ite ?_ ?_ | refine leaves_crlOut ?_ | refine leaves_foldl ?_ ?_ | refine leaves_of_pair (by assumption) ?_ | split | dsimp only | intro _

theorem leaves_nextMsg {k r} {s : State} (h : leaves k r s) : leaves k r (nextMsg s) := by
  unfold nextMsg
  try dsimp only
  with_reducible repeat' first | assumption | ((fail_if_success (fail_if_success conv => arg 3; arg 30)); refine leaves_mk ?_ (by rfl)) | refine leaves_ite ?_ ?_ | refine leaves_foldl ?_ ?_ | refine leaves_of_pair (by assumption) ?_ | split | dsimp only | intro _

theorem leaves_flood {k r a0 a1 a2} {s : State} (h : leaves k r s) : leaves k r (flood a0 a1 a2 s) := by
  unfold flood
  try dsimp only
  with_reducible repeat' first | assumption | ((fail_if_success (fail_if_success conv => arg 3; arg 30)); refine leaves_mk ?_ (by rfl)) | refine leaves_ite ?_ ?_ | refine leaves_floodId ?_ | refine leaves_nextMsg ?_ | refine leaves_foldl ?_ ?_ | refine leaves_of_pair (by assumption) ?_ | split | dsimp only | intro _

theorem leaves_busRespond {k r a0 a1 a2} {s : State} (h : leaves k r s) : leaves k r (busRespond a0 a1 a2 s) := by
  unfold busRespond
  try dsimp only
  with_reducible repeat' first | assumption | ((fail_if_success (fail_if_success conv => arg 3; arg 30)); refine leaves_mk ?_ (by rfl)) | refine leaves_ite ?_ ?_ | refine leaves_busSendId ?_ | refine leaves_foldl ?_ ?_ | refine leaves_of_pair (by assumption) ?_ | split | dsimp only | intro _

theorem leaves_relayRespond {k r a0 a1 a2} {s : State} (h : leaves k r s) : leaves k r (relayRespond a0 a1 a2 s) := by
  unfold relayRespond
  try dsimp only
  with_reducible repeat' first | assumption | ((fail_if_success (fail_if_success conv => arg 3; arg 30)); refine leaves_mk ?_ (by rfl)) | refine leaves_ite ?_ ?_ | refine leaves_floodId ?_ | refine leaves_foldl ?_ ?_ | refine leaves_of_pair (by assumption) ?_ | split | dsimp only | intro _

theorem leaves_relaySend {k r a0 a1} {s : State} (h : leaves k r s) : leaves k r (relaySend a0 a1 s) := by
  unfold relaySend
  try dsimp only
  with_reducible repeat' first | assumption | ((fail_if_success (fail_if_success conv => arg 3; arg 30)); refine leaves_mk ?_ (by rfl)) | refine leaves_ite ?_ ?_ | refine leaves_flood ?_ | refine leaves_foldl ?_ ?_ | refine leaves_of_pair (by assumption) ?_ | split | dsimp only | intro _

theorem leaves_hold {k r a0} {s : State} (h : leaves k r s) : leaves k r (hold a0 s) := by
  unfold hold
  try dsimp only
  with_reducible repeat' first | assumption | ((fail_if_success (fail_if_success conv => arg 3; arg 30)); refine leaves_mk ?_ (by rfl)) | refine leaves_ite ?_ ?_ | refine leaves_foldl ?_ ?_ | refine leaves_of_pair (by assumption) ?_ | split | dsimp only | intro _

theorem leaves_windowDone {k r a0 a1} {s : State} (h : leaves k r s) : leaves k r (windowDone a0 a1 s) := by
  unfold windowDone
  try dsimp only
  with_reducible repeat' first | assumption | ((fail_if_success (fail_if_success conv => arg 3; arg 30)); refine leaves_mk ?_ (by rfl)) | refine leaves_ite ?_ ?_ | refine leaves_sendMsix ?_ | refine leaves_foldl ?_ ?_ | refine leaves_of_pair (by assumption) ?_ | split | dsimp only | intro _

theorem leaves_noteRemote {k r a0} {s : State} (h : leaves k r s) : leaves k r (noteRemote a0 s) := by
  unfold noteRemote
  try dsimp only
  with_reducible repeat' first | assumption | ((fail_if_success (fail_if_success conv => arg 3; arg 30)); refine leaves_mk ?_ (by rfl)) | refine leaves_ite ?_ ?_ | refine leaves_foldl ?_ ?_ | refine leaves_of_pair (by assumption) ?_ | split | dsimp only | intro _

theorem leaves_answer {k r a0 a1 a2 a3 a4} {s : State} (h : leaves k r s) : leaves k r (answer a0 a1 a2 a3 a4 s) := by
  unfold answer
  try dsimp only
  with_reducible repeat' first | assumption | ((fail_if_success (fail_if_success conv => arg 3; arg 30)); refine leaves_mk ?_ (by rfl)) | refine leaves_ite ?_ ?_ | refine leaves_postCompletion ?_ | refine leaves_dmaWrite ?_ | refine leaves_windowDone ?_ | refine leaves_busRespond ?_ | refine leaves_relayRespond ?_ | refine leaves_foldl ?_ ?_ | refine leaves_of_pair (by assumption) ?_ | split | dsimp only | intro _

theorem leaves_done {k r} {s : State} {m : Mgmt} (h : leaves k r s) (e : m.running = s.mgmt.running) : leaves k r { s with mgmt := m } :=
  ⟨h.1, fun hk => e.trans (h.2 hk)⟩

theorem leaves_finishTo {k r a0 a1 a2 a3 a4 a5 a6 a7} {s : State} (h : leaves k r s) : leaves k r (finishTo a0 a1 a2 a3 a4 a5 a6 a7 s) := by
  unfold finishTo
  have h1 : leaves k r (if a5 && !s.mgmt.rom then journal (cmdRecord a1 a3 a6 a7) s else s) := leaves_ite (leaves_journal h) h
  dsimp only
  generalize (if a5 && !s.mgmt.rom then journal (cmdRecord a1 a3 a6 a7) s else s) = s1 at h1 ⊢
  exact leaves_ite (leaves_raiseEvent rfl (leaves_answer (leaves_done h1 rfl))) (leaves_answer (leaves_done h1 rfl))

theorem leaves_finish {k r a0 a1 a2 a3 a4 a5 a6} {s : State} (h : leaves k r s) : leaves k r (finish a0 a1 a2 a3 a4 a5 a6 s) := by
  unfold finish
  try dsimp only
  with_reducible repeat' first | assumption | ((fail_if_success (fail_if_success conv => arg 3; arg 30)); refine leaves_mk ?_ (by rfl)) | refine leaves_ite ?_ ?_ | refine leaves_finishTo ?_ | refine leaves_foldl ?_ ?_ | refine leaves_of_pair (by assumption) ?_ | split | dsimp only | intro _

theorem leaves_consume {k r a0} {s : State} (h : leaves k r s) : leaves k r (consume a0 s) := by
  unfold consume
  try dsimp only
  with_reducible repeat' first | assumption | ((fail_if_success (fail_if_success conv => arg 3; arg 30)); refine leaves_mk ?_ (by rfl)) | refine leaves_ite ?_ ?_ | refine leaves_publish ?_ | refine leaves_updRing ?_ | refine leaves_foldl ?_ ?_ | refine leaves_of_pair (by assumption) ?_ | split | dsimp only | intro _

theorem leaves_consumeCmd {k r a0} {s : State} (h : leaves k r s) : leaves k r (consumeCmd a0 s) := by
  unfold consumeCmd
  try dsimp only
  with_reducible repeat' first | assumption | ((fail_if_success (fail_if_success conv => arg 3; arg 30)); refine leaves_mk ?_ (by rfl)) | refine leaves_ite ?_ ?_ | refine leaves_consume ?_ | refine leaves_foldl ?_ ?_ | refine leaves_of_pair (by assumption) ?_ | split | dsimp only | intro _

theorem leaves_refuse {k r a0 a1} {s : State} (h : leaves k r s) : leaves k r (refuse a0 a1 s) := by
  unfold refuse
  try dsimp only
  with_reducible repeat' first | assumption | ((fail_if_success (fail_if_success conv => arg 3; arg 30)); refine leaves_mk ?_ (by rfl)) | refine leaves_ite ?_ ?_ | refine leaves_finish ?_ | refine leaves_consumeCmd ?_ | refine leaves_foldl ?_ ?_ | refine leaves_of_pair (by assumption) ?_ | split | dsimp only | intro _

theorem leaves_enter {k r a0 a1} {s : State} (fa0 : ∀ x0 x1, leaves k r x1 → leaves k r (a0 x0 x1)) (h : leaves k r s) : leaves k r (enter a0 a1 s) := by
  unfold enter
  try dsimp only
  with_reducible repeat' first | assumption | ((fail_if_success (fail_if_success conv => arg 3; arg 30)); refine leaves_mk ?_ (by rfl)) | refine leaves_ite ?_ ?_ | refine leaves_hold ?_ | refine leaves_refuse ?_ | refine leaves_noteRemote ?_ | refine fa0 _ _ ?_ | refine leaves_foldl ?_ ?_ | refine leaves_of_pair (by assumption) ?_ | split | dsimp only | intro _

theorem leaves_running {r a0 a1 a2 a3} {s : State} (h : leaves false r s) : leaves false r (running a0 a1 a2 a3 s) :=
  ⟨h.1, fun hk => nomatch hk⟩

theorem leaves_windowRunning {k r a0} {s : State} (h : leaves k r s) : leaves k r (windowRunning a0 s) := by
  unfold windowRunning
  try dsimp only
  with_reducible repeat' first | assumption | ((fail_if_success (fail_if_success conv => arg 3; arg 30)); refine leaves_mk ?_ (by rfl)) | refine leaves_ite ?_ ?_ | refine leaves_foldl ?_ ?_ | refine leaves_of_pair (by assumption) ?_ | split | dsimp only | intro _

theorem leaves_refl (k : Bool) (s : State) : leaves k s s :=
  ⟨⟨rfl, rfl, rfl, rfl, rfl, rfl, rfl, rfl, rfl, rfl, rfl, rfl, rfl, rfl, rfl, rfl, rfl, rfl, rfl, rfl, rfl, rfl⟩, fun _ => rfl⟩

/-- A command whose body leaves the data alone. -/
def leavesSpec (c : CmdSpec) : Prop := ∀ r h s, leaves false r s → leavesVerdict false r (c.body h s)

/-- The data of one of two states. -/
theorem leavesOr_ite {r r' : State} {p : Prop} [Decidable p] {a b : State} (ha : leaves false r a ∨ leaves false r' a)
    (hb : leaves false r b ∨ leaves false r' b) : leaves false r (if p then a else b) ∨ leaves false r' (if p then a else b) := by
  split <;> assumption

/-- A command whose body takes the data of `r` to that of `r'`: it leaves that of `r` where it is turned away or relayed. -/
theorem leaves_beginOr {r r' : State} {c : CmdSpec} {a1} {s : State} (hk : c.kind ≠ .config) (hr : r'.staged = r.staged)
    (hc : ∀ h s, leaves false r s → leavesVerdict false r' (c.body h s)) (h : leaves false r s) :
    leaves false r (beginCmd c a1 s) ∨ leaves false r' (beginCmd c a1 s) := by
  unfold beginCmd
  refine leavesOr_ite (.inl (leaves_refuse h)) (leavesOr_ite (.inl (leaves_refuse h)) (leavesOr_ite (.inl (leaves_refuse h)) ?_))
  have h1 := leaves_windowRunning (a0 := a1) (leaves_consumeCmd (a0 := a1) h)
  have hv := hc a1 _ h1
  generalize windowRunning a1 (consumeCmd a1 s) = s1 at h1 hv ⊢
  split
  · exact .inl (leaves_refuse h)
  · exact .inl (leaves_relaySend (leaves_running h1))
  · split
    · exact .inl (leaves_refuse h)
    · rename_i ev
      rw [ev] at hv
      rw [beq_eq_false_iff_ne.mpr hk, Bool.false_and]
      refine leavesOr_ite (.inl (leaves_refuse h)) (.inr ?_)
      simp only [Bool.false_eq_true, if_false]
      have hf : ∀ {x y e b d}, leaves false r' (finish a1 x y e b 0 d _) := leaves_finish hv
      rw [markDue_nothing (Nat.le_of_eq (congrArg List.length (hf.1.2.2.2.2.1.trans (hr.trans h.1.2.2.2.2.1.symm))))]
      exact hf
    · rename_i ev
      rw [ev] at hv
      exact .inr (leaves_running hv)

theorem leaves_beginQuery {r : State} {c : CmdSpec} {a1} {s : State} (hk : c.kind ≠ .config) (hc : leavesSpec c) (h : leaves false r s) :
    leaves false r (beginCmd c a1 s) :=
  (leaves_beginOr hk rfl (fun h s => hc r h s) h).elim id id

theorem leaves_runQuery {op : Nat} {c : CmdSpec} {x : Cmd} {s t : State} (hk : c.kind ≠ .config) (hc : leavesSpec c)
    (e : runCmd op c x s = .next t) : sameData s t := by
  unfold runCmd issue at e
  injection e with e
  rw [← e]
  exact (leaves_enter (fun _ _ h => leaves_beginQuery hk hc h) (leaves_refl false s)).1

/-- What begins a command decides what its arrival leaves. -/
theorem enter_of {P : State → Prop} {r : State} {begin : HeldCmd → State → State} {a1} {s : State}
    (hb : ∀ h s, leaves false r s → P (begin h s)) (hl : ∀ s, leaves false r s → P s) (h : leaves false r s) : P (enter begin a1 s) := by
  unfold enter
  dsimp only
  have hm : ∀ {m : Mgmt}, m.running = s.mgmt.running → leaves false r { s with mgmt := m } := fun e => leaves_mk h e
  with_reducible repeat' split
  all_goals with_reducible first
    | exact hb _ _ h | exact hl _ h | exact hl _ (leaves_hold h) | exact hb _ _ (leaves_noteRemote h)
    | exact hl _ (leaves_hold (leaves_noteRemote h)) | exact hl _ (hm rfl) | exact hb _ _ (hm rfl)
    | exact hl _ (leaves_hold (hm rfl)) | exact hl _ (leaves_refuse (hm rfl))

/-- `journal.read` leaves the data alone, but for the mark that the journal's records are in error, which the read that meets it clears. -/
theorem leaves_journalRead {x : Cmd} {s t : State} (e : exec (.journalRead x) s = .next t) :
    sameData s t ∨ sameData { s with mem := { s.mem with journalBad := false } } t := by
  unfold exec execJournalRead runCmd issue at e
  injection e with e
  rw [← e]
  have hc : ∀ h u, leaves false s u → leavesVerdict false { s with mem := { s.mem with journalBad := false } } (journalRead h u) := by
    intro h u hu
    unfold journalRead
    refine leavesVerdict_ite leavesVerdict_refuse ?_
    have hm : u.mem = s.mem := hu.1.2.2.2.2.2.2.2.2.2.2.2.2.2.2.2.2.2.2.1
    have hb : ∀ {b}, u.mem.journalBad = b → ({ u with mem := { u.mem with journalBad := b } } : State) = u := fun e => by rw [← e]
    obtain ⟨⟨h1, h2, h3, h4, h5, h6, h7, h8, h9, h10, h11, h12, h13, h14, h15, h16, h17, h18, h19, h20, h21, h22⟩, h23⟩ := hu
    have key : leaves false { s with mem := { s.mem with journalBad := false } } { u with mem := { u.mem with journalBad := false } } :=
      ⟨⟨h1, h2, h3, h4, h5, h6, h7, h8, h9, h10, h11, h12, h13, h14, h15, h16, h17, h18, by rw [hm], h20, h21, h22⟩, h23⟩
    split
    · exact key
    · rename_i hn
      rw [hb (Bool.eq_false_iff.mpr hn)] at key
      exact key
  exact (enter_of (P := fun t => leaves false s t ∨ leaves false { s with mem := { s.mem with journalBad := false } } t)
    (fun h u hu => leaves_beginOr (by decide) rfl hc hu) (fun u hu => .inl hu) (leaves_refl false s)).imp (·.1) (·.1)

/-! ### Configuration commands -/

theorem onlyStages_refl (s : State) : onlyStages s s := ⟨List.prefix_refl _, s.prot, s.nextOrder, (leaves_refl false s).1⟩

/-- A step that leaves the data alone keeps the frame. -/
theorem onlyStages_leaves {r s t : State} (h : onlyStages r s) (e : leaves false s t) : onlyStages r t := by
  obtain ⟨h0, p, n, h1, h2, h3, h4, h5, h6, h7, h8, h9, h10, h11, h12, h13, h14, h15, h16, h17, h18, h19, h20, h21, h22⟩ := h
  obtain ⟨e1, e2, e3, e4, e5, e6, e7, e8, e9, e10, e11, e12, e13, e14, e15, e16, e17, e18, e19, e20, e21, e22⟩ := e.1
  exact ⟨e5 ▸ h0, s.prot, s.nextOrder, e1.trans h1, e2.trans h2, e3.trans h3, e4.trans h4, rfl, e6.trans h6, e7.trans h7, e8.trans h8, e9,
    e10.trans h10, e11.trans h11, e12.trans h12, e13.trans h13, e14.trans h14, e15.trans h15, e16.trans h16, e17.trans h17, e18.trans h18,
    e19.trans h19, e20, e21.trans h21, e22.trans h22⟩

/-- So does a step that changes protection state as well. -/
theorem onlyStages_prot {r s : State} {p : Protect} (h : onlyStages r s) : onlyStages r { s with prot := p } := by
  obtain ⟨h0, q, n, h1, h2, h3, h4, h5, h6, h7, h8, h9, h10, h11, h12, h13, h14, h15, h16, h17, h18, h19, h20, h21, h22⟩ := h
  exact ⟨h0, p, n, h1, h2, h3, h4, h5, h6, h7, h8, h9, h10, h11, h12, h13, h14, h15, h16, h17, h18, h19, rfl, h21, h22⟩

/-- Changes staged come after those staged before. -/
theorem undue_append (l m : List Staged) : undue l <+: undue (l ++ m) := by
  unfold undue
  rw [List.map_append]
  exact List.prefix_append _ _

/-- So does staging a change. -/
theorem onlyStages_staged {r s : State} {l : List Staged} {k : Nat} (h : onlyStages r s) (e : undue s.staged <+: undue l) :
    onlyStages r { s with staged := l, nextOrder := k } := by
  obtain ⟨h0, q, n, h1, h2, h3, h4, h5, h6, h7, h8, h9, h10, h11, h12, h13, h14, h15, h16, h17, h18, h19, h20, h21, h22⟩ := h
  exact ⟨h0.trans e, q, k, h1, h2, h3, h4, rfl, h6, h7, h8, rfl, h10, h11, h12, h13, h14, h15, h16, h17, h18, h19, h20, h21, h22⟩

/-- So does writing the completions of staged changes. -/
theorem onlyStages_same {r s : State} {l : List Staged} (h : onlyStages r s) (e : undue l = undue s.staged) :
    onlyStages r { s with staged := l } := onlyStages_staged (k := s.nextOrder) h (e ▸ List.prefix_refl _)

theorem onlyStages_markDue {r s : State} {n : Nat} {due : Due} (h : onlyStages r s) : onlyStages r (markDue n due s) := by
  unfold markDue
  split
  · exact h
  · refine onlyStages_same h ?_
    unfold undue
    conv => rhs; rw [← List.take_append_drop n s.staged, List.map_append]
    rw [List.map_append, List.map_map]
    rfl

theorem onlyStages_remarkDue {r s : State} {q : Nat} {due : Due} (h : onlyStages r s) : onlyStages r (remarkDue q due s) := by
  refine onlyStages_same h ?_
  unfold undue
  rw [List.map_map]
  refine List.map_congr_left fun x _ => ?_
  dsimp only [Function.comp]
  split <;> rfl

theorem onlyStages_mirrorCfg {r s : State} {k : Nat} {b : List Byte} (h : onlyStages r s) : onlyStages r (mirrorCfg k b s) := by
  unfold mirrorCfg mirrorOut
  split
  · split
    · exact onlyStages_leaves (onlyStages_prot (p := { s.prot with peerSync := false }) h)
        (leaves_raiseEvent rfl (leaves_tally (leaves_refl false _)))
    · exact onlyStages_leaves (onlyStages_prot h) (leaves_flood (leaves_refl false _))
  · exact h

theorem onlyStages_foldl {β : Type} {r : State} {l : List β} {f : State → β → State} {s : State}
    (hf : ∀ s b, onlyStages r s → onlyStages r (f s b)) (h : onlyStages r s) : onlyStages r (l.foldl f s) := by
  induction l generalizing s with
  | nil => exact h
  | cons b l ih => exact ih (hf s b h)

theorem leaves_finishRunning {r a0 a1 a2 a3 a4 a5} {s : State} (h : leaves false r s) : leaves false r (finishRunning a0 a1 a2 a3 a4 a5 s) :=
  leaves_finishTo (s := { s with mgmt := { s.mgmt with running := s.mgmt.running.filter (fun q => q != a0) } }) ⟨h.1, fun hk => nomatch hk⟩

theorem onlyStages_postMirrored {r m} {s : State} (h : onlyStages r s) : onlyStages r (postMirrored m s) :=
  onlyStages_remarkDue (onlyStages_leaves h (leaves_postCompletion (leaves_refl false s)))

theorem onlyStages_finishMirrored {r a0} {s : State} (h : onlyStages r s) : onlyStages r (finishMirrored a0 s) := by
  unfold finishMirrored
  have h1 := onlyStages_leaves h (leaves_finishRunning (a0 := a0) (a1 := St.ok) (a2 := a0.resp) (a3 := true) (a4 := 0) (a5 := 0) (leaves_refl false s))
  dsimp only
  split
  · exact onlyStages_remarkDue h1
  · exact h1

theorem onlyStages_releaseUnmirrored {r s : State} (h : onlyStages r s) : onlyStages r (releaseUnmirrored s) := by
  unfold releaseUnmirrored releaseMirror
  split
  · exact h
  · exact onlyStages_foldl (fun _ _ => onlyStages_finishMirrored) (onlyStages_foldl (fun _ _ => onlyStages_postMirrored) (onlyStages_prot h))

/-- A command whose body only stages. -/
def stagesSpec (c : CmdSpec) : Prop := ∀ r h s st l t, onlyStages r s → c.body h s = .done st l t → onlyStages r t

theorem onlyStages_beginConfig {r : State} {c : CmdSpec} {a1} {s : State} (hc : stagesSpec c)
    (hw : ∀ h s w l t, c.body h s ≠ .wait w l t) (h : onlyStages r s) : onlyStages r (beginCmd c a1 s) := by
  have hr : ∀ st, onlyStages r (refuse a1 st s) := fun st => onlyStages_leaves h (leaves_refuse (leaves_refl false s))
  unfold beginCmd
  split
  · exact hr _
  split
  · exact hr _
  split
  · exact hr _
  have h1 : onlyStages r (windowRunning a1 (consumeCmd a1 s)) :=
    onlyStages_leaves h (leaves_windowRunning (leaves_consumeCmd (leaves_refl false s)))
  have hv := hc r a1 (windowRunning a1 (consumeCmd a1 s))
  have hv2 := hw a1 (windowRunning a1 (consumeCmd a1 s))
  generalize windowRunning a1 (consumeCmd a1 s) = s1 at h1 hv hv2 ⊢
  split
  · exact hr _
  · exact onlyStages_leaves h1 (leaves_relaySend (leaves_running (leaves_refl false s1)))
  · split
    · exact hr _
    · rename_i st resp t ev
      have ht := hv st resp t h1 ev
      split
      · exact hr _
      split
      · exact onlyStages_releaseUnmirrored (onlyStages_mirrorCfg (onlyStages_leaves (onlyStages_markDue ht) (leaves_running (leaves_refl false _))))
      · have h3 : onlyStages r (if c.kind == .config then mirrorCfg 0 (blockBytes a1) t else t) := by
          split
          · exact onlyStages_mirrorCfg ht
          · exact ht
        exact onlyStages_markDue (onlyStages_leaves h3 (leaves_finish (leaves_refl false _)))
    · rename_i ev
      exact absurd ev (hv2 _ _ _)

theorem onlyStages_runConfig {op : Nat} {c : CmdSpec} {x : Cmd} {s t : State} (hc : stagesSpec c)
    (hw : ∀ h s w l t, c.body h s ≠ .wait w l t) (e : runCmd op c x s = .next t) : onlyStages s t := by
  unfold runCmd issue enter at e
  injection e with e
  rw [← e]
  have hb : ∀ h u, leaves false s u → onlyStages s (beginCmd c h u) := fun h u hu => onlyStages_beginConfig hc hw (onlyStages_leaves (onlyStages_refl s) hu)
  have ho : ∀ u, leaves false s u → onlyStages s u := fun u hu => onlyStages_leaves (onlyStages_refl s) hu
  have h0 := leaves_refl false s
  have hm : ∀ m, leaves false s { s with mgmt := m } := fun _ => ⟨h0.1, fun hk => nomatch hk⟩
  split
  · split
    · split
      · split
        · exact hb _ _ h0
        · exact ho _ (leaves_hold h0)
      · exact ho _ h0
    · exact ho _ h0
  · split
    · split
      · exact ho _ h0
      split
      · exact ho _ (hm _)
      dsimp only
      split
      · exact ho _ (leaves_refuse (hm _))
      split
      · exact hb _ _ (hm _)
      · exact ho _ (leaves_hold (hm _))
    · split
      · split
        · exact ho _ h0
        split
        · exact hb _ _ (leaves_noteRemote h0)
        · exact ho _ (leaves_hold (leaves_noteRemote h0))
      · exact ho _ h0

end Sys2Proof.Laws
end

