-- ==== Sys2Proof/Laws/State.lean ====
section
/-! SUPPORT. What each named update of the state does to each field: true by rfl, so that no proof unfolds a record update. -/

namespace Sys2Proof.Laws
open Sys2Proof Sys2Proof.Machine

@[simp] theorem emit_pending (o : Out) (s : State) : (emit o s).pending = s.pending := rfl
@[simp] theorem emit_elapsed (o : Out) (s : State) : (emit o s).elapsed = s.elapsed := rfl
@[simp] theorem emit_fresh (o : Out) (s : State) : (emit o s).fresh = s.fresh := rfl
@[simp] theorem emit_out (o : Out) (s : State) : (emit o s).out = s.out ++ [o] := rfl
@[simp] theorem emit_tempo (o : Out) (s : State) : (emit o s).tempo = s.tempo := rfl
@[simp] theorem emit_cfg (o : Out) (s : State) : (emit o s).cfg = s.cfg := rfl
@[simp] theorem emit_staged (o : Out) (s : State) : (emit o s).staged = s.staged := rfl
@[simp] theorem emit_commits (o : Out) (s : State) : (emit o s).commits = s.commits := rfl
@[simp] theorem emit_outcomes (o : Out) (s : State) : (emit o s).outcomes = s.outcomes := rfl
@[simp] theorem emit_nextPackageSeq (o : Out) (s : State) : (emit o s).nextPackageSeq = s.nextPackageSeq := rfl
@[simp] theorem emit_nextOrder (o : Out) (s : State) : (emit o s).nextOrder = s.nextOrder := rfl
@[simp] theorem emit_quar (o : Out) (s : State) : (emit o s).quar = s.quar := rfl
@[simp] theorem emit_mgmt (o : Out) (s : State) : (emit o s).mgmt = s.mgmt := rfl
@[simp] theorem emit_host (o : Out) (s : State) : (emit o s).host = s.host := rfl
@[simp] theorem emit_hostMem (o : Out) (s : State) : (emit o s).hostMem = s.hostMem := rfl
@[simp] theorem emit_ctrs (o : Out) (s : State) : (emit o s).ctrs = s.ctrs := rfl
@[simp] theorem emit_toll (o : Out) (s : State) : (emit o s).toll = s.toll := rfl
@[simp] theorem emit_glb (o : Out) (s : State) : (emit o s).glb = s.glb := rfl
@[simp] theorem emit_macs (o : Out) (s : State) : (emit o s).macs = s.macs := rfl
@[simp] theorem emit_fwd (o : Out) (s : State) : (emit o s).fwd = s.fwd := rfl
@[simp] theorem emit_qdm (o : Out) (s : State) : (emit o s).qdm = s.qdm := rfl
@[simp] theorem emit_sched (o : Out) (s : State) : (emit o s).sched = s.sched := rfl
@[simp] theorem emit_fab (o : Out) (s : State) : (emit o s).fab = s.fab := rfl
@[simp] theorem emit_bridge (o : Out) (s : State) : (emit o s).bridge = s.bridge := rfl
@[simp] theorem emit_flexe (o : Out) (s : State) : (emit o s).flexe = s.flexe := rfl
@[simp] theorem emit_mem (o : Out) (s : State) : (emit o s).mem = s.mem := rfl
@[simp] theorem emit_crl (o : Out) (s : State) : (emit o s).crl = s.crl := rfl
@[simp] theorem emit_bus (o : Out) (s : State) : (emit o s).bus = s.bus := rfl
@[simp] theorem emit_prot (o : Out) (s : State) : (emit o s).prot = s.prot := rfl
@[simp] theorem emit_fw (o : Out) (s : State) : (emit o s).fw = s.fw := rfl
@[simp] theorem emit_pwr (o : Out) (s : State) : (emit o s).pwr = s.pwr := rfl

@[simp] theorem bump_pending (i n : Nat) (s : State) : (bump i n s).pending = s.pending := rfl
@[simp] theorem bump_elapsed (i n : Nat) (s : State) : (bump i n s).elapsed = s.elapsed := rfl
@[simp] theorem bump_fresh (i n : Nat) (s : State) : (bump i n s).fresh = s.fresh := rfl
@[simp] theorem bump_out (i n : Nat) (s : State) : (bump i n s).out = s.out := rfl
@[simp] theorem bump_tempo (i n : Nat) (s : State) : (bump i n s).tempo = s.tempo := rfl
@[simp] theorem bump_cfg (i n : Nat) (s : State) : (bump i n s).cfg = s.cfg := rfl
@[simp] theorem bump_staged (i n : Nat) (s : State) : (bump i n s).staged = s.staged := rfl
@[simp] theorem bump_commits (i n : Nat) (s : State) : (bump i n s).commits = s.commits := rfl
@[simp] theorem bump_outcomes (i n : Nat) (s : State) : (bump i n s).outcomes = s.outcomes := rfl
@[simp] theorem bump_nextPackageSeq (i n : Nat) (s : State) : (bump i n s).nextPackageSeq = s.nextPackageSeq := rfl
@[simp] theorem bump_nextOrder (i n : Nat) (s : State) : (bump i n s).nextOrder = s.nextOrder := rfl
@[simp] theorem bump_quar (i n : Nat) (s : State) : (bump i n s).quar = s.quar := rfl
@[simp] theorem bump_mgmt (i n : Nat) (s : State) : (bump i n s).mgmt = s.mgmt := rfl
@[simp] theorem bump_host (i n : Nat) (s : State) : (bump i n s).host = s.host := rfl
@[simp] theorem bump_hostMem (i n : Nat) (s : State) : (bump i n s).hostMem = s.hostMem := rfl
@[simp] theorem bump_toll (i n : Nat) (s : State) : (bump i n s).toll = s.toll := rfl
@[simp] theorem bump_glb (i n : Nat) (s : State) : (bump i n s).glb = s.glb := rfl
@[simp] theorem bump_macs (i n : Nat) (s : State) : (bump i n s).macs = s.macs := rfl
@[simp] theorem bump_fwd (i n : Nat) (s : State) : (bump i n s).fwd = s.fwd := rfl
@[simp] theorem bump_qdm (i n : Nat) (s : State) : (bump i n s).qdm = s.qdm := rfl
@[simp] theorem bump_sched (i n : Nat) (s : State) : (bump i n s).sched = s.sched := rfl
@[simp] theorem bump_fab (i n : Nat) (s : State) : (bump i n s).fab = s.fab := rfl
@[simp] theorem bump_bridge (i n : Nat) (s : State) : (bump i n s).bridge = s.bridge := rfl
@[simp] theorem bump_flexe (i n : Nat) (s : State) : (bump i n s).flexe = s.flexe := rfl
@[simp] theorem bump_mem (i n : Nat) (s : State) : (bump i n s).mem = s.mem := rfl
@[simp] theorem bump_crl (i n : Nat) (s : State) : (bump i n s).crl = s.crl := rfl
@[simp] theorem bump_bus (i n : Nat) (s : State) : (bump i n s).bus = s.bus := rfl
@[simp] theorem bump_prot (i n : Nat) (s : State) : (bump i n s).prot = s.prot := rfl
@[simp] theorem bump_fw (i n : Nat) (s : State) : (bump i n s).fw = s.fw := rfl
@[simp] theorem bump_pwr (i n : Nat) (s : State) : (bump i n s).pwr = s.pwr := rfl

@[simp] theorem drawn_pending (s : State) : (drawn s).pending = s.pending := rfl
@[simp] theorem drawn_elapsed (s : State) : (drawn s).elapsed = s.elapsed := rfl
@[simp] theorem drawn_fresh (s : State) : (drawn s).fresh = s.fresh + 1 := rfl
@[simp] theorem drawn_out (s : State) : (drawn s).out = s.out := rfl
@[simp] theorem drawn_tempo (s : State) : (drawn s).tempo = s.tempo := rfl
@[simp] theorem drawn_cfg (s : State) : (drawn s).cfg = s.cfg := rfl
@[simp] theorem drawn_staged (s : State) : (drawn s).staged = s.staged := rfl
@[simp] theorem drawn_commits (s : State) : (drawn s).commits = s.commits := rfl
@[simp] theorem drawn_outcomes (s : State) : (drawn s).outcomes = s.outcomes := rfl
@[simp] theorem drawn_nextPackageSeq (s : State) : (drawn s).nextPackageSeq = s.nextPackageSeq := rfl
@[simp] theorem drawn_nextOrder (s : State) : (drawn s).nextOrder = s.nextOrder := rfl
@[simp] theorem drawn_quar (s : State) : (drawn s).quar = s.quar := rfl
@[simp] theorem drawn_mgmt (s : State) : (drawn s).mgmt = s.mgmt := rfl
@[simp] theorem drawn_host (s : State) : (drawn s).host = s.host := rfl
@[simp] theorem drawn_hostMem (s : State) : (drawn s).hostMem = s.hostMem := rfl
@[simp] theorem drawn_ctrs (s : State) : (drawn s).ctrs = s.ctrs := rfl
@[simp] theorem drawn_toll (s : State) : (drawn s).toll = s.toll := rfl
@[simp] theorem drawn_glb (s : State) : (drawn s).glb = s.glb := rfl
@[simp] theorem drawn_macs (s : State) : (drawn s).macs = s.macs := rfl
@[simp] theorem drawn_fwd (s : State) : (drawn s).fwd = s.fwd := rfl
@[simp] theorem drawn_qdm (s : State) : (drawn s).qdm = s.qdm := rfl
@[simp] theorem drawn_sched (s : State) : (drawn s).sched = s.sched := rfl
@[simp] theorem drawn_fab (s : State) : (drawn s).fab = s.fab := rfl
@[simp] theorem drawn_bridge (s : State) : (drawn s).bridge = s.bridge := rfl
@[simp] theorem drawn_flexe (s : State) : (drawn s).flexe = s.flexe := rfl
@[simp] theorem drawn_mem (s : State) : (drawn s).mem = s.mem := rfl
@[simp] theorem drawn_crl (s : State) : (drawn s).crl = s.crl := rfl
@[simp] theorem drawn_bus (s : State) : (drawn s).bus = s.bus := rfl
@[simp] theorem drawn_prot (s : State) : (drawn s).prot = s.prot := rfl
@[simp] theorem drawn_fw (s : State) : (drawn s).fw = s.fw := rfl
@[simp] theorem drawn_pwr (s : State) : (drawn s).pwr = s.pwr := rfl

@[simp] theorem hostWrite_pending (a : Nat) (bs : List Byte) (s : State) : (hostWrite a bs s).pending = s.pending := rfl
@[simp] theorem hostWrite_elapsed (a : Nat) (bs : List Byte) (s : State) : (hostWrite a bs s).elapsed = s.elapsed := rfl
@[simp] theorem hostWrite_fresh (a : Nat) (bs : List Byte) (s : State) : (hostWrite a bs s).fresh = s.fresh := rfl
@[simp] theorem hostWrite_out (a : Nat) (bs : List Byte) (s : State) : (hostWrite a bs s).out = s.out := rfl
@[simp] theorem hostWrite_tempo (a : Nat) (bs : List Byte) (s : State) : (hostWrite a bs s).tempo = s.tempo := rfl
@[simp] theorem hostWrite_cfg (a : Nat) (bs : List Byte) (s : State) : (hostWrite a bs s).cfg = s.cfg := rfl
@[simp] theorem hostWrite_staged (a : Nat) (bs : List Byte) (s : State) : (hostWrite a bs s).staged = s.staged := rfl
@[simp] theorem hostWrite_commits (a : Nat) (bs : List Byte) (s : State) : (hostWrite a bs s).commits = s.commits := rfl
@[simp] theorem hostWrite_outcomes (a : Nat) (bs : List Byte) (s : State) : (hostWrite a bs s).outcomes = s.outcomes := rfl
@[simp] theorem hostWrite_nextPackageSeq (a : Nat) (bs : List Byte) (s : State) : (hostWrite a bs s).nextPackageSeq = s.nextPackageSeq := rfl
@[simp] theorem hostWrite_nextOrder (a : Nat) (bs : List Byte) (s : State) : (hostWrite a bs s).nextOrder = s.nextOrder := rfl
@[simp] theorem hostWrite_quar (a : Nat) (bs : List Byte) (s : State) : (hostWrite a bs s).quar = s.quar := rfl
@[simp] theorem hostWrite_mgmt (a : Nat) (bs : List Byte) (s : State) : (hostWrite a bs s).mgmt = s.mgmt := rfl
@[simp] theorem hostWrite_host (a : Nat) (bs : List Byte) (s : State) : (hostWrite a bs s).host = s.host := rfl
@[simp] theorem hostWrite_hostMem (a : Nat) (bs : List Byte) (s : State) : (hostWrite a bs s).hostMem = memWrite s.hostMem a bs := rfl
@[simp] theorem hostWrite_ctrs (a : Nat) (bs : List Byte) (s : State) : (hostWrite a bs s).ctrs = s.ctrs := rfl
@[simp] theorem hostWrite_toll (a : Nat) (bs : List Byte) (s : State) : (hostWrite a bs s).toll = s.toll := rfl
@[simp] theorem hostWrite_glb (a : Nat) (bs : List Byte) (s : State) : (hostWrite a bs s).glb = s.glb := rfl
@[simp] theorem hostWrite_macs (a : Nat) (bs : List Byte) (s : State) : (hostWrite a bs s).macs = s.macs := rfl
@[simp] theorem hostWrite_fwd (a : Nat) (bs : List Byte) (s : State) : (hostWrite a bs s).fwd = s.fwd := rfl
@[simp] theorem hostWrite_qdm (a : Nat) (bs : List Byte) (s : State) : (hostWrite a bs s).qdm = s.qdm := rfl
@[simp] theorem hostWrite_sched (a : Nat) (bs : List Byte) (s : State) : (hostWrite a bs s).sched = s.sched := rfl
@[simp] theorem hostWrite_fab (a : Nat) (bs : List Byte) (s : State) : (hostWrite a bs s).fab = s.fab := rfl
@[simp] theorem hostWrite_bridge (a : Nat) (bs : List Byte) (s : State) : (hostWrite a bs s).bridge = s.bridge := rfl
@[simp] theorem hostWrite_flexe (a : Nat) (bs : List Byte) (s : State) : (hostWrite a bs s).flexe = s.flexe := rfl
@[simp] theorem hostWrite_mem (a : Nat) (bs : List Byte) (s : State) : (hostWrite a bs s).mem = s.mem := rfl
@[simp] theorem hostWrite_crl (a : Nat) (bs : List Byte) (s : State) : (hostWrite a bs s).crl = s.crl := rfl
@[simp] theorem hostWrite_bus (a : Nat) (bs : List Byte) (s : State) : (hostWrite a bs s).bus = s.bus := rfl
@[simp] theorem hostWrite_prot (a : Nat) (bs : List Byte) (s : State) : (hostWrite a bs s).prot = s.prot := rfl
@[simp] theorem hostWrite_fw (a : Nat) (bs : List Byte) (s : State) : (hostWrite a bs s).fw = s.fw := rfl
@[simp] theorem hostWrite_pwr (a : Nat) (bs : List Byte) (s : State) : (hostWrite a bs s).pwr = s.pwr := rfl

@[simp] theorem setRing_pending (r : Nat) (x : Ring) (s : State) : (setRing r x s).pending = s.pending := rfl
@[simp] theorem setRing_elapsed (r : Nat) (x : Ring) (s : State) : (setRing r x s).elapsed = s.elapsed := rfl
@[simp] theorem setRing_fresh (r : Nat) (x : Ring) (s : State) : (setRing r x s).fresh = s.fresh := rfl
@[simp] theorem setRing_out (r : Nat) (x : Ring) (s : State) : (setRing r x s).out = s.out := rfl
@[simp] theorem setRing_tempo (r : Nat) (x : Ring) (s : State) : (setRing r x s).tempo = s.tempo := rfl
@[simp] theorem setRing_cfg (r : Nat) (x : Ring) (s : State) : (setRing r x s).cfg = s.cfg := rfl
@[simp] theorem setRing_staged (r : Nat) (x : Ring) (s : State) : (setRing r x s).staged = s.staged := rfl
@[simp] theorem setRing_commits (r : Nat) (x : Ring) (s : State) : (setRing r x s).commits = s.commits := rfl
@[simp] theorem setRing_outcomes (r : Nat) (x : Ring) (s : State) : (setRing r x s).outcomes = s.outcomes := rfl
@[simp] theorem setRing_nextPackageSeq (r : Nat) (x : Ring) (s : State) : (setRing r x s).nextPackageSeq = s.nextPackageSeq := rfl
@[simp] theorem setRing_nextOrder (r : Nat) (x : Ring) (s : State) : (setRing r x s).nextOrder = s.nextOrder := rfl
@[simp] theorem setRing_quar (r : Nat) (x : Ring) (s : State) : (setRing r x s).quar = s.quar := rfl
@[simp] theorem setRing_mgmt (r : Nat) (x : Ring) (s : State) : (setRing r x s).mgmt = s.mgmt := rfl
@[simp] theorem setRing_hostMem (r : Nat) (x : Ring) (s : State) : (setRing r x s).hostMem = s.hostMem := rfl
@[simp] theorem setRing_ctrs (r : Nat) (x : Ring) (s : State) : (setRing r x s).ctrs = s.ctrs := rfl
@[simp] theorem setRing_toll (r : Nat) (x : Ring) (s : State) : (setRing r x s).toll = s.toll := rfl
@[simp] theorem setRing_glb (r : Nat) (x : Ring) (s : State) : (setRing r x s).glb = s.glb := rfl
@[simp] theorem setRing_macs (r : Nat) (x : Ring) (s : State) : (setRing r x s).macs = s.macs := rfl
@[simp] theorem setRing_fwd (r : Nat) (x : Ring) (s : State) : (setRing r x s).fwd = s.fwd := rfl
@[simp] theorem setRing_qdm (r : Nat) (x : Ring) (s : State) : (setRing r x s).qdm = s.qdm := rfl
@[simp] theorem setRing_sched (r : Nat) (x : Ring) (s : State) : (setRing r x s).sched = s.sched := rfl
@[simp] theorem setRing_fab (r : Nat) (x : Ring) (s : State) : (setRing r x s).fab = s.fab := rfl
@[simp] theorem setRing_bridge (r : Nat) (x : Ring) (s : State) : (setRing r x s).bridge = s.bridge := rfl
@[simp] theorem setRing_flexe (r : Nat) (x : Ring) (s : State) : (setRing r x s).flexe = s.flexe := rfl
@[simp] theorem setRing_mem (r : Nat) (x : Ring) (s : State) : (setRing r x s).mem = s.mem := rfl
@[simp] theorem setRing_crl (r : Nat) (x : Ring) (s : State) : (setRing r x s).crl = s.crl := rfl
@[simp] theorem setRing_bus (r : Nat) (x : Ring) (s : State) : (setRing r x s).bus = s.bus := rfl
@[simp] theorem setRing_prot (r : Nat) (x : Ring) (s : State) : (setRing r x s).prot = s.prot := rfl
@[simp] theorem setRing_fw (r : Nat) (x : Ring) (s : State) : (setRing r x s).fw = s.fw := rfl
@[simp] theorem setRing_pwr (r : Nat) (x : Ring) (s : State) : (setRing r x s).pwr = s.pwr := rfl

@[simp] theorem updRing_pending (r : Nat) (f : Ring → Ring) (s : State) : (updRing r f s).pending = s.pending := rfl
@[simp] theorem updRing_elapsed (r : Nat) (f : Ring → Ring) (s : State) : (updRing r f s).elapsed = s.elapsed := rfl
@[simp] theorem updRing_fresh (r : Nat) (f : Ring → Ring) (s : State) : (updRing r f s).fresh = s.fresh := rfl
@[simp] theorem updRing_out (r : Nat) (f : Ring → Ring) (s : State) : (updRing r f s).out = s.out := rfl
@[simp] theorem updRing_tempo (r : Nat) (f : Ring → Ring) (s : State) : (updRing r f s).tempo = s.tempo := rfl
@[simp] theorem updRing_cfg (r : Nat) (f : Ring → Ring) (s : State) : (updRing r f s).cfg = s.cfg := rfl
@[simp] theorem updRing_staged (r : Nat) (f : Ring → Ring) (s : State) : (updRing r f s).staged = s.staged := rfl
@[simp] theorem updRing_commits (r : Nat) (f : Ring → Ring) (s : State) : (updRing r f s).commits = s.commits := rfl
@[simp] theorem updRing_outcomes (r : Nat) (f : Ring → Ring) (s : State) : (updRing r f s).outcomes = s.outcomes := rfl
@[simp] theorem updRing_nextPackageSeq (r : Nat) (f : Ring → Ring) (s : State) : (updRing r f s).nextPackageSeq = s.nextPackageSeq := rfl
@[simp] theorem updRing_nextOrder (r : Nat) (f : Ring → Ring) (s : State) : (updRing r f s).nextOrder = s.nextOrder := rfl
@[simp] theorem updRing_quar (r : Nat) (f : Ring → Ring) (s : State) : (updRing r f s).quar = s.quar := rfl
@[simp] theorem updRing_mgmt (r : Nat) (f : Ring → Ring) (s : State) : (updRing r f s).mgmt = s.mgmt := rfl
@[simp] theorem updRing_hostMem (r : Nat) (f : Ring → Ring) (s : State) : (updRing r f s).hostMem = s.hostMem := rfl
@[simp] theorem updRing_ctrs (r : Nat) (f : Ring → Ring) (s : State) : (updRing r f s).ctrs = s.ctrs := rfl
@[simp] theorem updRing_toll (r : Nat) (f : Ring → Ring) (s : State) : (updRing r f s).toll = s.toll := rfl
@[simp] theorem updRing_glb (r : Nat) (f : Ring → Ring) (s : State) : (updRing r f s).glb = s.glb := rfl
@[simp] theorem updRing_macs (r : Nat) (f : Ring → Ring) (s : State) : (updRing r f s).macs = s.macs := rfl
@[simp] theorem updRing_fwd (r : Nat) (f : Ring → Ring) (s : State) : (updRing r f s).fwd = s.fwd := rfl
@[simp] theorem updRing_qdm (r : Nat) (f : Ring → Ring) (s : State) : (updRing r f s).qdm = s.qdm := rfl
@[simp] theorem updRing_sched (r : Nat) (f : Ring → Ring) (s : State) : (updRing r f s).sched = s.sched := rfl
@[simp] theorem updRing_fab (r : Nat) (f : Ring → Ring) (s : State) : (updRing r f s).fab = s.fab := rfl
@[simp] theorem updRing_bridge (r : Nat) (f : Ring → Ring) (s : State) : (updRing r f s).bridge = s.bridge := rfl
@[simp] theorem updRing_flexe (r : Nat) (f : Ring → Ring) (s : State) : (updRing r f s).flexe = s.flexe := rfl
@[simp] theorem updRing_mem (r : Nat) (f : Ring → Ring) (s : State) : (updRing r f s).mem = s.mem := rfl
@[simp] theorem updRing_crl (r : Nat) (f : Ring → Ring) (s : State) : (updRing r f s).crl = s.crl := rfl
@[simp] theorem updRing_bus (r : Nat) (f : Ring → Ring) (s : State) : (updRing r f s).bus = s.bus := rfl
@[simp] theorem updRing_prot (r : Nat) (f : Ring → Ring) (s : State) : (updRing r f s).prot = s.prot := rfl
@[simp] theorem updRing_fw (r : Nat) (f : Ring → Ring) (s : State) : (updRing r f s).fw = s.fw := rfl
@[simp] theorem updRing_pwr (r : Nat) (f : Ring → Ring) (s : State) : (updRing r f s).pwr = s.pwr := rfl

@[simp] theorem journal_pending (j : JRec) (s : State) : (journal j s).pending = s.pending := rfl
@[simp] theorem journal_elapsed (j : JRec) (s : State) : (journal j s).elapsed = s.elapsed := rfl
@[simp] theorem journal_fresh (j : JRec) (s : State) : (journal j s).fresh = s.fresh := rfl
@[simp] theorem journal_out (j : JRec) (s : State) : (journal j s).out = s.out := rfl
@[simp] theorem journal_tempo (j : JRec) (s : State) : (journal j s).tempo = s.tempo := rfl
@[simp] theorem journal_cfg (j : JRec) (s : State) : (journal j s).cfg = s.cfg := rfl
@[simp] theorem journal_staged (j : JRec) (s : State) : (journal j s).staged = s.staged := rfl
@[simp] theorem journal_commits (j : JRec) (s : State) : (journal j s).commits = s.commits := rfl
@[simp] theorem journal_outcomes (j : JRec) (s : State) : (journal j s).outcomes = s.outcomes := rfl
@[simp] theorem journal_nextPackageSeq (j : JRec) (s : State) : (journal j s).nextPackageSeq = s.nextPackageSeq := rfl
@[simp] theorem journal_nextOrder (j : JRec) (s : State) : (journal j s).nextOrder = s.nextOrder := rfl
@[simp] theorem journal_quar (j : JRec) (s : State) : (journal j s).quar = s.quar := rfl
@[simp] theorem journal_host (j : JRec) (s : State) : (journal j s).host = s.host := rfl
@[simp] theorem journal_hostMem (j : JRec) (s : State) : (journal j s).hostMem = s.hostMem := rfl
@[simp] theorem journal_ctrs (j : JRec) (s : State) : (journal j s).ctrs = s.ctrs := rfl
@[simp] theorem journal_toll (j : JRec) (s : State) : (journal j s).toll = s.toll := rfl
@[simp] theorem journal_glb (j : JRec) (s : State) : (journal j s).glb = s.glb := rfl
@[simp] theorem journal_macs (j : JRec) (s : State) : (journal j s).macs = s.macs := rfl
@[simp] theorem journal_fwd (j : JRec) (s : State) : (journal j s).fwd = s.fwd := rfl
@[simp] theorem journal_qdm (j : JRec) (s : State) : (journal j s).qdm = s.qdm := rfl
@[simp] theorem journal_sched (j : JRec) (s : State) : (journal j s).sched = s.sched := rfl
@[simp] theorem journal_fab (j : JRec) (s : State) : (journal j s).fab = s.fab := rfl
@[simp] theorem journal_bridge (j : JRec) (s : State) : (journal j s).bridge = s.bridge := rfl
@[simp] theorem journal_flexe (j : JRec) (s : State) : (journal j s).flexe = s.flexe := rfl
@[simp] theorem journal_mem (j : JRec) (s : State) : (journal j s).mem = s.mem := rfl
@[simp] theorem journal_crl (j : JRec) (s : State) : (journal j s).crl = s.crl := rfl
@[simp] theorem journal_bus (j : JRec) (s : State) : (journal j s).bus = s.bus := rfl
@[simp] theorem journal_prot (j : JRec) (s : State) : (journal j s).prot = s.prot := rfl
@[simp] theorem journal_fw (j : JRec) (s : State) : (journal j s).fw = s.fw := rfl
@[simp] theorem journal_pwr (j : JRec) (s : State) : (journal j s).pwr = s.pwr := rfl

@[simp] theorem tickBy_pending (ns : Nat) (s : State) : (tickBy ns s).pending = s.pending := rfl
@[simp] theorem tickBy_elapsed (ns : Nat) (s : State) : (tickBy ns s).elapsed = s.elapsed + ns := rfl
@[simp] theorem tickBy_fresh (ns : Nat) (s : State) : (tickBy ns s).fresh = s.fresh := rfl
@[simp] theorem tickBy_out (ns : Nat) (s : State) : (tickBy ns s).out = s.out := rfl
@[simp] theorem tickBy_cfg (ns : Nat) (s : State) : (tickBy ns s).cfg = s.cfg := rfl
@[simp] theorem tickBy_staged (ns : Nat) (s : State) : (tickBy ns s).staged = s.staged := rfl
@[simp] theorem tickBy_commits (ns : Nat) (s : State) : (tickBy ns s).commits = s.commits := rfl
@[simp] theorem tickBy_outcomes (ns : Nat) (s : State) : (tickBy ns s).outcomes = s.outcomes := rfl
@[simp] theorem tickBy_nextPackageSeq (ns : Nat) (s : State) : (tickBy ns s).nextPackageSeq = s.nextPackageSeq := rfl
@[simp] theorem tickBy_nextOrder (ns : Nat) (s : State) : (tickBy ns s).nextOrder = s.nextOrder := rfl
@[simp] theorem tickBy_quar (ns : Nat) (s : State) : (tickBy ns s).quar = s.quar := rfl
@[simp] theorem tickBy_mgmt (ns : Nat) (s : State) : (tickBy ns s).mgmt = s.mgmt := rfl
@[simp] theorem tickBy_host (ns : Nat) (s : State) : (tickBy ns s).host = s.host := rfl
@[simp] theorem tickBy_hostMem (ns : Nat) (s : State) : (tickBy ns s).hostMem = s.hostMem := rfl
@[simp] theorem tickBy_ctrs (ns : Nat) (s : State) : (tickBy ns s).ctrs = s.ctrs := rfl
@[simp] theorem tickBy_toll (ns : Nat) (s : State) : (tickBy ns s).toll = s.toll := rfl
@[simp] theorem tickBy_glb (ns : Nat) (s : State) : (tickBy ns s).glb = s.glb := rfl
@[simp] theorem tickBy_macs (ns : Nat) (s : State) : (tickBy ns s).macs = s.macs := rfl
@[simp] theorem tickBy_fwd (ns : Nat) (s : State) : (tickBy ns s).fwd = s.fwd := rfl
@[simp] theorem tickBy_qdm (ns : Nat) (s : State) : (tickBy ns s).qdm = s.qdm := rfl
@[simp] theorem tickBy_sched (ns : Nat) (s : State) : (tickBy ns s).sched = s.sched := rfl
@[simp] theorem tickBy_fab (ns : Nat) (s : State) : (tickBy ns s).fab = s.fab := rfl
@[simp] theorem tickBy_bridge (ns : Nat) (s : State) : (tickBy ns s).bridge = s.bridge := rfl
@[simp] theorem tickBy_flexe (ns : Nat) (s : State) : (tickBy ns s).flexe = s.flexe := rfl
@[simp] theorem tickBy_mem (ns : Nat) (s : State) : (tickBy ns s).mem = s.mem := rfl
@[simp] theorem tickBy_crl (ns : Nat) (s : State) : (tickBy ns s).crl = s.crl := rfl
@[simp] theorem tickBy_bus (ns : Nat) (s : State) : (tickBy ns s).bus = s.bus := rfl
@[simp] theorem tickBy_prot (ns : Nat) (s : State) : (tickBy ns s).prot = s.prot := rfl
@[simp] theorem tickBy_fw (ns : Nat) (s : State) : (tickBy ns s).fw = s.fw := rfl
@[simp] theorem tickBy_pwr (ns : Nat) (s : State) : (tickBy ns s).pwr = s.pwr := rfl

@[simp] theorem updMac_pending (m : Nat) (f : Mac → Mac) (s : State) : (updMac m f s).pending = s.pending := rfl
@[simp] theorem updMac_elapsed (m : Nat) (f : Mac → Mac) (s : State) : (updMac m f s).elapsed = s.elapsed := rfl
@[simp] theorem updMac_fresh (m : Nat) (f : Mac → Mac) (s : State) : (updMac m f s).fresh = s.fresh := rfl
@[simp] theorem updMac_out (m : Nat) (f : Mac → Mac) (s : State) : (updMac m f s).out = s.out := rfl
@[simp] theorem updMac_tempo (m : Nat) (f : Mac → Mac) (s : State) : (updMac m f s).tempo = s.tempo := rfl
@[simp] theorem updMac_cfg (m : Nat) (f : Mac → Mac) (s : State) : (updMac m f s).cfg = s.cfg := rfl
@[simp] theorem updMac_staged (m : Nat) (f : Mac → Mac) (s : State) : (updMac m f s).staged = s.staged := rfl
@[simp] theorem updMac_commits (m : Nat) (f : Mac → Mac) (s : State) : (updMac m f s).commits = s.commits := rfl
@[simp] theorem updMac_outcomes (m : Nat) (f : Mac → Mac) (s : State) : (updMac m f s).outcomes = s.outcomes := rfl
@[simp] theorem updMac_nextPackageSeq (m : Nat) (f : Mac → Mac) (s : State) : (updMac m f s).nextPackageSeq = s.nextPackageSeq := rfl
@[simp] theorem updMac_nextOrder (m : Nat) (f : Mac → Mac) (s : State) : (updMac m f s).nextOrder = s.nextOrder := rfl
@[simp] theorem updMac_quar (m : Nat) (f : Mac → Mac) (s : State) : (updMac m f s).quar = s.quar := rfl
@[simp] theorem updMac_mgmt (m : Nat) (f : Mac → Mac) (s : State) : (updMac m f s).mgmt = s.mgmt := rfl
@[simp] theorem updMac_host (m : Nat) (f : Mac → Mac) (s : State) : (updMac m f s).host = s.host := rfl
@[simp] theorem updMac_hostMem (m : Nat) (f : Mac → Mac) (s : State) : (updMac m f s).hostMem = s.hostMem := rfl
@[simp] theorem updMac_ctrs (m : Nat) (f : Mac → Mac) (s : State) : (updMac m f s).ctrs = s.ctrs := rfl
@[simp] theorem updMac_toll (m : Nat) (f : Mac → Mac) (s : State) : (updMac m f s).toll = s.toll := rfl
@[simp] theorem updMac_glb (m : Nat) (f : Mac → Mac) (s : State) : (updMac m f s).glb = s.glb := rfl
@[simp] theorem updMac_macs (m : Nat) (f : Mac → Mac) (s : State) : (updMac m f s).macs = aupd s.macs m f := rfl
@[simp] theorem updMac_fwd (m : Nat) (f : Mac → Mac) (s : State) : (updMac m f s).fwd = s.fwd := rfl
@[simp] theorem updMac_qdm (m : Nat) (f : Mac → Mac) (s : State) : (updMac m f s).qdm = s.qdm := rfl
@[simp] theorem updMac_sched (m : Nat) (f : Mac → Mac) (s : State) : (updMac m f s).sched = s.sched := rfl
@[simp] theorem updMac_fab (m : Nat) (f : Mac → Mac) (s : State) : (updMac m f s).fab = s.fab := rfl
@[simp] theorem updMac_bridge (m : Nat) (f : Mac → Mac) (s : State) : (updMac m f s).bridge = s.bridge := rfl
@[simp] theorem updMac_flexe (m : Nat) (f : Mac → Mac) (s : State) : (updMac m f s).flexe = s.flexe := rfl
@[simp] theorem updMac_mem (m : Nat) (f : Mac → Mac) (s : State) : (updMac m f s).mem = s.mem := rfl
@[simp] theorem updMac_crl (m : Nat) (f : Mac → Mac) (s : State) : (updMac m f s).crl = s.crl := rfl
@[simp] theorem updMac_bus (m : Nat) (f : Mac → Mac) (s : State) : (updMac m f s).bus = s.bus := rfl
@[simp] theorem updMac_prot (m : Nat) (f : Mac → Mac) (s : State) : (updMac m f s).prot = s.prot := rfl
@[simp] theorem updMac_fw (m : Nat) (f : Mac → Mac) (s : State) : (updMac m f s).fw = s.fw := rfl
@[simp] theorem updMac_pwr (m : Nat) (f : Mac → Mac) (s : State) : (updMac m f s).pwr = s.pwr := rfl

@[simp] theorem updCrl_pending (f : Carillon → Carillon) (s : State) : (updCrl f s).pending = s.pending := rfl
@[simp] theorem updCrl_elapsed (f : Carillon → Carillon) (s : State) : (updCrl f s).elapsed = s.elapsed := rfl
@[simp] theorem updCrl_fresh (f : Carillon → Carillon) (s : State) : (updCrl f s).fresh = s.fresh := rfl
@[simp] theorem updCrl_out (f : Carillon → Carillon) (s : State) : (updCrl f s).out = s.out := rfl
@[simp] theorem updCrl_tempo (f : Carillon → Carillon) (s : State) : (updCrl f s).tempo = s.tempo := rfl
@[simp] theorem updCrl_cfg (f : Carillon → Carillon) (s : State) : (updCrl f s).cfg = s.cfg := rfl
@[simp] theorem updCrl_staged (f : Carillon → Carillon) (s : State) : (updCrl f s).staged = s.staged := rfl
@[simp] theorem updCrl_commits (f : Carillon → Carillon) (s : State) : (updCrl f s).commits = s.commits := rfl
@[simp] theorem updCrl_outcomes (f : Carillon → Carillon) (s : State) : (updCrl f s).outcomes = s.outcomes := rfl
@[simp] theorem updCrl_nextPackageSeq (f : Carillon → Carillon) (s : State) : (updCrl f s).nextPackageSeq = s.nextPackageSeq := rfl
@[simp] theorem updCrl_nextOrder (f : Carillon → Carillon) (s : State) : (updCrl f s).nextOrder = s.nextOrder := rfl
@[simp] theorem updCrl_quar (f : Carillon → Carillon) (s : State) : (updCrl f s).quar = s.quar := rfl
@[simp] theorem updCrl_mgmt (f : Carillon → Carillon) (s : State) : (updCrl f s).mgmt = s.mgmt := rfl
@[simp] theorem updCrl_host (f : Carillon → Carillon) (s : State) : (updCrl f s).host = s.host := rfl
@[simp] theorem updCrl_hostMem (f : Carillon → Carillon) (s : State) : (updCrl f s).hostMem = s.hostMem := rfl
@[simp] theorem updCrl_ctrs (f : Carillon → Carillon) (s : State) : (updCrl f s).ctrs = s.ctrs := rfl
@[simp] theorem updCrl_toll (f : Carillon → Carillon) (s : State) : (updCrl f s).toll = s.toll := rfl
@[simp] theorem updCrl_glb (f : Carillon → Carillon) (s : State) : (updCrl f s).glb = s.glb := rfl
@[simp] theorem updCrl_macs (f : Carillon → Carillon) (s : State) : (updCrl f s).macs = s.macs := rfl
@[simp] theorem updCrl_fwd (f : Carillon → Carillon) (s : State) : (updCrl f s).fwd = s.fwd := rfl
@[simp] theorem updCrl_qdm (f : Carillon → Carillon) (s : State) : (updCrl f s).qdm = s.qdm := rfl
@[simp] theorem updCrl_sched (f : Carillon → Carillon) (s : State) : (updCrl f s).sched = s.sched := rfl
@[simp] theorem updCrl_fab (f : Carillon → Carillon) (s : State) : (updCrl f s).fab = s.fab := rfl
@[simp] theorem updCrl_bridge (f : Carillon → Carillon) (s : State) : (updCrl f s).bridge = s.bridge := rfl
@[simp] theorem updCrl_flexe (f : Carillon → Carillon) (s : State) : (updCrl f s).flexe = s.flexe := rfl
@[simp] theorem updCrl_mem (f : Carillon → Carillon) (s : State) : (updCrl f s).mem = s.mem := rfl
@[simp] theorem updCrl_crl (f : Carillon → Carillon) (s : State) : (updCrl f s).crl = f s.crl := rfl
@[simp] theorem updCrl_bus (f : Carillon → Carillon) (s : State) : (updCrl f s).bus = s.bus := rfl
@[simp] theorem updCrl_prot (f : Carillon → Carillon) (s : State) : (updCrl f s).prot = s.prot := rfl
@[simp] theorem updCrl_fw (f : Carillon → Carillon) (s : State) : (updCrl f s).fw = s.fw := rfl
@[simp] theorem updCrl_pwr (f : Carillon → Carillon) (s : State) : (updCrl f s).pwr = s.pwr := rfl

@[simp] theorem updProt_pending (f : Protect → Protect) (s : State) : (updProt f s).pending = s.pending := rfl
@[simp] theorem updProt_elapsed (f : Protect → Protect) (s : State) : (updProt f s).elapsed = s.elapsed := rfl
@[simp] theorem updProt_fresh (f : Protect → Protect) (s : State) : (updProt f s).fresh = s.fresh := rfl
@[simp] theorem updProt_out (f : Protect → Protect) (s : State) : (updProt f s).out = s.out := rfl
@[simp] theorem updProt_tempo (f : Protect → Protect) (s : State) : (updProt f s).tempo = s.tempo := rfl
@[simp] theorem updProt_cfg (f : Protect → Protect) (s : State) : (updProt f s).cfg = s.cfg := rfl
@[simp] theorem updProt_staged (f : Protect → Protect) (s : State) : (updProt f s).staged = s.staged := rfl
@[simp] theorem updProt_commits (f : Protect → Protect) (s : State) : (updProt f s).commits = s.commits := rfl
@[simp] theorem updProt_outcomes (f : Protect → Protect) (s : State) : (updProt f s).outcomes = s.outcomes := rfl
@[simp] theorem updProt_nextPackageSeq (f : Protect → Protect) (s : State) : (updProt f s).nextPackageSeq = s.nextPackageSeq := rfl
@[simp] theorem updProt_nextOrder (f : Protect → Protect) (s : State) : (updProt f s).nextOrder = s.nextOrder := rfl
@[simp] theorem updProt_quar (f : Protect → Protect) (s : State) : (updProt f s).quar = s.quar := rfl
@[simp] theorem updProt_mgmt (f : Protect → Protect) (s : State) : (updProt f s).mgmt = s.mgmt := rfl
@[simp] theorem updProt_host (f : Protect → Protect) (s : State) : (updProt f s).host = s.host := rfl
@[simp] theorem updProt_hostMem (f : Protect → Protect) (s : State) : (updProt f s).hostMem = s.hostMem := rfl
@[simp] theorem updProt_ctrs (f : Protect → Protect) (s : State) : (updProt f s).ctrs = s.ctrs := rfl
@[simp] theorem updProt_toll (f : Protect → Protect) (s : State) : (updProt f s).toll = s.toll := rfl
@[simp] theorem updProt_glb (f : Protect → Protect) (s : State) : (updProt f s).glb = s.glb := rfl
@[simp] theorem updProt_macs (f : Protect → Protect) (s : State) : (updProt f s).macs = s.macs := rfl
@[simp] theorem updProt_fwd (f : Protect → Protect) (s : State) : (updProt f s).fwd = s.fwd := rfl
@[simp] theorem updProt_qdm (f : Protect → Protect) (s : State) : (updProt f s).qdm = s.qdm := rfl
@[simp] theorem updProt_sched (f : Protect → Protect) (s : State) : (updProt f s).sched = s.sched := rfl
@[simp] theorem updProt_fab (f : Protect → Protect) (s : State) : (updProt f s).fab = s.fab := rfl
@[simp] theorem updProt_bridge (f : Protect → Protect) (s : State) : (updProt f s).bridge = s.bridge := rfl
@[simp] theorem updProt_flexe (f : Protect → Protect) (s : State) : (updProt f s).flexe = s.flexe := rfl
@[simp] theorem updProt_mem (f : Protect → Protect) (s : State) : (updProt f s).mem = s.mem := rfl
@[simp] theorem updProt_crl (f : Protect → Protect) (s : State) : (updProt f s).crl = s.crl := rfl
@[simp] theorem updProt_bus (f : Protect → Protect) (s : State) : (updProt f s).bus = s.bus := rfl
@[simp] theorem updProt_prot (f : Protect → Protect) (s : State) : (updProt f s).prot = f s.prot := rfl
@[simp] theorem updProt_fw (f : Protect → Protect) (s : State) : (updProt f s).fw = s.fw := rfl
@[simp] theorem updProt_pwr (f : Protect → Protect) (s : State) : (updProt f s).pwr = s.pwr := rfl

@[simp] theorem updPwr_pending (f : Power → Power) (s : State) : (updPwr f s).pending = s.pending := rfl
@[simp] theorem updPwr_elapsed (f : Power → Power) (s : State) : (updPwr f s).elapsed = s.elapsed := rfl
@[simp] theorem updPwr_fresh (f : Power → Power) (s : State) : (updPwr f s).fresh = s.fresh := rfl
@[simp] theorem updPwr_out (f : Power → Power) (s : State) : (updPwr f s).out = s.out := rfl
@[simp] theorem updPwr_tempo (f : Power → Power) (s : State) : (updPwr f s).tempo = s.tempo := rfl
@[simp] theorem updPwr_cfg (f : Power → Power) (s : State) : (updPwr f s).cfg = s.cfg := rfl
@[simp] theorem updPwr_staged (f : Power → Power) (s : State) : (updPwr f s).staged = s.staged := rfl
@[simp] theorem updPwr_commits (f : Power → Power) (s : State) : (updPwr f s).commits = s.commits := rfl
@[simp] theorem updPwr_outcomes (f : Power → Power) (s : State) : (updPwr f s).outcomes = s.outcomes := rfl
@[simp] theorem updPwr_nextPackageSeq (f : Power → Power) (s : State) : (updPwr f s).nextPackageSeq = s.nextPackageSeq := rfl
@[simp] theorem updPwr_nextOrder (f : Power → Power) (s : State) : (updPwr f s).nextOrder = s.nextOrder := rfl
@[simp] theorem updPwr_quar (f : Power → Power) (s : State) : (updPwr f s).quar = s.quar := rfl
@[simp] theorem updPwr_mgmt (f : Power → Power) (s : State) : (updPwr f s).mgmt = s.mgmt := rfl
@[simp] theorem updPwr_host (f : Power → Power) (s : State) : (updPwr f s).host = s.host := rfl
@[simp] theorem updPwr_hostMem (f : Power → Power) (s : State) : (updPwr f s).hostMem = s.hostMem := rfl
@[simp] theorem updPwr_ctrs (f : Power → Power) (s : State) : (updPwr f s).ctrs = s.ctrs := rfl
@[simp] theorem updPwr_toll (f : Power → Power) (s : State) : (updPwr f s).toll = s.toll := rfl
@[simp] theorem updPwr_glb (f : Power → Power) (s : State) : (updPwr f s).glb = s.glb := rfl
@[simp] theorem updPwr_macs (f : Power → Power) (s : State) : (updPwr f s).macs = s.macs := rfl
@[simp] theorem updPwr_fwd (f : Power → Power) (s : State) : (updPwr f s).fwd = s.fwd := rfl
@[simp] theorem updPwr_qdm (f : Power → Power) (s : State) : (updPwr f s).qdm = s.qdm := rfl
@[simp] theorem updPwr_sched (f : Power → Power) (s : State) : (updPwr f s).sched = s.sched := rfl
@[simp] theorem updPwr_fab (f : Power → Power) (s : State) : (updPwr f s).fab = s.fab := rfl
@[simp] theorem updPwr_bridge (f : Power → Power) (s : State) : (updPwr f s).bridge = s.bridge := rfl
@[simp] theorem updPwr_flexe (f : Power → Power) (s : State) : (updPwr f s).flexe = s.flexe := rfl
@[simp] theorem updPwr_mem (f : Power → Power) (s : State) : (updPwr f s).mem = s.mem := rfl
@[simp] theorem updPwr_crl (f : Power → Power) (s : State) : (updPwr f s).crl = s.crl := rfl
@[simp] theorem updPwr_bus (f : Power → Power) (s : State) : (updPwr f s).bus = s.bus := rfl
@[simp] theorem updPwr_prot (f : Power → Power) (s : State) : (updPwr f s).prot = s.prot := rfl
@[simp] theorem updPwr_fw (f : Power → Power) (s : State) : (updPwr f s).fw = s.fw := rfl
@[simp] theorem updPwr_pwr (f : Power → Power) (s : State) : (updPwr f s).pwr = f s.pwr := rfl

@[simp] theorem updFw_pending (f : Fw → Fw) (s : State) : (updFw f s).pending = s.pending := rfl
@[simp] theorem updFw_elapsed (f : Fw → Fw) (s : State) : (updFw f s).elapsed = s.elapsed := rfl
@[simp] theorem updFw_fresh (f : Fw → Fw) (s : State) : (updFw f s).fresh = s.fresh := rfl
@[simp] theorem updFw_out (f : Fw → Fw) (s : State) : (updFw f s).out = s.out := rfl
@[simp] theorem updFw_tempo (f : Fw → Fw) (s : State) : (updFw f s).tempo = s.tempo := rfl
@[simp] theorem updFw_cfg (f : Fw → Fw) (s : State) : (updFw f s).cfg = s.cfg := rfl
@[simp] theorem updFw_staged (f : Fw → Fw) (s : State) : (updFw f s).staged = s.staged := rfl
@[simp] theorem updFw_commits (f : Fw → Fw) (s : State) : (updFw f s).commits = s.commits := rfl
@[simp] theorem updFw_outcomes (f : Fw → Fw) (s : State) : (updFw f s).outcomes = s.outcomes := rfl
@[simp] theorem updFw_nextPackageSeq (f : Fw → Fw) (s : State) : (updFw f s).nextPackageSeq = s.nextPackageSeq := rfl
@[simp] theorem updFw_nextOrder (f : Fw → Fw) (s : State) : (updFw f s).nextOrder = s.nextOrder := rfl
@[simp] theorem updFw_quar (f : Fw → Fw) (s : State) : (updFw f s).quar = s.quar := rfl
@[simp] theorem updFw_mgmt (f : Fw → Fw) (s : State) : (updFw f s).mgmt = s.mgmt := rfl
@[simp] theorem updFw_host (f : Fw → Fw) (s : State) : (updFw f s).host = s.host := rfl
@[simp] theorem updFw_hostMem (f : Fw → Fw) (s : State) : (updFw f s).hostMem = s.hostMem := rfl
@[simp] theorem updFw_ctrs (f : Fw → Fw) (s : State) : (updFw f s).ctrs = s.ctrs := rfl
@[simp] theorem updFw_toll (f : Fw → Fw) (s : State) : (updFw f s).toll = s.toll := rfl
@[simp] theorem updFw_glb (f : Fw → Fw) (s : State) : (updFw f s).glb = s.glb := rfl
@[simp] theorem updFw_macs (f : Fw → Fw) (s : State) : (updFw f s).macs = s.macs := rfl
@[simp] theorem updFw_fwd (f : Fw → Fw) (s : State) : (updFw f s).fwd = s.fwd := rfl
@[simp] theorem updFw_qdm (f : Fw → Fw) (s : State) : (updFw f s).qdm = s.qdm := rfl
@[simp] theorem updFw_sched (f : Fw → Fw) (s : State) : (updFw f s).sched = s.sched := rfl
@[simp] theorem updFw_fab (f : Fw → Fw) (s : State) : (updFw f s).fab = s.fab := rfl
@[simp] theorem updFw_bridge (f : Fw → Fw) (s : State) : (updFw f s).bridge = s.bridge := rfl
@[simp] theorem updFw_flexe (f : Fw → Fw) (s : State) : (updFw f s).flexe = s.flexe := rfl
@[simp] theorem updFw_mem (f : Fw → Fw) (s : State) : (updFw f s).mem = s.mem := rfl
@[simp] theorem updFw_crl (f : Fw → Fw) (s : State) : (updFw f s).crl = s.crl := rfl
@[simp] theorem updFw_bus (f : Fw → Fw) (s : State) : (updFw f s).bus = s.bus := rfl
@[simp] theorem updFw_prot (f : Fw → Fw) (s : State) : (updFw f s).prot = s.prot := rfl
@[simp] theorem updFw_fw (f : Fw → Fw) (s : State) : (updFw f s).fw = f s.fw := rfl
@[simp] theorem updFw_pwr (f : Fw → Fw) (s : State) : (updFw f s).pwr = s.pwr := rfl

@[simp] theorem updGlb_pending (f : Glb → Glb) (s : State) : (updGlb f s).pending = s.pending := rfl
@[simp] theorem updGlb_elapsed (f : Glb → Glb) (s : State) : (updGlb f s).elapsed = s.elapsed := rfl
@[simp] theorem updGlb_fresh (f : Glb → Glb) (s : State) : (updGlb f s).fresh = s.fresh := rfl
@[simp] theorem updGlb_out (f : Glb → Glb) (s : State) : (updGlb f s).out = s.out := rfl
@[simp] theorem updGlb_tempo (f : Glb → Glb) (s : State) : (updGlb f s).tempo = s.tempo := rfl
@[simp] theorem updGlb_cfg (f : Glb → Glb) (s : State) : (updGlb f s).cfg = s.cfg := rfl
@[simp] theorem updGlb_staged (f : Glb → Glb) (s : State) : (updGlb f s).staged = s.staged := rfl
@[simp] theorem updGlb_commits (f : Glb → Glb) (s : State) : (updGlb f s).commits = s.commits := rfl
@[simp] theorem updGlb_outcomes (f : Glb → Glb) (s : State) : (updGlb f s).outcomes = s.outcomes := rfl
@[simp] theorem updGlb_nextPackageSeq (f : Glb → Glb) (s : State) : (updGlb f s).nextPackageSeq = s.nextPackageSeq := rfl
@[simp] theorem updGlb_nextOrder (f : Glb → Glb) (s : State) : (updGlb f s).nextOrder = s.nextOrder := rfl
@[simp] theorem updGlb_quar (f : Glb → Glb) (s : State) : (updGlb f s).quar = s.quar := rfl
@[simp] theorem updGlb_mgmt (f : Glb → Glb) (s : State) : (updGlb f s).mgmt = s.mgmt := rfl
@[simp] theorem updGlb_host (f : Glb → Glb) (s : State) : (updGlb f s).host = s.host := rfl
@[simp] theorem updGlb_hostMem (f : Glb → Glb) (s : State) : (updGlb f s).hostMem = s.hostMem := rfl
@[simp] theorem updGlb_ctrs (f : Glb → Glb) (s : State) : (updGlb f s).ctrs = s.ctrs := rfl
@[simp] theorem updGlb_toll (f : Glb → Glb) (s : State) : (updGlb f s).toll = s.toll := rfl
@[simp] theorem updGlb_glb (f : Glb → Glb) (s : State) : (updGlb f s).glb = f s.glb := rfl
@[simp] theorem updGlb_macs (f : Glb → Glb) (s : State) : (updGlb f s).macs = s.macs := rfl
@[simp] theorem updGlb_fwd (f : Glb → Glb) (s : State) : (updGlb f s).fwd = s.fwd := rfl
@[simp] theorem updGlb_qdm (f : Glb → Glb) (s : State) : (updGlb f s).qdm = s.qdm := rfl
@[simp] theorem updGlb_sched (f : Glb → Glb) (s : State) : (updGlb f s).sched = s.sched := rfl
@[simp] theorem updGlb_fab (f : Glb → Glb) (s : State) : (updGlb f s).fab = s.fab := rfl
@[simp] theorem updGlb_bridge (f : Glb → Glb) (s : State) : (updGlb f s).bridge = s.bridge := rfl
@[simp] theorem updGlb_flexe (f : Glb → Glb) (s : State) : (updGlb f s).flexe = s.flexe := rfl
@[simp] theorem updGlb_mem (f : Glb → Glb) (s : State) : (updGlb f s).mem = s.mem := rfl
@[simp] theorem updGlb_crl (f : Glb → Glb) (s : State) : (updGlb f s).crl = s.crl := rfl
@[simp] theorem updGlb_bus (f : Glb → Glb) (s : State) : (updGlb f s).bus = s.bus := rfl
@[simp] theorem updGlb_prot (f : Glb → Glb) (s : State) : (updGlb f s).prot = s.prot := rfl
@[simp] theorem updGlb_fw (f : Glb → Glb) (s : State) : (updGlb f s).fw = s.fw := rfl
@[simp] theorem updGlb_pwr (f : Glb → Glb) (s : State) : (updGlb f s).pwr = s.pwr := rfl

@[simp] theorem setTempo_pending (f : Tempo → Tempo) (s : State) : (setTempo f s).pending = s.pending := rfl
@[simp] theorem setTempo_elapsed (f : Tempo → Tempo) (s : State) : (setTempo f s).elapsed = s.elapsed := rfl
@[simp] theorem setTempo_fresh (f : Tempo → Tempo) (s : State) : (setTempo f s).fresh = s.fresh := rfl
@[simp] theorem setTempo_out (f : Tempo → Tempo) (s : State) : (setTempo f s).out = s.out := rfl
@[simp] theorem setTempo_tempo (f : Tempo → Tempo) (s : State) : (setTempo f s).tempo = f s.tempo := rfl
@[simp] theorem setTempo_cfg (f : Tempo → Tempo) (s : State) : (setTempo f s).cfg = s.cfg := rfl
@[simp] theorem setTempo_staged (f : Tempo → Tempo) (s : State) : (setTempo f s).staged = s.staged := rfl
@[simp] theorem setTempo_commits (f : Tempo → Tempo) (s : State) : (setTempo f s).commits = s.commits := rfl
@[simp] theorem setTempo_outcomes (f : Tempo → Tempo) (s : State) : (setTempo f s).outcomes = s.outcomes := rfl
@[simp] theorem setTempo_nextPackageSeq (f : Tempo → Tempo) (s : State) : (setTempo f s).nextPackageSeq = s.nextPackageSeq := rfl
@[simp] theorem setTempo_nextOrder (f : Tempo → Tempo) (s : State) : (setTempo f s).nextOrder = s.nextOrder := rfl
@[simp] theorem setTempo_quar (f : Tempo → Tempo) (s : State) : (setTempo f s).quar = s.quar := rfl
@[simp] theorem setTempo_mgmt (f : Tempo → Tempo) (s : State) : (setTempo f s).mgmt = s.mgmt := rfl
@[simp] theorem setTempo_host (f : Tempo → Tempo) (s : State) : (setTempo f s).host = s.host := rfl
@[simp] theorem setTempo_hostMem (f : Tempo → Tempo) (s : State) : (setTempo f s).hostMem = s.hostMem := rfl
@[simp] theorem setTempo_ctrs (f : Tempo → Tempo) (s : State) : (setTempo f s).ctrs = s.ctrs := rfl
@[simp] theorem setTempo_toll (f : Tempo → Tempo) (s : State) : (setTempo f s).toll = s.toll := rfl
@[simp] theorem setTempo_glb (f : Tempo → Tempo) (s : State) : (setTempo f s).glb = s.glb := rfl
@[simp] theorem setTempo_macs (f : Tempo → Tempo) (s : State) : (setTempo f s).macs = s.macs := rfl
@[simp] theorem setTempo_fwd (f : Tempo → Tempo) (s : State) : (setTempo f s).fwd = s.fwd := rfl
@[simp] theorem setTempo_qdm (f : Tempo → Tempo) (s : State) : (setTempo f s).qdm = s.qdm := rfl
@[simp] theorem setTempo_sched (f : Tempo → Tempo) (s : State) : (setTempo f s).sched = s.sched := rfl
@[simp] theorem setTempo_fab (f : Tempo → Tempo) (s : State) : (setTempo f s).fab = s.fab := rfl
@[simp] theorem setTempo_bridge (f : Tempo → Tempo) (s : State) : (setTempo f s).bridge = s.bridge := rfl
@[simp] theorem setTempo_flexe (f : Tempo → Tempo) (s : State) : (setTempo f s).flexe = s.flexe := rfl
@[simp] theorem setTempo_mem (f : Tempo → Tempo) (s : State) : (setTempo f s).mem = s.mem := rfl
@[simp] theorem setTempo_crl (f : Tempo → Tempo) (s : State) : (setTempo f s).crl = s.crl := rfl
@[simp] theorem setTempo_bus (f : Tempo → Tempo) (s : State) : (setTempo f s).bus = s.bus := rfl
@[simp] theorem setTempo_prot (f : Tempo → Tempo) (s : State) : (setTempo f s).prot = s.prot := rfl
@[simp] theorem setTempo_fw (f : Tempo → Tempo) (s : State) : (setTempo f s).fw = s.fw := rfl
@[simp] theorem setTempo_pwr (f : Tempo → Tempo) (s : State) : (setTempo f s).pwr = s.pwr := rfl

@[simp] theorem updDdr_pending (n : Nat) (f : DdrChan → DdrChan) (s : State) : (updDdr n f s).pending = s.pending := rfl
@[simp] theorem updDdr_elapsed (n : Nat) (f : DdrChan → DdrChan) (s : State) : (updDdr n f s).elapsed = s.elapsed := rfl
@[simp] theorem updDdr_fresh (n : Nat) (f : DdrChan → DdrChan) (s : State) : (updDdr n f s).fresh = s.fresh := rfl
@[simp] theorem updDdr_out (n : Nat) (f : DdrChan → DdrChan) (s : State) : (updDdr n f s).out = s.out := rfl
@[simp] theorem updDdr_tempo (n : Nat) (f : DdrChan → DdrChan) (s : State) : (updDdr n f s).tempo = s.tempo := rfl
@[simp] theorem updDdr_cfg (n : Nat) (f : DdrChan → DdrChan) (s : State) : (updDdr n f s).cfg = s.cfg := rfl
@[simp] theorem updDdr_staged (n : Nat) (f : DdrChan → DdrChan) (s : State) : (updDdr n f s).staged = s.staged := rfl
@[simp] theorem updDdr_commits (n : Nat) (f : DdrChan → DdrChan) (s : State) : (updDdr n f s).commits = s.commits := rfl
@[simp] theorem updDdr_outcomes (n : Nat) (f : DdrChan → DdrChan) (s : State) : (updDdr n f s).outcomes = s.outcomes := rfl
@[simp] theorem updDdr_nextPackageSeq (n : Nat) (f : DdrChan → DdrChan) (s : State) : (updDdr n f s).nextPackageSeq = s.nextPackageSeq := rfl
@[simp] theorem updDdr_nextOrder (n : Nat) (f : DdrChan → DdrChan) (s : State) : (updDdr n f s).nextOrder = s.nextOrder := rfl
@[simp] theorem updDdr_quar (n : Nat) (f : DdrChan → DdrChan) (s : State) : (updDdr n f s).quar = s.quar := rfl
@[simp] theorem updDdr_mgmt (n : Nat) (f : DdrChan → DdrChan) (s : State) : (updDdr n f s).mgmt = s.mgmt := rfl
@[simp] theorem updDdr_host (n : Nat) (f : DdrChan → DdrChan) (s : State) : (updDdr n f s).host = s.host := rfl
@[simp] theorem updDdr_hostMem (n : Nat) (f : DdrChan → DdrChan) (s : State) : (updDdr n f s).hostMem = s.hostMem := rfl
@[simp] theorem updDdr_ctrs (n : Nat) (f : DdrChan → DdrChan) (s : State) : (updDdr n f s).ctrs = s.ctrs := rfl
@[simp] theorem updDdr_toll (n : Nat) (f : DdrChan → DdrChan) (s : State) : (updDdr n f s).toll = s.toll := rfl
@[simp] theorem updDdr_glb (n : Nat) (f : DdrChan → DdrChan) (s : State) : (updDdr n f s).glb = s.glb := rfl
@[simp] theorem updDdr_macs (n : Nat) (f : DdrChan → DdrChan) (s : State) : (updDdr n f s).macs = s.macs := rfl
@[simp] theorem updDdr_fwd (n : Nat) (f : DdrChan → DdrChan) (s : State) : (updDdr n f s).fwd = s.fwd := rfl
@[simp] theorem updDdr_qdm (n : Nat) (f : DdrChan → DdrChan) (s : State) : (updDdr n f s).qdm = s.qdm := rfl
@[simp] theorem updDdr_sched (n : Nat) (f : DdrChan → DdrChan) (s : State) : (updDdr n f s).sched = s.sched := rfl
@[simp] theorem updDdr_fab (n : Nat) (f : DdrChan → DdrChan) (s : State) : (updDdr n f s).fab = s.fab := rfl
@[simp] theorem updDdr_bridge (n : Nat) (f : DdrChan → DdrChan) (s : State) : (updDdr n f s).bridge = s.bridge := rfl
@[simp] theorem updDdr_flexe (n : Nat) (f : DdrChan → DdrChan) (s : State) : (updDdr n f s).flexe = s.flexe := rfl
@[simp] theorem updDdr_crl (n : Nat) (f : DdrChan → DdrChan) (s : State) : (updDdr n f s).crl = s.crl := rfl
@[simp] theorem updDdr_bus (n : Nat) (f : DdrChan → DdrChan) (s : State) : (updDdr n f s).bus = s.bus := rfl
@[simp] theorem updDdr_prot (n : Nat) (f : DdrChan → DdrChan) (s : State) : (updDdr n f s).prot = s.prot := rfl
@[simp] theorem updDdr_fw (n : Nat) (f : DdrChan → DdrChan) (s : State) : (updDdr n f s).fw = s.fw := rfl
@[simp] theorem updDdr_pwr (n : Nat) (f : DdrChan → DdrChan) (s : State) : (updDdr n f s).pwr = s.pwr := rfl

@[simp] theorem updLane_pending (n : Nat) (f : FabLane → FabLane) (s : State) : (updLane n f s).pending = s.pending := rfl
@[simp] theorem updLane_elapsed (n : Nat) (f : FabLane → FabLane) (s : State) : (updLane n f s).elapsed = s.elapsed := rfl
@[simp] theorem updLane_fresh (n : Nat) (f : FabLane → FabLane) (s : State) : (updLane n f s).fresh = s.fresh := rfl
@[simp] theorem updLane_out (n : Nat) (f : FabLane → FabLane) (s : State) : (updLane n f s).out = s.out := rfl
@[simp] theorem updLane_tempo (n : Nat) (f : FabLane → FabLane) (s : State) : (updLane n f s).tempo = s.tempo := rfl
@[simp] theorem updLane_cfg (n : Nat) (f : FabLane → FabLane) (s : State) : (updLane n f s).cfg = s.cfg := rfl
@[simp] theorem updLane_staged (n : Nat) (f : FabLane → FabLane) (s : State) : (updLane n f s).staged = s.staged := rfl
@[simp] theorem updLane_commits (n : Nat) (f : FabLane → FabLane) (s : State) : (updLane n f s).commits = s.commits := rfl
@[simp] theorem updLane_outcomes (n : Nat) (f : FabLane → FabLane) (s : State) : (updLane n f s).outcomes = s.outcomes := rfl
@[simp] theorem updLane_nextPackageSeq (n : Nat) (f : FabLane → FabLane) (s : State) : (updLane n f s).nextPackageSeq = s.nextPackageSeq := rfl
@[simp] theorem updLane_nextOrder (n : Nat) (f : FabLane → FabLane) (s : State) : (updLane n f s).nextOrder = s.nextOrder := rfl
@[simp] theorem updLane_quar (n : Nat) (f : FabLane → FabLane) (s : State) : (updLane n f s).quar = s.quar := rfl
@[simp] theorem updLane_mgmt (n : Nat) (f : FabLane → FabLane) (s : State) : (updLane n f s).mgmt = s.mgmt := rfl
@[simp] theorem updLane_host (n : Nat) (f : FabLane → FabLane) (s : State) : (updLane n f s).host = s.host := rfl
@[simp] theorem updLane_hostMem (n : Nat) (f : FabLane → FabLane) (s : State) : (updLane n f s).hostMem = s.hostMem := rfl
@[simp] theorem updLane_ctrs (n : Nat) (f : FabLane → FabLane) (s : State) : (updLane n f s).ctrs = s.ctrs := rfl
@[simp] theorem updLane_toll (n : Nat) (f : FabLane → FabLane) (s : State) : (updLane n f s).toll = s.toll := rfl
@[simp] theorem updLane_glb (n : Nat) (f : FabLane → FabLane) (s : State) : (updLane n f s).glb = s.glb := rfl
@[simp] theorem updLane_macs (n : Nat) (f : FabLane → FabLane) (s : State) : (updLane n f s).macs = s.macs := rfl
@[simp] theorem updLane_fwd (n : Nat) (f : FabLane → FabLane) (s : State) : (updLane n f s).fwd = s.fwd := rfl
@[simp] theorem updLane_qdm (n : Nat) (f : FabLane → FabLane) (s : State) : (updLane n f s).qdm = s.qdm := rfl
@[simp] theorem updLane_sched (n : Nat) (f : FabLane → FabLane) (s : State) : (updLane n f s).sched = s.sched := rfl
@[simp] theorem updLane_bridge (n : Nat) (f : FabLane → FabLane) (s : State) : (updLane n f s).bridge = s.bridge := rfl
@[simp] theorem updLane_flexe (n : Nat) (f : FabLane → FabLane) (s : State) : (updLane n f s).flexe = s.flexe := rfl
@[simp] theorem updLane_mem (n : Nat) (f : FabLane → FabLane) (s : State) : (updLane n f s).mem = s.mem := rfl
@[simp] theorem updLane_crl (n : Nat) (f : FabLane → FabLane) (s : State) : (updLane n f s).crl = s.crl := rfl
@[simp] theorem updLane_bus (n : Nat) (f : FabLane → FabLane) (s : State) : (updLane n f s).bus = s.bus := rfl
@[simp] theorem updLane_prot (n : Nat) (f : FabLane → FabLane) (s : State) : (updLane n f s).prot = s.prot := rfl
@[simp] theorem updLane_fw (n : Nat) (f : FabLane → FabLane) (s : State) : (updLane n f s).fw = s.fw := rfl
@[simp] theorem updLane_pwr (n : Nat) (f : FabLane → FabLane) (s : State) : (updLane n f s).pwr = s.pwr := rfl

@[simp] theorem updLine_pending (p : Nat) (f : FlxLine → FlxLine) (s : State) : (updLine p f s).pending = s.pending := rfl
@[simp] theorem updLine_elapsed (p : Nat) (f : FlxLine → FlxLine) (s : State) : (updLine p f s).elapsed = s.elapsed := rfl
@[simp] theorem updLine_fresh (p : Nat) (f : FlxLine → FlxLine) (s : State) : (updLine p f s).fresh = s.fresh := rfl
@[simp] theorem updLine_out (p : Nat) (f : FlxLine → FlxLine) (s : State) : (updLine p f s).out = s.out := rfl
@[simp] theorem updLine_tempo (p : Nat) (f : FlxLine → FlxLine) (s : State) : (updLine p f s).tempo = s.tempo := rfl
@[simp] theorem updLine_cfg (p : Nat) (f : FlxLine → FlxLine) (s : State) : (updLine p f s).cfg = s.cfg := rfl
@[simp] theorem updLine_staged (p : Nat) (f : FlxLine → FlxLine) (s : State) : (updLine p f s).staged = s.staged := rfl
@[simp] theorem updLine_commits (p : Nat) (f : FlxLine → FlxLine) (s : State) : (updLine p f s).commits = s.commits := rfl
@[simp] theorem updLine_outcomes (p : Nat) (f : FlxLine → FlxLine) (s : State) : (updLine p f s).outcomes = s.outcomes := rfl
@[simp] theorem updLine_nextPackageSeq (p : Nat) (f : FlxLine → FlxLine) (s : State) : (updLine p f s).nextPackageSeq = s.nextPackageSeq := rfl
@[simp] theorem updLine_nextOrder (p : Nat) (f : FlxLine → FlxLine) (s : State) : (updLine p f s).nextOrder = s.nextOrder := rfl
@[simp] theorem updLine_quar (p : Nat) (f : FlxLine → FlxLine) (s : State) : (updLine p f s).quar = s.quar := rfl
@[simp] theorem updLine_mgmt (p : Nat) (f : FlxLine → FlxLine) (s : State) : (updLine p f s).mgmt = s.mgmt := rfl
@[simp] theorem updLine_host (p : Nat) (f : FlxLine → FlxLine) (s : State) : (updLine p f s).host = s.host := rfl
@[simp] theorem updLine_hostMem (p : Nat) (f : FlxLine → FlxLine) (s : State) : (updLine p f s).hostMem = s.hostMem := rfl
@[simp] theorem updLine_ctrs (p : Nat) (f : FlxLine → FlxLine) (s : State) : (updLine p f s).ctrs = s.ctrs := rfl
@[simp] theorem updLine_toll (p : Nat) (f : FlxLine → FlxLine) (s : State) : (updLine p f s).toll = s.toll := rfl
@[simp] theorem updLine_glb (p : Nat) (f : FlxLine → FlxLine) (s : State) : (updLine p f s).glb = s.glb := rfl
@[simp] theorem updLine_macs (p : Nat) (f : FlxLine → FlxLine) (s : State) : (updLine p f s).macs = s.macs := rfl
@[simp] theorem updLine_fwd (p : Nat) (f : FlxLine → FlxLine) (s : State) : (updLine p f s).fwd = s.fwd := rfl
@[simp] theorem updLine_qdm (p : Nat) (f : FlxLine → FlxLine) (s : State) : (updLine p f s).qdm = s.qdm := rfl
@[simp] theorem updLine_sched (p : Nat) (f : FlxLine → FlxLine) (s : State) : (updLine p f s).sched = s.sched := rfl
@[simp] theorem updLine_fab (p : Nat) (f : FlxLine → FlxLine) (s : State) : (updLine p f s).fab = s.fab := rfl
@[simp] theorem updLine_bridge (p : Nat) (f : FlxLine → FlxLine) (s : State) : (updLine p f s).bridge = s.bridge := rfl
@[simp] theorem updLine_mem (p : Nat) (f : FlxLine → FlxLine) (s : State) : (updLine p f s).mem = s.mem := rfl
@[simp] theorem updLine_crl (p : Nat) (f : FlxLine → FlxLine) (s : State) : (updLine p f s).crl = s.crl := rfl
@[simp] theorem updLine_bus (p : Nat) (f : FlxLine → FlxLine) (s : State) : (updLine p f s).bus = s.bus := rfl
@[simp] theorem updLine_prot (p : Nat) (f : FlxLine → FlxLine) (s : State) : (updLine p f s).prot = s.prot := rfl
@[simp] theorem updLine_fw (p : Nat) (f : FlxLine → FlxLine) (s : State) : (updLine p f s).fw = s.fw := rfl
@[simp] theorem updLine_pwr (p : Nat) (f : FlxLine → FlxLine) (s : State) : (updLine p f s).pwr = s.pwr := rfl

@[simp] theorem updGroup_pending (g : Nat) (f : FlxGroup → FlxGroup) (s : State) : (updGroup g f s).pending = s.pending := rfl
@[simp] theorem updGroup_elapsed (g : Nat) (f : FlxGroup → FlxGroup) (s : State) : (updGroup g f s).elapsed = s.elapsed := rfl
@[simp] theorem updGroup_fresh (g : Nat) (f : FlxGroup → FlxGroup) (s : State) : (updGroup g f s).fresh = s.fresh := rfl
@[simp] theorem updGroup_out (g : Nat) (f : FlxGroup → FlxGroup) (s : State) : (updGroup g f s).out = s.out := rfl
@[simp] theorem updGroup_tempo (g : Nat) (f : FlxGroup → FlxGroup) (s : State) : (updGroup g f s).tempo = s.tempo := rfl
@[simp] theorem updGroup_cfg (g : Nat) (f : FlxGroup → FlxGroup) (s : State) : (updGroup g f s).cfg = s.cfg := rfl
@[simp] theorem updGroup_staged (g : Nat) (f : FlxGroup → FlxGroup) (s : State) : (updGroup g f s).staged = s.staged := rfl
@[simp] theorem updGroup_commits (g : Nat) (f : FlxGroup → FlxGroup) (s : State) : (updGroup g f s).commits = s.commits := rfl
@[simp] theorem updGroup_outcomes (g : Nat) (f : FlxGroup → FlxGroup) (s : State) : (updGroup g f s).outcomes = s.outcomes := rfl
@[simp] theorem updGroup_nextPackageSeq (g : Nat) (f : FlxGroup → FlxGroup) (s : State) : (updGroup g f s).nextPackageSeq = s.nextPackageSeq := rfl
@[simp] theorem updGroup_nextOrder (g : Nat) (f : FlxGroup → FlxGroup) (s : State) : (updGroup g f s).nextOrder = s.nextOrder := rfl
@[simp] theorem updGroup_quar (g : Nat) (f : FlxGroup → FlxGroup) (s : State) : (updGroup g f s).quar = s.quar := rfl
@[simp] theorem updGroup_mgmt (g : Nat) (f : FlxGroup → FlxGroup) (s : State) : (updGroup g f s).mgmt = s.mgmt := rfl
@[simp] theorem updGroup_host (g : Nat) (f : FlxGroup → FlxGroup) (s : State) : (updGroup g f s).host = s.host := rfl
@[simp] theorem updGroup_hostMem (g : Nat) (f : FlxGroup → FlxGroup) (s : State) : (updGroup g f s).hostMem = s.hostMem := rfl
@[simp] theorem updGroup_ctrs (g : Nat) (f : FlxGroup → FlxGroup) (s : State) : (updGroup g f s).ctrs = s.ctrs := rfl
@[simp] theorem updGroup_toll (g : Nat) (f : FlxGroup → FlxGroup) (s : State) : (updGroup g f s).toll = s.toll := rfl
@[simp] theorem updGroup_glb (g : Nat) (f : FlxGroup → FlxGroup) (s : State) : (updGroup g f s).glb = s.glb := rfl
@[simp] theorem updGroup_macs (g : Nat) (f : FlxGroup → FlxGroup) (s : State) : (updGroup g f s).macs = s.macs := rfl
@[simp] theorem updGroup_fwd (g : Nat) (f : FlxGroup → FlxGroup) (s : State) : (updGroup g f s).fwd = s.fwd := rfl
@[simp] theorem updGroup_qdm (g : Nat) (f : FlxGroup → FlxGroup) (s : State) : (updGroup g f s).qdm = s.qdm := rfl
@[simp] theorem updGroup_sched (g : Nat) (f : FlxGroup → FlxGroup) (s : State) : (updGroup g f s).sched = s.sched := rfl
@[simp] theorem updGroup_fab (g : Nat) (f : FlxGroup → FlxGroup) (s : State) : (updGroup g f s).fab = s.fab := rfl
@[simp] theorem updGroup_bridge (g : Nat) (f : FlxGroup → FlxGroup) (s : State) : (updGroup g f s).bridge = s.bridge := rfl
@[simp] theorem updGroup_mem (g : Nat) (f : FlxGroup → FlxGroup) (s : State) : (updGroup g f s).mem = s.mem := rfl
@[simp] theorem updGroup_crl (g : Nat) (f : FlxGroup → FlxGroup) (s : State) : (updGroup g f s).crl = s.crl := rfl
@[simp] theorem updGroup_bus (g : Nat) (f : FlxGroup → FlxGroup) (s : State) : (updGroup g f s).bus = s.bus := rfl
@[simp] theorem updGroup_prot (g : Nat) (f : FlxGroup → FlxGroup) (s : State) : (updGroup g f s).prot = s.prot := rfl
@[simp] theorem updGroup_fw (g : Nat) (f : FlxGroup → FlxGroup) (s : State) : (updGroup g f s).fw = s.fw := rfl
@[simp] theorem updGroup_pwr (g : Nat) (f : FlxGroup → FlxGroup) (s : State) : (updGroup g f s).pwr = s.pwr := rfl

@[simp] theorem setVoq_pending (v : Nat) (q : Voq) (s : State) : (setVoq v q s).pending = s.pending := rfl
@[simp] theorem setVoq_elapsed (v : Nat) (q : Voq) (s : State) : (setVoq v q s).elapsed = s.elapsed := rfl
@[simp] theorem setVoq_fresh (v : Nat) (q : Voq) (s : State) : (setVoq v q s).fresh = s.fresh := rfl
@[simp] theorem setVoq_out (v : Nat) (q : Voq) (s : State) : (setVoq v q s).out = s.out := rfl
@[simp] theorem setVoq_tempo (v : Nat) (q : Voq) (s : State) : (setVoq v q s).tempo = s.tempo := rfl
@[simp] theorem setVoq_cfg (v : Nat) (q : Voq) (s : State) : (setVoq v q s).cfg = s.cfg := rfl
@[simp] theorem setVoq_staged (v : Nat) (q : Voq) (s : State) : (setVoq v q s).staged = s.staged := rfl
@[simp] theorem setVoq_commits (v : Nat) (q : Voq) (s : State) : (setVoq v q s).commits = s.commits := rfl
@[simp] theorem setVoq_outcomes (v : Nat) (q : Voq) (s : State) : (setVoq v q s).outcomes = s.outcomes := rfl
@[simp] theorem setVoq_nextPackageSeq (v : Nat) (q : Voq) (s : State) : (setVoq v q s).nextPackageSeq = s.nextPackageSeq := rfl
@[simp] theorem setVoq_nextOrder (v : Nat) (q : Voq) (s : State) : (setVoq v q s).nextOrder = s.nextOrder := rfl
@[simp] theorem setVoq_quar (v : Nat) (q : Voq) (s : State) : (setVoq v q s).quar = s.quar := rfl
@[simp] theorem setVoq_mgmt (v : Nat) (q : Voq) (s : State) : (setVoq v q s).mgmt = s.mgmt := rfl
@[simp] theorem setVoq_host (v : Nat) (q : Voq) (s : State) : (setVoq v q s).host = s.host := rfl
@[simp] theorem setVoq_hostMem (v : Nat) (q : Voq) (s : State) : (setVoq v q s).hostMem = s.hostMem := rfl
@[simp] theorem setVoq_ctrs (v : Nat) (q : Voq) (s : State) : (setVoq v q s).ctrs = s.ctrs := rfl
@[simp] theorem setVoq_toll (v : Nat) (q : Voq) (s : State) : (setVoq v q s).toll = s.toll := rfl
@[simp] theorem setVoq_glb (v : Nat) (q : Voq) (s : State) : (setVoq v q s).glb = s.glb := rfl
@[simp] theorem setVoq_macs (v : Nat) (q : Voq) (s : State) : (setVoq v q s).macs = s.macs := rfl
@[simp] theorem setVoq_fwd (v : Nat) (q : Voq) (s : State) : (setVoq v q s).fwd = s.fwd := rfl
@[simp] theorem setVoq_sched (v : Nat) (q : Voq) (s : State) : (setVoq v q s).sched = s.sched := rfl
@[simp] theorem setVoq_fab (v : Nat) (q : Voq) (s : State) : (setVoq v q s).fab = s.fab := rfl
@[simp] theorem setVoq_bridge (v : Nat) (q : Voq) (s : State) : (setVoq v q s).bridge = s.bridge := rfl
@[simp] theorem setVoq_flexe (v : Nat) (q : Voq) (s : State) : (setVoq v q s).flexe = s.flexe := rfl
@[simp] theorem setVoq_mem (v : Nat) (q : Voq) (s : State) : (setVoq v q s).mem = s.mem := rfl
@[simp] theorem setVoq_crl (v : Nat) (q : Voq) (s : State) : (setVoq v q s).crl = s.crl := rfl
@[simp] theorem setVoq_bus (v : Nat) (q : Voq) (s : State) : (setVoq v q s).bus = s.bus := rfl
@[simp] theorem setVoq_prot (v : Nat) (q : Voq) (s : State) : (setVoq v q s).prot = s.prot := rfl
@[simp] theorem setVoq_fw (v : Nat) (q : Voq) (s : State) : (setVoq v q s).fw = s.fw := rfl
@[simp] theorem setVoq_pwr (v : Nat) (q : Voq) (s : State) : (setVoq v q s).pwr = s.pwr := rfl

@[simp] theorem updVoq_pending (v : Nat) (f : Voq → Voq) (s : State) : (updVoq v f s).pending = s.pending := rfl
@[simp] theorem updVoq_elapsed (v : Nat) (f : Voq → Voq) (s : State) : (updVoq v f s).elapsed = s.elapsed := rfl
@[simp] theorem updVoq_fresh (v : Nat) (f : Voq → Voq) (s : State) : (updVoq v f s).fresh = s.fresh := rfl
@[simp] theorem updVoq_out (v : Nat) (f : Voq → Voq) (s : State) : (updVoq v f s).out = s.out := rfl
@[simp] theorem updVoq_tempo (v : Nat) (f : Voq → Voq) (s : State) : (updVoq v f s).tempo = s.tempo := rfl
@[simp] theorem updVoq_cfg (v : Nat) (f : Voq → Voq) (s : State) : (updVoq v f s).cfg = s.cfg := rfl
@[simp] theorem updVoq_staged (v : Nat) (f : Voq → Voq) (s : State) : (updVoq v f s).staged = s.staged := rfl
@[simp] theorem updVoq_commits (v : Nat) (f : Voq → Voq) (s : State) : (updVoq v f s).commits = s.commits := rfl
@[simp] theorem updVoq_outcomes (v : Nat) (f : Voq → Voq) (s : State) : (updVoq v f s).outcomes = s.outcomes := rfl
@[simp] theorem updVoq_nextPackageSeq (v : Nat) (f : Voq → Voq) (s : State) : (updVoq v f s).nextPackageSeq = s.nextPackageSeq := rfl
@[simp] theorem updVoq_nextOrder (v : Nat) (f : Voq → Voq) (s : State) : (updVoq v f s).nextOrder = s.nextOrder := rfl
@[simp] theorem updVoq_quar (v : Nat) (f : Voq → Voq) (s : State) : (updVoq v f s).quar = s.quar := rfl
@[simp] theorem updVoq_mgmt (v : Nat) (f : Voq → Voq) (s : State) : (updVoq v f s).mgmt = s.mgmt := rfl
@[simp] theorem updVoq_host (v : Nat) (f : Voq → Voq) (s : State) : (updVoq v f s).host = s.host := rfl
@[simp] theorem updVoq_hostMem (v : Nat) (f : Voq → Voq) (s : State) : (updVoq v f s).hostMem = s.hostMem := rfl
@[simp] theorem updVoq_ctrs (v : Nat) (f : Voq → Voq) (s : State) : (updVoq v f s).ctrs = s.ctrs := rfl
@[simp] theorem updVoq_toll (v : Nat) (f : Voq → Voq) (s : State) : (updVoq v f s).toll = s.toll := rfl
@[simp] theorem updVoq_glb (v : Nat) (f : Voq → Voq) (s : State) : (updVoq v f s).glb = s.glb := rfl
@[simp] theorem updVoq_macs (v : Nat) (f : Voq → Voq) (s : State) : (updVoq v f s).macs = s.macs := rfl
@[simp] theorem updVoq_fwd (v : Nat) (f : Voq → Voq) (s : State) : (updVoq v f s).fwd = s.fwd := rfl
@[simp] theorem updVoq_sched (v : Nat) (f : Voq → Voq) (s : State) : (updVoq v f s).sched = s.sched := rfl
@[simp] theorem updVoq_fab (v : Nat) (f : Voq → Voq) (s : State) : (updVoq v f s).fab = s.fab := rfl
@[simp] theorem updVoq_bridge (v : Nat) (f : Voq → Voq) (s : State) : (updVoq v f s).bridge = s.bridge := rfl
@[simp] theorem updVoq_flexe (v : Nat) (f : Voq → Voq) (s : State) : (updVoq v f s).flexe = s.flexe := rfl
@[simp] theorem updVoq_mem (v : Nat) (f : Voq → Voq) (s : State) : (updVoq v f s).mem = s.mem := rfl
@[simp] theorem updVoq_crl (v : Nat) (f : Voq → Voq) (s : State) : (updVoq v f s).crl = s.crl := rfl
@[simp] theorem updVoq_bus (v : Nat) (f : Voq → Voq) (s : State) : (updVoq v f s).bus = s.bus := rfl
@[simp] theorem updVoq_prot (v : Nat) (f : Voq → Voq) (s : State) : (updVoq v f s).prot = s.prot := rfl
@[simp] theorem updVoq_fw (v : Nat) (f : Voq → Voq) (s : State) : (updVoq v f s).fw = s.fw := rfl
@[simp] theorem updVoq_pwr (v : Nat) (f : Voq → Voq) (s : State) : (updVoq v f s).pwr = s.pwr := rfl

@[simp] theorem setStream_pending (k : Nat) (x : Stream) (s : State) : (setStream k x s).pending = s.pending := rfl
@[simp] theorem setStream_elapsed (k : Nat) (x : Stream) (s : State) : (setStream k x s).elapsed = s.elapsed := rfl
@[simp] theorem setStream_fresh (k : Nat) (x : Stream) (s : State) : (setStream k x s).fresh = s.fresh := rfl
@[simp] theorem setStream_out (k : Nat) (x : Stream) (s : State) : (setStream k x s).out = s.out := rfl
@[simp] theorem setStream_tempo (k : Nat) (x : Stream) (s : State) : (setStream k x s).tempo = s.tempo := rfl
@[simp] theorem setStream_cfg (k : Nat) (x : Stream) (s : State) : (setStream k x s).cfg = s.cfg := rfl
@[simp] theorem setStream_staged (k : Nat) (x : Stream) (s : State) : (setStream k x s).staged = s.staged := rfl
@[simp] theorem setStream_commits (k : Nat) (x : Stream) (s : State) : (setStream k x s).commits = s.commits := rfl
@[simp] theorem setStream_outcomes (k : Nat) (x : Stream) (s : State) : (setStream k x s).outcomes = s.outcomes := rfl
@[simp] theorem setStream_nextPackageSeq (k : Nat) (x : Stream) (s : State) : (setStream k x s).nextPackageSeq = s.nextPackageSeq := rfl
@[simp] theorem setStream_nextOrder (k : Nat) (x : Stream) (s : State) : (setStream k x s).nextOrder = s.nextOrder := rfl
@[simp] theorem setStream_quar (k : Nat) (x : Stream) (s : State) : (setStream k x s).quar = s.quar := rfl
@[simp] theorem setStream_mgmt (k : Nat) (x : Stream) (s : State) : (setStream k x s).mgmt = s.mgmt := rfl
@[simp] theorem setStream_host (k : Nat) (x : Stream) (s : State) : (setStream k x s).host = s.host := rfl
@[simp] theorem setStream_hostMem (k : Nat) (x : Stream) (s : State) : (setStream k x s).hostMem = s.hostMem := rfl
@[simp] theorem setStream_ctrs (k : Nat) (x : Stream) (s : State) : (setStream k x s).ctrs = s.ctrs := rfl
@[simp] theorem setStream_toll (k : Nat) (x : Stream) (s : State) : (setStream k x s).toll = s.toll := rfl
@[simp] theorem setStream_glb (k : Nat) (x : Stream) (s : State) : (setStream k x s).glb = s.glb := rfl
@[simp] theorem setStream_macs (k : Nat) (x : Stream) (s : State) : (setStream k x s).macs = s.macs := rfl
@[simp] theorem setStream_fwd (k : Nat) (x : Stream) (s : State) : (setStream k x s).fwd = s.fwd := rfl
@[simp] theorem setStream_qdm (k : Nat) (x : Stream) (s : State) : (setStream k x s).qdm = s.qdm := rfl
@[simp] theorem setStream_sched (k : Nat) (x : Stream) (s : State) : (setStream k x s).sched = s.sched := rfl
@[simp] theorem setStream_bridge (k : Nat) (x : Stream) (s : State) : (setStream k x s).bridge = s.bridge := rfl
@[simp] theorem setStream_flexe (k : Nat) (x : Stream) (s : State) : (setStream k x s).flexe = s.flexe := rfl
@[simp] theorem setStream_mem (k : Nat) (x : Stream) (s : State) : (setStream k x s).mem = s.mem := rfl
@[simp] theorem setStream_crl (k : Nat) (x : Stream) (s : State) : (setStream k x s).crl = s.crl := rfl
@[simp] theorem setStream_bus (k : Nat) (x : Stream) (s : State) : (setStream k x s).bus = s.bus := rfl
@[simp] theorem setStream_prot (k : Nat) (x : Stream) (s : State) : (setStream k x s).prot = s.prot := rfl
@[simp] theorem setStream_fw (k : Nat) (x : Stream) (s : State) : (setStream k x s).fw = s.fw := rfl
@[simp] theorem setStream_pwr (k : Nat) (x : Stream) (s : State) : (setStream k x s).pwr = s.pwr := rfl

@[simp] theorem setLeaf_pending (l : Nat) (q : List Pkt) (s : State) : (setLeaf l q s).pending = s.pending := rfl
@[simp] theorem setLeaf_elapsed (l : Nat) (q : List Pkt) (s : State) : (setLeaf l q s).elapsed = s.elapsed := rfl
@[simp] theorem setLeaf_fresh (l : Nat) (q : List Pkt) (s : State) : (setLeaf l q s).fresh = s.fresh := rfl
@[simp] theorem setLeaf_out (l : Nat) (q : List Pkt) (s : State) : (setLeaf l q s).out = s.out := rfl
@[simp] theorem setLeaf_tempo (l : Nat) (q : List Pkt) (s : State) : (setLeaf l q s).tempo = s.tempo := rfl
@[simp] theorem setLeaf_cfg (l : Nat) (q : List Pkt) (s : State) : (setLeaf l q s).cfg = s.cfg := rfl
@[simp] theorem setLeaf_staged (l : Nat) (q : List Pkt) (s : State) : (setLeaf l q s).staged = s.staged := rfl
@[simp] theorem setLeaf_commits (l : Nat) (q : List Pkt) (s : State) : (setLeaf l q s).commits = s.commits := rfl
@[simp] theorem setLeaf_outcomes (l : Nat) (q : List Pkt) (s : State) : (setLeaf l q s).outcomes = s.outcomes := rfl
@[simp] theorem setLeaf_nextPackageSeq (l : Nat) (q : List Pkt) (s : State) : (setLeaf l q s).nextPackageSeq = s.nextPackageSeq := rfl
@[simp] theorem setLeaf_nextOrder (l : Nat) (q : List Pkt) (s : State) : (setLeaf l q s).nextOrder = s.nextOrder := rfl
@[simp] theorem setLeaf_quar (l : Nat) (q : List Pkt) (s : State) : (setLeaf l q s).quar = s.quar := rfl
@[simp] theorem setLeaf_mgmt (l : Nat) (q : List Pkt) (s : State) : (setLeaf l q s).mgmt = s.mgmt := rfl
@[simp] theorem setLeaf_host (l : Nat) (q : List Pkt) (s : State) : (setLeaf l q s).host = s.host := rfl
@[simp] theorem setLeaf_hostMem (l : Nat) (q : List Pkt) (s : State) : (setLeaf l q s).hostMem = s.hostMem := rfl
@[simp] theorem setLeaf_ctrs (l : Nat) (q : List Pkt) (s : State) : (setLeaf l q s).ctrs = s.ctrs := rfl
@[simp] theorem setLeaf_toll (l : Nat) (q : List Pkt) (s : State) : (setLeaf l q s).toll = s.toll := rfl
@[simp] theorem setLeaf_glb (l : Nat) (q : List Pkt) (s : State) : (setLeaf l q s).glb = s.glb := rfl
@[simp] theorem setLeaf_macs (l : Nat) (q : List Pkt) (s : State) : (setLeaf l q s).macs = s.macs := rfl
@[simp] theorem setLeaf_fwd (l : Nat) (q : List Pkt) (s : State) : (setLeaf l q s).fwd = s.fwd := rfl
@[simp] theorem setLeaf_qdm (l : Nat) (q : List Pkt) (s : State) : (setLeaf l q s).qdm = s.qdm := rfl
@[simp] theorem setLeaf_fab (l : Nat) (q : List Pkt) (s : State) : (setLeaf l q s).fab = s.fab := rfl
@[simp] theorem setLeaf_bridge (l : Nat) (q : List Pkt) (s : State) : (setLeaf l q s).bridge = s.bridge := rfl
@[simp] theorem setLeaf_flexe (l : Nat) (q : List Pkt) (s : State) : (setLeaf l q s).flexe = s.flexe := rfl
@[simp] theorem setLeaf_mem (l : Nat) (q : List Pkt) (s : State) : (setLeaf l q s).mem = s.mem := rfl
@[simp] theorem setLeaf_crl (l : Nat) (q : List Pkt) (s : State) : (setLeaf l q s).crl = s.crl := rfl
@[simp] theorem setLeaf_bus (l : Nat) (q : List Pkt) (s : State) : (setLeaf l q s).bus = s.bus := rfl
@[simp] theorem setLeaf_prot (l : Nat) (q : List Pkt) (s : State) : (setLeaf l q s).prot = s.prot := rfl
@[simp] theorem setLeaf_fw (l : Nat) (q : List Pkt) (s : State) : (setLeaf l q s).fw = s.fw := rfl
@[simp] theorem setLeaf_pwr (l : Nat) (q : List Pkt) (s : State) : (setLeaf l q s).pwr = s.pwr := rfl

@[simp] theorem stage_pending (n : Nat) (c : Change) (s : State) : (stage n c s).pending = s.pending := rfl
@[simp] theorem stage_elapsed (n : Nat) (c : Change) (s : State) : (stage n c s).elapsed = s.elapsed := rfl
@[simp] theorem stage_fresh (n : Nat) (c : Change) (s : State) : (stage n c s).fresh = s.fresh := rfl
@[simp] theorem stage_out (n : Nat) (c : Change) (s : State) : (stage n c s).out = s.out := rfl
@[simp] theorem stage_tempo (n : Nat) (c : Change) (s : State) : (stage n c s).tempo = s.tempo := rfl
@[simp] theorem stage_cfg (n : Nat) (c : Change) (s : State) : (stage n c s).cfg = s.cfg := rfl
@[simp] theorem stage_commits (n : Nat) (c : Change) (s : State) : (stage n c s).commits = s.commits := rfl
@[simp] theorem stage_outcomes (n : Nat) (c : Change) (s : State) : (stage n c s).outcomes = s.outcomes := rfl
@[simp] theorem stage_nextPackageSeq (n : Nat) (c : Change) (s : State) : (stage n c s).nextPackageSeq = s.nextPackageSeq := rfl
@[simp] theorem stage_quar (n : Nat) (c : Change) (s : State) : (stage n c s).quar = s.quar := rfl
@[simp] theorem stage_mgmt (n : Nat) (c : Change) (s : State) : (stage n c s).mgmt = s.mgmt := rfl
@[simp] theorem stage_host (n : Nat) (c : Change) (s : State) : (stage n c s).host = s.host := rfl
@[simp] theorem stage_hostMem (n : Nat) (c : Change) (s : State) : (stage n c s).hostMem = s.hostMem := rfl
@[simp] theorem stage_ctrs (n : Nat) (c : Change) (s : State) : (stage n c s).ctrs = s.ctrs := rfl
@[simp] theorem stage_toll (n : Nat) (c : Change) (s : State) : (stage n c s).toll = s.toll := rfl
@[simp] theorem stage_glb (n : Nat) (c : Change) (s : State) : (stage n c s).glb = s.glb := rfl
@[simp] theorem stage_macs (n : Nat) (c : Change) (s : State) : (stage n c s).macs = s.macs := rfl
@[simp] theorem stage_fwd (n : Nat) (c : Change) (s : State) : (stage n c s).fwd = s.fwd := rfl
@[simp] theorem stage_qdm (n : Nat) (c : Change) (s : State) : (stage n c s).qdm = s.qdm := rfl
@[simp] theorem stage_sched (n : Nat) (c : Change) (s : State) : (stage n c s).sched = s.sched := rfl
@[simp] theorem stage_fab (n : Nat) (c : Change) (s : State) : (stage n c s).fab = s.fab := rfl
@[simp] theorem stage_bridge (n : Nat) (c : Change) (s : State) : (stage n c s).bridge = s.bridge := rfl
@[simp] theorem stage_flexe (n : Nat) (c : Change) (s : State) : (stage n c s).flexe = s.flexe := rfl
@[simp] theorem stage_mem (n : Nat) (c : Change) (s : State) : (stage n c s).mem = s.mem := rfl
@[simp] theorem stage_crl (n : Nat) (c : Change) (s : State) : (stage n c s).crl = s.crl := rfl
@[simp] theorem stage_bus (n : Nat) (c : Change) (s : State) : (stage n c s).bus = s.bus := rfl
@[simp] theorem stage_prot (n : Nat) (c : Change) (s : State) : (stage n c s).prot = s.prot := rfl
@[simp] theorem stage_fw (n : Nat) (c : Change) (s : State) : (stage n c s).fw = s.fw := rfl
@[simp] theorem stage_pwr (n : Nat) (c : Change) (s : State) : (stage n c s).pwr = s.pwr := rfl

end Sys2Proof.Laws
end

