-- ==== Sys2Proof/Laws/Stores.lean ====
section
/-! SUPPORT. Which bytes of host memory a command's bookkeeping can reach: its response area, and records and index entries of rings. -/

namespace Sys2Proof.Laws
open Sys2Proof Sys2Proof.Machine

/-- The address lies in no ring of the state and in no ring's part-written entry. -/
def clear (a : Nat) (s : State) : Prop :=
  ∀ r x, ring? r s = some x → 0 < x.size ∧ (∀ k < 32 * x.size, a ≠ x.base + k) ∧
    ∀ k < 8, a ≠ (pciFn x.fn s).pib + (pciFn x.fn s).stride * r + k

/-- The address reads as `v` and lies in no ring. -/
def calm (a : Nat) (v : Option Byte) (s : State) : Prop := memRead s.hostMem a = v ∧ clear a s

theorem calm_mk {a v} {s : State} {b1 b2 b3 b4 b5 b6 b7 b8 b9 b10 b11 b12 b13 b16 b17 b18 b19 b20 b21 b22 b23 b24 b25 b26 b27 b28 b29 b30 b31}
    (h : calm a v s) :
    calm a v (State.mk b1 b2 b3 b4 b5 b6 b7 b8 b9 b10 b11 b12 b13 s.host s.hostMem b16 b17 b18 b19 b20 b21 b22 b23 b24 b25 b26 b27 b28 b29 b30 b31) := h

theorem calm_ite {a v} {p : Prop} [Decidable p] {s t : State} (hs : calm a v s) (ht : calm a v t) : calm a v (if p then s else t) := by
  split <;> assumption

theorem calm_foldl {β : Type} {a v} {l : List β} {f : State → β → State} {s : State} (hf : ∀ s b, calm a v s → calm a v (f s b))
    (h : calm a v s) : calm a v (l.foldl f s) := by
  induction l generalizing s with
  | nil => exact h
  | cons b l ih => exact ih (hf s b h)

theorem calm_of_pair {α : Type} {a v} {x : α × State} {b : α} {t : State} (e : x = (b, t)) (h : calm a v x.2) : calm a v t := by
  rw [e] at h; exact h

/-- A write whose bytes miss the address. -/
theorem calm_hostWrite {a v b bs} {s : State} (h : calm a v s) (e : ∀ k < bs.length, a ≠ b + k) : calm a v (hostWrite b bs s) := by
  refine ⟨?_, h.2⟩
  show memRead (memWrite s.hostMem b bs) a = v
  rw [memRead_memWrite_outside bs]
  · exact h.1
  · by_cases h1 : a < b
    · exact .inl h1
    · refine .inr (Nat.le_of_not_lt fun h2 => ?_)
      exact e (a - b) (by omega) (by omega)

theorem calm_updFn {a v n f} {s : State} (h : calm a v s) (e : ∀ g, (f g).pib = g.pib ∧ (f g).stride = g.stride) : calm a v (updFn n f s) := by
  refine ⟨by unfold updFn; split <;> exact h.1, fun r x hx => ?_⟩
  have hx' : ring? r s = some x := by revert hx; unfold updFn; split <;> exact id
  obtain ⟨h1, h2, h3⟩ := h.2 r x hx'
  refine ⟨h1, h2, fun k hk => ?_⟩
  have := h3 k hk
  have e2 : (pciFn x.fn (updFn n f s)).pib = (pciFn x.fn s).pib ∧ (pciFn x.fn (updFn n f s)).stride = (pciFn x.fn s).stride := by
    unfold pciFn updFn
    split <;> split <;> simp [e]
  rw [e2.1, e2.2]
  exact this

theorem aget_aupd {α : Type} (t : Assoc α) (k j : Nat) (f : α → α) : aget (aupd t k f) j = (aget t j).map (fun x => if j = k then f x else x) := by
  induction t with
  | nil => rfl
  | cons p t ih =>
    unfold aupd at ih ⊢
    rw [List.map_cons]
    obtain ⟨i, x⟩ := p
    by_cases h : i = k
    · by_cases h2 : i = j
      · subst h; subst h2; simp [aget]
      · simp [aget, h, ih]
        have : ¬ k = j := by rw [← h]; exact h2
        simp [this]
    · by_cases h2 : i = j
      · subst h2; simp [aget, h]
      · simp [aget, h, h2, ih]

theorem calm_updRing {a v r f} {s : State} (h : calm a v s) (e : ∀ x, (f x).base = x.base ∧ (f x).size = x.size ∧ (f x).fn = x.fn) :
    calm a v (updRing r f s) := by
  refine ⟨h.1, fun q x hx => ?_⟩
  unfold ring? updRing at hx
  rw [aget_aupd] at hx
  cases hq : aget s.host.rings q with
  | none => rw [hq] at hx; cases hx
  | some y =>
    rw [hq] at hx
    injection hx with hx
    obtain ⟨h1, h2, h3⟩ := h.2 q y hq
    have e2 : x.base = y.base ∧ x.size = y.size ∧ x.fn = y.fn := by
      rw [← hx]; split
      · exact e y
      · exact ⟨rfl, rfl, rfl⟩
    rw [e2.1, e2.2.1, e2.2.2]
    exact ⟨h1, h2, h3⟩

theorem indexEntry_length (x : Ring) : (indexEntry x).length = 8 := by simp [indexEntry, le]

theorem calm_publish {a v r} {s : State} (h : calm a v s) : calm a v (publish r s) := by
  unfold publish
  split
  · exact h
  · rename_i x hx
    refine calm_ite (calm_hostWrite h fun k hk => ?_) h
    rw [indexEntry_length] at hk
    exact (h.2 r x hx).2.2 k hk

theorem fit_length (n : Nat) (l : List Byte) : (fit n l).length = n := by
  unfold fit; simp [zeros]; omega

theorem calm_logFault {a v a0 a1 a2} {s : State} (h : calm a v s) : calm a v (logFault a0 a1 a2 s) := by
  unfold logFault
  try dsimp only
  with_reducible repeat' first | assumption | ((fail_if_success (fail_if_success conv => arg 3; arg 30)); refine calm_mk ?_) | refine calm_ite ?_ ?_ | refine calm_foldl ?_ ?_ | refine calm_of_pair (by assumption) ?_ | split | dsimp only | intro _

theorem calm_emit {a v a0} {s : State} (h : calm a v s) : calm a v (emit a0 s) := by
  unfold emit
  try dsimp only
  with_reducible repeat' first | assumption | ((fail_if_success (fail_if_success conv => arg 3; arg 30)); refine calm_mk ?_) | refine calm_ite ?_ ?_ | refine calm_foldl ?_ ?_ | refine calm_of_pair (by assumption) ?_ | split | dsimp only | intro _

theorem calm_bump {a v a0 a1} {s : State} (h : calm a v s) : calm a v (bump a0 a1 s) := by
  unfold bump
  try dsimp only
  with_reducible repeat' first | assumption | ((fail_if_success (fail_if_success conv => arg 3; arg 30)); refine calm_mk ?_) | refine calm_ite ?_ ?_ | refine calm_foldl ?_ ?_ | refine calm_of_pair (by assumption) ?_ | split | dsimp only | intro _

theorem calm_tally {a v a0} {s : State} (h : calm a v s) : calm a v (tally a0 s) := by
  unfold tally
  try dsimp only
  with_reducible repeat' first | assumption | ((fail_if_success (fail_if_success conv => arg 3; arg 30)); refine calm_mk ?_) | refine calm_ite ?_ ?_ | refine calm_bump ?_ | refine calm_foldl ?_ ?_ | refine calm_of_pair (by assumption) ?_ | split | dsimp only | intro _

theorem calm_busFrame {a v a0} {s : State} (h : calm a v s) : calm a v (busFrame a0 s) := by
  unfold busFrame
  try dsimp only
  with_reducible repeat' first | assumption | ((fail_if_success (fail_if_success conv => arg 3; arg 30)); refine calm_mk ?_) | refine calm_ite ?_ ?_ | refine calm_emit ?_ | refine calm_tally ?_ | refine calm_foldl ?_ ?_ | refine calm_of_pair (by assumption) ?_ | split | dsimp only | intro _

theorem calm_busSendId {a v a0 a1 a2 a3} {s : State} (h : calm a v s) : calm a v (busSendId a0 a1 a2 a3 s) := by
  unfold busSendId
  try dsimp only
  with_reducible repeat' first | assumption | ((fail_if_success (fail_if_success conv => arg 3; arg 30)); refine calm_mk ?_) | refine calm_ite ?_ ?_ | refine calm_busFrame ?_ | refine calm_foldl ?_ ?_ | refine calm_of_pair (by assumption) ?_ | split | dsimp only | intro _

theorem calm_busSend {a v a0 a1 a2} {s : State} (h : calm a v s) : calm a v (busSend a0 a1 a2 s) := by
  unfold busSend
  try dsimp only
  with_reducible repeat' first | assumption | ((fail_if_success (fail_if_success conv => arg 3; arg 30)); refine calm_mk ?_) | refine calm_ite ?_ ?_ | refine calm_busSendId ?_ | refine calm_foldl ?_ ?_ | refine calm_of_pair (by assumption) ?_ | split | dsimp only | intro _

theorem calm_busEvent {a v a0} {s : State} (h : calm a v s) : calm a v (busEvent a0 s) := by
  unfold busEvent
  try dsimp only
  with_reducible repeat' first | assumption | ((fail_if_success (fail_if_success conv => arg 3; arg 30)); refine calm_mk ?_) | refine calm_ite ?_ ?_ | refine calm_busSend ?_ | refine calm_foldl ?_ ?_ | refine calm_of_pair (by assumption) ?_ | split | dsimp only | intro _

theorem calm_sendMsix {a v a0 a1} {s : State} (h : calm a v s) : calm a v (sendMsix a0 a1 s) := by
  unfold sendMsix
  try dsimp only
  with_reducible repeat' first | assumption | refine calm_updFn ?_ (fun _ => ⟨by rfl, by rfl⟩) | ((fail_if_success (fail_if_success conv => arg 3; arg 30)); refine calm_mk ?_) | refine calm_ite ?_ ?_ | refine calm_emit ?_ | refine calm_foldl ?_ ?_ | refine calm_of_pair (by assumption) ?_ | split | dsimp only | intro _

theorem calm_signalRing {a v a0} {s : State} (h : calm a v s) : calm a v (signalRing a0 s) := by
  unfold signalRing
  try dsimp only
  with_reducible repeat' first | assumption | ((fail_if_success (fail_if_success conv => arg 3; arg 30)); refine calm_mk ?_) | refine calm_ite ?_ ?_ | refine calm_sendMsix ?_ | refine calm_updRing ?_ (fun _ => ⟨by rfl, by rfl, by rfl⟩) | refine calm_foldl ?_ ?_ | refine calm_of_pair (by assumption) ?_ | split | dsimp only | intro _

theorem calm_moderate {a v a0} {s : State} (h : calm a v s) : calm a v (moderate a0 s) := by
  unfold moderate
  try dsimp only
  with_reducible repeat' first | assumption | ((fail_if_success (fail_if_success conv => arg 3; arg 30)); refine calm_mk ?_) | refine calm_ite ?_ ?_ | refine calm_signalRing ?_ | refine calm_updRing ?_ (fun _ => ⟨by rfl, by rfl, by rfl⟩) | refine calm_foldl ?_ ?_ | refine calm_of_pair (by assumption) ?_ | split | dsimp only | intro _

theorem calm_writeRecord {a v a0 a1} {s : State} (h : calm a v s) : calm a v (writeRecord a0 a1 s) := by
  unfold writeRecord
  split
  · exact h
  · rename_i x hx
    refine calm_moderate (calm_publish (calm_updRing (calm_hostWrite h fun k hk => ?_) (fun _ => ⟨rfl, rfl, rfl⟩)))
    rw [fit_length] at hk
    obtain ⟨h1, h2, -⟩ := h.2 a0 x hx
    have := Nat.mod_lt x.partIndex h1
    exact Nat.add_assoc x.base _ k ▸ h2 (32 * (x.partIndex % x.size) + k) (by omega)

theorem calm_flushEvents {a v a0 a1} {s : State} (h : calm a v s) : calm a v (flushEvents a0 a1 s) := by
  induction a0 generalizing a1 s with
  | zero =>
    unfold flushEvents
    with_reducible repeat' first | assumption | refine ih ?_ | refine calm_updFn ?_ (fun _ => ⟨by rfl, by rfl⟩) | ((fail_if_success (fail_if_success conv => arg 3; arg 30)); refine calm_mk ?_) | refine calm_ite ?_ ?_ | refine calm_writeRecord ?_ | refine calm_foldl ?_ ?_ | refine calm_of_pair (by assumption) ?_ | split | dsimp only | intro _
  | succ fuel ih =>
    unfold flushEvents
    try dsimp only
    with_reducible repeat' first | assumption | refine ih ?_ | refine calm_updFn ?_ (fun _ => ⟨by rfl, by rfl⟩) | ((fail_if_success (fail_if_success conv => arg 3; arg 30)); refine calm_mk ?_) | refine calm_ite ?_ ?_ | refine calm_writeRecord ?_ | refine calm_foldl ?_ ?_ | refine calm_of_pair (by assumption) ?_ | split | dsimp only | intro _

theorem calm_giveEvent {a v a0 a1} {s : State} (h : calm a v s) : calm a v (giveEvent a0 a1 s) := by
  unfold giveEvent
  try dsimp only
  with_reducible repeat' first | assumption | refine calm_updFn ?_ (fun _ => ⟨by rfl, by rfl⟩) | ((fail_if_success (fail_if_success conv => arg 3; arg 30)); refine calm_mk ?_) | refine calm_ite ?_ ?_ | refine calm_flushEvents ?_ | refine calm_foldl ?_ ?_ | refine calm_of_pair (by assumption) ?_ | split | dsimp only | intro _

theorem calm_raiseEvent {a v a0 a1 a2 a3} {s : State} (h : calm a v s) : calm a v (raiseEvent a0 a1 a2 a3 s) := by
  unfold raiseEvent
  try dsimp only
  with_reducible repeat' first | assumption | ((fail_if_success (fail_if_success conv => arg 3; arg 30)); refine calm_mk ?_) | refine calm_ite ?_ ?_ | refine calm_logFault ?_ | refine calm_busEvent ?_ | refine calm_giveEvent ?_ | refine calm_foldl ?_ ?_ | refine calm_of_pair (by assumption) ?_ | split | dsimp only | intro _

theorem calm_checkStall {a v a0} {s : State} (h : calm a v s) : calm a v (checkStall a0 s) := by
  unfold checkStall
  try dsimp only
  with_reducible repeat' first | assumption | ((fail_if_success (fail_if_success conv => arg 3; arg 30)); refine calm_mk ?_) | refine calm_ite ?_ ?_ | refine calm_raiseEvent ?_ | refine calm_tally ?_ | refine calm_updRing ?_ (fun _ => ⟨by rfl, by rfl, by rfl⟩) | refine calm_foldl ?_ ?_ | refine calm_of_pair (by assumption) ?_ | split | dsimp only | intro _

theorem calm_freeTs {a v a0} {s : State} (h : calm a v s) : calm a v (freeTs a0 s) := by
  unfold freeTs
  try dsimp only
  with_reducible repeat' first | assumption | ((fail_if_success (fail_if_success conv => arg 3; arg 30)); refine calm_mk ?_) | refine calm_ite ?_ ?_ | refine calm_foldl ?_ ?_ | refine calm_of_pair (by assumption) ?_ | split | dsimp only | intro _

theorem calm_dmaWrite {a v a0 a1 a2} {s : State} (h : calm a v s) (e : ∀ k < a2.length, a ≠ a1 + k) : calm a v (dmaWrite a0 a1 a2 s) := by
  unfold dmaWrite
  exact calm_ite (calm_hostWrite h e) (calm_updFn h (fun _ => ⟨rfl, rfl⟩))

theorem calm_checkStalls {a v} {s : State} (h : calm a v s) : calm a v (checkStalls s) := by
  unfold checkStalls
  try dsimp only
  with_reducible repeat' first | assumption | ((fail_if_success (fail_if_success conv => arg 3; arg 30)); refine calm_mk ?_) | refine calm_ite ?_ ?_ | refine calm_checkStall ?_ | refine calm_foldl ?_ ?_ | refine calm_of_pair (by assumption) ?_ | split | dsimp only | intro _

theorem calm_postCompletion {a v a0 a1} {s : State} (h : calm a v s) : calm a v (postCompletion a0 a1 s) := by
  unfold postCompletion
  try dsimp only
  with_reducible repeat' first | assumption | ((fail_if_success (fail_if_success conv => arg 3; arg 30)); refine calm_mk ?_) | refine calm_ite ?_ ?_ | refine calm_freeTs ?_ | refine calm_writeRecord ?_ | refine calm_checkStalls ?_ | refine calm_updRing ?_ (fun _ => ⟨by rfl, by rfl, by rfl⟩) | refine calm_foldl ?_ ?_ | refine calm_of_pair (by assumption) ?_ | split | dsimp only | intro _

theorem calm_journal {a v a0} {s : State} (h : calm a v s) : calm a v (journal a0 s) := by
  unfold journal
  try dsimp only
  with_reducible repeat' first | assumption | ((fail_if_success (fail_if_success conv => arg 3; arg 30)); refine calm_mk ?_) | refine calm_ite ?_ ?_ | refine calm_foldl ?_ ?_ | refine calm_of_pair (by assumption) ?_ | split | dsimp only | intro _

theorem calm_crlOut {a v a0 a1} {s : State} (h : calm a v s) : calm a v (crlOut a0 a1 s) := by
  unfold crlOut
  try dsimp only
  with_reducible repeat' first | assumption | ((fail_if_success (fail_if_success conv => arg 3; arg 30)); refine calm_mk ?_) | refine calm_ite ?_ ?_ | refine calm_emit ?_ | refine calm_foldl ?_ ?_ | refine calm_of_pair (by assumption) ?_ | split | dsimp only | intro _

theorem calm_floodId {a v a0 a1 a2 a3} {s : State} (h : calm a v s) : calm a v (floodId a0 a1 a2 a3 s) := by
  unfold floodId
  try dsimp only
  with_reducible repeat' first | assumption | ((fail_if_success (fail_if_success conv => arg 3; arg 30)); refine calm_mk ?_) | refine calm_ite ?_ ?_ | refine calm_crlOut ?_ | refine calm_foldl ?_ ?_ | refine calm_of_pair (by assumption) ?_ | split | dsimp only | intro _

theorem calm_busRespond {a v a0 a1 a2} {s : State} (h : calm a v s) : calm a v (busRespond a0 a1 a2 s) := by
  unfold busRespond
  try dsimp only
  with_reducible repeat' first | assumption | ((fail_if_success (fail_if_success conv => arg 3; arg 30)); refine calm_mk ?_) | refine calm_ite ?_ ?_ | refine calm_busSendId ?_ | refine calm_foldl ?_ ?_ | refine calm_of_pair (by assumption) ?_ | split | dsimp only | intro _

theorem calm_relayRespond {a v a0 a1 a2} {s : State} (h : calm a v s) : calm a v (relayRespond a0 a1 a2 s) := by
  unfold relayRespond
  try dsimp only
  with_reducible repeat' first | assumption | ((fail_if_success (fail_if_success conv => arg 3; arg 30)); refine calm_mk ?_) | refine calm_ite ?_ ?_ | refine calm_floodId ?_ | refine calm_foldl ?_ ?_ | refine calm_of_pair (by assumption) ?_ | split | dsimp only | intro _

theorem calm_windowDone {a v a0 a1} {s : State} (h : calm a v s) : calm a v (windowDone a0 a1 s) := by
  unfold windowDone
  try dsimp only
  with_reducible repeat' first | assumption | ((fail_if_success (fail_if_success conv => arg 3; arg 30)); refine calm_mk ?_) | refine calm_ite ?_ ?_ | refine calm_sendMsix ?_ | refine calm_foldl ?_ ?_ | refine calm_of_pair (by assumption) ?_ | split | dsimp only | intro _

theorem calm_answer {a v a0 a1 a2 a3 a4} {s : State} (h : calm a v s)
    (e : a0.source ≤ 1 → ∀ k < min a4.length a0.respLen, a ≠ a0.respAddr + k) : calm a v (answer a0 a1 a2 a3 a4 s) := by
  unfold answer
  split
  · rename_i h1
    split
    · refine calm_ite (calm_postCompletion (calm_dmaWrite h fun k hk => e h1 k ?_)) h
      rw [List.length_take] at hk
      omega
    · exact h
  · exact calm_ite (calm_windowDone h) (calm_ite (calm_busRespond h) (calm_relayRespond h))

/-- Ending a command reaches its response area and rings only. -/
theorem calm_finishTo {a v a0 a1 a2 a3 a4 a5 a6 a7} {s : State} (h : calm a v s)
    (e : a1.source ≤ 1 → ∀ k < min a4.length a1.respLen, a ≠ a1.respAddr + k) : calm a v (finishTo a0 a1 a2 a3 a4 a5 a6 a7 s) := by
  unfold finishTo
  dsimp only
  refine calm_ite (calm_raiseEvent (calm_answer ?_ e)) (calm_answer ?_ e) <;> exact calm_mk (calm_ite (calm_journal h) h)

/-- So does ending a command that has just begun. -/
theorem calm_finish {a v a0 a1 a2 a3 a4 a5 a6} {s : State} (h : calm a v s)
    (e : a0.source ≤ 1 → ∀ k < min a3.length a0.respLen, a ≠ a0.respAddr + k) : calm a v (finish a0 a1 a2 a3 a4 a5 a6 s) := calm_finishTo h e

/-- Marking what a staged change's completion waits for writes no memory. -/
theorem calm_markDue {a v n due} {s : State} (h : calm a v s) : calm a v (markDue n due s) := by
  unfold markDue
  exact calm_ite h (calm_mk h)

theorem calm_windowRunning {a v a0} {s : State} (h : calm a v s) : calm a v (windowRunning a0 s) := by
  unfold windowRunning
  try dsimp only
  with_reducible repeat' first | assumption | ((fail_if_success (fail_if_success conv => arg 3; arg 30)); refine calm_mk ?_) | refine calm_ite ?_ ?_ | refine calm_foldl ?_ ?_ | refine calm_of_pair (by assumption) ?_ | split | dsimp only | intro _

end Sys2Proof.Laws
end

