-- ==== Sys2Proof/Tests/States.lean ====
section
/-! SUPPORT. Small states and operands that the tests and the witnesses start from. -/

namespace Sys2Proof.Tests
open Sys2Proof Sys2Proof.Machine

set_option Elab.async false

namespace W

/-- Teruo READY after reset. -/
def ready : State := { State.reset with mgmt := { State.reset.mgmt with ready := true } }

/-- A window command of PF0 with its parameter bytes. -/
def cmd (p : List Byte) : Cmd :=
  { source := 2, origin := 0, tag := 1, paramLen := p.length, timeout := 0, target := 0xFF, flags := 0, reserved := 0,
    cmdLen := 16 + p.length, params := p, respAddr := 0, respLen := 0, data := none }

/-- A RUNNING command of the window with a tag. -/
def run (tag : Nat) (w : WaitFor) : Running :=
  { cmd := { op := 0x0A02, source := 2, origin := 0, tag := tag, paramLen := 8, timeout := 0, target := 0xFF, flags := 0, reserved := 0, cmdLen := 24,
             params := zeros 8, respAddr := 0, respLen := 0, data := none }, index := 0, accepted := 0, deadline := 5000000000, waits := w, resp := [], reply := none }

def cfg : MacCfg :=
  { speed := 3, lanes := 1, laneRate := 3, fec := 2, maxFrame := 9216, deliverBad := false, cutThrough := false, fcMode := 0, flexePhy := false,
    ctThreshold := 1024, hold := 20, shedRank := 0, defaultPriority := 0, classToTxq := 0xFA50, pfcEnable := 0, xoff := 0, xon := 0, headroom := 0,
    rxCorr := 0, txCorr := 0 }

/-- A port of 100 Gb/s in a link state. -/
def port (l : LinkState) : Mac := { newMac cfg 100 ready with link := l }

def phy (l : LinkState) : Mac := { newMac (phyCfg 3 1 3 2) 100 ready with link := l }

def macs (l : Assoc Mac) (s : State) : State := { s with macs := l }

/-- A FlexE group of one PHY, port 0. -/
def group (st : FlxState) : FlxGroup := { newFlxGroup 0 0 1 [(0, 1)] with state := st }

def client : FlxClient := { group := 0, clientId := 5, badRun := 0, mismatch := false }

def ring (t : RingType) (fn cq : Nat) : Ring :=
  { typ := t, fn := fn, create := zeros 32, size := 16, base := 4096 * (cq + 1), cq := cq, vector := 0, noIrq := true, modCount := 1, modTime := 0, bufSize := 2048,
    warn := 0, weight := 1, state := .enabled, cause := 0, partIndex := 0, hostIndex := 1, invCount := 0, fetched := [], begun := 0,
    fetchStopped := false, invWaiting := 0, disabling := false, armed := false, unsignalled := 0, modDeadline := none, held := [],
    stalled := false, poolEmptySec := none, made := 0 }

/-- Ring 5 of a type with completion ring 6, on PF0 with Bus Master Enable. -/
def rings (t : RingType) (s : State) : State :=
  { s with host := { s.host with pf0 := { s.host.pf0 with busMaster := true, linkUp := true }, rings := [(5, ring t 0 6), (6, { ring .completion 0 0 with hostIndex := 0 })] } }

def desc (b : List Byte) : Desc := { ring := 5, bytes := fit 64 b, frags := none, data := none }

def conf (f : Conf → Conf) (s : State) : State := { s with cfg := f s.cfg }

def ctx : FlowCtx := { ctxOf 0 (zeros 128) with isStatic := false }

def ft : FlowTable := { policy := 0, flags := 0, contexts := 65536, idle := 0, learnAction := 0, learnNh := 0 }

def tb : RuleTable := { width := 0, hole := 16, dflt := zeros 32 }

def rule : Rule := { table := 0, prio := 1, key := zeros 80, mask := [0xFF] ++ zeros 79, action := zeros 32, order := 0, index := 0 }

def nh : NextHop := { kind := 1, reason := 0, dest := 0, template := 0, dmac := zeros 6, val0 := 0, val1 := 0 }

def selOf (s : State) : SelEntry := match s.staged.getLast? with
  | some { change := .select _ (some e), .. } => e
  | _ => { prio := 0, profile := 0, key := 0, mask := 0, order := 0, index := 0 }

def ruleOf (s : State) : Rule := match s.staged.getLast? with
  | some { change := .rule _ (some e), .. } => e
  | _ => rule

def movesOf (s : State) : List (Nat × Nat) := match s.staged.getLast? with
  | some x => x.moves
  | none => []

def flows (l : List FlowCtx) (s : State) : State := { s with fwd := { s.fwd with flowTables := [(0, ft)], flows := l } }

def dest (k e : Nat) : Dest := { kind := k, endpoint := e, epList := 0, localPort := 0, leafBase := 0, pealList := 0, profiles := List.replicate 8 0 }

def node (parent : Nat) : SchedNode := { prio := 0, weight := 1, parent := parent, cls := 0, gate := 0, overhead := 20, rate := 0, burst := 0, grantStop := 262144 }

/-- Port 0 with a channel, an aggregate and leaf queues 0 to 7. -/
def tree (s : State) : State :=
  macs [(0, port .up)] (conf (fun g => { g with channels := [(0, node 0)], aggregates := [(0, node 0)], leaves := (List.range 8).map (fun k => (k, node 0)) }) s)

def ringIn (x : Ring) (s : State) : State :=
  { s with host := { s.host with pf0 := { s.host.pf0 with busMaster := true, linkUp := true, indexValid := true, pib := 65536 }, rings := [(5, x)] } }

def ringsIn (l : Assoc Ring) (s : State) : State :=
  { s with host := { s.host with pf0 := { s.host.pf0 with busMaster := true, linkUp := true, indexValid := true, pib := 65536 }, rings := l } }

def tempo (f : Tempo → Tempo) (s : State) : State := { s with tempo := f s.tempo }

def commit0 : Commit := { carillon := false, pair := false, seq := 0, target := 5, phase := .preparing, head := true, noDefer := false, reapply := none, prepStart := 0, prepEnd := 0, votes := 0, acks := 0, nacks := 0, deferrals := 0, missing := 0, changes := 0, decided := false, lost := false, retained := none, retainedEpoch := 0, retainedCseq := 0, oldSlots := 0, oldTargets := 0, reverting := false, source := 2, origin := 0 }

def fw (f : Fw → Fw) (s : State) : State := { s with fw := f s.fw }

def prot (f : Protect → Protect) (s : State) : State := { s with prot := f s.prot }

def crl (f : Carillon → Carillon) (s : State) : State := { s with crl := f s.crl }

def pwr (f : Power → Power) (s : State) : State := { s with pwr := f s.pwr }

def toll (f : Toll → Toll) (s : State) : State := { s with toll := f s.toll }

def pf0 (f : PciFn → PciFn) (s : State) : State := { s with host := { s.host with pf0 := f s.host.pf0 } }
/-- Flash with an update record in the first copy: its state, STAGE and FLAGS, its check code, and erased bytes for the rest. -/
def urec (st stage flags crc : Nat) (s : State) : State :=
  { s with fw := { s.fw with flash := ((List.range 11).map (· + 0x10000)).zip (le 4 0x414C5552 ++ le 4 1 ++ le 1 st ++ le 1 flags ++ le 1 stage) ++
                                      ((List.range 8).map (· + 0x100F8)).zip (le 8 crc) } }

/-- Flash with a copy of the settings that holds no item, its reserved bytes erased. -/
def snapshot (s : State) : State :=
  { s with fw := { s.fw with flash := ((List.range 16).map (· + setBase 0)).zip (le 4 0x414C5354 ++ zeros 2 ++ [0xFF, 0xFF] ++ zeros 8) ++
                                      ((List.range 8).map (· + (setBase 0 + 56))).zip (le 8 2362158043082707222) } }

def punt : Punt := { bytes := zeros 60, frameLen := 64, trunc := 0, reason := 1, source := 0, profile := 0xFFFF, flags := 0, ts := 0, store := none }

/-- A receive ring 5 with pool 7, bound to punt queue 0. -/
def rx (s : State) : State :=
  { s with host := { s.host with pf0 := { s.host.pf0 with busMaster := true, linkUp := true, indexValid := true, pib := 65536 },
                                 rings := [(5, { ring .receive 0 0 with hostIndex := 0 }), (7, { ring .buffer 0 0 with fetched := [le 8 1048576 ++ zeros 56] })],
                                 groups := [(5, { pools := [7] })], binds := [(0, { ring := 5, weight := 1 })] },
           qdm := { s.qdm with punts := [(0, [punt])] } }

/-- Flash with a fault record in slot 0 whose bytes are erased but for its magic number and check code. -/
def knell (s : State) : State :=
  { s with fw := { s.fw with flash := ((List.range 4).map (· + 0x30000)).zip (le 4 0x414C4B4E) ++
                                      ((List.range 4).map (· + 0x301F0)).zip (le 4 3524184935) } }

def pkt : Pkt := newPkt (zeros 60) 64 0 0

def glb (f : Glb → Glb) (s : State) : State := { s with glb := f s.glb }

def mgmt (f : Mgmt → Mgmt) (s : State) : State := { s with mgmt := f s.mgmt }

/-- The window holds `toll.status`. -/
def window (s : State) : State := mgmt (fun m => { m with mbxCmd := [(0, 0x0D06), (8, 0x00FF0000)] }) s

def gateList : GateList := { cycle := 1000, base := 0, lead := 0, guards := List.replicate 8 0, entries := [(500, 1), (500, 2)] }

def gated (r : GateRun) (s : State) : State :=
  { macs [(0, port .up)] s with sched := { s.sched with gates := [(0, r)] } }

def readyTempo (src : TempoSource) (m : TempoMode) (s : State) : State := tempo (fun t => { t with source := src, mode := m }) s

def msg (typ : Nat) (p : List Byte) : Msg := { version := 1, domain := 1, typ := typ, cid := 0, src := 0, dst := 0xFF, msgId := 1, fragIndex := 0, fragCount := 1, length := p.length, payload := p }

def wakeFrame : List Byte := msgFrame (busMac 0xFF) (busMac 1) (msg 5 (List.replicate 8 0xFF))

def ddrReady (s : State) : State := { s with mem := { s.mem with ddr := s.mem.ddr.map (fun d => { d with state := 2 }) } }

/-- A carillon frame from position 1. -/
def cf (typ dst : Nat) (p : List Byte) : List Byte :=
  msgFrame (busMac 1) (busMac 1) { version := 1, domain := 0, typ := typ, cid := 0, src := 1, dst := dst, msgId := 7, fragIndex := 0, fragCount := 1, length := p.length, payload := p }

/-- A bus frame from node 1 to all. -/
def bf (typ : Nat) (p : List Byte) : List Byte :=
  msgFrame (busMac 0xFF) (busMac 1) { version := 1, domain := 1, typ := typ, cid := 0, src := 1, dst := 0xFF, msgId := 7, fragIndex := 0, fragCount := 1, length := p.length, payload := p }

def onRing (r : Role) (s : State) : State := crl (fun k => { k with enable := true, role := r, position := if r = .head then 0 else 2, up := { k.up with pcs := true } }) s

def onBus (s : State) : State := { s with bus := { s.bus with enable := true } }

def cp (attempt result seq d : Nat) : List Byte := be 2 0 ++ be 1 attempt ++ be 1 result ++ be 4 seq ++ be 8 d ++ zeros 4 ++ be 2 4 ++ be 2 100

def fol (f : Commit → Commit) (s : State) : State := { onRing .follower s with commits := [f { commit0 with carillon := true, head := false, seq := 9, target := 50000000 }] }

def lead (f : Commit → Commit) (s : State) : State := { onRing .head s with commits := [f { commit0 with carillon := true, head := true, seq := 9, target := 50000000 }] }

def hdrUnit (t : Nat) : List Byte := header (at' t 124)

def laneUp (s : State) : State := { s with fab := { s.fab with lanes := [(0, { idleLane with state := .up })] } }

def voqIs (f : Voq → Voq) (s : State) : State := { s with qdm := { s.qdm with voqs := [(0, f emptyVoq)] } }

def fabIs (f : Fabric → Fabric) (s : State) : State := { s with fab := f s.fab }

def brIs (f : Bridge → Bridge) (s : State) : State := { s with bridge := f s.bridge }

def qdIs (f : Qdm → Qdm) (s : State) : State := { s with qdm := f s.qdm }

def grp (f : FlxGroup → FlxGroup) (s : State) : State :=
  { macs [(0, { phy .up with pcs := true })] s with flexe := { s.flexe with groups := [(0, f (group .up))] } }

def good : List Byte := frameOf (zeros 12 ++ [8, 0] ++ zeros 46)

def pauseFrame : List Byte := frameOf (pauseMac ++ zeros 6 ++ [0x88, 0x08, 0, 1, 0, 5] ++ zeros 42)

def waiting (l : Bool) : Waiting := { pkt := pkt, consumer := 0, since := 0, lossless := l, punt := none, leaf := none }

/-- A profile whose ingress table answers with a flow action. -/
def flowState : State :=
  conf (fun g => { g with profiles := [(1, zeros 8 ++ [0] ++ emptyProfile.drop 9)], selects := [(8, { prio := 0, profile := 1, key := 0, mask := 0, order := 0, index := 0 })],
                          ruleTables := [(0, { width := 0, hole := 16, dflt := le 4 1048576 ++ zeros 28 })] })
    { ready with fwd := { ready.fwd with recirc := [(0, [pkt])] } }

def lossy (s : State) : State :=
  conf (fun g => { g with dests := [(5, { dest 0 0 with profiles := List.replicate 8 1 })],
                          voqProfiles := [(1, { flags := 1, tailLimit := 0, ondieLimit := 0, spillHigh := 0, spillLow := 0, headKeep := 0, curve := [] })] }) s

def offered (p : Pkt) (s : State) : Waiting := (offer p s).1.getD (waiting true)

def selState : State :=
  let t := tree ready
  { t with macs := [(0, { port .up with pcs := true, announced := true })], sched := { t.sched with queues := [(0, [pkt])] } }

end W

/-! ### Commands that the states take -/

/-- A command of the register window that Teruo takes in a state. -/
def fits (op n : Nat) (c : Cmd) (s : State) : Bool :=
  c.source == 2 && fnExists 0 s && barServed s && s.mgmt.mbx != .pending && s.mgmt.mbx != .running && decide (16 + c.paramLen ≤ 1024) &&
  canAccept s && !s.mgmt.rom && !tagInUse (heldOf op c) s && !headerBad n (heldOf op c) && c.target == 0xFF

theorem offers_window {c : Cmd} {s : State} (h : (c.source == 2 && fnExists 0 s && barServed s && s.mgmt.mbx != .pending &&
    s.mgmt.mbx != .running && decide (16 + c.paramLen ≤ 1024)) = true) : sourceOffers c s := by
  simp only [Bool.and_eq_true, beq_iff_eq, bne_iff_ne, ne_eq, decide_eq_true_eq] at h
  obtain ⟨⟨⟨⟨⟨h1, h2⟩, h3⟩, h4⟩, h5⟩, h6⟩ := h
  unfold sourceOffers
  rw [h1]
  exact ⟨h2, h3, h4, h5, h6⟩

theorem accepted_window {op n : Nat} {c : Cmd} {s : State} (h : fits op n c s = true) : accepted op n c s := by
  simp only [fits, Bool.and_eq_true, beq_iff_eq, bne_iff_ne, ne_eq, decide_eq_true_eq, Bool.not_eq_true'] at h
  obtain ⟨⟨⟨⟨⟨⟨⟨⟨⟨⟨h1, h2⟩, h3⟩, h4⟩, h5⟩, h6⟩, h7⟩, h8⟩, h9⟩, h10⟩, h11⟩ := h
  exact ⟨offers_window (by simp [h1, h2, h3, h4, h5, h6]), h7, h8, h9, h10, .inl h11⟩

theorem takes_window {op n : Nat} {c : Cmd} {s : State} (h : fits op n c s = true) : takes op n c s (taken op c s) :=
  ⟨accepted_window h, rfl⟩

theorem takesConfig_window {op n : Nat} {c : Cmd} {s : State} (h : (fits op n c s && !standsBy s && !mirroring s) = true) :
    takesConfig op n c s (taken op c s) := by
  simp only [Bool.and_eq_true, Bool.not_eq_true'] at h
  exact ⟨⟨accepted_window h.1.1, h.1.2, h.2⟩, rfl⟩

theorem is_some {α : Type} {o : Option α} (h : o.isSome = true) : o = some (o.get h) := (Option.some_get h).symm

theorem is_pair {α β : Type} {p : Option α × β} (h : p.1.isSome = true) : p = (some (p.1.get h), p.2) :=
  Prod.ext (Option.some_get h).symm rfl

theorem is_none {α β : Type} {p : Option α × β} (h : p.1.isNone = true) : p = (none, p.2) :=
  Prod.ext (Option.isNone_iff_eq_none.mp h) rfl

theorem is_true {β : Type} {p : Bool × β} (h : p.1 = true) : p = (true, p.2) := Prod.ext h rfl

theorem is_false {β : Type} {p : Bool × β} (h : p.1 = false) : p = (false, p.2) := Prod.ext h rfl

theorem insertBy_length {α : Type} (lt : α → α → Bool) (x : α) (l : List α) : (insertBy lt x l).length = l.length + 1 := by
  induction l with
  | nil => rfl
  | cons y t ih => unfold insertBy; split <;> simp [ih]

theorem foldl_insertBy_length {α : Type} (lt : α → α → Bool) (l a : List α) :
    (l.foldl (fun a x => insertBy lt x a) a).length = a.length + l.length := by
  induction l generalizing a with
  | nil => rfl
  | cons x t ih => simp only [List.foldl_cons, ih, insertBy_length, List.length_cons]; omega

/-- A state whose first slot holds a fault record has a newest record. -/
theorem knell_first {s : State} {k : Nat} (hk : k = 0) (h : knellGood (knellSlot 0 s) = true) : ((knellRecords s)[k]?).isSome = true := by
  subst hk
  have : 0 < (knellRecords s).length := by
    unfold knellRecords sortBy
    rw [foldl_insertBy_length]
    refine Nat.lt_of_lt_of_le ?_ (Nat.le_add_left _ _)
    have m : (0, knellSlot 0 s) ∈ (List.range 256).map (fun k => (k, knellSlot k s)) :=
      List.mem_map_of_mem (f := fun k => (k, knellSlot k s)) (List.mem_range.mpr (by omega))
    generalize (List.range 256).map (fun k => (k, knellSlot k s)) = l at m ⊢
    generalize knellSlot 0 s = b at m h
    exact List.length_pos_of_mem (List.mem_filter.mpr ⟨m, h⟩)
  simp [this]
theorem crc32cRun_append (c : Nat) (a b : List Byte) : crc32cRun c (a ++ b) = crc32cRun (crc32cRun c a) b := by
  unfold crc32cRun; rw [List.foldl_append]

theorem knell_start : crc32cRun 0xFFFFFFFF (le 4 0x414C4B4E) = 2763792123 := by decide +kernel
theorem knell_half : crc32cRun 2763792123 (List.replicate 246 0xFF) = 3311980509 := by decide +kernel
theorem knell_rest : crc32cRun 3311980509 (List.replicate 246 0xFF) = 770782360 := by decide +kernel

/-- The 496 bytes that the check code of `knell` covers. -/
def W.knellBody : List Byte := le 4 0x414C4B4E ++ List.replicate 246 0xFF ++ List.replicate 246 0xFF

theorem knell_magic : rd (knellSlot 0 (W.knell W.ready)) 0 4 = 0x414C4B4E := by decide +kernel

theorem knell_check : rd (knellSlot 0 (W.knell W.ready)) 496 4 = 3524184935 := by decide +kernel

theorem knell_bytes : (knellSlot 0 (W.knell W.ready)).take 496 = W.knellBody := by decide +kernel

theorem knell_crc : crc32cRun 0xFFFFFFFF (W.knellBody) = 770782360 := by
  unfold W.knellBody
  simp only [crc32cRun_append, knell_start, knell_half, knell_rest]

theorem knellGood_of {r l : List Byte} {v w : Nat} (h1 : rd r 0 4 = 0x414C4B4E) (h2 : rd r 496 4 = v) (h3 : r.take 496 = l)
    (h4 : crc32cRun 0xFFFFFFFF l = w) (h5 : v = w ^^^ 0xFFFFFFFF) : knellGood r = true := by
  subst h3 h4 h5; simp [knellGood, crc32c, h1, h2]

theorem knell_good {s : State} (h : s.fw.flash = (W.knell W.ready).fw.flash) : knellGood (knellSlot 0 s) = true := by
  rw [show knellSlot 0 s = knellSlot 0 (W.knell W.ready) by unfold knellSlot flashRead; rw [h]]
  exact knellGood_of knell_magic knell_check knell_bytes knell_crc (by decide +kernel)

end Sys2Proof.Tests
end

