-- ==== Sys2Proof/Tests/Commands.lean ====
section
/-! SUPPORT. Witnesses: operands and states that meet the hypotheses of each clause of the completion statements of the commands of the catalogue. -/

namespace Sys2Proof.Tests
open Sys2Proof Sys2Proof.Machine

set_option Elab.async false

theorem witness_SystemCommandsComplete :
    (∃ c, ∃ s : State, ∃ u,
      takes 0x0101 0 c s u) ∧
    (∃ c, ∃ s : State, ∃ u r,
      takes 0x0102 8 c s u ∧ arg c 0 1 ≤ 5 ∧ argZero c 1 1 ∧ namedRunning (arg c 0 1) (arg c 2 2) (arg c 4 4) u = some r ∧ waitsMirror r.waits = false) ∧
    (∃ c, ∃ s : State, ∃ u r,
      takes 0x0103 8 c s u ∧ arg c 0 1 ≤ 5 ∧ argZero c 1 1 ∧ namedRunning (arg c 0 1) (arg c 2 2) (arg c 4 4) u = some r) ∧
    (∃ c, ∃ s : State, ∃ u d,
      takes 0x0103 8 c s u ∧ arg c 0 1 ≤ 5 ∧ argZero c 1 1 ∧ namedRunning (arg c 0 1) (arg c 2 2) (arg c 4 4) u = none ∧ namedDone (arg c 0 1) (arg c 2 2) (arg c 4 4) u = some d) ∧
    (∃ c, ∃ s : State, ∃ u,
      takes 0x0104 4 c s u ∧ argZero c 0 4) ∧
    (∃ c, ∃ s : State, ∃ u r,
      takes 0x0105 8 c s u ∧ arg c 0 1 ≤ 1 ∧ fnExists (arg c 0 1) u = true ∧ argZero c 1 1 ∧ arg c 4 2 % 2 = 0 ∧ argZero c 6 2 ∧ tollRingOf (arg c 0 1) (arg c 2 2) u = some r) ∧
    (∃ c, ∃ s : State, ∃ u,
      takes 0x0106 16 c s u ∧ 1 ≤ arg c 8 2 ∧ arg c 8 2 ≤ 1000 ∧ argZero c 10 6 ∧ arg c 0 8 ≤ u.mgmt.journalNext ∧ u.mem.journalBad = false) ∧
    (∃ c, ∃ s : State, ∃ u,
      takes 0x0106 16 c s u ∧ 1 ≤ arg c 8 2 ∧ arg c 8 2 ≤ 1000 ∧ argZero c 10 6 ∧ arg c 0 8 ≤ u.mgmt.journalNext ∧ u.mem.journalBad = true) ∧
    (∃ op c, ∃ s : State,
      sourceOffers c s ∧ canAccept s = true ∧ (∀ x ∈ catalogue, x.1 ≠ op)) :=
  ⟨⟨W.cmd (zeros 0), W.ready, _, takes_window (by decide +kernel)⟩,
   ⟨W.cmd (le 1 2 ++ zeros 3 ++ le 4 7), { W.ready with mgmt := { W.ready.mgmt with running := [W.run 7 (.timeOfDay 5)] } }, _, _, takes_window (by decide +kernel), by decide +kernel, by decide +kernel, is_some (by decide +kernel), by decide +kernel⟩,
   ⟨W.cmd (le 1 2 ++ zeros 3 ++ le 4 7), { W.ready with mgmt := { W.ready.mgmt with running := [W.run 7 (.timeOfDay 5)] } }, _, _, takes_window (by decide +kernel), by decide +kernel, by decide +kernel, is_some (by decide +kernel)⟩,
   ⟨W.cmd (le 1 2 ++ zeros 3 ++ le 4 9), { W.ready with mgmt := { W.ready.mgmt with done := [{ source := 2, origin := 0, tag := 9, op := 0x0101, status := 0, journalSeq := 0 }] } }, _, _, takes_window (by decide +kernel), by decide +kernel, by decide +kernel, by decide +kernel, is_some (by decide +kernel)⟩,
   ⟨W.cmd (zeros 4), W.ready, _, takes_window (by decide +kernel), by decide +kernel⟩,
   ⟨W.cmd (zeros 2 ++ le 2 0 ++ zeros 4), W.ready, _, _, takes_window (by decide +kernel), by decide +kernel, by decide +kernel, by decide +kernel, by decide +kernel, by decide +kernel, is_some (by decide +kernel)⟩,
   ⟨W.cmd (zeros 8 ++ le 2 1 ++ zeros 6), W.ready, _, takes_window (by decide +kernel), by decide +kernel⟩,
   ⟨W.cmd (zeros 8 ++ le 2 1 ++ zeros 6), { W.ready with mem := { W.ready.mem with journalBad := true } }, _, takes_window (by decide +kernel), by decide +kernel⟩,
   ⟨0x7777, W.cmd [], W.ready, offers_window (by decide +kernel), by decide +kernel⟩⟩

theorem witness_PortCommandsComplete :
    (∃ c, ∃ s : State, ∃ u,
      takes 0x0201 44 c s u ∧ arg c 0 2 < 80 ∧ mac? (arg c 0 2) u = none ∧ comboOk (portCfgOf (heldOf 0x0201 c)).speed (portCfgOf (heldOf 0x0201 c)).lanes (portCfgOf (heldOf 0x0201 c)).laneRate (portCfgOf (heldOf 0x0201 c)).fec = true ∧ (((portCfgOf (heldOf 0x0201 c)).flexePhy = false → macParamsBad (heldOf 0x0201 c) (speedGbps (portCfgOf (heldOf 0x0201 c)).speed) = false ∧ portNodes u < 192)) ∧ (((portCfgOf (heldOf 0x0201 c)).flexePhy = true → phyType (portCfgOf (heldOf 0x0201 c)).speed = true)) ∧ (arg c 0 2 % 10) % (portCfgOf (heldOf 0x0201 c)).lanes = 0 ∧ arg c 0 2 % 10 + (portCfgOf (heldOf 0x0201 c)).lanes ≤ 10 ∧ ((∀ p ∈ u.macs, p.1 < 80 → p.1 ≠ arg c 0 2 → lanesMeet (arg c 0 2) (portCfgOf (heldOf 0x0201 c)).lanes p.1 p.2.cfg.lanes = false))) ∧
    (∃ c, ∃ s : State, ∃ u x,
      takes 0x0202 4 c s u ∧ arg c 0 2 < 80 ∧ argZero c 2 2 ∧ mac? (arg c 0 2) u = some x ∧ phyGroup (arg c 0 2) u = none ∧ x.link = .adminDown ∧ nodeInUse (arg c 0 2) u = false) ∧
    (∃ c, ∃ s : State, ∃ u x,
      takes 0x0203 4 c s u ∧ arg c 0 2 < 80 ∧ arg c 2 1 ≤ 2 ∧ argZero c 3 1 ∧ mac? (arg c 0 2) u = some x ∧ phyGroup (arg c 0 2) u = none) ∧
    (∃ c, ∃ s : State, ∃ u x,
      takes 0x0204 4 c s u ∧ arg c 0 2 < 80 ∧ argZero c 2 2 ∧ mac? (arg c 0 2) u = some x) ∧
    (∃ c, ∃ s : State, ∃ u x,
      takes 0x0205 16 c s u ∧ arg c 0 2 < 80 ∧ arg c 2 1 ≤ 2 ∧ 1 ≤ arg c 3 1 ∧ arg c 3 1 ≤ 16 ∧ 1 ≤ arg c 4 1 ∧ argZero c 5 3 ∧ arg c 12 4 ≤ arg c 8 4 ∧ mac? (arg c 0 2) u = some x ∧ x.degrade.declared = false) ∧
    (∃ c, ∃ s : State, ∃ u x,
      takes 0x0206 8 c s u ∧ ((arg c 0 2 < 80 ∨ (128 ≤ arg c 0 2 ∧ arg c 0 2 < 256))) ∧ bit (arg c 2 1) 0 = 0 ∧ mac? (arg c 0 2) u = some x ∧ x.cfg.flexePhy = false) :=
  ⟨⟨W.cmd (le 2 79 ++ [3, 1, 3, 2] ++ zeros 38), W.ready, _, takes_window (by decide +kernel), by decide +kernel⟩,
   ⟨W.cmd (le 2 79 ++ zeros 2), W.macs [(79, W.port .adminDown)] W.ready, _, _, takes_window (by decide +kernel), by decide +kernel, by decide +kernel, is_some (by decide +kernel), by decide +kernel⟩,
   ⟨W.cmd (le 2 79 ++ [2, 0]), W.macs [(79, W.port .up)] W.ready, _, _, takes_window (by decide +kernel), by decide +kernel, by decide +kernel, by decide +kernel, is_some (by decide +kernel), by decide +kernel⟩,
   ⟨W.cmd (le 2 79 ++ zeros 2), W.macs [(79, W.port .up)] W.ready, _, _, takes_window (by decide +kernel), by decide +kernel, by decide +kernel, is_some (by decide +kernel)⟩,
   ⟨W.cmd (le 2 0 ++ [2, 16, 1, 0, 0, 0] ++ le 4 9 ++ le 4 9), W.macs [(0, W.port .up)] W.ready, _, _, takes_window (by decide +kernel), by decide +kernel, by decide +kernel, by decide +kernel, by decide +kernel, by decide +kernel, of_decide_eq_true (by decide +kernel), by decide +kernel, is_some (by decide +kernel), by decide +kernel⟩,
   ⟨W.cmd (le 2 79 ++ [2, 0, 0, 0, 0, 1]), W.macs [(79, W.port .up)] W.ready, _, _, takes_window (by decide +kernel), by decide +kernel, by decide +kernel, is_some (by decide +kernel), by decide +kernel⟩⟩

theorem witness_FlexeCommandsComplete :
    (∃ c, ∃ s : State, ∃ u g,
      takes 0x0301 24 c s u ∧ groupConfigBad (heldOf 0x0301 c) u = false ∧ (distinct ((phyList (heldOf 0x0301 c)).map (fun p => p.1 / 10))).length = 1 ∧ (∀ p ∈ phyList (heldOf 0x0301 c), phyGroup p.1 u = none) ∧ flxGroup (arg c 0 1) u = none ∧ g = newFlxGroup (arg c 2 1) (arg c 3 1) (arg c 4 4) (phyList (heldOf 0x0301 c))) ∧
    (∃ c, ∃ s : State, ∃ u x,
      takes 0x0302 4 c s u ∧ arg c 0 1 < 16 ∧ argZero c 1 3 ∧ flxGroup (arg c 0 1) u = some x ∧ x.state = .adminDown ∧ clientsOf (arg c 0 1) u = []) ∧
    (∃ c, ∃ s : State, ∃ u x,
      takes 0x0303 4 c s u ∧ arg c 0 1 < 16 ∧ arg c 1 1 ≤ 2 ∧ argZero c 2 2 ∧ flxGroup (arg c 0 1) u = some x ∧ heldGroup (arg c 0 1) u = false) ∧
    (∃ c, ∃ s : State, ∃ u x, ∃ k : FlxClient,
      takes 0x0304 44 c s u ∧ arg c 0 2 < 128 ∧ arg c 2 1 < 16 ∧ argZero c 3 1 ∧ 1 ≤ arg c 4 2 ∧ arg c 4 2 ≤ 0xFFFE ∧ (macParams (heldOf 0x0304 c)).flexePhy = false ∧ macParamsBad (heldOf 0x0304 c) (clientSize (arg c 0 2) u) = false ∧ flxGroup (arg c 2 1) u = some x ∧ ((∀ p ∈ u.flexe.clients, p.2.group = arg c 2 1 → p.2.clientId ≠ arg c 4 2)) ∧ aget u.flexe.clients (arg c 0 2) = none ∧ portNodes u < 192 ∧ k = { group := arg c 2 1, clientId := arg c 4 2, badRun := 0, mismatch := false }) ∧
    (∃ c, ∃ s : State, ∃ u,
      takes 0x0305 4 c s u ∧ arg c 0 2 < 128 ∧ argZero c 2 2 ∧ ahas u.flexe.clients (arg c 0 2) = true ∧ holdsSlot (arg c 0 2) u = false ∧ ((∀ y, mac? (128 + arg c 0 2) u = some y → y.link = .adminDown)) ∧ nodeInUse (128 + arg c 0 2) u = false) ∧
    (∃ c, ∃ s : State, ∃ u,
      takes 0x0306 4 c s u ∧ arg c 0 2 < 128 ∧ arg c 2 1 ≤ 2 ∧ argZero c 3 1 ∧ ahas u.flexe.clients (arg c 0 2) = true) ∧
    (∃ c, ∃ s : State, ∃ u x cal,
      takes 0x0307 4 c s u ∧ cal = (List.range (arg c 2 2)).map (fun k => arg c (4 + k) 1) ∧ arg c 0 1 < 16 ∧ arg c 1 1 ≤ 3 ∧ 4 + arg c 2 2 ≤ c.paramLen ∧ flxGroup (arg c 0 1) u = some x ∧ arg c 2 2 = slotCount x ∧ x.switch = none ∧ ((∀ e ∈ cal, e = 0xFF ∨ (∃ k, aget u.flexe.clients e = some k ∧ k.group = arg c 0 1))) ∧ ((∀ e ∈ distinct cal, e = 0xFF ∨ slotsOk (cal.countP (· == e)) = true)) ∧ ((bit (arg c 1 1) 0 = 1 → ∀ k ∈ clientsOf (arg c 0 1) u, (mac? (128 + k) u).any (fun y => y.link != .adminDown) = true → (txCal x x.txB).contains k = true → cal.contains k = true))) ∧
    (∃ c, ∃ s : State, ∃ u x,
      takes 0x0308 4 c s u ∧ arg c 0 1 < 16 ∧ argZero c 1 3 ∧ flxGroup (arg c 0 1) u = some x ∧ x.state = .up ∧ x.switch = none) ∧
    (∃ c, ∃ s : State, ∃ u x,
      takes 0x0309 4 c s u ∧ arg c 0 1 < 16 ∧ argZero c 1 3 ∧ flxGroup (arg c 0 1) u = some x) :=
  ⟨⟨W.cmd ([15, 1, 0, 15] ++ le 4 0xFFFFE ++ [79, 254] ++ zeros 14), W.macs [(79, W.phy .up)] W.ready, _, _, takes_window (by decide +kernel), by decide +kernel, by decide +kernel, by decide +kernel, by decide +kernel, rfl⟩,
   ⟨W.cmd [0, 0, 0, 0], { W.ready with flexe := { W.ready.flexe with groups := [(0, W.group .adminDown)] } }, _, _, takes_window (by decide +kernel), by decide +kernel, by decide +kernel, is_some (by decide +kernel), by decide +kernel⟩,
   ⟨W.cmd [0, 2, 0, 0], W.macs [(0, W.phy .up)] { W.ready with flexe := { W.ready.flexe with groups := [(0, W.group .up)] } }, _, _, takes_window (by decide +kernel), by decide +kernel, by decide +kernel, by decide +kernel, is_some (by decide +kernel), by decide +kernel⟩,
   ⟨W.cmd (le 2 127 ++ [0, 0] ++ le 2 0xFFFE ++ zeros 38), W.macs [(0, W.phy .up)] { W.ready with flexe := { W.ready.flexe with groups := [(0, W.group .up)] } }, _, _, _, takes_window (by decide +kernel), by decide +kernel, by decide +kernel, by decide +kernel, by decide +kernel, by decide +kernel, of_decide_eq_true (by decide +kernel), by decide +kernel, is_some (by decide +kernel), by decide +kernel, by decide +kernel, by decide +kernel, rfl⟩,
   ⟨W.cmd (le 2 1 ++ [0, 0]), W.macs [(129, W.port .adminDown)] { W.ready with flexe := { W.ready.flexe with groups := [(0, W.group .up)], clients := [(1, W.client)] } }, _, takes_window (by decide +kernel), by decide +kernel⟩,
   ⟨W.cmd (le 2 1 ++ [1, 0]), W.macs [(129, W.port .adminDown)] { W.ready with flexe := { W.ready.flexe with groups := [(0, W.group .up)], clients := [(1, W.client)] } }, _, takes_window (by decide +kernel), by decide +kernel⟩,
   ⟨W.cmd ([0, 3] ++ le 2 20 ++ List.replicate 5 1 ++ List.replicate 15 0xFF), W.macs [(129, W.port .adminDown)] { W.ready with flexe := { W.ready.flexe with groups := [(0, W.group .up)], clients := [(1, W.client)] } }, _, _, _, takes_window (by decide +kernel), rfl, by decide +kernel, by decide +kernel, by decide +kernel, is_some (by decide +kernel), by decide +kernel⟩,
   ⟨W.cmd [0, 0, 0, 0], { W.ready with flexe := { W.ready.flexe with groups := [(0, W.group .up)] } }, _, _, takes_window (by decide +kernel), by decide +kernel, by decide +kernel, is_some (by decide +kernel), by decide +kernel⟩,
   ⟨W.cmd [0, 0, 0, 0], { W.ready with flexe := { W.ready.flexe with groups := [(0, W.group .up)] } }, _, _, takes_window (by decide +kernel), by decide +kernel, by decide +kernel, is_some (by decide +kernel)⟩⟩

theorem witness_ParseCommandsComplete :
    (∃ c, ∃ s : State, ∃ u,
      takesConfig 0x0401 18 c s u ∧ (∀ k < 18, arg c k 1 ≤ 63)) ∧
    (∃ c, ∃ s : State, ∃ u,
      takesConfig 0x0402 192 c s u ∧ profileMalformed (argBytes c 0 192) = false ∧ pIngTable (argBytes c 0 192) = 0xFF ∧ pEgrTable (argBytes c 0 192) = 0xFF ∧ keyBits (argBytes c 0 192) (pFlow (argBytes c 0 192)) ≤ 384) ∧
    (∃ c, ∃ s : State, ∃ u,
      takesConfig 0x0403 4 c s u ∧ arg c 0 2 ≤ 511 ∧ argZero c 2 2 ∧ liveOrStaged (fun g => ahas g.profiles (arg c 0 2)) u = true ∧ liveOrStaged (fun g => (avals g.selects).any (fun e => e.profile == arg c 0 2)) u = false) ∧
    (∃ c, ∃ s : State, ∃ u,
      takesConfig 0x0405 4 c s u ∧ liveOrStaged (fun g => ahas g.selects (arg c 0 4)) u = true) ∧
    (∃ c, ∃ s : State, ∃ u,
      takesConfig 0x0406 65 c s u ∧ arg c 0 1 ≤ 15 ∧ (∀ k < 64, arg c (1 + k) 1 ≤ 7)) ∧
    (∃ c, ∃ s : State, ∃ u,
      takesConfig 0x0407 36 c s u ∧ arg c 0 1 ≤ 1 ∧ arg c 1 1 ≤ 254 ∧ arg c 2 1 ≤ 2 ∧ arg c 3 1 ∈ [1, 4, 8, 16, 32, 64] ∧ actionRefused (arg c 0 1) (arg c 1 1) (argBytes c 4 32) u = none ∧ tablesNamed (arg c 0 1) (arg c 1 1) u = []) ∧
    (∃ c, ∃ s : State, ∃ u,
      takesConfig 0x0408 4 c s u ∧ arg c 0 1 ≤ 1 ∧ arg c 1 1 ≤ 254 ∧ argZero c 2 2 ∧ tablesNamed (arg c 0 1) (arg c 1 1) u ≠ [] ∧ tableHoldsRule (arg c 0 1) (arg c 1 1) u = false ∧ tableNamed (arg c 0 1) (arg c 1 1) u = false) ∧
    (∃ c, ∃ s : State, ∃ u,
      takesConfig 0x040E 12 c s u ∧ argZero c 1 1 ∧ arg c 2 2 ≤ 4095 ∧ ((arg c 4 2 = 0 ∨ (64 ≤ arg c 4 2 ∧ arg c 4 2 ≤ 512 ∧ arg c 4 2 % 64 = 0))) ∧ arg c 6 2 ≠ 0 ∧ arg c 8 4 ≤ 200000000) :=
  ⟨⟨W.cmd (List.replicate 18 63), W.ready, _, takesConfig_window (by decide +kernel), by decide +kernel⟩,
   ⟨W.cmd ([0xFF, 1, 0, 0, 14, 0, 0, 0, 0xFF, 0xFF, 0xFF, 0, 0xFF, 0xFF, 0xFF, 0xFF, 0xFF, 0xFF] ++ zeros 174), W.ready, _, takesConfig_window (by decide +kernel), by decide +kernel⟩,
   ⟨W.cmd (le 4 511), W.conf (fun g => { g with profiles := [(511, emptyProfile)] }) W.ready, _, takesConfig_window (by decide +kernel), by decide +kernel⟩,
   ⟨W.cmd (le 4 7), W.conf (fun g => { g with selects := [(7, { prio := 0, profile := 0, key := 0, mask := 0, order := 0, index := 0 })] }) W.ready, _, takesConfig_window (by decide +kernel), by decide +kernel⟩,
   ⟨W.cmd ([15] ++ List.replicate 64 7), W.ready, _, takesConfig_window (by decide +kernel), by decide +kernel⟩,
   ⟨W.cmd ([1, 254, 2, 64] ++ zeros 32), W.ready, _, takesConfig_window (by decide +kernel), by decide +kernel⟩,
   ⟨W.cmd [1, 254, 0, 0], W.conf (fun g => { g with ruleTables := [(tableKey 1 254, W.tb)] }) W.ready, _, takesConfig_window (by decide +kernel), by decide +kernel⟩,
   ⟨W.cmd ([64, 0] ++ le 2 4095 ++ le 2 512 ++ le 2 1 ++ le 4 200000000), W.ready, _, takesConfig_window (by decide +kernel), by decide +kernel⟩⟩

theorem witness_RuleCommandsComplete :
    (∃ c, ∃ s : State, ∃ u e id index moves,
      takesConfig 0x0404 48 c s u ∧ arg c 4 2 ≤ 511 ∧ argZero c 6 2 ∧ beVal (argBytes c 8 20) ||| beVal (argBytes c 28 20) = beVal (argBytes c 28 20) ∧ bits (beVal (argBytes c 8 20)) 148 144 = 0 ∧ liveOrStaged (fun g => ahas g.profiles (arg c 4 2)) u = true ∧ e = { prio := arg c 0 4, profile := arg c 4 2, key := beVal (argBytes c 8 20), mask := beVal (argBytes c 28 20), order := u.nextOrder, index := 0 } ∧ pickId 2048 (fun k => !selectHeld u k) u = some id ∧ selectPlace e u = some (index, moves) ∧ (selectIndices u).length + selectCopies u + moves.length + 1 ≤ 2048) ∧
    (∃ c, ∃ s : State, ∃ u tb r id index moves,
      takesConfig 0x0409 200 c s u ∧ arg c 0 1 ≤ 1 ∧ arg c 1 1 ≤ 254 ∧ argZero c 2 2 ∧ beVal (argBytes c 8 80) ||| beVal (argBytes c 88 80) = beVal (argBytes c 88 80) ∧ rd (argBytes c 8 80) 0 1 = arg c 1 1 ∧ rd (argBytes c 88 80) 0 1 = 0xFF ∧ actionMalformed (argBytes c 168 32) = false ∧ aget (nextConf u).ruleTables (tableKey (arg c 0 1) (arg c 1 1)) = some tb ∧ allZero ((argBytes c 8 80).drop (20 * 2 ^ tb.width)) = true ∧ allZero ((argBytes c 88 80).drop (20 * 2 ^ tb.width)) = true ∧ actionRefused (arg c 0 1) (arg c 1 1) (argBytes c 168 32) u = none ∧ r = { table := arg c 1 1, prio := arg c 4 4, key := argBytes c 8 80, mask := argBytes c 88 80, action := argBytes c 168 32, order := u.nextOrder, index := 0 } ∧ pickId (ruleIds (arg c 0 1)) (fun id => !ruleHeld u (ruleKey (arg c 0 1) id)) u = some id ∧ rulePlace (arg c 0 1) tb r u = some (index, moves) ∧ entriesUsed (arg c 0 1) u + ruleCopies (arg c 0 1) none u + (moves.length + 1) * 2 ^ tb.width ≤ ruleCapacity (arg c 0 1)) ∧
    (∃ c, ∃ s : State, ∃ u,
      takesConfig 0x040A 8 c s u ∧ arg c 0 1 ≤ 1 ∧ argZero c 1 3 ∧ arg c 4 4 < ruleIds (arg c 0 1) ∧ ahas (nextConf u).rules (ruleKey (arg c 0 1) (arg c 4 4)) = true) ∧
    (∃ c, ∃ s : State, ∃ u r,
      takesConfig 0x040B 40 c s u ∧ arg c 0 1 ≤ 1 ∧ argZero c 1 3 ∧ arg c 4 4 < ruleIds (arg c 0 1) ∧ actionMalformed (argBytes c 8 32) = false ∧ aget (nextConf u).rules (ruleKey (arg c 0 1) (arg c 4 4)) = some r ∧ actionRefused (arg c 0 1) r.table (argBytes c 8 32) u = none) ∧
    (∃ c, ∃ s : State, ∃ u r,
      takes 0x040C 12 c s u ∧ arg c 0 1 ≤ 1 ∧ argZero c 1 3 ∧ arg c 4 4 < ruleIds (arg c 0 1) ∧ (standingRules u).find? (fun q => q.1 == ruleKey (arg c 0 1) (arg c 4 4)) = some (ruleKey (arg c 0 1) (arg c 4 4), r)) ∧
    (∃ c, ∃ s : State, ∃ u r,
      takes 0x040D 8 c s u ∧ arg c 0 1 ≤ 1 ∧ argZero c 1 3 ∧ arg c 4 4 < ruleIds (arg c 0 1) ∧ ruleHeld u (ruleKey (arg c 0 1) (arg c 4 4)) = true ∧ ruleRecord u (ruleKey (arg c 0 1) (arg c 4 4)) = some r) ∧
    (∃ c, ∃ s : State, ∃ u,
      takes 0x040F 4 c s u ∧ arg c 0 1 ≤ 1 ∧ argZero c 1 3) :=
  ⟨⟨W.cmd (le 4 1 ++ le 2 511 ++ zeros 42), W.conf (fun g => { g with profiles := [(511, emptyProfile)] }) W.ready, _, _, _, _, _, takesConfig_window (by decide +kernel), by decide +kernel, by decide +kernel, by decide +kernel, by decide +kernel, by decide +kernel, rfl, is_some (by decide +kernel), is_some (by decide +kernel), by decide +kernel⟩,
   ⟨W.cmd (zeros 8 ++ zeros 80 ++ [0xFF] ++ zeros 79 ++ zeros 32), W.conf (fun g => { g with ruleTables := [(0, W.tb)] }) W.ready, _, _, _, _, _, _, takesConfig_window (by decide +kernel), by decide +kernel, by decide +kernel, by decide +kernel, by decide +kernel, by decide +kernel, of_decide_eq_true (by decide +kernel), by decide +kernel, is_some (by decide +kernel), by decide +kernel, by decide +kernel, by decide +kernel, rfl, is_some (by decide +kernel), is_some (by decide +kernel), by decide +kernel⟩,
   ⟨W.cmd ([0, 0, 0, 0] ++ le 4 131071), W.conf (fun g => { g with rules := [(131071, W.rule)] }) W.ready, _, takesConfig_window (by decide +kernel), by decide +kernel⟩,
   ⟨W.cmd ([0, 0, 0, 0] ++ le 4 131071 ++ zeros 32), W.conf (fun g => { g with rules := [(131071, W.rule)] }) W.ready, _, _, takesConfig_window (by decide +kernel), by decide +kernel, by decide +kernel, by decide +kernel, by decide +kernel, is_some (by decide +kernel), by decide +kernel⟩,
   ⟨W.cmd ([0, 0, 0, 0] ++ le 4 5 ++ zeros 4), W.conf (fun g => { g with rules := [(5, W.rule), (6, W.rule), (9, { W.rule with prio := 0, order := 4 })] }) W.ready, _, W.rule, takes_window (by decide +kernel), by decide +kernel⟩,
   ⟨W.cmd ([0, 0, 0, 0] ++ le 4 5), W.conf (fun g => { g with rules := [(5, W.rule), (6, W.rule)] }) W.ready, _, _, takes_window (by decide +kernel), by decide +kernel, by decide +kernel, by decide +kernel, by decide +kernel, is_some (by decide +kernel)⟩,
   ⟨W.cmd [1, 0, 0, 0], W.conf (fun g => { g with rules := [(5, W.rule), (131077, W.rule)], ruleTables := [(256, W.tb)] }) W.ready, _, takes_window (by decide +kernel), by decide +kernel⟩⟩

theorem witness_TableCommandsComplete :
    (∃ c, ∃ s : State, ∃ u,
      takesConfig 0x0501 4 c s u ∧ arg c 2 1 ≤ 1 ∧ argZero c 3 1) ∧
    (∃ c, ∃ s : State, ∃ u,
      takes 0x0502 0 c s u) ∧
    (∃ c, ∃ s : State, ∃ u,
      takes 0x0503 8 c s u ∧ argZero c 1 3 ∧ arg c 4 4 < idCapacity (arg c 0 1)) ∧
    (∃ c, ∃ s : State, ∃ u,
      takesConfig 0x0504 4 c s u) ∧
    (∃ c, ∃ s : State, ∃ u, ∃ ft : FlowTable,
      takes 0x0520 20 c s u ∧ arg c 0 1 ≤ 15 ∧ arg c 1 1 ≤ 1 ∧ arg c 2 1 ≤ 31 ∧ argZero c 3 1 ∧ arg c 4 4 ≠ 0 ∧ arg c 4 4 % 65536 = 0 ∧ arg c 8 4 ≤ 86400 ∧ ctxActionBad (arg c 12 4) (arg c 16 4) = false ∧ flowTable (arg c 0 1) u = none ∧ u.fwd.flowTables.foldl (fun a p => if p.1 = arg c 0 1 then a else a + p.2.contexts) 0 + arg c 4 4 ≤ 4194304 ∧ ft = { policy := arg c 1 1, flags := arg c 2 1, contexts := arg c 4 4, idle := arg c 8 4, learnAction := arg c 12 4, learnNh := arg c 16 4 }) ∧
    (∃ c, ∃ s : State, ∃ u f,
      takes 0x0521 4 c s u ∧ arg c 0 1 ≤ 15 ∧ argZero c 1 3 ∧ flowTable (arg c 0 1) u = some f ∧ flowNamed (arg c 0 1) u = false ∧ flowsOf (arg c 0 1) u = []) ∧
    (∃ c, ∃ s : State, ∃ u f gone,
      takes 0x0522 4 c s u ∧ arg c 0 1 ≤ 15 ∧ arg c 1 1 ≤ 1 ∧ argZero c 2 2 ∧ flowTable (arg c 0 1) u = some f ∧ gone = (flowsOf (arg c 0 1) u).filter (fun f => f.lock.isNone && (!f.isStatic || arg c 1 1 == 1))) ∧
    (∃ c, ∃ s : State, ∃ u,
      takes 0x0523 0 c s u) :=
  ⟨⟨W.cmd (le 2 65535 ++ [1, 0]), W.ready, _, takesConfig_window (by decide +kernel), by decide +kernel⟩,
   ⟨W.cmd (zeros 0), W.ready, _, takes_window (by decide +kernel)⟩,
   ⟨W.cmd ([2, 0, 0, 0] ++ le 4 0), W.ready, _, takes_window (by decide +kernel), by decide +kernel⟩,
   ⟨W.cmd (zeros 4), W.ready, _, takesConfig_window (by decide +kernel)⟩,
   ⟨W.cmd ([15, 1, 31, 0] ++ le 4 65536 ++ le 4 86400 ++ zeros 8), W.ready, _, _, takes_window (by decide +kernel), by decide +kernel, by decide +kernel, by decide +kernel, by decide +kernel, by decide +kernel, of_decide_eq_true (by decide +kernel), by decide +kernel, by decide +kernel, by decide +kernel, by decide +kernel, rfl⟩,
   ⟨W.cmd [15, 0, 0, 0], { W.ready with fwd := { W.ready.fwd with flowTables := [(15, W.ft)] } }, _, _, takes_window (by decide +kernel), by decide +kernel, by decide +kernel, is_some (by decide +kernel), by decide +kernel⟩,
   ⟨W.cmd [0, 1, 0, 0], { W.ready with fwd := { W.ready.fwd with flowTables := [(0, W.ft)], flows := [W.ctx, { W.ctx with key := [1], isStatic := true }, { W.ctx with key := [2], lock := some 0 }] } }, _, _, _, takes_window (by decide +kernel), by decide +kernel, by decide +kernel, by decide +kernel, is_some (by decide +kernel), rfl⟩,
   ⟨W.cmd (zeros 0), W.ready, _, takes_window (by decide +kernel)⟩⟩

theorem witness_TableDescriptorsStage :
    (∃ d, ∃ s : State, ∃ x u v6 len vrf v,
      takesTable 0x01 d s x u ∧ standsBy u = false ∧ mirroring u = false ∧ stagingFull 1 u = false ∧ routeOf (bytesOf64 d) = some (v6, len, vrf, v) ∧ resultOk (if len = (if v6 then 128 else 32) then .host else .net) (rd (bytesOf64 d) 32 8) = true ∧ resultDangling (rd (bytesOf64 d) 32 8) u = false ∧ entriesHeld (heldWith (.route (routeKey v6 vrf len v) (some (rd (bytesOf64 d) 32 8))) u) ≤ entryCapacity ∧ unitsHeld (heldWith (.route (routeKey v6 vrf len v) (some (rd (bytesOf64 d) 32 8))) u) ≤ routeUnitCapacity) ∧
    (∃ d, ∃ s : State, ∃ x u v6 len vrf v,
      takesTable 0x02 d s x u ∧ standsBy u = false ∧ mirroring u = false ∧ stagingFull 1 u = false ∧ routeOf (bytesOf64 d) = some (v6, len, vrf, v) ∧ rd (bytesOf64 d) 32 8 = 0 ∧ ahas (nextConf u).routes (routeKey v6 vrf len v) = true) ∧
    (∃ d, ∃ s : State, ∃ x u,
      takesTable 0x03 d s x u ∧ standsBy u = false ∧ mirroring u = false ∧ stagingFull 1 u = false ∧ rd (bytesOf64 d) 8 4 < 1048576 ∧ descZero (bytesOf64 d) 12 20 = true ∧ descZero (bytesOf64 d) 40 24 = true ∧ resultOk .label (rd (bytesOf64 d) 32 8) = true ∧ resultDangling (rd (bytesOf64 d) 32 8) u = false ∧ entriesHeld (heldWith (.label (rd (bytesOf64 d) 8 4) (some (rd (bytesOf64 d) 32 8))) u) ≤ entryCapacity) ∧
    (∃ d, ∃ s : State, ∃ x u,
      takesTable 0x04 d s x u ∧ standsBy u = false ∧ mirroring u = false ∧ stagingFull 1 u = false ∧ rd (bytesOf64 d) 8 4 < 1048576 ∧ descZero (bytesOf64 d) 12 52 = true ∧ ahas (nextConf u).labels (rd (bytesOf64 d) 8 4) = true) ∧
    (∃ d, ∃ s : State, ∃ x u,
      takesTable 0x05 d s x u ∧ standsBy u = false ∧ mirroring u = false ∧ stagingFull 1 u = false ∧ nextHopBad (bytesOf64 d) = false ∧ (((nextHopOf (bytesOf64 d)).kind = 0 → idNext 2 (nextHopOf (bytesOf64 d)).template u = true)) ∧ setRefused 0 (descId (bytesOf64 d)) u = none) ∧
    (∃ d, ∃ s : State, ∃ x u,
      takesTable 0x06 d s x u ∧ standsBy u = false ∧ mirroring u = false ∧ stagingFull 1 u = false ∧ descId (bytesOf64 d) < nextHopCapacity ∧ descZero (bytesOf64 d) 12 52 = true ∧ idNext 0 (descId (bytesOf64 d)) u = true ∧ refsIn 0 (descId (bytesOf64 d)) (nextConf u) = 0) ∧
    (∃ d, ∃ s : State, ∃ x u b l,
      takesTable 0x07 d s x u ∧ standsBy u = false ∧ mirroring u = false ∧ d.data = some b ∧ l = (List.range (rd (bytesOf64 d) 12 2)).map (fun k => rd b (4 * k) 4) ∧ descId (bytesOf64 d) < groupCapacity ∧ 1 ≤ rd (bytesOf64 d) 12 2 ∧ rd (bytesOf64 d) 12 2 ≤ 512 ∧ descZero (bytesOf64 d) 14 2 = true ∧ descZero (bytesOf64 d) 24 40 = true ∧ (∀ k ∈ l, k < nextHopCapacity ∧ idNext 0 k u = true) ∧ setRefused 1 (descId (bytesOf64 d)) u = none ∧ slotsUsed u + slotsStaged (batchesWith (.ecmp (descId (bytesOf64 d)) (some l)) u) ≤ slotCapacity ∧ stagingFull (1 + (rd (bytesOf64 d) 12 2 + 15) / 16) u = false) ∧
    (∃ d, ∃ s : State, ∃ x u,
      takesTable 0x08 d s x u ∧ standsBy u = false ∧ mirroring u = false ∧ stagingFull 1 u = false ∧ descId (bytesOf64 d) < groupCapacity ∧ descZero (bytesOf64 d) 12 52 = true ∧ idNext 1 (descId (bytesOf64 d)) u = true ∧ refsIn 1 (descId (bytesOf64 d)) (nextConf u) = 0) ∧
    (∃ d, ∃ s : State, ∃ x u b,
      takesTable 0x09 d s x u ∧ standsBy u = false ∧ mirroring u = false ∧ stagingFull 1 u = false ∧ d.data = some b ∧ descId (bytesOf64 d) < templateCapacity ∧ descZero (bytesOf64 d) 12 4 = true ∧ descZero (bytesOf64 d) 24 40 = true ∧ templateMalformed (fit 64 b) = false ∧ tChain (fit 64 b) = none ∧ chainsBad (applyChange (nextConf u) (.template (descId (bytesOf64 d)) (some (fit 64 b)))) = false ∧ setRefused 2 (descId (bytesOf64 d)) u = none) ∧
    (∃ d, ∃ s : State, ∃ x u,
      takesTable 0x0A d s x u ∧ standsBy u = false ∧ mirroring u = false ∧ stagingFull 1 u = false ∧ descId (bytesOf64 d) < templateCapacity ∧ descZero (bytesOf64 d) 12 52 = true ∧ idNext 2 (descId (bytesOf64 d)) u = true ∧ refsIn 2 (descId (bytesOf64 d)) (nextConf u) = 0) :=
  ⟨⟨W.desc ([1, 1, 0, 0, 7, 0, 0, 0, 4, 24] ++ zeros 6 ++ [10, 0, 0, 0] ++ zeros 12 ++ le 8 (2 * 2 ^ 61)), W.rings .table W.ready, _, _, _, _, _, _, ⟨is_some (by decide +kernel), by decide +kernel, by decide +kernel, by decide +kernel, by decide +kernel, by decide +kernel, fun _ => by decide +kernel, rfl⟩, by decide +kernel, by decide +kernel, by decide +kernel, is_some (by decide +kernel), by decide +kernel⟩,
   ⟨W.desc ([2, 1, 0, 0, 7, 0, 0, 0, 4, 24] ++ zeros 6 ++ [10, 0, 0, 0]), W.conf (fun g => { g with routes := [(routeKey false 0 24 0x0A000000, 2 * 2 ^ 61)] }) (W.rings .table W.ready), _, _, _, _, _, _, ⟨is_some (by decide +kernel), by decide +kernel, by decide +kernel, by decide +kernel, by decide +kernel, by decide +kernel, fun _ => by decide +kernel, rfl⟩, by decide +kernel, by decide +kernel, by decide +kernel, is_some (by decide +kernel), by decide +kernel⟩,
   ⟨W.desc ([3, 1, 0, 0, 7, 0, 0, 0] ++ le 4 1048575 ++ zeros 20 ++ le 8 (2 * 2 ^ 61)), W.rings .table W.ready, _, _, ⟨is_some (by decide +kernel), by decide +kernel, by decide +kernel, by decide +kernel, by decide +kernel, by decide +kernel, fun _ => by decide +kernel, rfl⟩, by decide +kernel⟩,
   ⟨W.desc ([4, 1, 0, 0, 7, 0, 0, 0] ++ le 4 5), W.conf (fun g => { g with labels := [(5, 2 * 2 ^ 61)] }) (W.rings .table W.ready), _, _, ⟨is_some (by decide +kernel), by decide +kernel, by decide +kernel, by decide +kernel, by decide +kernel, by decide +kernel, fun _ => by decide +kernel, rfl⟩, by decide +kernel⟩,
   ⟨W.desc ([5, 1, 0, 0, 7, 0, 0, 0] ++ le 4 (nextHopCapacity - 1) ++ [0, 0] ++ le 2 3 ++ le 4 9), W.conf (fun g => { g with templates := [(9, zeros 64)] }) (W.rings .table W.ready), _, _, ⟨is_some (by decide +kernel), by decide +kernel, by decide +kernel, by decide +kernel, by decide +kernel, by decide +kernel, fun _ => by decide +kernel, rfl⟩, by decide +kernel⟩,
   ⟨W.desc ([6, 1, 0, 0, 7, 0, 0, 0] ++ le 4 5), W.conf (fun g => { g with nextHops := [(5, W.nh)] }) (W.rings .table W.ready), _, _, ⟨is_some (by decide +kernel), by decide +kernel, by decide +kernel, by decide +kernel, by decide +kernel, by decide +kernel, fun _ => by decide +kernel, rfl⟩, by decide +kernel⟩,
   ⟨{ W.desc ([7, 1, 0, 0, 7, 0, 0, 0] ++ le 4 (groupCapacity - 1) ++ le 2 2) with data := some (le 4 5 ++ le 4 5) }, W.conf (fun g => { g with nextHops := [(5, W.nh)] }) (W.rings .table W.ready), _, _, _, _, ⟨is_some (by decide +kernel), by decide +kernel, by decide +kernel, by decide +kernel, by decide +kernel, by decide +kernel, fun _ => by decide +kernel, rfl⟩, by decide +kernel, by decide +kernel, is_some (by decide +kernel), rfl, by decide +kernel⟩,
   ⟨W.desc ([8, 1, 0, 0, 7, 0, 0, 0] ++ le 4 5), W.conf (fun g => { g with ecmp := [(5, [1])] }) (W.rings .table W.ready), _, _, ⟨is_some (by decide +kernel), by decide +kernel, by decide +kernel, by decide +kernel, by decide +kernel, by decide +kernel, fun _ => by decide +kernel, rfl⟩, by decide +kernel⟩,
   ⟨{ W.desc ([9, 1, 0, 0, 7, 0, 0, 0] ++ le 4 (templateCapacity - 1)) with data := some (zeros 64) }, W.rings .table W.ready, _, _, _, ⟨is_some (by decide +kernel), by decide +kernel, by decide +kernel, by decide +kernel, by decide +kernel, by decide +kernel, fun _ => by decide +kernel, rfl⟩, by decide +kernel, by decide +kernel, by decide +kernel, is_some (by decide +kernel), by decide +kernel⟩,
   ⟨W.desc ([10, 1, 0, 0, 7, 0, 0, 0] ++ le 4 5), W.conf (fun g => { g with templates := [(5, zeros 64)] }) (W.rings .table W.ready), _, _, ⟨is_some (by decide +kernel), by decide +kernel, by decide +kernel, by decide +kernel, by decide +kernel, by decide +kernel, fun _ => by decide +kernel, rfl⟩, by decide +kernel⟩⟩

theorem witness_FlowDescriptorsAct :
    (∃ d, ∃ s : State, ∃ x u b ft f,
      takesTable 0x10 d s x u ∧ flowDescBad (bytesOf64 d) 1 = false ∧ flowTable (rd (bytesOf64 d) 8 1) u = some ft ∧ d.data = some b ∧ findFlow (rd (bytesOf64 d) 8 1) (slice b 8 48) u = some f ∧ rd (bytesOf64 d) 9 1 = 0) ∧
    (∃ d, ∃ s : State, ∃ x u b ft f g,
      takesTable 0x10 d s x u ∧ flowDescBad (bytesOf64 d) 1 = false ∧ flowTable (rd (bytesOf64 d) 8 1) u = some ft ∧ d.data = some b ∧ findFlow (rd (bytesOf64 d) 8 1) (slice b 8 48) u = some f ∧ rd (bytesOf64 d) 9 1 = 1 ∧ f.lock = none ∧ lockCount u < 1024 ∧ g = { f with lock := some u.elapsed, keptPackets := 0, keptBytes := 0, keptLast := 0, lapsed := false }) ∧
    (∃ d, ∃ s : State, ∃ x u b ft f,
      takesTable 0x11 d s x u ∧ flowDescBad (bytesOf64 d) 15 = false ∧ rd (bytesOf64 d) 9 1 % 4 = 2 ∧ flowTable (rd (bytesOf64 d) 8 1) u = some ft ∧ d.data = some b ∧ findFlow (rd (bytesOf64 d) 8 1) (ctxOf (rd (bytesOf64 d) 8 1) b).key u = some f ∧ f.lock = none) ∧
    (∃ d, ∃ s : State, ∃ x u b ft k v,
      takesTable 0x11 d s x u ∧ flowDescBad (bytesOf64 d) 15 = false ∧ rd (bytesOf64 d) 9 1 % 4 ≠ 1 ∧ rd (bytesOf64 d) 9 1 % 4 ≠ 3 ∧ flowTable (rd (bytesOf64 d) 8 1) u = some ft ∧ d.data = some b ∧ findFlow (rd (bytesOf64 d) 8 1) (ctxOf (rd (bytesOf64 d) 8 1) b).key u = none ∧ makeRoom (bit (rd (bytesOf64 d) 9 1) 3 == 1) (rd (bytesOf64 d) 8 1) ft (flowBucketOf (rd (bytesOf64 d) 8 1) ft (ctxOf (rd (bytesOf64 d) 8 1) b).key) u = some (k, v)) ∧
    (∃ d, ∃ s : State, ∃ x u b ft f,
      takesTable 0x12 d s x u ∧ flowDescBad (bytesOf64 d) 0 = false ∧ flowTable (rd (bytesOf64 d) 8 1) u = some ft ∧ d.data = some b ∧ findFlow (rd (bytesOf64 d) 8 1) (slice b 8 48) u = some f) :=
  ⟨⟨{ W.desc ([0x10, 1, 0, 0, 7, 0, 0, 0]) with data := some (zeros 128) }, W.flows [W.ctx] (W.rings .table W.ready), _, _, _, _, _, ⟨is_some (by decide +kernel), by decide +kernel, by decide +kernel, by decide +kernel, by decide +kernel, by decide +kernel, fun _ => by decide +kernel, rfl⟩, by decide +kernel, is_some (by decide +kernel), is_some (by decide +kernel), is_some (by decide +kernel), by decide +kernel⟩,
   ⟨{ W.desc ([0x10, 1, 0, 0, 7, 0, 0, 0, 0, 1]) with data := some (zeros 128) }, W.flows [W.ctx] (W.rings .table W.ready), _, _, _, _, _, _, ⟨is_some (by decide +kernel), by decide +kernel, by decide +kernel, by decide +kernel, by decide +kernel, by decide +kernel, fun _ => by decide +kernel, rfl⟩, by decide +kernel, is_some (by decide +kernel), is_some (by decide +kernel), is_some (by decide +kernel), by decide +kernel, by decide +kernel, by decide +kernel, rfl⟩,
   ⟨{ W.desc ([0x11, 1, 0, 0, 7, 0, 0, 0, 0, 2]) with data := some (zeros 96 ++ [4] ++ zeros 31) }, W.flows [W.ctx] (W.rings .table W.ready), _, _, _, _, _, ⟨is_some (by decide +kernel), by decide +kernel, by decide +kernel, by decide +kernel, by decide +kernel, by decide +kernel, fun _ => by decide +kernel, rfl⟩, by decide +kernel, by decide +kernel, is_some (by decide +kernel), is_some (by decide +kernel), is_some (by decide +kernel), by decide +kernel⟩,
   ⟨{ W.desc ([0x11, 1, 0, 0, 7, 0, 0, 0, 0, 8]) with data := some (zeros 128) }, W.flows [] (W.rings .table W.ready), _, _, _, _, _, _, ⟨is_some (by decide +kernel), by decide +kernel, by decide +kernel, by decide +kernel, by decide +kernel, by decide +kernel, fun _ => by decide +kernel, rfl⟩, by decide +kernel, by decide +kernel, by decide +kernel, is_some (by decide +kernel), is_some (by decide +kernel), by decide +kernel, is_some (by decide +kernel)⟩,
   ⟨{ W.desc ([0x12, 1, 0, 0, 7, 0, 0, 0]) with data := some (zeros 128) }, W.flows [W.ctx] (W.rings .table W.ready), _, _, _, _, _, ⟨is_some (by decide +kernel), by decide +kernel, by decide +kernel, by decide +kernel, by decide +kernel, by decide +kernel, fun _ => by decide +kernel, rfl⟩, by decide +kernel, is_some (by decide +kernel), is_some (by decide +kernel), is_some (by decide +kernel)⟩⟩

theorem witness_QueueCommandsComplete :
    (∃ c, ∃ s : State, ∃ u,
      takesConfig 0x0601 28 c s u ∧ destBad (heldOf 0x0601 c) u = false ∧ ((arg c 2 1 = 1 → ahas (nextConf u).epLists (arg c 6 2) = true ∧ ahas (nextConf u).pealLists (arg c 16 4) = true)) ∧ (∀ k < 8, setRefused 3 (8 * arg c 0 2 + k) u = none)) ∧
    (∃ c, ∃ s : State, ∃ u,
      takesConfig 0x0602 4 c s u ∧ argZero c 2 2 ∧ ahas (nextConf u).dests (arg c 0 2) = true) ∧
    (∃ c, ∃ s : State, ∃ u curve,
      takesConfig 0x0603 56 c s u ∧ curve = (List.range 4).map (fun k => (arg c (24 + 8 * k) 4, arg c (28 + 8 * k) 4)) ∧ arg c 1 1 ≤ 15 ∧ argZero c 2 2 ∧ (∀ o ∈ [4, 8, 12, 16, 20], arg c o 4 % 256 = 0) ∧ arg c 20 4 ≤ 262144 ∧ arg c 20 4 ≤ arg c 16 4 ∧ arg c 16 4 ≤ arg c 12 4 ∧ arg c 12 4 ≤ arg c 8 4 ∧ arg c 8 4 ≤ arg c 4 4 ∧ chain (fun a b => a ≤ b) (curve.map (·.1)) = true ∧ chain (fun a b => a ≤ b) (curve.map (·.2)) = true ∧ (∀ p ∈ curve, p.1 ≤ arg c 4 4 ∧ p.2 ≤ 65536)) ∧
    (∃ c, ∃ s : State, ∃ u l,
      takesConfig 0x0604 4 c s u ∧ l = (List.range (arg c 2 2)).map (fun k => arg c (4 + 2 * k) 2) ∧ arg c 0 2 ≤ 4095 ∧ 1 ≤ arg c 2 2 ∧ arg c 2 2 ≤ 64 ∧ 4 + 2 * arg c 2 2 ≤ c.paramLen ∧ (∀ d ∈ l, ∃ e, aget (nextConf u).dests d = some e ∧ e.kind = 2) ∧ noRepeat (l.filterMap (fun d => (aget (nextConf u).dests d).map (·.endpoint))) = true) ∧
    (∃ c, ∃ s : State, ∃ u l,
      takesConfig 0x0605 8 c s u ∧ l = (List.range (arg c 2 2)).map (fun k => arg c (8 + 8 * k) 8) ∧ arg c 2 2 ≤ 256 ∧ argZero c 4 4 ∧ 8 + 8 * arg c 2 2 ≤ c.paramLen ∧ ((∀ t ∈ l, bits t 62 51 = 0 ∧ bits t 31 17 = 0 ∧ (bit t 63 = 1 → idNext 2 (bits t 50 32) u = true) ∧ ahas (nextConf u).leaves (bits t 16 0) = true)) ∧ setRefused 5 (arg c 0 2) u = none ∧ targetsUsed u + targetsStaged (batchesWith (.pealList (arg c 0 2) (some l)) u) ≤ targetCapacity) ∧
    (∃ c, ∃ s : State, ∃ u,
      takesConfig 0x0606 4 c s u ∧ argZero c 2 2 ∧ ahas (nextConf u).pealLists (arg c 0 2) = true ∧ ((∀ d ∈ avals (nextConf u).dests, d.kind = 1 → d.pealList ≠ arg c 0 2))) ∧
    (∃ c, ∃ s : State, ∃ u ps,
      takes 0x0607 4 c s u ∧ ps = (List.range (arg c 0 1)).map (fun k => (arg c (4 + 8 * k) 4, arg c (8 + 8 * k) 4)) ∧ 1 ≤ arg c 0 1 ∧ arg c 0 1 ≤ 7 ∧ argZero c 1 3 ∧ 4 + 8 * arg c 0 1 ≤ c.paramLen ∧ chain (fun a b => a < b) (ps.map (·.1)) = true ∧ (∀ p ∈ ps, p.1 % 256 = 0 ∧ 256 ≤ p.1 ∧ p.1 ≤ 16384 ∧ p.2 % 128 = 0 ∧ 128 ≤ p.2) ∧ (ps.map (·.1)).getLast? = some 16384 ∧ ps.foldl (fun a p => a + p.1 * p.2) 0 ≤ 134217728 ∧ u.qdm.stored = [] ∧ (∀ m ∈ avals u.macs, linkHolds m = false)) ∧
    (∃ c, ∃ s : State, ∃ u,
      takesConfig 0x0608 28 c s u ∧ arg c 0 1 < u.qdm.pools.length ∧ argZero c 1 3 ∧ arg c 8 4 < arg c 4 4 ∧ arg c 12 4 < arg c 8 4 ∧ 0 < arg c 12 4 ∧ 8 * arg c 16 4 + arg c 20 4 + arg c 24 4 ≤ (pool (arg c 0 1) u).count / 2) ∧
    (∃ c, ∃ s : State, ∃ u,
      takesConfig 0x0609 12 c s u ∧ arg c 0 2 ≤ 4095 ∧ arg c 2 1 ≤ 1 ∧ ((arg c 3 1 = 24 ∨ 64 ≤ arg c 3 1)) ∧ 1 ≤ arg c 4 4 ∧ arg c 4 4 ≤ 16777216 ∧ 64 ≤ arg c 8 2 ∧ arg c 8 2 ≤ 512 ∧ arg c 8 2 % 64 = 0 ∧ argZero c 10 2) ∧
    (∃ c, ∃ s : State, ∃ u,
      takesConfig 0x060A 8 c s u ∧ arg c 0 2 ≤ 4095 ∧ argZero c 2 2 ∧ arg c 4 4 % 256 = 0 ∧ 65536 ≤ arg c 4 4 ∧ arg c 4 4 ≤ 67108864) ∧
    (∃ c, ∃ s : State, ∃ u,
      takes 0x060B 4 c s u ∧ arg c 0 4 < 524288) ∧
    (∃ c, ∃ s : State, ∃ u,
      takes 0x060C 0 c s u) :=
  ⟨⟨W.cmd (le 2 65535 ++ [2, 0] ++ le 2 4095 ++ zeros 22), W.ready, _, takesConfig_window (by decide +kernel), by decide +kernel⟩,
   ⟨W.cmd (le 2 5 ++ zeros 2), W.conf (fun g => { g with dests := [(5, W.dest 0 3)] }) W.ready, _, takesConfig_window (by decide +kernel), by decide +kernel⟩,
   ⟨W.cmd ([255, 15, 0, 0] ++ le 4 1048576 ++ le 4 524288 ++ le 4 262144 ++ le 4 262144 ++ le 4 262144 ++ le 4 1048576 ++ le 4 65536 ++ le 4 1048576 ++ le 4 65536 ++ le 4 1048576 ++ le 4 65536 ++ le 4 1048576 ++ le 4 65536), W.ready, _, _, takesConfig_window (by decide +kernel), rfl, by decide +kernel⟩,
   ⟨W.cmd (le 2 4095 ++ le 2 2 ++ le 2 5 ++ le 2 6), W.conf (fun g => { g with dests := [(5, W.dest 2 3), (6, W.dest 2 4)] }) W.ready, _, _, takesConfig_window (by decide +kernel), rfl, by decide +kernel⟩,
   ⟨W.cmd (le 2 65535 ++ le 2 1 ++ zeros 4 ++ le 8 7), W.tree W.ready, _, _, takesConfig_window (by decide +kernel), rfl, by decide +kernel⟩,
   ⟨W.cmd (le 2 5 ++ zeros 2), W.conf (fun g => { g with pealLists := [(5, [])] }) W.ready, _, takesConfig_window (by decide +kernel), by decide +kernel⟩,
   ⟨W.cmd ([1, 0, 0, 0] ++ le 4 16384 ++ le 4 8192), W.ready, _, _, takes_window (by decide +kernel), rfl, by decide +kernel⟩,
   ⟨W.cmd ([0, 0, 0, 0] ++ le 4 300 ++ le 4 200 ++ le 4 100 ++ le 4 0 ++ le 4 0 ++ le 4 0), W.ready, _, takesConfig_window (by decide +kernel), by decide +kernel⟩,
   ⟨W.cmd (le 2 4095 ++ [1, 24] ++ le 4 16777216 ++ le 2 512 ++ zeros 2), W.ready, _, takesConfig_window (by decide +kernel), by decide +kernel⟩,
   ⟨W.cmd (le 2 4095 ++ zeros 2 ++ le 4 67108864), W.ready, _, takesConfig_window (by decide +kernel), by decide +kernel⟩,
   ⟨W.cmd (le 4 524287), W.ready, _, takes_window (by decide +kernel), by decide +kernel⟩,
   ⟨W.cmd (zeros 0), W.ready, _, takes_window (by decide +kernel)⟩⟩

theorem witness_SchedulerCommandsComplete :
    (∃ c, ∃ s : State, ∃ u,
      takesConfig 0x0701 16 c s u ∧ hasMac (arg c 0 2) u = true ∧ argZero c 2 2 ∧ rateOk (arg c 4 4) = true ∧ arg c 8 4 ≤ 16777215 ∧ overheadOk (arg c 12 1) = true ∧ argZero c 13 3) ∧
    (∃ c, ∃ s : State, ∃ u,
      takesConfig 0x0702 32 c s u ∧ nodeBad (heldOf 0x0702 c) = false ∧ parentNext (arg c 0 1) (arg c 8 4) u = true ∧ nodeIn (nextConf u) (arg c 0 1) (arg c 4 4) = none ∧ ((arg c 0 1 = 3 → setRefused 4 (arg c 4 4) u = none))) ∧
    (∃ c, ∃ s : State, ∃ u n,
      takesConfig 0x0703 8 c s u ∧ 1 ≤ arg c 0 1 ∧ arg c 0 1 ≤ 3 ∧ argZero c 1 3 ∧ arg c 4 4 < nodeCount (arg c 0 1) ∧ nodeIn (nextConf u) (arg c 0 1) (arg c 4 4) = some n ∧ ((arg c 0 1 < 3 → hasChild (arg c 0 1) (arg c 4 4) u = false)) ∧ ((arg c 0 1 = 3 → leafNamed (arg c 4 4) u = false))) ∧
    (∃ c, ∃ s : State, ∃ u b es,
      takesConfig 0x0706 64 c s u ∧ 1 ≤ arg c 2 2 ∧ arg c 2 2 ≤ 256 ∧ 10000 ≤ arg c 4 4 ∧ arg c 4 4 ≤ 1000000000 ∧ arg c 8 8 < 281474976710656 ∧ arg c 16 4 ≤ 999999999 ∧ arg c 20 4 ≤ 100000 ∧ (∀ k < 8, arg c (24 + 4 * k) 4 ≤ 1000000) ∧ hasMac (arg c 0 2) u = true ∧ c.data = some b ∧ (∀ k < arg c 2 2, rd b (8 * k + 5) 3 = 0) ∧ es = (List.range (arg c 2 2)).map (fun k => (rd b (8 * k) 4, rd b (8 * k + 4) 1)) ∧ (∀ e ∈ es, 100 ≤ e.1) ∧ es.foldl (fun a e => a + e.1) 0 = arg c 4 4) ∧
    (∃ c, ∃ s : State, ∃ u,
      takesConfig 0x0707 4 c s u ∧ argZero c 2 2 ∧ destEncoded (arg c 0 2) = true ∧ liveOrStaged (fun g => ahas g.gateLists (arg c 0 2)) u = true) ∧
    (∃ c, ∃ s : State, ∃ u b r,
      takesConfig 0x0708 8 c s u ∧ b = (if arg c 0 4 = 0 then 4096 else arg c 0 4) ∧ r = (if arg c 4 2 = 0 then 1056 else arg c 4 2) ∧ b % 256 = 0 ∧ 256 ≤ b ∧ b ≤ 65536 ∧ 1024 ≤ r ∧ r ≤ 1280 ∧ argZero c 6 2) ∧
    (∃ c, ∃ s : State, ∃ u d,
      takesConfig 0x0709 36 c s u ∧ argZero c 2 2 ∧ aget (nextConf u).dests (arg c 0 2) = some d ∧ d.kind = 2 ∧ d.endpoint = u.fab.endpoint) ∧
    (∃ c, ∃ s : State, ∃ u b,
      takesConfig 0x070A 16 c s u ∧ b = (if arg c 12 4 = 0 then (if bit (arg c 4 1) 1 = 1 then 1 else 64) else arg c 12 4) ∧ arg c 0 4 < 524288 ∧ arg c 4 1 ≤ 3 ∧ overheadOk (arg c 5 1) = true ∧ argZero c 6 2 ∧ arg c 8 4 ≤ (if bit (arg c 4 1) 1 = 1 then 2000000000 else 4000000000) ∧ b ≤ 16777215 ∧ ((bit (arg c 4 1) 1 = 0 → 64 ≤ b))) ∧
    (∃ c, ∃ s : State, ∃ u x,
      takes 0x070B 8 c s u ∧ arg c 0 1 ≤ 3 ∧ argZero c 1 3 ∧ ((arg c 0 1 = 0 → destEncoded (arg c 4 4) = true)) ∧ ((arg c 0 1 ≠ 0 → arg c 4 4 < nodeCount (arg c 0 1))) ∧ nodeKnown (arg c 0 1) (arg c 4 4) u = some x) ∧
    (∃ c, ∃ s : State, ∃ u,
      takes 0x070C 4 c s u ∧ arg c 0 4 < 524288) :=
  ⟨⟨W.cmd (le 2 0 ++ zeros 2 ++ le 4 4000000000 ++ le 4 16777215 ++ [64] ++ zeros 3), W.tree W.ready, _, takesConfig_window (by decide +kernel), by decide +kernel⟩,
   ⟨W.cmd ([3, 7] ++ le 2 4095 ++ le 4 131071 ++ le 4 0 ++ [7, 7, 0, 0] ++ le 4 8 ++ le 4 16777215 ++ le 4 0 ++ zeros 4), W.tree W.ready, _, takesConfig_window (by decide +kernel), by decide +kernel⟩,
   ⟨W.cmd ([3, 0, 0, 0] ++ le 4 7), W.tree W.ready, _, _, takesConfig_window (by decide +kernel), by decide +kernel, by decide +kernel, by decide +kernel, by decide +kernel, is_some (by decide +kernel), by decide +kernel⟩,
   ⟨{ W.cmd (le 2 0 ++ le 2 2 ++ le 4 10000 ++ zeros 8 ++ le 4 999999999 ++ le 4 100000 ++ zeros 32 ++ zeros 8) with data := some (le 4 9900 ++ [255, 0, 0, 0] ++ le 4 100 ++ [1, 0, 0, 0]) }, W.tree W.ready, _, _, _, takesConfig_window (by decide +kernel), by decide +kernel, by decide +kernel, by decide +kernel, by decide +kernel, by decide +kernel, of_decide_eq_true (by decide +kernel), by decide +kernel, by decide +kernel, by decide +kernel, is_some (by decide +kernel), by decide +kernel, rfl, by decide +kernel⟩,
   ⟨W.cmd (le 4 0), W.conf (fun g => { g with gateLists := [(0, { cycle := 10000, base := 0, lead := 0, guards := List.replicate 8 0, entries := [(10000, 255)] })] }) (W.tree W.ready), _, takesConfig_window (by decide +kernel), by decide +kernel⟩,
   ⟨W.cmd (le 4 65536 ++ le 2 1024 ++ zeros 2), W.ready, _, _, _, takesConfig_window (by decide +kernel), rfl, rfl, by decide +kernel⟩,
   ⟨W.cmd (le 4 5 ++ zeros 32), W.conf (fun g => { g with dests := [(5, W.dest 2 0)] }) W.ready, _, _, takesConfig_window (by decide +kernel), by decide +kernel, is_some (by decide +kernel), by decide +kernel⟩,
   ⟨W.cmd (le 4 524287 ++ [2, 64, 0, 0] ++ le 4 2000000000 ++ le 4 0), W.ready, _, _, takesConfig_window (by decide +kernel), rfl, by decide +kernel⟩,
   ⟨W.cmd ([3, 0, 0, 0] ++ le 4 7), W.tree W.ready, _, _, takes_window (by decide +kernel), by decide +kernel, by decide +kernel, by decide +kernel, by decide +kernel, is_some (by decide +kernel)⟩,
   ⟨W.cmd (le 4 524287), W.ready, _, takes_window (by decide +kernel), by decide +kernel⟩⟩

theorem witness_FabricCommandsComplete :
    (∃ c, ∃ s : State, ∃ u,
      takes 0x0801 40 c s u ∧ arg c 0 1 ≤ 2 ∧ arg c 2 2 < 4096 ∧ argZero c 22 2 ∧ argZero c 38 2 ∧ arg c 2 2 = u.fab.endpoint ∧ ((u.fab.mode = 0 ∨ arg c 0 1 = 0 ∨ (arg c 0 1 = u.fab.mode ∧ arg c 4 4 = u.fab.systemId)))) ∧
    (∃ c, ∃ s : State, ∃ u,
      takes 0x0801 40 c s u ∧ arg c 0 1 ≤ 2 ∧ arg c 2 2 < 4096 ∧ argZero c 22 2 ∧ argZero c 38 2 ∧ arg c 2 2 ≠ u.fab.endpoint ∧ ((u.fab.mode = 0 ∨ arg c 0 1 = 0))) ∧
    (∃ c, ∃ s : State, ∃ u,
      takes 0x0802 4 c s u ∧ arg c 0 2 < 4096 ∧ argZero c 2 2) ∧
    (∃ c, ∃ s : State, ∃ u,
      takes 0x0803 4 c s u ∧ arg c 0 1 < 112 ∧ argZero c 1 3) :=
  ⟨⟨W.cmd ([2, 1] ++ le 2 0 ++ le 4 9 ++ List.replicate 14 255 ++ zeros 18), W.ready, _, takes_window (by decide +kernel), by decide +kernel⟩,
   ⟨W.cmd ([1, 0] ++ le 2 4095 ++ le 4 9 ++ List.replicate 14 255 ++ zeros 18), W.ready, _, takes_window (by decide +kernel), by decide +kernel⟩,
   ⟨W.cmd (le 4 4095), W.ready, _, takes_window (by decide +kernel), by decide +kernel⟩,
   ⟨W.cmd (le 4 111), W.ready, _, takes_window (by decide +kernel), by decide +kernel⟩⟩

theorem witness_RingCommandsComplete :
    (∃ c, ∃ s : State, ∃ u,
      takes 0x0901 24 c s u ∧ fnExists (arg c 0 1) u = true ∧ arg c 1 1 ≤ 2 ∧ argZero c 2 6 ∧ arg c 8 8 % 4096 = 0 ∧ arg c 16 8 % 4096 = 0 ∧ ((∀ x ∈ avals u.host.rings, x.fn = arg c 0 1 → x.state ≠ .enabled ∧ x.state ≠ .stopped))) ∧
    (∃ c, ∃ s : State, ∃ u t,
      takes 0x0902 32 c s u ∧ ringTypeOf (arg c 2 1) = some t ∧ ringCreateBad t (heldOf 0x0902 c) u = false ∧ (((t = .inject ∨ t = .table ∨ t = .command) → ∃ q, ring? (arg c 16 2 % 32768) u = some q ∧ q.typ = .completion ∧ q.fn = arg c 3 1)) ∧ ring? (arg c 0 2) u = none) ∧
    (∃ c, ∃ s : State, ∃ u x v,
      takes 0x0903 8 c s u ∧ arg c 0 2 ≤ 32767 ∧ argZero c 2 2 ∧ ring? (arg c 0 2) u = some x ∧ x.state = .disabled ∧ (pciFn x.fn u).indexValid = true ∧ v = updRing (arg c 0 2) (fun x => { x with state := .enabled, partIndex := arg c 4 4, hostIndex := arg c 4 4, fetched := [], fetchStopped := false, armed := !x.noIrq, unsignalled := 0, modDeadline := none }) u ∧ c.data = none ∧ partWritten x.typ = false) ∧
    (∃ c, ∃ s : State, ∃ u x v b,
      takes 0x0903 8 c s u ∧ arg c 0 2 ≤ 32767 ∧ argZero c 2 2 ∧ ring? (arg c 0 2) u = some x ∧ x.state = .disabled ∧ (pciFn x.fn u).indexValid = true ∧ v = updRing (arg c 0 2) (fun x => { x with state := .enabled, partIndex := arg c 4 4, hostIndex := arg c 4 4, fetched := [], fetchStopped := false, armed := !x.noIrq, unsignalled := 0, modDeadline := none }) u ∧ c.data = some b ∧ partWritten x.typ = false) ∧
    (∃ c, ∃ s : State, ∃ u x v,
      takes 0x0903 8 c s u ∧ arg c 0 2 ≤ 32767 ∧ argZero c 2 2 ∧ ring? (arg c 0 2) u = some x ∧ x.state = .disabled ∧ (pciFn x.fn u).indexValid = true ∧ v = updRing (arg c 0 2) (fun x => { x with state := .enabled, partIndex := arg c 4 4, hostIndex := arg c 4 4, fetched := [], fetchStopped := false, armed := !x.noIrq, unsignalled := 0, modDeadline := none }) u ∧ c.data = none ∧ partWritten x.typ = true) ∧
    (∃ c, ∃ s : State, ∃ u x v b,
      takes 0x0903 8 c s u ∧ arg c 0 2 ≤ 32767 ∧ argZero c 2 2 ∧ ring? (arg c 0 2) u = some x ∧ x.state = .disabled ∧ (pciFn x.fn u).indexValid = true ∧ v = updRing (arg c 0 2) (fun x => { x with state := .enabled, partIndex := arg c 4 4, hostIndex := arg c 4 4, fetched := [], fetchStopped := false, armed := !x.noIrq, unsignalled := 0, modDeadline := none }) u ∧ c.data = some b ∧ partWritten x.typ = true) ∧
    (∃ c, ∃ s : State, ∃ u x,
      takes 0x0904 4 c s u ∧ arg c 0 2 ≤ 32767 ∧ argZero c 2 2 ∧ ring? (arg c 0 2) u = some x ∧ x.state ≠ .disabled ∧ x.begun = 0) ∧
    (∃ c, ∃ s : State, ∃ u x,
      takes 0x0904 4 c s u ∧ arg c 0 2 ≤ 32767 ∧ argZero c 2 2 ∧ ring? (arg c 0 2) u = some x ∧ x.state ≠ .disabled ∧ x.begun ≠ 0) ∧
    (∃ c, ∃ s : State, ∃ u x,
      takes 0x0905 4 c s u ∧ arg c 0 2 ≤ 32767 ∧ argZero c 2 2 ∧ ring? (arg c 0 2) u = some x ∧ x.state = .disabled ∧ ((x.typ = .inject ∨ x.typ = .table ∨ x.typ = .command))) ∧
    (∃ c, ∃ s : State, ∃ u x,
      takes 0x0906 4 c s u ∧ arg c 0 2 ≤ 32767 ∧ argZero c 2 2 ∧ ring? (arg c 0 2) u = some x) ∧
    (∃ c, ∃ s : State, ∃ u,
      takes 0x0906 4 c s u ∧ arg c 0 2 ≤ 32767 ∧ argZero c 2 2 ∧ ring? (arg c 0 2) u = none) ∧
    (∃ c, ∃ s : State, ∃ u x pools,
      takes 0x0907 12 c s u ∧ pools = (List.range (arg c 2 1)).map (fun k => arg c (4 + 2 * k) 2) ∧ arg c 0 2 ≤ 32767 ∧ 1 ≤ arg c 2 1 ∧ arg c 2 1 ≤ 4 ∧ argZero c 3 1 ∧ argZero c (4 + 2 * arg c 2 1) (8 - 2 * arg c 2 1) ∧ ring? (arg c 0 2) u = some x ∧ x.typ = .receive ∧ x.state = .disabled ∧ (∀ p ∈ pools, ∃ q, ring? p u = some q ∧ q.typ = .buffer ∧ q.fn = x.fn ∧ q.state = .disabled) ∧ rising ((pools.filterMap (fun p => ring? p u)).map (fun q => q.bufSize)) = true ∧ ((∀ g ∈ u.host.groups, g.1 ≠ arg c 0 2 → ∀ p ∈ pools, p ∉ g.2.pools))) ∧
    (∃ c, ∃ s : State, ∃ u x,
      takes 0x0908 8 c s u ∧ arg c 0 2 ≤ 4095 ∧ bit (arg c 2 2) 15 = 1 ∧ arg c 4 1 ≠ 0 ∧ argZero c 5 3 ∧ ring? (arg c 2 2 % 32768) u = some x ∧ x.typ = .receive) ∧
    (∃ c, ∃ s : State, ∃ u,
      takes 0x0908 8 c s u ∧ arg c 0 2 ≤ 4095 ∧ bit (arg c 2 2) 15 = 0 ∧ argZero c 5 3) :=
  ⟨⟨W.cmd ([0, 2] ++ zeros 6 ++ le 8 4096 ++ le 8 8192), W.ready, _, takes_window (by decide +kernel), by decide +kernel⟩,
   ⟨W.cmd (le 2 32767 ++ [0, 0] ++ le 4 64 ++ le 8 4096 ++ le 2 (32768 + 6) ++ zeros 12 ++ [3, 0]), W.rings .table W.ready, _, _, takes_window (by decide +kernel), is_some (by decide +kernel), by decide +kernel⟩,
   ⟨W.cmd (le 4 5 ++ le 4 9), W.ringIn { W.ring .table 0 6 with state := .disabled } W.ready, _, _, _, takes_window (by decide +kernel), by decide +kernel, by decide +kernel, is_some (by decide +kernel), by decide +kernel, by decide +kernel, rfl, by decide +kernel⟩,
   ⟨{ W.cmd (le 4 5 ++ le 4 9) with data := some (le 4 9) }, W.ringIn { W.ring .inject 0 6 with state := .disabled } W.ready, _, _, _, _, takes_window (by decide +kernel), by decide +kernel, by decide +kernel, is_some (by decide +kernel), by decide +kernel, by decide +kernel, rfl, is_some (by decide +kernel), by decide +kernel⟩,
   ⟨W.cmd (le 4 5 ++ le 4 9), W.ringIn { W.ring .receive 0 6 with state := .disabled } W.ready, _, _, _, takes_window (by decide +kernel), by decide +kernel, by decide +kernel, is_some (by decide +kernel), by decide +kernel, by decide +kernel, rfl, by decide +kernel⟩,
   ⟨{ W.cmd (le 4 5 ++ le 4 9) with data := some (le 4 9) }, W.ringIn { W.ring .completion 0 6 with state := .disabled } W.ready, _, _, _, _, takes_window (by decide +kernel), by decide +kernel, by decide +kernel, is_some (by decide +kernel), by decide +kernel, by decide +kernel, rfl, is_some (by decide +kernel), by decide +kernel⟩,
   ⟨W.cmd (le 4 5), W.ringIn (W.ring .table 0 6) W.ready, _, _, takes_window (by decide +kernel), by decide +kernel, by decide +kernel, is_some (by decide +kernel), by decide +kernel⟩,
   ⟨W.cmd (le 4 5), W.ringIn { W.ring .inject 0 6 with begun := 1 } W.ready, _, _, takes_window (by decide +kernel), by decide +kernel, by decide +kernel, is_some (by decide +kernel), by decide +kernel⟩,
   ⟨W.cmd (le 4 5), W.ringIn { W.ring .table 0 6 with state := .disabled } W.ready, _, _, takes_window (by decide +kernel), by decide +kernel, by decide +kernel, is_some (by decide +kernel), by decide +kernel⟩,
   ⟨W.cmd (le 4 5), W.ringIn (W.ring .table 0 6) W.ready, _, _, takes_window (by decide +kernel), by decide +kernel, by decide +kernel, is_some (by decide +kernel)⟩,
   ⟨W.cmd (le 4 32767), W.ready, _, takes_window (by decide +kernel), by decide +kernel⟩,
   ⟨W.cmd (le 2 5 ++ [1, 0] ++ le 2 6 ++ zeros 6), W.ringsIn [(5, { W.ring .receive 0 0 with state := .disabled }), (6, { W.ring .buffer 0 0 with state := .disabled })] W.ready, _, _, _, takes_window (by decide +kernel), rfl, by decide +kernel, by decide +kernel, by decide +kernel, by decide +kernel, by decide +kernel, is_some (by decide +kernel), by decide +kernel⟩,
   ⟨W.cmd (le 2 4095 ++ le 2 (32768 + 5) ++ [1, 0, 0, 0]), W.ringIn (W.ring .receive 0 0) W.ready, _, _, takes_window (by decide +kernel), by decide +kernel, by decide +kernel, by decide +kernel, by decide +kernel, is_some (by decide +kernel), by decide +kernel⟩,
   ⟨W.cmd (le 2 4095 ++ le 2 0 ++ [1, 0, 0, 0]), W.ready, _, takes_window (by decide +kernel), by decide +kernel⟩⟩

theorem witness_TempoCommandsComplete :
    (∃ c, ∃ s : State, ∃ u,
      takes 0x0A01 4 c s u ∧ arg c 0 1 < 3 ∧ argZero c 1 3 ∧ follower u = false) ∧
    (∃ c, ∃ s : State, ∃ u,
      takes 0x0A02 8 c s u ∧ arg c 6 2 = 0 ∧ u.tempo.source = .pps ∧ follower u = false) ∧
    (∃ c, ∃ s : State, ∃ u,
      takes 0x0A03 12 c s u ∧ (signed 32 (arg c 0 4)).natAbs ≤ 200000000 ∧ (signed 32 (arg c 4 4)).natAbs ≤ 10000 ∧ bits (arg c 8 1) 7 1 = 0 ∧ argZero c 9 3 ∧ u.tempo.source = .host ∧ follower u = false) ∧
    (∃ c, ∃ s : State, ∃ u d,
      takes 0x0A04 12 c s u ∧ d = signed 64 (arg c 0 8) * 1000000000 + signed 32 (arg c 8 4) ∧ (signed 32 (arg c 8 4)).natAbs ≤ 999999999 ∧ ¬ (0 < signed 64 (arg c 0 8) ∧ signed 32 (arg c 8 4) < 0) ∧ ¬ (signed 64 (arg c 0 8) < 0 ∧ 0 < signed 32 (arg c 8 4)) ∧ u.tempo.source = .host ∧ follower u = false ∧ stepResultOk (((u.tempo.nextSecond * 1000000000 : Nat) : Int) + waitingSum u + d) = true ∧ u.commits = []) ∧
    (∃ c, ∃ s : State, ∃ u,
      takes 0x0A05 0 c s u) ∧
    (∃ c, ∃ s : State, ∃ u,
      takesConfig 0x0A06 4 c s u ∧ 1 ≤ arg c 0 2 ∧ arg c 0 2 ≤ 400 ∧ argZero c 2 2 ∧ follower u = false) ∧
    (∃ c, ∃ s : State, ∃ u,
      takesConfig 0x0A07 4 c s u ∧ 10 ≤ arg c 0 2 ∧ arg c 0 2 ≤ 500 ∧ argZero c 2 2 ∧ follower u = false) :=
  ⟨⟨W.cmd [2, 0, 0, 0], W.ready, _, takes_window (by decide +kernel), by decide +kernel⟩,
   ⟨W.cmd (zeros 5 ++ [255, 0, 0]), W.tempo (fun t => { t with source := .pps }) W.ready, _, takes_window (by decide +kernel), by decide +kernel⟩,
   ⟨W.cmd (le 4 200000000 ++ le 4 (2^32 - 10000) ++ [1, 0, 0, 0]), W.tempo (fun t => { t with source := .host }) W.ready, _, takes_window (by decide +kernel), by decide +kernel⟩,
   ⟨W.cmd (le 8 1 ++ le 4 999999999), W.tempo (fun t => { t with source := .host }) W.ready, _, _, takes_window (by decide +kernel), rfl, by decide +kernel⟩,
   ⟨W.cmd (zeros 0), W.ready, _, takes_window (by decide +kernel)⟩,
   ⟨W.cmd (le 4 400), W.ready, _, takesConfig_window (by decide +kernel), by decide +kernel⟩,
   ⟨W.cmd (le 4 500), W.ready, _, takesConfig_window (by decide +kernel), by decide +kernel⟩⟩

theorem witness_CommitCommandsComplete :
    (∃ c, ∃ s : State, ∃ u d,
      takes 0x0510 16 c s u ∧ bit (arg c 8 4) 0 = 0 ∧ commitMalformed (heldOf 0x0510 c) u = false ∧ standsBy u = false ∧ mirrors u = false ∧ d = (if arg c 0 8 = 0 then earliestTarget false u else arg c 0 8) ∧ u.tempo.lastDownbeat + 3 ≤ d ∧ u.commits.length < 4 ∧ (∀ k ∈ u.commits, k.carillon = false ∧ k.pair = false) ∧ spaced false d u = true) ∧
    (∃ c, ∃ s : State, ∃ u k,
      takes 0x0511 8 c s u ∧ bits (arg c 4 1) 7 1 = 0 ∧ argZero c 5 3 ∧ findCommit (bit (arg c 4 1) 0 == 1) (arg c 0 4) u = some k) ∧
    (∃ c, ∃ s : State, ∃ u,
      takes 0x0511 8 c s u ∧ bits (arg c 4 1) 7 1 = 0 ∧ argZero c 5 3 ∧ findCommit (bit (arg c 4 1) 0 == 1) (arg c 0 4) u = none ∧ u.outcomes = []) :=
  ⟨⟨W.cmd (le 8 0 ++ zeros 8), { W.ready with staged := [{ change := .grid 8, units := 1, sealedBy := none }] }, _, _, takes_window (by decide +kernel), by decide +kernel, by decide +kernel, by decide +kernel, by decide +kernel, rfl, by decide +kernel⟩,
   ⟨W.cmd (le 4 9 ++ zeros 4), { W.ready with commits := [{ W.commit0 with seq := 9 }] }, _, _, takes_window (by decide +kernel), by decide +kernel, by decide +kernel, is_some (by decide +kernel)⟩,
   ⟨W.cmd (le 4 9 ++ zeros 4), W.ready, _, takes_window (by decide +kernel), by decide +kernel⟩⟩

theorem witness_TollCommandsComplete :
    (∃ c, ∃ s : State, ∃ u a b,
      takes 0x0D01 12 c s u ∧ arg c 0 4 % 10 = 0 ∧ 20 ≤ arg c 0 4 ∧ arg c 0 4 ≤ 60000 ∧ argZero c 8 4 ∧ tollRingOf 0 (arg c 4 2) u = some a ∧ tollRingOf 1 (arg c 6 2) u = some b ∧ u.toll.running = false) ∧
    (∃ c, ∃ s : State, ∃ u, ∃ ids : List Nat,
      takes 0x0D02 16 c s u ∧ fnExists (arg c 0 1) u = true ∧ arg c 2 2 = 0 ∧ argZero c 1 1 ∧ argZero c 4 4 ∧ ids = []) ∧
    (∃ c, ∃ s : State, ∃ u b ids,
      takes 0x0D02 16 c s u ∧ fnExists (arg c 0 1) u = true ∧ 1 ≤ arg c 2 2 ∧ arg c 2 2 ≤ 1024 ∧ argZero c 1 1 ∧ argZero c 4 4 ∧ c.data = some b ∧ ((∀ k, k < arg c 2 2 → entryIds (fit 16 (b.drop (16 * k))) ≠ [])) ∧ ids = (List.range (arg c 2 2)).flatMap (fun k => entryIds (fit 16 (b.drop (16 * k)))) ∧ ids.length ≤ 4194304) ∧
    (∃ c, ∃ s : State, ∃ u,
      takes 0x0D03 4 c s u ∧ argZero c 0 4 ∧ u.toll.running = false) ∧
    (∃ c, ∃ s : State, ∃ u,
      takes 0x0D04 4 c s u ∧ argZero c 0 4 ∧ u.toll.running = false) ∧
    (∃ c, ∃ s : State, ∃ u,
      takes 0x0D04 4 c s u ∧ argZero c 0 4 ∧ u.toll.running = true ∧ dumpsDone u = true) ∧
    (∃ c, ∃ s : State, ∃ u,
      takes 0x0D04 4 c s u ∧ argZero c 0 4 ∧ u.toll.running = true ∧ dumpsDone u = false) ∧
    (∃ c, ∃ s : State, ∃ u t,
      takes 0x0D05 8 c s u ∧ 1 ≤ arg c 4 2 ∧ arg c 0 4 % 64 + arg c 4 2 ≤ 64 ∧ argZero c 6 2 ∧ namesCounter (arg c 0 4) = true ∧ t = (if u.toll.running then u.toll.lastTempo else u.tempo.now)) ∧
    (∃ c, ∃ s : State, ∃ u,
      takes 0x0D06 0 c s u) :=
  ⟨⟨W.cmd (le 4 1000 ++ le 2 0 ++ le 2 0 ++ zeros 4), W.ready, _, _, _, takes_window (by decide +kernel), by decide +kernel, by decide +kernel, by decide +kernel, by decide +kernel, is_some (by decide +kernel), is_some (by decide +kernel), by decide +kernel⟩,
   ⟨W.cmd (zeros 16), W.ready, _, _, takes_window (by decide +kernel), by decide +kernel, by decide +kernel, by decide +kernel, by decide +kernel, rfl⟩,
   ⟨{ W.cmd ([0,0] ++ le 2 1 ++ zeros 12) with data := some ([0] ++ le 3 0 ++ le 4 2 ++ le 8 3) }, W.ready, _, _, _, takes_window (by decide +kernel), by decide +kernel, by decide +kernel, by decide +kernel, by decide +kernel, by decide +kernel, is_some (by decide +kernel), by decide +kernel, rfl, by decide +kernel⟩,
   ⟨W.cmd (zeros 4), W.ready, _, takes_window (by decide +kernel), by decide +kernel⟩,
   ⟨W.cmd (zeros 4), W.ready, _, takes_window (by decide +kernel), by decide +kernel⟩,
   ⟨W.cmd (zeros 4), W.toll (fun t => { t with running := true }) W.ready, _, takes_window (by decide +kernel), by decide +kernel⟩,
   ⟨W.cmd (zeros 4), W.toll (fun t => { t with running := true }) (W.pf0 (fun f => { f with tollDump := some 1 }) W.ready), _, takes_window (by decide +kernel), by decide +kernel⟩,
   ⟨W.cmd (le 4 0 ++ le 2 3 ++ zeros 2), W.ready, _, _, takes_window (by decide +kernel), by decide +kernel, by decide +kernel, by decide +kernel, by decide +kernel, rfl⟩,
   ⟨W.cmd (zeros 0), W.ready, _, takes_window (by decide +kernel)⟩⟩

theorem witness_UpkeepCommandsComplete :
    (∃ c, ∃ s : State, ∃ u u1,
      takes 0x0E01 4 c s u ∧ arg c 0 1 ≤ 4 ∧ arg c 1 1 ≤ 16 ∧ argZero c 2 2 ∧ u.pwr.level ≠ 3 ∧ u1 = updPwr (fun p => { p with floor := arg c 0 1, keepRank := arg c 1 1 }) u) ∧
    (∃ c, ∃ s : State, ∃ u u1,
      takes 0x0E01 4 c s u ∧ arg c 0 1 ≤ 4 ∧ arg c 1 1 ≤ 16 ∧ argZero c 2 2 ∧ u.pwr.level = 3 ∧ u1 = updPwr (fun p => { p with floor := arg c 0 1, keepRank := arg c 1 1 }) u) ∧
    (∃ c, ∃ s : State, ∃ u,
      takes 0x0E02 0 c s u) ∧
    (∃ c, ∃ s : State, ∃ u,
      takes 0x0E03 8 c s u ∧ ((arg c 0 1 = 7 ∧ 10 ≤ arg c 4 4 ∧ arg c 4 4 ≤ 3600) ∨ (arg c 0 1 = 8 ∧ 3600 ≤ arg c 4 4 ∧ arg c 4 4 ≤ 604800)) ∧ arg c 1 1 ≤ 1 ∧ argZero c 2 2) ∧
    (∃ c, ∃ s : State, ∃ u,
      takes 0x0E04 0 c s u) ∧
    (∃ c, ∃ s : State, ∃ u x,
      takes 0x0E05 4 c s u ∧ argZero c 1 3 ∧ flashUsable u = true ∧ (knellRecords u)[arg c 0 1]? = some x) ∧
    (∃ c, ∃ s : State, ∃ u v,
      takes 0x0F01 32 c s u ∧ (arg c 0 1 = 2 ∨ arg c 0 1 = 3) ∧ arg c 1 1 ≤ 1 ∧ arg c 2 1 = 0 ∧ arg c 3 1 ≤ 2 ∧ argZero c 4 4 ∧ arg c 8 8 % 64 = 0 ∧ arg c 16 8 % 64 = 0 ∧ 64 ≤ arg c 16 8 ∧ arg c 16 8 ≤ 0x3FFFFFFFC0 ∧ (auditCtx (arg c 0 1) u).running = false ∧ outsideSpace (arg c 3 1) (arg c 8 8) (arg c 16 8) u = false ∧ v = auditInit (arg c 1 1)) ∧
    (∃ c, ∃ s : State, ∃ u x,
      takes 0x0F02 4 c s u ∧ arg c 0 1 ≤ 3 ∧ argZero c 1 3 ∧ x = auditCtx (arg c 0 1) u) ∧
    (∃ c, ∃ s : State, ∃ u,
      takes 0x0F03 16 c s u ∧ (arg c 0 1 = 2 ∨ arg c 0 1 = 3) ∧ arg c 1 1 ≤ 1 ∧ argZero c 2 6 ∧ (auditCtx (arg c 0 1) u).running = false) ∧
    (∃ c, ∃ s : State, ∃ u,
      takes 0x0F04 0 c s u) ∧
    (∃ c, ∃ s : State, ∃ u,
      takes 0x0F05 0 c s u) ∧
    (∃ c, ∃ s : State, ∃ u l,
      takes 0x0F06 8 c s u ∧ 1 ≤ arg c 4 2 ∧ arg c 4 2 ≤ 4096 ∧ argZero c 6 2 ∧ l = retiredList u ∧ arg c 0 4 ≤ l.length) ∧
    (∃ c, ∃ s : State, ∃ u,
      takes 0x0F07 0 c s u) :=
  ⟨⟨W.cmd [2, 3, 0, 0], W.ready, _, _, takes_window (by decide +kernel), by decide +kernel, by decide +kernel, by decide +kernel, by decide +kernel, rfl⟩,
   ⟨W.cmd [3, 3, 0, 0], W.pwr (fun p => { p with level := 3 }) W.ready, _, _, takes_window (by decide +kernel), by decide +kernel, by decide +kernel, by decide +kernel, by decide +kernel, rfl⟩,
   ⟨W.cmd (zeros 0), W.ready, _, takes_window (by decide +kernel)⟩,
   ⟨W.cmd ([7, 1, 0, 0] ++ le 4 100), W.ready, _, takes_window (by decide +kernel), by decide +kernel⟩,
   ⟨W.cmd (zeros 0), W.ready, _, takes_window (by decide +kernel)⟩,
   ⟨W.cmd [0, 0, 0, 0], W.knell W.ready, _, _, takes_window (by decide +kernel), by decide +kernel, by decide +kernel, is_some (knell_first (by decide +kernel) (knell_good (by decide +kernel)))⟩,
   ⟨W.cmd ([2, 1, 0, 1, 0, 0, 0, 0] ++ le 8 64 ++ le 8 128 ++ le 8 5), W.ready, _, _, takes_window (by decide +kernel), by decide +kernel, by decide +kernel, by decide +kernel, by decide +kernel, by decide +kernel, of_decide_eq_true (by decide +kernel), by decide +kernel, by decide +kernel, by decide +kernel, by decide +kernel, by decide +kernel, rfl⟩,
   ⟨W.cmd [2, 0, 0, 0], W.ready, _, _, takes_window (by decide +kernel), by decide +kernel, by decide +kernel, rfl⟩,
   ⟨W.cmd ([3, 1] ++ zeros 6 ++ le 8 77), W.ready, _, takes_window (by decide +kernel), by decide +kernel⟩,
   ⟨W.cmd (zeros 0), W.ready, _, takes_window (by decide +kernel)⟩,
   ⟨W.cmd (zeros 0), W.ready, _, takes_window (by decide +kernel)⟩,
   ⟨W.cmd (le 4 0 ++ le 2 4 ++ zeros 2), { W.ready with mem := { W.ready.mem with retired := [(5, 1, 2, 3, true)] } }, _, _, takes_window (by decide +kernel), by decide +kernel, by decide +kernel, by decide +kernel, rfl, by decide +kernel⟩,
   ⟨W.cmd (zeros 0), W.ready, _, takes_window (by decide +kernel)⟩⟩

theorem witness_PeerCommandsComplete :
    (∃ c, ∃ s : State, ∃ u,
      takes 0x0B01 8 c s u ∧ arg c 0 1 ≤ 1 ∧ argZero c 2 2 ∧ arg c 4 4 ≠ 0 ∧ arg c 4 4 ≠ 0xFFFFFFFF ∧ (∀ k ∈ u.commits, k.carillon = false) ∧ u.fw.dist = none ∧ u.fw.rxTransfer = none ∧ flashUsable u = true ∧ journalFits 8 u = true) ∧
    (∃ c, ∃ s : State, ∃ u,
      takes 0x0B02 0 c s u) ∧
    (∃ c, ∃ s : State, ∃ u,
      takes 0x0B03 4 c s u ∧ argZero c 0 4 ∧ u.prot.state ≠ 6) ∧
    (∃ c, ∃ s : State, ∃ u,
      takes 0x0B04 8 c s u ∧ arg c 0 1 ≤ 1 ∧ 1 ≤ arg c 1 1 ∧ arg c 1 1 ≤ 0x37 ∧ argZero c 3 1 ∧ argZero c 6 2 ∧ flashUsable u = true ∧ journalFits 8 u = true) ∧
    (∃ c, ∃ s : State, ∃ u u1,
      takes 0x0B05 32 c s u ∧ pairSetBad (heldOf 0x0B05 c) = false ∧ u.prot.state = 0 ∧ isMember u = true ∧ u1 = updProt (fun p => { p with pair := arg c 0 1, flags := arg c 1 1, wtr := if arg c 2 2 = 0 then 5 else arg c 2 2, peerSerial := arg c 8 8, portMask := arg c 16 10, state := 1, since := u.elapsed, inSync := false, lockout := false, peerAt := none, peerBeat := [], wtrAt := none, switching := none, resync := false, next := none }) u) ∧
    (∃ c, ∃ s : State, ∃ u,
      takes 0x0B06 4 c s u ∧ arg c 0 1 ≤ 3 ∧ argZero c 1 3 ∧ u.prot.state = 6 ∧ u.prot.pair = arg c 0 1) ∧
    (∃ c, ∃ s : State, ∃ u,
      takes 0x0B07 4 c s u ∧ arg c 0 1 ≤ 3 ∧ arg c 1 1 = 3 ∧ argZero c 2 2 ∧ u.prot.state ≠ 0 ∧ u.prot.pair = arg c 0 1) ∧
    (∃ c, ∃ s : State, ∃ u,
      takes 0x0B07 4 c s u ∧ arg c 0 1 ≤ 3 ∧ arg c 1 1 = 0 ∧ argZero c 2 2 ∧ u.prot.state = 4 ∧ u.prot.pair = arg c 0 1 ∧ standsBy u = true ∧ u.prot.inSync = true ∧ lockedOut u = false) ∧
    (∃ c, ∃ s : State, ∃ u,
      takes 0x0B08 4 c s u ∧ arg c 0 1 ≤ 3 ∧ argZero c 1 3 ∧ u.prot.state ≠ 0 ∧ u.prot.pair = arg c 0 1) :=
  ⟨⟨W.cmd ([1, 5, 0, 0] ++ le 4 9), W.ready, _, takes_window (by decide +kernel), by decide +kernel⟩,
   ⟨W.cmd (zeros 0), W.ready, _, takes_window (by decide +kernel)⟩,
   ⟨W.cmd (zeros 4), W.ready, _, takes_window (by decide +kernel), by decide +kernel⟩,
   ⟨W.cmd [1, 0x10, 0x20, 0, 0x30, 1, 0, 0], W.ready, _, takes_window (by decide +kernel), by decide +kernel⟩,
   ⟨W.cmd ([1, 5] ++ le 2 5 ++ zeros 4 ++ le 8 77 ++ le 8 3 ++ zeros 8), W.crl (fun k => { k with enable := true, role := .head, position := 0 }) W.ready, _, _, takes_window (by decide +kernel), by decide +kernel, by decide +kernel, by decide +kernel, rfl⟩,
   ⟨W.cmd [1, 0, 0, 0], W.prot (fun p => { p with state := 6, pair := 1 }) W.ready, _, takes_window (by decide +kernel), by decide +kernel⟩,
   ⟨W.cmd [1, 3, 0, 0], W.prot (fun p => { p with state := 4, pair := 1, lockout := true }) W.ready, _, takes_window (by decide +kernel), by decide +kernel⟩,
   ⟨W.cmd [1, 0, 0, 0], W.prot (fun p => { p with state := 4, pair := 1, inSync := true }) W.ready, _, takes_window (by decide +kernel), by decide +kernel⟩,
   ⟨W.cmd [1, 0, 0, 0], W.prot (fun p => { p with state := 4, pair := 1 }) W.ready, _, takes_window (by decide +kernel), by decide +kernel⟩⟩

theorem witness_FirmwareCommandsComplete :
    (∃ c, ∃ s : State, ∃ u,
      takes 0x0C01 24 c s u ∧ downloadBad (heldOf 0x0C01 c) u = false ∧ stagingBusy u = false ∧ bit (arg c 8 1) 1 = 1 ∧ arg c 0 4 = 0 ∧ flashUsable u = true ∧ downloadData (heldOf 0x0C01 c) ≠ none) ∧
    (∃ c, ∃ s : State, ∃ u,
      takes 0x0C01 24 c s u ∧ downloadBad (heldOf 0x0C01 c) u = false ∧ stagingBusy u = false ∧ bit (arg c 8 1) 1 = 0 ∧ arg c 0 4 = u.fw.contig ∧ flashUsable u = true ∧ downloadData (heldOf 0x0C01 c) ≠ none) ∧
    (∃ c, ∃ s : State, ∃ u,
      takes 0x0C02 4 c s u ∧ argZero c 0 4 ∧ stagingBusy u = false ∧ (uStage u = 2 ∨ uStage u = 3) ∧ flashUsable u = true) ∧
    (∃ c, ∃ s : State, ∃ u, ∃ d : Distribution,
      takes 0x0C03 4 c s u ∧ bits (arg c 1 1) 7 2 = 0 ∧ argZero c 2 2 ∧ bit (arg c 1 1) 0 = 1 ∧ stagingBusy u = false ∧ u.fw.dist = none ∧ uStage u = 3 ∧ d = { transfer := u.crl.msgId, positions := arg c 0 1, neighbour := some (bit (arg c 1 1) 1), contig := [], results := [], sent := 0 }) ∧
    (∃ c, ∃ s : State, ∃ u,
      takes 0x0C04 4 c s u ∧ arg c 0 1 = 0 ∧ bits (arg c 1 1) 7 1 = 0 ∧ arg c 3 1 ≤ 8 ∧ activateRefusal u = none ∧ u.mgmt.rom = false) ∧
    (∃ c, ∃ s : State, ∃ u,
      takes 0x0C05 4 c s u ∧ arg c 0 1 = 0 ∧ argZero c 2 2 ∧ uState u = Upd.probation ∧ uMigrated u = true) ∧
    (∃ c, ∃ s : State, ∃ u,
      takes 0x0C06 4 c s u ∧ argZero c 0 4 ∧ uState u = Upd.probation) ∧
    (∃ c, ∃ s : State, ∃ u,
      takes 0x0C06 4 c s u ∧ argZero c 0 4 ∧ (uState u = Upd.copyActive ∨ uState u = Upd.armed)) ∧
    (∃ c, ∃ s : State, ∃ u,
      takes 0x0C07 0 c s u) ∧
    (∃ c, ∃ s : State, ∃ u v,
      takes 0x0C08 4 c s u ∧ argZero c 2 2 ∧ settingValue (arg c 0 2) u = some v) ∧
    (∃ c, ∃ s : State, ∃ u,
      takes 0x0C09 4 c s u ∧ (arg c 0 2 = 3 ∨ arg c 0 2 = 5 ∨ (0x100 ≤ arg c 0 2 ∧ arg c 0 2 ≤ 0x13F)) ∧ c.paramLen = 4 + arg c 2 2 ∧ settingBad (arg c 0 2) (arg c 2 2) (arg c 4 4) = false ∧ flashUsable u = true ∧ journalFits (arg c 2 2) u = true) ∧
    (∃ c, ∃ s : State, ∃ u,
      takes 0x0C0A 8 c s u ∧ arg c 0 1 ≤ 2 ∧ argZero c 1 3 ∧ arg c 4 4 = 0x5245564B ∧ ((∀ k, k = 0 ∨ (k = 2 ∧ uStage u = 3) → headerChecks (slotHeader k u) = true → rd (slotHeader k u) 6 1 ≠ arg c 0 1)) ∧ (∃ j, j < 3 ∧ j ≠ arg c 0 1 ∧ bit u.fw.revoked j = 0)) ∧
    (∃ c, ∃ s : State, ∃ u,
      takes 0x0C0B 64 c s u) :=
  ⟨⟨{ W.cmd (le 4 0 ++ le 4 64 ++ [2, 0, 0, 0] ++ le 4 16384 ++ zeros 8) with data := some (zeros 64) }, W.ready, _, takes_window (by decide +kernel), by decide +kernel⟩,
   ⟨{ W.cmd (le 4 64 ++ le 4 64 ++ zeros 16) with data := some (zeros 64) }, W.fw (fun f => { f with contig := 64, total := 16384 }) W.ready, _, takes_window (by decide +kernel), by decide +kernel⟩,
   ⟨W.cmd (zeros 4), W.urec 0 2 0 16083751001768648632 W.ready, _, takes_window (by decide +kernel), by decide +kernel⟩,
   ⟨W.cmd [1, 1, 0, 0], W.urec 0 3 0 16960765775899795358 W.ready, _, _, takes_window (by decide +kernel), by decide +kernel, by decide +kernel, by decide +kernel, by decide +kernel, by decide +kernel, of_decide_eq_true (by decide +kernel), rfl⟩,
   ⟨W.cmd [0, 1, 0, 2], W.urec 0 3 0 16960765775899795358 W.ready, _, takes_window (by decide +kernel), by decide +kernel⟩,
   ⟨W.cmd (zeros 4), W.urec 4 0 2 16644740371918566742 W.ready, _, takes_window (by decide +kernel), by decide +kernel⟩,
   ⟨W.cmd (zeros 4), W.urec 4 0 0 14588668377190205977 W.ready, _, takes_window (by decide +kernel), by decide +kernel⟩,
   ⟨W.cmd (zeros 4), W.urec 2 0 0 2886959713621257803 W.ready, _, takes_window (by decide +kernel), by decide +kernel⟩,
   ⟨W.cmd (zeros 0), W.ready, _, takes_window (by decide +kernel)⟩,
   ⟨W.cmd [3, 0, 0, 0], W.ready, _, _, takes_window (by decide +kernel), by decide +kernel, is_some (by decide +kernel)⟩,
   ⟨W.cmd ([3, 0, 4, 0] ++ le 4 2048), W.ready, _, takes_window (by decide +kernel), by decide +kernel⟩,
   ⟨W.cmd ([1, 0, 0, 0] ++ le 4 0x5245564B), W.ready, _, takes_window (by decide +kernel), by decide +kernel, by decide +kernel, by decide +kernel, (by intro k hk; rcases hk with rfl | ⟨rfl, _⟩ <;> decide +kernel), by decide +kernel⟩,
   ⟨W.cmd (zeros 64), W.ready, _, takes_window (by decide +kernel)⟩⟩

end Sys2Proof.Tests
end

