-- ==== Sys2Proof/Tests/Frames.lean ====
section
/-! SUPPORT. Witnesses: states and operands that meet the hypotheses of the statements about steps, frames, refusals and single rules. -/

namespace Sys2Proof.Tests
open Sys2Proof Sys2Proof.Machine

set_option Elab.async false

namespace W

/-- A command waits POSTED. -/
def posted : State := mgmt (fun m => { m with held := [heldOf 0x0101 (cmd [])] }) ready

/-- The active member of a pair in sync. -/
def active : State := prot (fun p => { p with state := 6, peerSync := true }) ready

/-- Its mirror queue full. -/
def full : State := prot (fun p => { p with mirrorQueue := List.replicate 65536 0 }) active

end W

theorem witness_EmptyQueueStep :
    (∃ s t : State, s.pending = [] ∧ beginHeld s = some t) ∧
    (∃ s : State, s.pending = [] ∧ beginHeld s = none ∧ mirrorStale s = true) ∧
    (∃ s : State, s.pending = [] ∧ beginHeld s = none ∧ mirrorStale s = false ∧ s.glb.inject = none) :=
  ⟨⟨W.posted, _, rfl, is_some (by decide +kernel)⟩,
   ⟨W.mgmt (fun m => { m with running := [W.run 2 (.mirror 1)] }) W.ready, rfl, rfl, rfl⟩,
   ⟨W.ready, rfl, rfl, rfl, rfl⟩⟩

theorem witness_EveryStepKeepsSoundness : ∃ s t, sound s ∧ step s = .next t :=
  ⟨{ W.ready with pending := [.sysInfo (W.cmd [])] }, _,
   ⟨by decide +kernel, by decide +kernel, by decide +kernel, by unfold bounded; decide +kernel, by unfold legalShed; decide +kernel, by decide +kernel, by decide +kernel⟩, rfl⟩

theorem witness_QueriesLeaveTheData : (∃ f c s t, isQuery f ∧ exec (f c) s = .next t) ∧ ∃ c s t, exec (.journalRead c) s = .next t :=
  ⟨⟨.voqQuery, W.cmd (zeros 4), W.ready, _, by simp [isQuery], rfl⟩, ⟨W.cmd (zeros 8 ++ [1] ++ zeros 7), W.ready, _, rfl⟩⟩

theorem witness_ConfigurationCommandsOnlyStage : ∃ p c s t, isConfig p ∧ exec (p.2.2 c) s = .next t :=
  ⟨(0x0A07, specTempoMaxAgeSet, .tempoMaxAgeSet), W.cmd (le 4 100), W.ready, _, by simp [isConfig], rfl⟩

theorem witness_CommandsTurnedAway :
    ∃ p, isCommand p ∧
      (∃ c s, sourceOffers c s ∧ canAccept s = false) ∧
      (∃ c s, sourceOffers c s ∧ canAccept s = true ∧ s.mgmt.rom = true ∧ (recoveryOp p.1 = false ∨ ¬ (2 ≤ c.source ∧ c.source ≤ 4))) ∧
      (∃ c s, sourceOffers c s ∧ canAccept s = true ∧ s.mgmt.rom = false ∧ tagInUse (heldOf p.1 c) s = true) ∧
      (∃ c s, sourceOffers c s ∧ canAccept s = true ∧ s.mgmt.rom = false ∧ tagInUse (heldOf p.1 c) s = false ∧
        headerBad p.2.1 (heldOf p.1 c) = true) ∧
      (∃ c s, sourceOffers c s ∧ canAccept s = true ∧ s.mgmt.rom = false ∧ tagInUse (heldOf p.1 c) s = false ∧
        headerBad p.2.1 (heldOf p.1 c) = false ∧ relayTo (heldOf p.1 c) (arrived p.1 c s) = some none) :=
  ⟨(0x0203, 4, .portAdmin), by simp [isCommand],
   ⟨W.cmd [0, 2, 0, 0], W.mgmt (fun m => { m with ready := false }) W.ready, offers_window (by decide +kernel), by decide +kernel⟩,
   ⟨W.cmd [0, 2, 0, 0], W.mgmt (fun m => { m with rom := true }) W.ready, offers_window (by decide +kernel), by decide +kernel, by decide +kernel,
    by decide +kernel⟩,
   ⟨W.cmd [0, 2, 0, 0], W.mgmt (fun m => { m with running := [W.run 1 .flash] }) W.ready, offers_window (by decide +kernel), by decide +kernel,
    by decide +kernel, by decide +kernel⟩,
   ⟨W.cmd [0, 2, 0], W.ready, offers_window (by decide +kernel), by decide +kernel, by decide +kernel, by decide +kernel, by decide +kernel⟩,
   ⟨{ W.cmd [0, 2, 0, 0] with target := 3 }, W.ready, offers_window (by decide +kernel), by decide +kernel, by decide +kernel, by decide +kernel,
    by decide +kernel, by decide +kernel⟩⟩

theorem mirrors_full : W.full.prot.mirrorQueue.length = 65536 := List.length_replicate

theorem witness_MirroredConfiguration :
    (∃ p c s st resp t, isConfig p ∧ accepted p.1 p.2.1.minLen c s ∧ p.2.1.body (heldOf p.1 c) (taken p.1 c s) = .done st resp t ∧
      standsBy s = false ∧ mirrors s = true ∧ mirrors t = true ∧ t.prot.mirrorQueue.length < 65536) ∧
    (∃ p c s st resp t, isConfig p ∧ accepted p.1 p.2.1.minLen c s ∧ p.2.1.body (heldOf p.1 c) (taken p.1 c s) = .done st resp t ∧
      standsBy s = false ∧ mirrors s = true ∧ mirrors t = true ∧ 65536 ≤ t.prot.mirrorQueue.length) ∧
    (∃ p c s st resp t, isConfig p ∧ accepted p.1 p.2.1.minLen c s ∧ p.2.1.body (heldOf p.1 c) (taken p.1 c s) = .done st resp t ∧
      standsBy s = false ∧ mirrors s = false) ∧
    (∃ p c s st resp t, isConfig p ∧ accepted p.1 p.2.1.minLen c s ∧ p.2.1.body (heldOf p.1 c) (taken p.1 c s) = .done st resp t ∧
      standsBy s = true) :=
  ⟨⟨(0x0A07, specTempoMaxAgeSet, .tempoMaxAgeSet), W.cmd (le 4 100), W.active, _, _, _, by simp [isConfig], accepted_window (by decide +kernel), rfl,
    by decide +kernel, by decide +kernel, by decide +kernel, by decide +kernel⟩,
   ⟨(0x0A07, specTempoMaxAgeSet, .tempoMaxAgeSet), W.cmd (le 4 100), W.full, _, _, _, by simp [isConfig], accepted_window (by decide +kernel), rfl,
    rfl, rfl, rfl, Nat.le_of_eq mirrors_full.symm⟩,
   ⟨(0x0A07, specTempoMaxAgeSet, .tempoMaxAgeSet), W.cmd (le 4 100), W.ready, _, _, _, by simp [isConfig], accepted_window (by decide +kernel), rfl,
    by decide +kernel, by decide +kernel⟩,
   ⟨(0x0A07, specTempoMaxAgeSet, .tempoMaxAgeSet), W.cmd (le 4 100), W.prot (fun p => { p with state := 4 }) W.ready, _, _, _, by simp [isConfig],
    accepted_window (by decide +kernel), rfl, by decide +kernel⟩⟩

theorem witness_CommandsWriteOnlyTheirBytes :
    (∃ (c : Cmd) (s : State) (a : Nat), c.source ≤ 1 → ∀ x, ring? c.origin s = some x → ∀ k < 8,
      a ≠ (pciFn x.fn s).pib + (pciFn x.fn s).stride * c.origin + k) ∧
    (∃ (c : Cmd) (resp : List Byte) (t : State) (a : Nat), (c.source ≤ 1 → ∀ k < min resp.length c.respLen, a ≠ c.respAddr + k) ∧
      ∀ r x, ring? r t = some x → 0 < x.size ∧ (∀ k < 32 * x.size, a ≠ x.base + k) ∧
        ∀ k < 8, a ≠ (pciFn x.fn t).pib + (pciFn x.fn t).stride * r + k) ∧
    (∃ (c : Cmd) (resp : List Byte) (t : State) (a : Nat) (x q : Ring), c.source ≤ 1 ∧ bit c.flags 0 = 0 ∧ ring? c.origin t = some x ∧
      ring? x.cq t = some q ∧ q.held = [] ∧ canWrite q t = true ∧ (∀ k < min resp.length c.respLen, a ≠ c.respAddr + k) ∧
      (∀ k < 32, a ≠ q.base + 32 * (q.partIndex % q.size) + k) ∧ ∀ k < 8, a ≠ (pciFn q.fn t).pib + (pciFn q.fn t).stride * x.cq + k) :=
  ⟨⟨{ W.cmd [] with source := 0, origin := 5 }, W.ringIn (W.ring .command 0 6) W.ready, 7, fun _ => by
      intro x h; obtain rfl : W.ring .command 0 6 = x := Option.some.inj h; decide +kernel⟩,
   ⟨W.cmd [], [1], W.ready, 7, by decide +kernel, by intro r x h; exact nomatch h⟩,
   ⟨{ W.cmd [] with source := 0, origin := 5 }, [1, 2], W.rings .command W.ready, 7, _, _, by decide +kernel, by decide +kernel,
    is_some (by decide +kernel), is_some (by decide +kernel), by decide +kernel, by decide +kernel, by decide +kernel, by decide +kernel,
    by decide +kernel⟩⟩

theorem witness_GrantOfMissingVoqIsCounted :
    ∃ lane u s v n, lane < 112 ∧ (fabLane lane s).state = .up ∧ headerGood u = true ∧ hdr u 127 124 = 3 ∧ hdr u 123 123 = 0 ∧
      hdr u 111 100 = s.fab.endpoint ∧ v = hdr u 87 72 * 8 + hdr u 122 120 ∧ voqExists v s = false ∧
      n = (if hdr u 119 112 = 0 then 256 else hdr u 119 112) * 256 :=
  ⟨0, W.hdrUnit 3, W.laneUp W.ready, _, _, by decide +kernel, by decide +kernel, by decide +kernel, by decide +kernel, by decide +kernel,
   by decide +kernel, rfl, by decide +kernel, rfl⟩

theorem witness_EcmpSlotOfTheHash :
    ∃ (p bs : List Byte) (c : Conf) (id : Nat) (slots : List Nat) (crc h : Nat), aget c.ecmp id = some slots ∧ 0 < slots.length ∧
      crc = crc32c (be 4 c.hashSeed ++ ((List.range 32).filter (fun n => bit (pHash p) n = 1)).flatMap (fun n => be 4 (fieldVal p bs n))) ∧
      h = (crc >>> 16) ^^^ (crc &&& 0xFFFF) :=
  ⟨emptyProfile, zeros 60, { W.ready.cfg with ecmp := [(3, [7, 8, 9])] }, 3, [7, 8, 9], _, _, rfl, by decide, rfl, rfl⟩

theorem witness_RecordedAccesses : ∃ cause fn offset write s t, t = recordAccess cause fn offset write s :=
  ⟨2, 0, 0x1C, true, W.ready, _, rfl⟩

theorem witness_ClearingReads :
    ∃ fn off id s, fnExists fn s = true ∧ barServed s = true ∧ counterAt off = some id ∧ s.toll.running = false :=
  ⟨0, 0x3100, _, W.ready, by decide +kernel, by decide +kernel, is_some (by decide +kernel), by decide +kernel⟩

theorem witness_TempoAcrossResets :
    ∃ fn, ∃ value : Word, ∃ s, fnExists fn s = true ∧ barServed s = true ∧ value.toNat / 65536 = 0x5752 ∧ bit value.toNat 0 = 1 ∧
      s.tempo.source ≠ .carillon :=
  ⟨0, 0x57520001, W.ready, by decide +kernel, by decide +kernel, by decide +kernel, by decide +kernel, by decide +kernel⟩

theorem witness_ShedSettings :
    (∃ c s u, takes 0x0E01 4 c s u ∧ arg c 0 1 ≤ 4 ∧ arg c 1 1 ≤ 16 ∧ argZero c 2 2) ∧
    (∃ frame s, s.crl.parked = true ∧ s.pwr.dead = false ∧ wakes frame s = true) ∧
    (∃ fn, ∃ value : Word, ∃ s, fnExists fn s = true ∧ barServed s = true ∧ value.toNat / 65536 = 0x5752 ∧ bit value.toNat 0 = 1) :=
  ⟨⟨W.cmd [3, 8, 0, 0], W.ready, _, takes_window (by decide +kernel), by decide +kernel, by decide +kernel, by decide +kernel⟩,
   ⟨W.wakeFrame, W.crl (fun k => { k with parked := true }) W.ready, by decide +kernel, by decide +kernel, by decide +kernel⟩,
   ⟨0, 0x57520001, W.ready, by decide +kernel, by decide +kernel, by decide +kernel, by decide +kernel⟩⟩

theorem witness_PartWrittenEntryIsOneWrite :
    ∃ r x s, ring? r s = some x ∧ (pciFn x.fn s).indexValid = true ∧ (pciFn x.fn s).busMaster = true :=
  ⟨5, _, W.ringIn (W.ring .command 0 6) W.ready, is_some (by decide +kernel), by decide +kernel, by decide +kernel⟩

end Sys2Proof.Tests
end

