-- ==== Sys2Proof/Tests/Rows.lean ====
section
/-! SUPPORT. Witnesses: operands and states that meet the hypotheses of each clause of the completion statements of the other rows. -/

namespace Sys2Proof.Tests
open Sys2Proof Sys2Proof.Machine

set_option Elab.async false

theorem witness_HostRowsComplete :
    (∃ d : Desc, ∃ s : State, ∃ x n b credits,
      ring? d.ring s = some x ∧ x.typ = .inject ∧ mayBegin x s = true ∧ ringBlocked d.ring s = false ∧ begunTotal s < 2048 ∧ injectBad 0 d = false ∧ injectLen d = .inl n ∧ n ≤ 15996 ∧ injectTurn d.ring n s = some credits ∧ d.data = some b) ∧
    (∃ d : Desc, ∃ s : State, ∃ x n b m y credits,
      ring? d.ring s = some x ∧ x.typ = .inject ∧ mayBegin x s = true ∧ ringBlocked d.ring s = false ∧ begunTotal s < 2048 ∧ injectBad 1 d = false ∧ injectLen d = .inl n ∧ d.data = some b ∧ ahas s.cfg.leaves (rd d.bytes 20 4) = true ∧ leafMac (rd d.bytes 20 4) s = some m ∧ mac? m s = some y ∧ n ≤ y.cfg.maxFrame - 4 ∧ injectTurn d.ring n s = some credits) ∧
    (∃ d : Desc, ∃ s : State, ∃ x,
      ring? d.ring s = some x ∧ x.typ = .buffer ∧ x.state = .enabled ∧ (pciFn x.fn s).busMaster = true ∧ 0 < fetchRoom x) ∧
    (∃ fn r, ∃ s : State, ∃ x,
      ring? r s = some x ∧ x.fn = fn ∧ x.state = .enabled ∧ (pciFn fn s).busMaster = true ∧ partWritten x.typ = false) ∧
    (∃ fn r, ∃ s : State, ∃ x,
      ring? r s = some x ∧ x.fn = fn ∧ x.state = .enabled ∧ (pciFn fn s).busMaster = true ∧ partWritten x.typ = true) ∧
    (∃ fn r, ∃ s : State, ∃ x,
      ring? r s = some x ∧ x.fn = fn ∧ x.state = .enabled ∧ partWritten x.typ = false ∧ x.begun = 0) ∧
    (∃ fn off size value, ∃ s : State, ∃ k,
      doorbellCause fn off size value s = some k) ∧
    (∃ r first, ∃ s : State, ∃ x,
      ring? r s = some x ∧ x.state = .enabled ∧ partWritten x.typ = false ∧ x.fetchStopped = false ∧ (pciFn x.fn s).busMaster = true ∧ cqStalled x s = false ∧ first = (x.partIndex + x.begun + x.fetched.length) % 4294967296) ∧
    (∃ r, ∃ s : State, ∃ x,
      ring? r s = some x ∧ x.state = .enabled ∧ partWritten x.typ = true ∧ (pciFn x.fn s).busMaster = true) ∧
    (∃ r, ∃ s : State, ∃ x,
      ring? r s = some x ∧ (pciFn x.fn s).busMaster = true) ∧
    (∃ r, ∃ s : State, ∃ x u,
      ring? r s = some x ∧ x.modDeadline = some u ∧ x.armed = true ∧ 0 < x.unsignalled) ∧
    (∃ leaf g p rest, ∃ s : State,
      s.fwd.injectPath = [(g, p :: rest)] ∧ p.direct = true ∧ p.leaf = leaf ∧ leafTakes leaf s = true) ∧
    (∃ s : State, ∃ x l,
      landed s = some (x, l)) ∧
    (∃ s : State, ∃ s1 r place pool fallback,
      landed s = none ∧ (∀ x ∈ readyQueues s, x.pool.isSome = true) ∧ drrPick (readyQueues s) s = some (r, s1) ∧ r.pool = some (place, pool, fallback)) :=
  ⟨⟨{ W.desc (zeros 16 ++ le 2 60) with data := some (zeros 60) }, W.rings .inject W.ready, _, 60, _, _, is_some (by decide +kernel), by decide +kernel, by decide +kernel, by decide +kernel, by decide +kernel, by decide +kernel, of_decide_eq_true (by decide +kernel), by decide +kernel, is_some (by decide +kernel), is_some (by decide +kernel)⟩,
   ⟨{ W.desc ([1] ++ zeros 15 ++ le 2 60 ++ zeros 2 ++ le 4 0) with data := some (zeros 60) }, W.rings .inject (W.tree W.ready), _, 60, _, _, _, _, is_some (by decide +kernel), by decide +kernel, by decide +kernel, by decide +kernel, by decide +kernel, by decide +kernel, of_decide_eq_true (by decide +kernel), is_some (by decide +kernel), by decide +kernel, is_some (by decide +kernel), is_some (by decide +kernel), by decide +kernel, is_some (by decide +kernel)⟩,
   ⟨W.desc (zeros 64), W.rings .buffer W.ready, _, is_some (by decide +kernel), by decide +kernel⟩,
   ⟨0, 5, W.rings .inject W.ready, _, is_some (by decide +kernel), by decide +kernel⟩,
   ⟨0, 6, W.rings .inject W.ready, _, is_some (by decide +kernel), by decide +kernel⟩,
   ⟨0, 5, W.rings .inject W.ready, _, is_some (by decide +kernel), by decide +kernel⟩,
   ⟨0, 3, 8, 0, W.ready, _, is_some (by decide +kernel)⟩,
   ⟨5, _, W.rings .inject W.ready, _, is_some (by decide +kernel), by decide +kernel, by decide +kernel, by decide +kernel, by decide +kernel, by decide +kernel, rfl⟩,
   ⟨6, W.rings .inject W.ready, _, is_some (by decide +kernel), by decide +kernel⟩,
   ⟨5, W.rings .inject W.ready, _, is_some (by decide +kernel), by decide +kernel⟩,
   ⟨6, { W.rings .inject W.ready with host := { (W.rings .inject W.ready).host with rings := [(6, { W.ring .completion 0 0 with armed := true, unsignalled := 1, modDeadline := some 500 })] } }, _, _, is_some (by decide +kernel), is_some (by decide +kernel), by decide +kernel⟩,
   ⟨0, 0, { W.pkt with direct := true }, [], { W.ready with fwd := { W.ready.fwd with injectPath := [(0, [{ W.pkt with direct := true }])] } }, by decide +kernel⟩,
   ⟨W.brIs (fun b => { b with atFd := [.toEgress 0 0 W.pkt, .toHost 0 5 0 (zeros 64) 60 W.punt] }) (W.rx W.ready), .toHost 0 5 0 (zeros 64) 60 W.punt, { queue := 0, ring := 5, place := 0, desc := zeros 64, len := 60, pkt := W.punt }, rfl⟩,
   ⟨W.rx W.ready, _, _, 0, 7, false, by decide +kernel, by decide +kernel, is_some (by decide +kernel), by decide +kernel⟩⟩

theorem witness_RegisterRowsComplete :
    (∃ fn, ∃ s : State, ∃ value : Word,
      fnExists fn s = true ∧ barServed s = true ∧ (value.toNat % 65536 = 1024 ∨ value.toNat % 65536 = 4096 ∨ value.toNat % 65536 = 16384)) ∧
    (∃ fn, ∃ s : State, ∃ value : Word,
      fnExists fn s = true ∧ barServed s = true ∧ value.toNat % 64 &&& (63 - s.glb.intEnable % 64) &&& s.glb.intStatus = 0) ∧
    (∃ fn, ∃ s : State, ∃ value : Word,
      fnExists fn s = true ∧ barServed s = true ∧ value.toNat % 64 &&& (63 - s.glb.intEnable % 64) &&& s.glb.intStatus ≠ 0) ∧
    (∃ fn, ∃ s : State,
      fnExists fn s = true ∧ barServed s = true) ∧
    (∃ fn, ∃ s : State,
      fnExists fn s = true ∧ barServed s = true) ∧
    (∃ fn, ∃ s : State, ∃ off id,
      fnExists fn s = true ∧ barServed s = true ∧ counterAt off = some id) ∧
    (∃ fn, ∃ s : State, ∃ off,
      fnExists fn s = true ∧ barServed s = true ∧ readableAt fn off = true ∧ counterAt off = none ∧ off ≠ 0x6008 ∧ groupAt off = none) ∧
    (∃ fn, ∃ s : State, ∃ base n,
      fnExists fn s = true ∧ barServed s = true ∧ readableAt fn base = true ∧ counterAt base = none ∧ base ≠ 0x6008 ∧ base ≠ 0x600C ∧ groupAt base = some (base, n)) ∧
    (∃ fn, ∃ s : State,
      fnExists fn s = true ∧ barServed s = true ∧ namesCounter s.toll.sel = true) ∧
    (∃ fn, ∃ s : State, ∃ off : Nat, ∃ value : Word, ∃ t,
      fnExists fn s = true ∧ barServed s = true ∧ readableAt fn off = true ∧ storeReg off value.toNat s = some t) ∧
    (∃ fn, ∃ s : State,
      fnExists fn s = true ∧ barServed s = true) ∧
    (∃ fn, ∃ s : State,
      fnExists fn s = true ∧ barServed s = true) ∧
    (∃ fn, ∃ s : State, ∃ off,
      fnExists fn s = true ∧ barServed s = true ∧ unassigned fn off = true) ∧
    (∃ fn, ∃ s : State, ∃ off,
      fnExists fn s = true ∧ barServed s = true ∧ unassigned fn off = true) ∧
    (∃ fn, ∃ s : State, ∃ value : Word,
      fnExists fn s = true ∧ barServed s = true ∧ value.toNat / 65536 = 0x494A ∧ 9 < value.toNat % 16) ∧
    (∃ fn, ∃ s : State, ∃ value : Word,
      fnExists fn s = true ∧ barServed s = true ∧ value.toNat / 65536 = 0x494A ∧ value.toNat % 16 ≤ 9) ∧
    (∃ fn data, ∃ s : State, ∃ h spec u resp t,
      fn ≤ 1 ∧ fnExists fn s = true ∧ barServed s = true ∧ (s.mgmt.mbx = .idle ∨ s.mgmt.mbx = .done) ∧ h = parseBlock (2 + fn) 0 0 (16 + rd (windowBytes s) 2 2) data (windowBytes s) ∧ 16 + h.paramLen ≤ 1024 ∧ specOf h.op = some spec ∧ spec.kind = .query ∧ headerBad spec.minLen h = false ∧ h.target = 0xFF ∧ canAccept s = true ∧ s.mgmt.rom = false ∧ tagInUse h s = false ∧ u = { s with mgmt := { s.mgmt with mbx := .running, mbxFn := fn } } ∧ spec.body h u = .done St.ok resp t) ∧
    (∃ fn, ∃ s : State, ∃ r,
      fnExists fn s = true ∧ barServed s = true ∧ s.mgmt.mbx = .running ∧ s.mgmt.restarting = false ∧ s.mgmt.ready = true ∧ s.mgmt.running = [r] ∧ r.cmd.source = 2 + s.mgmt.mbxFn) :=
  ⟨⟨0, W.ready, 0x1000, by decide +kernel⟩,
   ⟨0, W.ready, 5, by decide +kernel⟩,
   ⟨0, W.glb (fun g => { g with intStatus := 4 }) W.ready, 5, by decide +kernel⟩,
   ⟨0, W.ready, by decide +kernel⟩,
   ⟨0, W.ready, by decide +kernel⟩,
   ⟨0, W.ready, 0x3100, _, by decide +kernel, by decide +kernel, is_some (by decide +kernel)⟩,
   ⟨0, W.ready, 0x2C, by decide +kernel⟩,
   ⟨0, W.ready, 4, 2, by decide +kernel⟩,
   ⟨0, W.ready, by decide +kernel⟩,
   ⟨0, W.ready, 0x2C, 7, _, by decide +kernel, by decide +kernel, by decide +kernel, is_some (by decide +kernel)⟩,
   ⟨0, W.ready, by decide +kernel⟩,
   ⟨0, W.ready, by decide +kernel⟩,
   ⟨0, W.ready, 0x40000, by decide +kernel⟩,
   ⟨0, W.ready, 0x40000, by decide +kernel⟩,
   ⟨0, W.ready, 0x494A000A, by decide +kernel⟩,
   ⟨0, W.ready, 0x494A0003, by decide +kernel⟩,
   ⟨0, none, W.window W.ready, _, specTollStatus, _, _, _, by decide +kernel, by decide +kernel, by decide +kernel, by decide +kernel, rfl,
    by decide +kernel, rfl, rfl, by decide +kernel, by decide +kernel, by decide +kernel, by decide +kernel, by decide +kernel, rfl, rfl⟩,
   ⟨0, W.mgmt (fun m => { m with mbx := .running, running := [W.run 1 (.tollStop)] }) W.ready, W.run 1 (.tollStop), by decide +kernel⟩⟩

theorem witness_ResetRowsComplete :
    (∃ fn, ∃ value : Word, ∃ s : State,
      fnExists fn s = true ∧ barServed s = true ∧ value.toNat / 65536 = 0x5752 ∧ bit value.toNat 0 = 1) ∧
    (∃ fn, ∃ s : State,
      fnExists fn s = true) ∧
    (∃ fn, ∃ s : State,
      fnExists fn s = true) ∧
    (∃ fn, ∃ s : State,
      fnExists fn s = true ∧ (pciFn fn s).busMaster = false) ∧
    (∃ fn, ∃ s : State,
      fnExists fn s = true) ∧
    (∃ fn, ∃ s : State,
      fnExists fn s = true ∧ awake s = true ∧ s.pwr.level < 5 ∧ (pciFn fn s).linkUp = false) ∧
    (∃ s : State,
      awake s = true) ∧
    (∃ s : State,
      awake s = true ∧ s.pwr.powerFail = false) ∧
    (∃ s : State,
      awake s = true) ∧
    (∃ s : State, ∃ u,
      s.crl.parkAt = some u ∧ awake s = true) ∧
    (∃ frame, ∃ s : State,
      s.crl.parked = true ∧ s.pwr.dead = false ∧ wakes frame s = true) ∧
    (∃ s : State,
      startDue s = true ∧ (∀ d ∈ s.mem.ddr, 2 ≤ d.state)) ∧
    (∃ s : State,
      startDue s = true ∧ bit s.glb.strap 12 = 0 ∧ (∃ d ∈ s.mem.ddr, d.state < 2)) ∧
    (∃ s : State, ∃ d,
      s.mgmt.rom = false ∧ s.crl.parked = false ∧ s.pwr.level < 5 ∧ s.mgmt.ready = true ∧ s.mgmt.restartDue = some d) ∧
    (∃ s : State,
      s.mgmt.rom = false ∧ s.crl.parked = false ∧ s.pwr.level < 5 ∧ s.mgmt.ready = true) ∧
    (∃ s : State,
      s.mgmt.restarting = true ∧ s.mgmt.rom = false ∧ (teruoRuns s).1 = false ∧ s.elapsed ≤ s.mgmt.restartAt + 3000000000) ∧
    (∃ s : State,
      s.mgmt.restarting = true ∧ s.mgmt.rom = false ∧ (teruoRuns s).1 = false ∧ s.mgmt.restartAt + 3000000000 < s.elapsed) :=
  ⟨⟨0, 0x57520001, W.ready, by decide +kernel⟩,
   ⟨0, W.rings .inject W.ready, by decide +kernel⟩,
   ⟨0, W.ready, by decide +kernel⟩,
   ⟨0, W.pf0 (fun f => { f with busMaster := false }) (W.rings .inject W.ready), by decide +kernel⟩,
   ⟨0, W.ready, by decide +kernel⟩,
   ⟨0, W.pf0 (fun f => { f with linkUp := false }) W.ready, by decide +kernel⟩,
   ⟨W.ready, by decide +kernel⟩,
   ⟨W.ready, by decide +kernel⟩,
   ⟨W.ready, by decide +kernel⟩,
   ⟨W.crl (fun k => { k with parkAt := some 500 }) W.ready, _, is_some (by decide +kernel), by decide +kernel⟩,
   ⟨W.wakeFrame, W.crl (fun k => { k with parked := true }) W.ready, by decide +kernel⟩,
   ⟨W.ddrReady State.reset, by decide +kernel⟩,
   ⟨State.reset, by decide +kernel⟩,
   ⟨W.mgmt (fun m => { m with restartDue := some 5 }) W.ready, _, by decide +kernel, by decide +kernel, by decide +kernel, by decide +kernel, is_some (by decide +kernel)⟩,
   ⟨W.ready, by decide +kernel⟩,
   ⟨W.mgmt (fun m => { m with restarting := true, ready := false }) W.ready, by decide +kernel⟩,
   ⟨{ W.mgmt (fun m => { m with restarting := true, ready := false, restartAt := 0 }) W.ready with elapsed := 3000000001 }, by decide +kernel⟩⟩

theorem witness_PowerRowsComplete :
    (∃ s : State,
      awake s = true ∧ s.pwr.level < 5) ∧
    (∃ s : State,
      awake s = true ∧ s.pwr.level < 5 ∧ s.pwr.thermalTrip = false) ∧
    (∃ board, ∃ s : State, ∃ u,
      awake s = true ∧ s.pwr.level < 5 ∧ u = { s with pwr := { s.pwr with board := board % 4 } } ∧ s.pwr.level < highestAsk u.pwr) ∧
    (∃ board, ∃ s : State, ∃ u,
      awake s = true ∧ s.pwr.level < 5 ∧ u = { s with pwr := { s.pwr with board := board % 4 } } ∧ highestAsk u.pwr < s.pwr.level) ∧
    (∃ s : State, ∃ b n,
      s.pwr.belowSince = some b ∧ n = s.pwr.level ∧ 1 ≤ n ∧ n < 5 ∧ highestAsk s.pwr < n ∧ awake s = true) ∧
    (∃ s : State, ∃ k rest,
      halted s = false ∧ s.pwr.toSleep = k :: rest) ∧
    (∃ s : State, ∃ k rest,
      halted s = false ∧ s.pwr.toSleep = [] ∧ s.pwr.toWake = k :: rest) ∧
    (∃ s : State,
      awake s = true ∧ s.pwr.level < 5) ∧
    (∃ s : State,
      awake s = true ∧ 5 ≤ s.pwr.level) ∧
    (∃ s : State,
      s.mgmt.ready = true ∧ s.mgmt.rom = false ∧ s.mgmt.restarting = false ∧ flashUsable s = true ∧ knellSectorDue s = true) :=
  ⟨⟨W.ready, by decide +kernel⟩,
   ⟨W.ready, by decide +kernel⟩,
   ⟨1, W.ready, _, by decide +kernel, by decide +kernel, rfl, by decide +kernel⟩,
   ⟨0, W.pwr (fun p => { p with level := 2, board := 2 }) W.ready, _, by decide +kernel, by decide +kernel, rfl, by decide +kernel⟩,
   ⟨W.pwr (fun p => { p with level := 2, belowSince := some 100 }) W.ready, 100, 2, by decide +kernel⟩,
   ⟨W.pwr (fun p => { p with toSleep := [0], level := 3 }) W.ready, 0, [], by decide +kernel⟩,
   ⟨W.pwr (fun p => { p with toWake := [0], level := 3 }) W.ready, 0, [], by decide +kernel⟩,
   ⟨W.ready, by decide +kernel⟩,
   ⟨W.pwr (fun p => { p with level := 5 }) W.ready, by decide +kernel⟩,
   ⟨W.fw (fun f => { f with flash := [(0x30010, 0)] }) W.ready, by decide +kernel⟩⟩

theorem witness_TimeRowsComplete :
    (∃ s : State,
      s.tempo.source ≠ .pps) ∧
    (∃ s : State,
      s.tempo.source = .pps ∧ s.mgmt.restarting = true) ∧
    (∃ arrival, ∃ s : State, ∃ u,
      s.tempo.source = .pps ∧ s.mgmt.restarting = false ∧ u = todEdge arrival { s with tempo := { s.tempo with ppsTempo := arrival * tuPerNs, lastEdge := some s.elapsed, lastInput := s.elapsed, ppsOffset := edgeOffset arrival s } }) ∧
    (∃ s : State,
      s.tempo.source = .pps ∧ (s.tempo.mode = .acquiring ∨ s.tempo.mode = .locked) ∧ s.mgmt.restarting = false) ∧
    (∃ s : State,
      s.tempo.source = .host ∧ (s.tempo.mode = .acquiring ∨ s.tempo.mode = .locked) ∧ s.mgmt.restarting = false) ∧
    (∃ s : State,
      s.tempo.nextSecond ≤ s.tempo.lastSecond) ∧
    (∃ s : State, ∃ u,
      s.pwr.ppsOutUntil = some u) ∧
    (∃ mac, ∃ s : State, ∃ l,
      (gateRun mac s).list = some l) ∧
    (∃ mac, ∃ s : State, ∃ u l,
      (gateRun mac s).pending = some (u, l)) ∧
    (∃ s : State,
      s.crl.parked = false) ∧
    (∃ s : State,
      s.fwd.muffled ≠ 0) ∧
    (∃ s : State, ∃ c u,
      s.commits.find? (fun c => c.phase == .preparing) = some c ∧ s.mgmt.restarting = false ∧ u = advanceTo c.prepEnd s ∧ u.tempo.lastDownbeat + 2 < c.target) ∧
    (∃ s : State, ∃ u,
      s.toll.running = true ∧ s.toll.flagged = [] ∧ s.host.pf0.tollRing = none ∧ s.host.pf1.tollRing = none ∧ u = advanceTempo (s.toll.next * tuPerNs) s) ∧
    (∃ fn, ∃ s : State,
      tollStopping (writeDump ((pciFn fn s).tollPending.length + 1) fn s) = false) ∧
    (∃ table key, ∃ s : State, ∃ f u,
      findFlow table key s = some f ∧ f.lock = some u) ∧
    (∃ table, ∃ s : State, ∃ ft,
      flowTable table s = some ft) ∧
    (∃ source origin tag, ∃ s : State, ∃ r,
      namedRunning source origin tag s = some r ∧ s.mgmt.restarting = false ∧ s.mgmt.ready = true) :=
  ⟨⟨W.ready, by decide +kernel⟩,
   ⟨W.readyTempo .pps .locked (W.mgmt (fun m => { m with restarting := true }) W.ready), by decide +kernel⟩,
   ⟨1000000007, W.readyTempo .pps .acquiring W.ready, _, by decide +kernel, by decide +kernel, rfl⟩,
   ⟨W.readyTempo .pps .locked W.ready, by decide +kernel⟩,
   ⟨W.readyTempo .host .acquiring W.ready, by decide +kernel⟩,
   ⟨W.tempo (fun t => { t with lastSecond := 5, nextSecond := 5 }) W.ready, by decide +kernel⟩,
   ⟨W.pwr (fun p => { p with ppsOutUntil := some 1000 }) W.ready, _, is_some (by decide +kernel)⟩,
   ⟨0, W.gated { list := some W.gateList, startedAt := 0, gates := 0xFF, pending := none } W.ready, W.gateList, by decide +kernel⟩,
   ⟨0, W.gated { list := none, startedAt := 0, gates := 0xFF, pending := some (2000, some W.gateList) } W.ready, _, _, is_some (by decide +kernel)⟩,
   ⟨W.ready, by decide +kernel⟩,
   ⟨{ W.ready with fwd := { W.ready.fwd with muffled := 1 } }, by decide +kernel⟩,
   ⟨{ W.ready with commits := [{ W.commit0 with target := 500000, prepEnd := 500 }] }, _, _, is_some (by decide +kernel), by decide +kernel, rfl, by decide +kernel⟩,
   ⟨W.toll (fun t => { t with running := true, next := 1000000000, period := 1000 }) W.ready, _, by decide +kernel, by decide +kernel, by decide +kernel, by decide +kernel, rfl⟩,
   ⟨0, W.ready, by decide +kernel⟩,
   ⟨0, zeros 48, W.flows [{ W.ctx with lock := some 5 }] W.ready, _, _, is_some (by decide +kernel), is_some (by decide +kernel)⟩,
   ⟨0, W.flows [] W.ready, _, is_some (by decide +kernel)⟩,
   ⟨2, 0, 1, W.mgmt (fun m => { m with mbx := .running, running := [W.run 1 (.tollStop)] }) W.ready, _, is_some (by decide +kernel), by decide +kernel⟩⟩

theorem witness_CommitMessagesComplete :
    (∃ port msg, ∃ s : State, ∃ m u,
      crlReceive port 0x10 msg s = (some m, u) ∧ cmTerm m = u.crl.term ∧ u.mgmt.restarting = false ∧ findCommit true (cmSeq m) u = none ∧ m.dst = 0xFF ∧ u.crl.role = .follower ∧ (nextConf u).grid = cmGrid m ∧ (nextConf u).maxAge = cmAge m) ∧
    (∃ port msg, ∃ s : State, ∃ m u c,
      crlReceive port 0x11 msg s = (some m, u) ∧ cmTerm m = u.crl.term ∧ coordinated m u = some c ∧ u.mgmt.restarting = false ∧ c.decided = false ∧ cmAttempt m = c.deferrals ∧ cmResult m = 1 ∧ u.tempo.lastDownbeat + 1 < c.target) ∧
    (∃ port msg, ∃ s : State, ∃ m u c,
      crlReceive port 0x12 msg s = (some m, u) ∧ cmTerm m = u.crl.term ∧ followed m u = some c ∧ u.mgmt.restarting = false ∧ c.phase = .prepared ∧ c.target = cmDownbeat m ∧ u.tempo.now + 50000 * tuPerNs < downbeatAt c.target u * tuPerNs) ∧
    (∃ port msg, ∃ s : State, ∃ m u c,
      crlReceive port 0x13 msg s = (some m, u) ∧ cmTerm m = u.crl.term ∧ followed m u = some c ∧ u.mgmt.restarting = false ∧ c.decided = false ∧ c.phase = .preparing) ∧
    (∃ port msg, ∃ s : State, ∃ m u c,
      crlReceive port 0x14 msg s = (some m, u) ∧ cmTerm m = u.crl.term ∧ followed m u = some c ∧ c.phase ≠ .switched ∧ c.pair = false) ∧
    (∃ port msg, ∃ s : State, ∃ m u c,
      crlReceive port 0x15 msg s = (some m, u) ∧ cmTerm m = u.crl.term ∧ coordinated m u = some c ∧ c.phase = .switched ∧ u.tempo.lastDownbeat ≤ c.target ∧ cmResult m = 1) ∧
    (∃ port msg, ∃ s : State, ∃ m u c,
      crlReceive port 0x16 msg s = (some m, u) ∧ cmTerm m = u.crl.term ∧ followed m u = some c ∧ c.phase = .switched ∧ inTime c u = true) ∧
    (∃ port msg, ∃ s : State, ∃ m u c,
      crlReceive port 0x17 msg s = (some m, u) ∧ cmTerm m = u.crl.term ∧ followed m u = some c ∧ c.phase = .switched ∧ inTime c u = true) ∧
    (∃ port msg, ∃ s : State, ∃ m u c,
      crlReceive port 0x17 msg s = (some m, u) ∧ cmTerm m = u.crl.term ∧ followed m u = some c ∧ c.phase ≠ .switched) :=
  ⟨⟨0, W.cf 0x10 0xFF (W.cp 0 0 9 50000000), W.onRing .follower W.ready, _, _, is_pair (by decide +kernel), by decide +kernel⟩,
   ⟨0, W.cf 0x11 0 (W.cp 0 1 9 50000000), W.lead id W.ready, _, _, _, is_pair (by decide +kernel), by decide +kernel, is_some (by decide +kernel), by decide +kernel⟩,
   ⟨0, W.cf 0x12 0xFF (W.cp 0 1 9 50000000), W.fol (fun c => { c with phase := .prepared }) W.ready, _, _, _, is_pair (by decide +kernel), by decide +kernel, is_some (by decide +kernel), by decide +kernel⟩,
   ⟨0, W.cf 0x13 0xFF (W.cp 1 1 9 50000004), W.fol id W.ready, _, _, _, is_pair (by decide +kernel), by decide +kernel, is_some (by decide +kernel), by decide +kernel⟩,
   ⟨0, W.cf 0x14 0xFF (W.cp 0 1 9 50000000), W.fol id W.ready, _, _, _, is_pair (by decide +kernel), by decide +kernel, is_some (by decide +kernel), by decide +kernel⟩,
   ⟨0, W.cf 0x15 0 (W.cp 0 1 9 50000000), W.lead (fun c => { c with phase := .switched }) W.ready, _, _, _, is_pair (by decide +kernel), by decide +kernel, is_some (by decide +kernel), by decide +kernel⟩,
   ⟨0, W.cf 0x16 0xFF (W.cp 0 1 9 50000000), W.fol (fun c => { c with phase := .switched }) W.ready, _, _, _, is_pair (by decide +kernel), by decide +kernel, is_some (by decide +kernel), by decide +kernel⟩,
   ⟨0, W.cf 0x17 0xFF (W.cp 0 1 9 50000000), W.fol (fun c => { c with phase := .switched }) W.ready, _, _, _, is_pair (by decide +kernel), by decide +kernel, is_some (by decide +kernel), by decide +kernel⟩,
   ⟨0, W.cf 0x17 0xFF (W.cp 0 1 9 50000000), W.fol id W.ready, _, _, _, is_pair (by decide +kernel), by decide +kernel, is_some (by decide +kernel), by decide +kernel⟩⟩

theorem witness_CarillonRowsComplete :
    (∃ s : State, ∃ u,
      s.crl.enable = true ∧ s.crl.parked = false ∧ s.pwr.level < 5 ∧ s.mgmt.rom = false ∧ s.crl.role ≠ .head ∧ s.crl.up.pcs = false ∧ s.crl.down.pcs = false ∧ s.fw.schedule = none ∧ u = setTempo (fun t => { t with lastBeat := some (beatInstant s), beatDue := none }) (advanceTempo (beatInstant s * tuPerNs) s)) ∧
    (∃ s : State, ∃ u v w,
      s.crl.enable = true ∧ s.crl.parked = false ∧ s.pwr.level < 5 ∧ s.mgmt.rom = false ∧ u = setTempo (fun t => { t with lastBeat := some (beatInstant s), beatDue := none }) (advanceTempo (beatInstant s * tuPerNs) s) ∧ v = scheduleLate (heartbeatOut 1 (heartbeatOut 0 u)) ∧ v.crl.role = .head ∧ w = updCrl (fun c => { c with beat := (c.beat + 1) % 4294967296 }) v) ∧
    (∃ port msg, ∃ s : State, ∃ m u,
      s.crl.enable = true ∧ s.mgmt.rom = false ∧ fcsGood msg = true ∧ rdBe msg 12 2 = 0x88B5 ∧ m = msgOf msg ∧ u = updCrlPort port (fun p => { p with pcs := true }) s ∧ msgRefused 0 msg u = false ∧ m.version = 1 ∧ m.domain = 0 ∧ m.typ = 1 ∧ 38 + m.length ≤ msg.length ∧ m.cid = u.crl.cid ∧ (bit (rdBe m.payload 19 1) 0 == 1) = (port == 0)) ∧
    (∃ port, ∃ s : State, ∃ n,
      s.crl.enable = true ∧ (crlPort port s).neighbour = some n) ∧
    (∃ s : State,
      s.crl.enable = true) ∧
    (∃ port msg, ∃ s : State, ∃ m u,
      crlReceive port 0x02 msg s = (some m, u)) ∧
    (∃ s : State,
      s.crl.role = .follower) ∧
    (∃ port msg, ∃ s : State, ∃ m u,
      crlReceive port 0x03 msg s = (some m, u)) ∧
    (∃ s : State, ∃ u c,
      s.crl.role = .electing ∧ s.mgmt.restarting = false ∧ u = advanceTo s.crl.settleAt s ∧ s.crl.best = some c ∧ c.serial = s.glb.serial) ∧
    (∃ s : State,
      s.crl.role = .electing ∧ s.mgmt.restarting = false) ∧
    (∃ msg, ∃ s : State, ∃ m u,
      crlReceive 0 0x04 msg s = (some m, u)) ∧
    (∃ port msg, ∃ s : State, ∃ m u,
      crlReceive port 0x05 msg s = (some m, u) ∧ u.fw.schedule = none) ∧
    (∃ port msg, ∃ s : State, ∃ m u v w,
      crlFragment port 0x20 msg s = (some m, u) ∧ u.mgmt.restarting = false ∧ assemble false m u = (some w, v)) ∧
    (∃ msg, ∃ s : State, ∃ m u v w,
      busFragment 0x01 msg s = (some m, u) ∧ u.mgmt.restarting = false ∧ aget u.bus.lastResp m.src = none ∧ (∀ r ∈ u.bus.running, r.1 ≠ m.src) ∧ assemble true m u = (some w, v)) ∧
    (∃ port msg, ∃ s : State, ∃ m u r,
      crlReceive port 0x21 msg s = (some m, u) ∧ u.mgmt.restarting = false ∧ u.mgmt.running.find? (fun r => r.waits == .relay m.src m.msgId) = some r) ∧
    (∃ bus src id, ∃ s : State, ∃ p u,
      s.crl.partials.find? (fun p => p.bus == bus && p.src == src && p.msgId == id) = some p ∧ u = advanceTo (p.firstAt + 100000000) s) ∧
    (∃ s : State, ∃ f n slots u,
      s.bus.sending = some f ∧ s.bus.enable = true ∧ n = s.bus.attempts + 1 ∧ n < 16 ∧ slots = Config.random s.fresh % 2 ^ min n 10 ∧ u = tally (ctrId 8 0 6) s) ∧
    (∃ port msg, ∃ s : State, ∃ m u,
      crlReceive port 0x30 msg s = (some m, u) ∧ u.mgmt.ready = true) ∧
    (∃ port msg, ∃ s : State, ∃ m u,
      (msgOf msg).src ≠ 0xFF ∧ crlReceive port 0x31 msg s = (some m, u)) :=
  ⟨⟨W.crl (fun k => { k with enable := true }) W.ready, _, by decide +kernel, by decide +kernel, by decide +kernel, by decide +kernel, by decide +kernel, of_decide_eq_true (by decide +kernel), by decide +kernel, by decide +kernel, rfl⟩,
   ⟨W.onRing .head W.ready, _, _, _, by decide +kernel, by decide +kernel, by decide +kernel, by decide +kernel, rfl, rfl, by decide +kernel, rfl⟩,
   ⟨0, W.cf 0x01 0xFF (be 8 77 ++ zeros 8 ++ zeros 2 ++ be 1 3 ++ be 1 1 ++ zeros 40), W.onRing .follower W.ready, _, _, by decide +kernel, by decide +kernel, by decide +kernel, by decide +kernel, rfl, rfl, by decide +kernel⟩,
   ⟨0, W.crl (fun k => { k with up := { k.up with neighbour := some { serial := 7, position := 1, seenAt := 0, excluded := false } } }) (W.onRing .follower W.ready), { serial := 7, position := 1, seenAt := 0, excluded := false }, by decide +kernel⟩,
   ⟨W.onRing .follower W.ready, by decide +kernel⟩,
   ⟨0, W.cf 0x02 0xFF (zeros 64), W.onRing .follower W.ready, _, _, is_pair (by decide +kernel)⟩,
   ⟨W.onRing .follower W.ready, by decide +kernel⟩,
   ⟨0, W.cf 0x03 0xFF (zeros 32), W.onRing .electing W.ready, _, _, is_pair (by decide +kernel)⟩,
   ⟨W.crl (fun k => { k with best := some { term := 1, upEnd := true, incumbent := false, priority := 128, serial := W.ready.glb.serial } }) (W.onRing .electing W.ready), _, { term := 1, upEnd := true, incumbent := false, priority := 128, serial := W.ready.glb.serial }, by decide +kernel, by decide +kernel, rfl, by decide +kernel⟩,
   ⟨W.onRing .electing W.ready, by decide +kernel⟩,
   ⟨W.cf 0x04 0xFF (zeros 32), W.onRing .electing W.ready, _, _, is_pair (by decide +kernel)⟩,
   ⟨0, W.cf 0x05 0xFF (zeros 64), W.onRing .head W.ready, _, _, is_pair (by decide +kernel), by decide +kernel⟩,
   ⟨0, W.cf 0x20 0xFF (W.window W.ready |> windowBytes |>.take 16), W.onRing .head W.ready, _, _, _, _, is_pair (by decide +kernel), by decide +kernel, is_pair (by decide +kernel)⟩,
   ⟨W.bf 0x01 (W.window W.ready |> windowBytes |>.take 16), W.onBus W.ready, _, _, _, _, is_pair (by decide +kernel), by decide +kernel, by decide +kernel, by decide +kernel, is_pair (by decide +kernel)⟩,
   ⟨0, W.cf 0x21 2 (zeros 16), W.mgmt (fun m => { m with running := [W.run 1 (.relay 1 7)] }) (W.onRing .follower W.ready), _, _, W.run 1 (.relay 1 7), is_pair (by decide +kernel), by decide +kernel⟩,
   ⟨false, 1, 7, W.crl (fun k => { k with partials := [{ bus := false, src := 1, msgId := 7, typ := 0x20, count := 2, firstAt := 0, parts := [] }] }) W.ready, { bus := false, src := 1, msgId := 7, typ := 0x20, count := 2, firstAt := 0, parts := [] }, _, by decide +kernel, rfl⟩,
   ⟨{ W.ready with bus := { W.ready.bus with enable := true, sending := some (zeros 64) } }, zeros 64, _, _, _, by decide +kernel, by decide +kernel, rfl, by decide +kernel, rfl, rfl⟩,
   ⟨0, W.cf 0x30 2 (zeros 64), W.onRing .follower W.ready, _, _, is_pair (by decide +kernel), by decide +kernel⟩,
   ⟨0, W.cf 0x31 0 (zeros 16), W.onRing .head W.ready, _, _, by decide +kernel, is_pair (by decide +kernel)⟩⟩

theorem witness_ProtectRowsComplete :
    (∃ port msg, ∃ s : State, ∃ m u,
      crlReceive port 0x40 msg s = (some m, u) ∧ u.prot.state ≠ 0 ∧ rdBe m.payload 4 8 = u.prot.peerSerial) ∧
    (∃ msg, ∃ s : State, ∃ m u,
      busReceive 0x40 msg s = (some m, u) ∧ u.prot.state ≠ 0 ∧ rdBe m.payload 4 8 = u.prot.peerSerial) ∧
    (∃ s : State, ∃ u b,
      s.prot.state ≠ 0 ∧ s.crl.parked = false ∧ s.pwr.level < 5 ∧ s.mgmt.rom = false ∧ u = applyPair (advanceTo ((s.elapsed / 10000000 + 1) * 10000000) s) ∧ b = pairBeatOf u) ∧
    (∃ s : State, ∃ p u,
      s.prot.peerAt = some p ∧ u = advanceTo (p + 30000000) s ∧ s.prot.state = 6) ∧
    (∃ s : State, ∃ p u,
      s.prot.peerAt = some p ∧ u = updProt (fun p => { p with peerAt := none }) (advanceTo (p + 30000000) s) ∧ (s.prot.state = 4 ∨ s.prot.state = 5) ∧ maySwitch u = true) ∧
    (∃ port msg, ∃ s : State, ∃ m u,
      crlReceive port 0x44 msg s = (some m, u) ∧ rdBe m.payload 0 1 = u.prot.pair ∧ (u.prot.state = 4 ∨ u.prot.state = 5 ∨ (u.prot.state = 3 ∧ u.prot.switching.isSome = true))) ∧
    (∃ s : State, ∃ d cause,
      s.prot.switching = some (d, cause)) ∧
    (∃ s : State, ∃ d,
      s.prot.wtrAt = some d ∧ s.prot.state = 6) ∧
    (∃ s : State, ∃ d,
      s.prot.wtrAt = some d ∧ maySwitch s = true) ∧
    (∃ s : State,
      s.prot.state = 1 ∧ s.prot.peerAt = none) ∧
    (∃ port msg, ∃ s : State, ∃ m u,
      crlReceive port 0x41 msg s = (some m, u) ∧ mirrorInTurn (rdBe m.payload 4 4) false u = true ∧ rdBe m.payload 0 1 = 0) ∧
    (∃ port msg, ∃ s : State, ∃ m u,
      crlReceive port 0x41 msg s = (some m, u) ∧ mirrorInTurn (rdBe m.payload 4 4) false u = true ∧ rdBe m.payload 0 1 = 1) ∧
    (∃ port msg, ∃ s : State, ∃ m u,
      crlReceive port 0x42 msg s = (some m, u) ∧ mirrorInTurn (rdBe m.payload 0 4) false u = true) ∧
    (∃ port msg, ∃ s : State, ∃ m u ack,
      crlReceive port 0x43 msg s = (some m, u) ∧ u.prot.state = 6 ∧ ack = rdBe m.payload 0 4 ∧ u.prot.mirrorHeld = [] ∧ (∀ r ∈ u.mgmt.running, waitsMirror r.waits = false)) :=
  ⟨⟨0, W.cf 0x40 0xFF (zeros 4 ++ be 8 77 ++ zeros 32), W.prot (fun p => { p with state := 4, peerSerial := 77 }) (W.onRing .follower W.ready), _, _, is_pair (by decide +kernel), by decide +kernel⟩,
   ⟨W.bf 0x40 (zeros 4 ++ be 8 77 ++ zeros 32), W.prot (fun p => { p with state := 4, peerSerial := 77 }) (W.onBus W.ready), _, _, is_pair (by decide +kernel), by decide +kernel⟩,
   ⟨W.prot (fun p => { p with state := 4 }) W.ready, _, _, by decide +kernel, by decide +kernel, by decide +kernel, by decide +kernel, rfl, rfl⟩,
   ⟨W.prot (fun p => { p with state := 6, peerAt := some 0 }) W.ready, 0, _, by decide +kernel, rfl, by decide +kernel⟩,
   ⟨W.prot (fun p => { p with state := 4, inSync := true, peerAt := some 0 }) W.ready, 0, _, by decide +kernel, rfl, by decide +kernel⟩,
   ⟨0, W.cf 0x44 2 (be 1 1 ++ zeros 7), W.prot (fun p => { p with state := 4, pair := 1 }) (W.onRing .follower W.ready), _, _, is_pair (by decide +kernel), by decide +kernel⟩,
   ⟨W.prot (fun p => { p with state := 4, switching := some (500, 2) }) W.ready, 500, 2, by decide +kernel⟩,
   ⟨W.prot (fun p => { p with state := 6, wtrAt := some 500 }) W.ready, 500, by decide +kernel⟩,
   ⟨W.prot (fun p => { p with state := 5, inSync := true, wtrAt := some 500 }) W.ready, 500, by decide +kernel⟩,
   ⟨W.prot (fun p => { p with state := 1 }) W.ready, by decide +kernel⟩,
   ⟨0, W.cf 0x41 2 (be 1 0 ++ zeros 3 ++ be 4 1 ++ le 2 0x0211 ++ le 2 0 ++ zeros 4 ++ le 2 0 ++ le 1 0xFF ++ zeros 5), W.prot (fun p => { p with state := 4 }) (W.onRing .follower W.ready), _, _, is_pair (by decide +kernel), by decide +kernel⟩,
   ⟨0, W.cf 0x41 2 (be 1 1 ++ zeros 3 ++ be 4 1 ++ zeros 64), W.prot (fun p => { p with state := 4 }) (W.onRing .follower W.ready), _, _, is_pair (by decide +kernel), by decide +kernel⟩,
   ⟨0, W.cf 0x42 2 (be 4 1 ++ be 1 1 ++ zeros 131), W.prot (fun p => { p with state := 4 }) (W.onRing .follower W.ready), _, _, is_pair (by decide +kernel), by decide +kernel⟩,
   ⟨0, W.cf 0x43 2 (be 4 5), W.prot (fun p => { p with state := 6, mirrorQueue := [4, 5] }) (W.onRing .follower W.ready), _, _, _, is_pair (by decide +kernel), by decide +kernel, rfl, by decide +kernel⟩⟩

theorem witness_FirmwareRowsComplete :
    (∃ s : State, ∃ c,
      s.fw.copy = some c) ∧
    (∃ s : State, ∃ c,
      s.fw.copy = some c) ∧
    (∃ s : State, ∃ n,
      uState s = Upd.probation ∧ n = probationLimit s ∧ s.mgmt.restarting = false ∧ s.mgmt.ready = true) ∧
    (∃ s : State, ∃ k,
      s.mgmt.restarting = false ∧ s.mgmt.rom = false ∧ s.mgmt.ready = true ∧ uState s = Upd.idle ∧ flashUsable s = true ∧ liveCopy s = some k) ∧
    (∃ s : State, ∃ p u,
      s.mgmt.restarting = false ∧ s.mgmt.rom = false ∧ s.mgmt.ready = true ∧ flashUsable s = true ∧ journalFits 8 s = true ∧ s.mem.retired.find? (fun p => !p.2.2.2.2) = some p ∧ u = appendSetting 4 0x0A (le 8 (retiredEntry p.1 p.2)) s) ∧
    (∃ erase : Bool, ∃ address, ∃ s : State, ∃ u c,
      u = raiseEvent Ev.flashError (if erase then 0 else 1) address 0 s ∧ u.fw.copy = some c ∧ slotBase c.dst ≤ address ∧ address < slotBase c.dst + 16777216) ∧
    (∃ erase : Bool, ∃ address, ∃ s : State, ∃ u,
      u = raiseEvent Ev.flashError (if erase then 0 else 1) address 0 s ∧ u.fw.copy = none ∧ u.mgmt.restarting = false) ∧
    (∃ s : State, ∃ r id v,
      s.mgmt.restarting = false ∧ s.mgmt.running.find? (fun r => waitsFlash r.waits) = some r ∧ r.waits = .setting id (some v)) ∧
    (∃ s : State, ∃ r off bs u,
      s.mgmt.restarting = false ∧ s.mgmt.running.find? (fun r => waitsFlash r.waits) = some r ∧ r.waits = .flash ∧ downloadData r.cmd = some bs ∧ off = par r.cmd 0 4 ∧ u = (if bit (par r.cmd 8 1) 1 = 1 then { s with fw := { s.fw with contig := 0 } } else s) ∧ off ≤ u.fw.contig) ∧
    (∃ s : State, ∃ r bs u,
      s.mgmt.restarting = false ∧ s.mgmt.running.find? (fun r => waitsFlash r.waits) = some r ∧ r.waits = .flash ∧ downloadData r.cmd = some bs ∧ u = (if bit (par r.cmd 8 1) 1 = 1 then { s with fw := { s.fw with contig := 0 } } else s) ∧ u.fw.contig < par r.cmd 0 4) ∧
    (∃ s : State, ∃ st stage digest u t,
      s.fw.verifying = true ∧ s.mgmt.restarting = false ∧ st = verifyImage 2 s ∧ stage = (if st = St.ok then 3 else if uStage s = 1 then 1 else 2) ∧ digest = (if st = St.ok then imageDigest (slotHeader 2 s) else []) ∧ u = writeRec (patch (setFlag 2 false (setRec 10 1 stage (updRec s))) 96 (fit 64 digest)) s ∧ t = verifyDone st (raiseEvent Ev.fwVerified st (slotVersion 2 s) 0 { u with fw := { u.fw with verifying := false } })) :=
  ⟨⟨W.fw (fun f => { f with copy := some { src := 0, dst := 1, retried := false } }) W.ready, { src := 0, dst := 1, retried := false }, by decide +kernel⟩,
   ⟨W.fw (fun f => { f with copy := some { src := 0, dst := 1, retried := false } }) W.ready, { src := 0, dst := 1, retried := false }, by decide +kernel⟩,
   ⟨W.urec 4 0 0 14588668377190205977 W.ready, _, by decide +kernel, rfl, by decide +kernel⟩,
   ⟨W.snapshot W.ready, 0, by decide +kernel⟩,
   ⟨{ W.ready with mem := { W.ready.mem with retired := [(5, 1, 2, 3, false)] } }, (5, 1, 2, 3, false), _, by decide +kernel, by decide +kernel, by decide +kernel, by decide +kernel, by decide +kernel, of_decide_eq_true (by decide +kernel), rfl⟩,
   ⟨true, 0x2000000, W.fw (fun f => { f with copy := some { src := 0, dst := 1, retried := false } }) W.ready, _, { src := 0, dst := 1, retried := false }, rfl, by decide +kernel⟩,
   ⟨false, 0x2000000, W.ready, _, rfl, by decide +kernel⟩,
   ⟨W.mgmt (fun m => { m with running := [W.run 1 (.setting 3 (some (le 4 2048)))] }) W.ready, W.run 1 (.setting 3 (some (le 4 2048))), 3, le 4 2048, by decide +kernel⟩,
   ⟨W.mgmt (fun m => { m with running := [{ W.run 1 .flash with cmd := { (W.run 1 .flash).cmd with params := le 4 0 ++ le 4 4 ++ zeros 16, data := some (zeros 4) } }] }) W.ready, { W.run 1 .flash with cmd := { (W.run 1 .flash).cmd with params := le 4 0 ++ le 4 4 ++ zeros 16, data := some (zeros 4) } }, _, zeros 4, _, by decide +kernel, by decide +kernel, by decide +kernel, by decide +kernel, rfl, rfl, by decide +kernel⟩,
   ⟨W.mgmt (fun m => { m with running := [{ W.run 1 .flash with cmd := { (W.run 1 .flash).cmd with params := le 4 4 ++ le 4 4 ++ zeros 16, data := some (zeros 4) } }] }) W.ready, { W.run 1 .flash with cmd := { (W.run 1 .flash).cmd with params := le 4 4 ++ le 4 4 ++ zeros 16, data := some (zeros 4) } }, zeros 4, _, by decide +kernel, by decide +kernel, by decide +kernel, by decide +kernel, rfl, by decide +kernel⟩,
   ⟨W.fw (fun f => { f with verifying := true }) W.ready, _, _, _, _, _, by decide +kernel, by decide +kernel, rfl, rfl, rfl, rfl, rfl⟩⟩

theorem witness_HumPassesComplete :
    (∃ entry, ∃ s : State, ∃ id x,
      s.mgmt.ready = true ∧ s.mgmt.rom = false ∧ s.mgmt.restarting = false ∧ entryAtIndex (entry / 131072) (entry % 131072) s = some (false, id, x)) ∧
    (∃ entry, ∃ s : State, ∃ id x,
      s.mgmt.ready = true ∧ s.mgmt.rom = false ∧ s.mgmt.restarting = false ∧ entryAtIndex (entry / 131072) (entry % 131072) s = some (true, id, x)) ∧
    (∃ fixed : List Nat, ∃ s : State, ∃ u n,
      awake s = true ∧ s.pwr.level < 4 ∧ u = nextInstant 50000000 s ∧ humBusy 1 u = false ∧ n = u.fwd.missing.length + u.fwd.missingSel.length + fixed.length) ∧
    (∃ s : State, ∃ u,
      awake s = true ∧ s.pwr.level < 4 ∧ u = nextInstant 50000000 s ∧ humBusy 1 u = true) ∧
    (∃ errors : List SramError, ∃ s : State, ∃ u v all fixed,
      hardwareRuns s = true ∧ u = nextInstant 10000000000 s ∧ humBusy 2 u = false ∧ v = storeInjection u ∧ all = errors ++ foundInjected v ∧ fixed = all.countP (fun e => !e.uncorrectable && e.memory ≤ 9)) ∧
    (∃ s : State, ∃ u,
      hardwareRuns s = true ∧ u = nextInstant 10000000000 s ∧ humBusy 6 u = false ∧ (∀ x ∈ u.qdm.stored, (storesIn u).contains x.1 = true)) ∧
    (∃ bad : List (Nat × Nat), ∃ s : State, ∃ u v words,
      teruoRunsHum s = true ∧ (humOf 7 s).enabled = true ∧ 0 < (humOf 7 s).period ∧ u = nextInstant ((humOf 7 s).period * 1000000000) s ∧ humBusy 7 u = false ∧ v = teruoContext 0 1 u ∧ words = bad.foldl (fun n x => n + x.2) 0) ∧
    (∃ s : State, ∃ u v,
      teruoRunsHum s = true ∧ (humOf 8 s).enabled = true ∧ 0 < (humOf 8 s).period ∧ flashUsable s = true ∧ u = nextInstant ((humOf 8 s).period * 1000000000) s ∧ humBusy 8 u = false ∧ v = teruoContext 1 1 u) ∧
    (∃ k, ∃ r : ScanRead, ∃ s : State, ∃ x b y u,
      s.mgmt.restarting = false ∧ s.pwr.scans.find? (fun x => x.context == k) = some x ∧ (x.space ≠ 1 ∨ flashUsable s = true) ∧ b = scanUnits x r s ∧ y = { x with done := x.done + b.length / 64 } ∧ u = setCtx k { algo := x.algo, value := auditRun x.algo (auditCtx k s).value b, running := true } { s with pwr := { s.pwr with scans := s.pwr.scans.map (fun z => if z.context == k then y else z) } }) ∧
    (∃ k, ∃ s : State, ∃ x,
      s.mgmt.restarting = false ∧ s.pwr.scans.find? (fun x => x.context == k) = some x ∧ x.space = 1 ∧ flashUsable s = false ∧ 64 * x.done ≠ x.length) ∧
    (∃ s : State,
      s.mgmt.ready = true ∧ s.mgmt.rom = false ∧ s.mgmt.restarting = false) :=
  ⟨⟨131072, W.conf (fun g => { g with rules := [(131080, W.rule)] }) W.ready, 131080, tableKey 1 0, by decide +kernel, by decide +kernel, by decide +kernel, is_some (by decide +kernel)⟩,
   ⟨0, W.conf (fun g => { g with selects := [(8, { prio := 0, profile := 0, key := 0, mask := 0, order := 0, index := 0 })] }) W.ready, 8, selectFalseHits, by decide +kernel, by decide +kernel, by decide +kernel, is_some (by decide +kernel)⟩,
   ⟨[5], W.ready, _, _, by decide +kernel, by decide +kernel, rfl, by decide +kernel, rfl⟩,
   ⟨W.pwr (fun p => { p with hum := p.hum.modify 1 (fun h => { h with current := some (100000000000, 0, 0) }) }) W.ready, _, by decide +kernel, by decide +kernel, rfl, by decide +kernel⟩,
   ⟨[{ memory := 2, die := 1, uncorrectable := false, word := 9, kind := 0, item := 5 }], W.ready, _, _, _, _, by decide +kernel, rfl, by decide +kernel, rfl, rfl, rfl⟩,
   ⟨W.ready, _, by decide +kernel, rfl, by decide +kernel⟩,
   ⟨[(1, 2)], W.ready, _, _, _, by decide +kernel, by decide +kernel, by decide +kernel, rfl, by decide +kernel, rfl, rfl⟩,
   ⟨W.ready, _, _, by decide +kernel, by decide +kernel, by decide +kernel, by decide +kernel, rfl, by decide +kernel, rfl⟩,
   ⟨2, { bytes := zeros 128, failed := false }, W.pwr (fun p => { p with scans := [{ context := 2, algo := 1, compare := false, space := 0, start := 0, length := 128, expected := 0, done := 0 }] }) W.ready, { context := 2, algo := 1, compare := false, space := 0, start := 0, length := 128, expected := 0, done := 0 }, _, _, _, by decide +kernel, by decide +kernel, by decide +kernel, rfl, rfl, rfl⟩,
   ⟨2, W.pwr (fun p => { p with scans := [{ context := 2, algo := 1, compare := false, space := 1, start := 0, length := 128, expected := 0, done := 0 }] }) (W.fw (fun f => { f with flashOk := false }) W.ready), { context := 2, algo := 1, compare := false, space := 1, start := 0, length := 128, expected := 0, done := 0 }, by decide +kernel⟩,
   ⟨W.pwr (fun p => { p with badWords := [(1, 2, 3)] }) W.ready, by decide +kernel⟩⟩

theorem witness_MemoryRowsComplete :
    (∃ s : State, ∃ u,
      awake s = true ∧ s.pwr.level < 5 ∧ u = nextInstant 100000000 s ∧ ((∀ n, n < 8 → ddrUp n u = false))) ∧
    (∃ n, ∃ s : State, ∃ u,
      awake s = true ∧ s.pwr.level < 5 ∧ u = nextInstant 100000000 s ∧ humBusy 4 u = false ∧ (List.range 8).filter (fun n => ddrUp n u && recenters n u) = [n] ∧ n = 0) ∧
    (∃ channel, ∃ errors : List (Nat × List Nat), ∃ again : List (Nat × List Nat), ∃ s : State, ∃ u d,
      ddrUp channel s = true ∧ hardwareRuns s = true ∧ u = updDdr channel (fun d => { d with scrubPos := d.scrubPos + 1 }) (errors.foldl (scrubWord channel again) s) ∧ d ∈ u.mem.ddr ∧ d.scrubPos < channelMiB u) ∧
    (∃ channel, ∃ errors : List (Nat × List Nat), ∃ again : List (Nat × List Nat), ∃ s : State, ∃ u,
      ddrUp channel s = true ∧ hardwareRuns s = true ∧ u = updDdr channel (fun d => { d with scrubPos := d.scrubPos + 1 }) (errors.foldl (scrubWord channel again) s) ∧ (∀ d ∈ u.mem.ddr, channelMiB u ≤ d.scrubPos)) ∧
    (∃ channel port, ∃ s : State,
      ddrUp channel s = true ∧ port ≤ 5) ∧
    (∃ channel port address, ∃ s : State, ∃ u,
      ddrUp channel s = true ∧ port ≤ 5 ∧ u = withdrawRead channel port address (countLate channel (tickBy 20000 s))) ∧
    (∃ channel, ∃ events : List DdrEvent, ∃ s : State, ∃ u,
      ddrUp channel s = true ∧ u = events.foldl (ddrEvent channel) s ∧ (ddrOf channel u).writes = []) ∧
    (∃ channel, ∃ events : List DdrEvent, ∃ s : State, ∃ u v w l,
      ddrUp channel s = true ∧ u = events.foldl (ddrEvent channel) s ∧ (ddrOf channel u).writes = w :: l ∧ v = countLate channel (tickBy (w.at' + 10000 - u.elapsed) u)) ∧
    (∃ s : State,
      awake s = true ∧ s.pwr.level < 5) ∧
    (∃ s : State,
      awake s = true ∧ s.pwr.level < 5) :=
  ⟨⟨W.ready, _, by decide +kernel, by decide +kernel, rfl, by decide +kernel⟩,
   ⟨0, { W.ready with mem := { W.ready.mem with ddr := W.ready.mem.ddr.modify 0 (fun d => { d with state := 2 }) } }, _, by decide +kernel, by decide +kernel, rfl, by decide +kernel⟩,
   ⟨0, [(5, [1])], [], W.ddrReady W.ready, _, { (ddrOf 0 W.ready) with state := 2, scrubPos := 0 }, by decide +kernel, by decide +kernel, rfl, by decide +kernel⟩,
   ⟨0, [], [], { W.ready with mem := { W.ready.mem with ddr := W.ready.mem.ddr.map (fun d => { d with state := 2, scrubPos := 1000000 }) } }, _, by decide +kernel, by decide +kernel, rfl, by decide +kernel⟩,
   ⟨0, 1, W.ddrReady W.ready, by decide +kernel⟩,
   ⟨0, 1, 64, W.ddrReady W.ready, _, by decide +kernel, by decide +kernel, rfl⟩,
   ⟨7, [.wait 5], W.ddrReady W.ready, _, by decide +kernel, rfl, by decide +kernel⟩,
   ⟨7, [.request { write := true, port := 1, address := 64, bank := 3, row := 5 }], W.ddrReady W.ready, _, _, { no := 0, req := { write := true, port := 1, address := 64, bank := 3, row := 5 }, at' := 0, late := false }, [], by decide +kernel, rfl, by decide +kernel, rfl⟩,
   ⟨W.ready, by decide +kernel⟩,
   ⟨W.ready, by decide +kernel⟩⟩

theorem witness_PortRowsComplete :
    (∃ mac, ∃ s : State, ∃ x,
      mac? mac s = some x ∧ powered x = true) ∧
    (∃ mac, ∃ s : State, ∃ x,
      mac? mac s = some x ∧ powered x = true) ∧
    (∃ mac, ∃ s : State, ∃ x d u,
      mac? mac s = some x ∧ x.debounceAt = some d ∧ x.link = .debounce ∧ x.cfg.flexePhy = false ∧ u = setLink mac .up (fun x => { noTimers x with announced := !x.cfg.flexePhy }) (advanceTempo d s)) ∧
    (∃ mac, ∃ s : State, ∃ x d u,
      mac? mac s = some x ∧ x.debounceAt = some d ∧ x.link = .debounce ∧ x.cfg.flexePhy = true ∧ u = setLink mac .up (fun x => { noTimers x with announced := !x.cfg.flexePhy }) (advanceTempo d s)) ∧
    (∃ mac, ∃ s : State, ∃ x d,
      mac? mac s = some x ∧ x.debounceAt = some d ∧ x.link = .holdDebounce) ∧
    (∃ mac, ∃ s : State, ∃ x d,
      mac? mac s = some x ∧ x.holdUntil = some d ∧ x.link = .hold) ∧
    (∃ mac, ∃ s : State, ∃ x d,
      mac? mac s = some x ∧ x.holdUntil = some d ∧ x.link = .holdDebounce) ∧
    (∃ s : State, ∃ u,
      (∀ p ∈ s.macs, 80 ≤ p.1) ∧ u = advanceTempo (windowEnd s) s) ∧
    (∃ s : State, ∃ n x u, ∃ w : WindowCount,
      s.macs = [(n, x)] ∧ n < 80 ∧ w.line = n ∧ u = advanceTempo (windowEnd s) s) ∧
    (∃ mac f, ∃ s : State, ∃ x,
      mac? mac s = some x ∧ receives mac x s = true ∧ 64 ≤ f.length ∧ f.length ≤ x.cfg.maxFrame ∧ fcsGood f = true ∧ isControl f = false ∧ standbyPort mac s = false) ∧
    (∃ mac f, ∃ s : State, ∃ x,
      mac? mac s = some x ∧ receives mac x s = true ∧ 64 ≤ f.length ∧ f.length ≤ x.cfg.maxFrame ∧ fcsGood f = true ∧ isControl f = true) ∧
    (∃ mac, ∃ s : State, ∃ x t l,
      mac? mac s = some x ∧ x.refreshAt.toList ++ avals x.pfcRefreshAt = t :: l) ∧
    (∃ mac, ∃ s : State, ∃ x d,
      mac? mac s = some x ∧ x.pausedUntil = some d) ∧
    (∃ mac p, ∃ s : State, ∃ x d,
      mac? mac s = some x ∧ aget x.pfcPausedUntil p = some d) ∧
    (∃ mac, ∃ s : State, ∃ x b rest,
      mac? mac s = some x ∧ x.link = .up ∧ x.cfg.flexePhy = false ∧ x.sending = none ∧ x.control = b :: rest) ∧
    (∃ mac, ∃ s : State, ∃ x f rest u,
      mac? mac s = some x ∧ x.link = .up ∧ x.cfg.flexePhy = false ∧ x.sending = none ∧ x.control = [] ∧ txq x 3 = f :: rest ∧ mayStart mac x f s = true ∧ u = updMac mac (fun x => { x with txq := aset x.txq 3 rest }) s) ∧
    (∃ mac, ∃ s : State, ∃ x f,
      mac? mac s = some x ∧ x.link = .up ∧ x.cfg.flexePhy = false ∧ x.sending = some f) ∧
    (∃ mac, ∃ s : State, ∃ x f,
      mac? mac s = some x ∧ x.link = .up ∧ x.cfg.flexePhy = false ∧ x.sending = some f) ∧
    (∃ f : OhFrame, ∃ s : State, ∃ g x,
      phyGroup f.port s = some g ∧ flxGroup g s = some x ∧ f.blockType = markerType ∧ f.oCode = markerCode ∧ f.inst < instCount x ∧ groupOn x = true ∧ linkOk f.port s = true) ∧
    (∃ port, ∃ s : State, ∃ g,
      phyGroup port s = some g) ∧
    (∃ group, ∃ s : State, ∃ x w u,
      flxGroup group s = some x ∧ x.switch = some w ∧ w.crAt = none ∧ s.mgmt.restarting = false ∧ u = advanceTo (w.startedAt + multiNs) s) ∧
    (∃ group, ∃ s : State, ∃ x w r u,
      s.mgmt.restarting = false ∧ flxGroup group s = some x ∧ x.switch = some w ∧ w.crAt = some r ∧ caReceived x s = true ∧ clientsOf group s = [] ∧ u = followClients group (tally (ctrId 2 group 1) (updGroup group (fun x => { x with txB := !x.txB, switch := none }) s))) ∧
    (∃ group, ∃ s : State, ∃ x w r,
      s.mgmt.restarting = false ∧ flxGroup group s = some x ∧ x.switch = some w ∧ w.crAt = some r ∧ caReceived x s = false) :=
  ⟨⟨0, W.macs [(0, W.port .down)] W.ready, _, is_some (by decide +kernel), by decide +kernel⟩,
   ⟨0, W.macs [(0, { W.port .up with pcs := true, announced := true })] W.ready, _, is_some (by decide +kernel), by decide +kernel⟩,
   ⟨0, W.macs [(0, { W.port .debounce with pcs := true, debounceAt := some 500 })] W.ready, _, 500, _, is_some (by decide +kernel), by decide +kernel, by decide +kernel, by decide +kernel, rfl⟩,
   ⟨0, W.macs [(0, { W.phy .debounce with pcs := true, debounceAt := some 500 })] W.ready, _, 500, _, is_some (by decide +kernel), by decide +kernel, by decide +kernel, by decide +kernel, rfl⟩,
   ⟨0, W.macs [(0, { W.port .holdDebounce with pcs := true, debounceAt := some 500 })] W.ready, _, 500, is_some (by decide +kernel), by decide +kernel⟩,
   ⟨0, W.macs [(0, { W.port .hold with pcs := true, holdUntil := some 500 })] W.ready, _, 500, is_some (by decide +kernel), by decide +kernel⟩,
   ⟨0, W.macs [(0, { W.port .holdDebounce with pcs := true, holdUntil := some 500, debounceAt := some 700 })] W.ready, _, 500, is_some (by decide +kernel), by decide +kernel⟩,
   ⟨W.ready, _, by decide +kernel, rfl⟩,
   ⟨W.macs [(79, W.port .up)] W.ready, 79, W.port .up, _, { line := 79, errors := 3, corrected := 2, uncorrectable := 1 }, by decide +kernel, by decide +kernel, by decide +kernel, rfl⟩,
   ⟨0, W.good, W.macs [(0, { W.port .up with pcs := true, announced := true })] W.ready, _, is_some (by decide +kernel), by decide +kernel⟩,
   ⟨0, W.pauseFrame, W.macs [(0, { W.port .up with pcs := true, announced := true })] W.ready, _, is_some (by decide +kernel), by decide +kernel⟩,
   ⟨0, W.macs [(0, { W.port .up with pcs := true, refreshAt := some 500, pfcRefreshAt := [(3, 400)], xoffSent := true })] W.ready, _, 500, [400], is_some (by decide +kernel), by decide +kernel⟩,
   ⟨0, W.macs [(0, { W.port .up with pcs := true, pausedUntil := some 500 })] W.ready, _, 500, is_some (by decide +kernel), by decide +kernel⟩,
   ⟨0, 3, W.macs [(0, { W.port .up with pcs := true, pfcPausedUntil := [(3, 500)] })] W.ready, _, 500, is_some (by decide +kernel), by decide +kernel⟩,
   ⟨0, W.macs [(0, { W.port .up with pcs := true, control := [.pause true] })] W.ready, _, .pause true, [], is_some (by decide +kernel), by decide +kernel⟩,
   ⟨0, W.macs [(0, { W.port .up with pcs := true, txq := [(3, [{ pkt := W.pkt, out := zeros 60, gate := 0, leaf := 0, cls := 0, held := false }])] })] W.ready, _, { pkt := W.pkt, out := zeros 60, gate := 0, leaf := 0, cls := 0, held := false }, [], _, is_some (by decide +kernel), by decide +kernel, by decide +kernel, by decide +kernel, by decide +kernel, by decide +kernel, of_decide_eq_true (by decide +kernel), rfl⟩,
   ⟨0, W.macs [(0, { W.port .up with pcs := true, sending := some { frame := { pkt := W.pkt, out := zeros 60, gate := 0, leaf := 0, cls := 0, held := false }, out := zeros 60, ts := 5 } })] W.ready, _, { frame := { pkt := W.pkt, out := zeros 60, gate := 0, leaf := 0, cls := 0, held := false }, out := zeros 60, ts := 5 }, is_some (by decide +kernel), by decide +kernel⟩,
   ⟨0, W.macs [(0, { W.port .up with pcs := true, sending := some { frame := { pkt := W.pkt, out := zeros 60, gate := 0, leaf := 0, cls := 0, held := false }, out := zeros 60, ts := 5 } })] W.ready, _, { frame := { pkt := W.pkt, out := zeros 60, gate := 0, leaf := 0, cls := 0, held := false }, out := zeros 60, ts := 5 }, is_some (by decide +kernel), by decide +kernel⟩,
   ⟨{ port := 0, inst := 0, block := 1, blockType := 0x4B, oCode := 5, crcGood := true, omf := false, group := 0, phy := 1, phyMap := 0, instNumber := 0, c := [false, false, false], cr := false, ca := false, rpf := false, cal := [] }, W.grp id W.ready, _, _, is_some (by decide +kernel), is_some (by decide +kernel), by decide +kernel⟩,
   ⟨0, W.grp id W.ready, _, is_some (by decide +kernel)⟩,
   ⟨0, W.grp (fun g => { g with switch := some { startedAt := 0, crAt := none } }) W.ready, _, { startedAt := 0, crAt := none }, _, is_some (by decide +kernel), by decide +kernel, by decide +kernel, by decide +kernel, rfl⟩,
   ⟨0, W.grp (fun g => { g with switch := some { startedAt := 0, crAt := some 500 }, txB := true }) W.ready, _, { startedAt := 0, crAt := some 500 }, 500, _, by decide +kernel, is_some (by decide +kernel), by decide +kernel, by decide +kernel, by decide +kernel, by decide +kernel, rfl⟩,
   ⟨0, W.grp (fun g => { g with switch := some { startedAt := 0, crAt := some 500 } }) W.ready, _, { startedAt := 0, crAt := some 500 }, 500, by decide +kernel, is_some (by decide +kernel), by decide +kernel⟩⟩

theorem witness_PipelineRowsComplete :
    (∃ pipe, ∃ sel : List (Nat × TcamFault), ∃ faults : List (Nat × TcamFault), ∃ s : State, ∃ p u v,
      pipe < 8 ∧ halted s = false ∧ (∀ x ∈ s.fwd.stalled, x.1 ≠ pipe) ∧ bit s.fwd.muffled pipe = 0 ∧ takeIngress pipe s = some (p, u) ∧ v = badEntries 0 pipe (sel.filter (fun f => decide (f.1 < 2048)) ++ faults.filter (fun f => decide (2048 ≤ f.1))) u ∧ cacheMiss p v = false) ∧
    (∃ pipe, ∃ sel : List (Nat × TcamFault), ∃ faults : List (Nat × TcamFault), ∃ s : State, ∃ p u v,
      pipe < 8 ∧ halted s = false ∧ (∀ x ∈ s.fwd.stalled, x.1 ≠ pipe) ∧ bit s.fwd.muffled pipe = 0 ∧ takeIngress pipe s = some (p, u) ∧ v = badEntries 0 pipe (sel.filter (fun f => decide (f.1 < 2048)) ++ faults.filter (fun f => decide (2048 ≤ f.1))) u ∧ cacheMiss p v = true) ∧
    (∃ pipe, ∃ s : State,
      pipe < 8 ∧ halted s = false ∧ (∀ x ∈ s.fwd.stalled, x.1 ≠ pipe) ∧ bit s.fwd.muffled pipe = 1) ∧
    (∃ pipe, ∃ s : State,
      pipe < 8 ∧ halted s = false ∧ (∃ x ∈ s.fwd.stalled, x.1 = pipe)) ∧
    (∃ pipe, ∃ s : State, ∃ x m l p,
      pipe < 8 ∧ halted s = false ∧ egressHead pipe s = some (x, m, l, p) ∧ mac? m s = none) ∧
    (∃ pipe, ∃ s : State, ∃ x m l p y,
      pipe < 8 ∧ halted s = false ∧ egressHead pipe s = some (x, m, l, p) ∧ mac? m s = some y ∧ txqFull y (txqOf y (leafClass l p s)) = false) ∧
    (∃ pipe, ∃ s : State, ∃ x,
      pipe < 8 ∧ s.fwd.stalled.find? (fun x => x.1 == pipe) = some x) ∧
    (∃ pipe, ∃ s : State, ∃ x m l p,
      8 ≤ pipe ∧ egressHead (pipe - 8) s = some (x, m, l, p)) ∧
    (∃ pipe, ∃ read : CtxRead, ∃ s : State, ∃ x t u,
      s.fwd.stalled.find? (fun x => x.1 == pipe) = some x ∧ readContext read s = (false, t) ∧ u = { t with cfg := x.2.2, fwd := { t.fwd with stalled := t.fwd.stalled.filter (fun y => y.1 != pipe) } }) ∧
    (∃ pipe, ∃ read : CtxRead, ∃ s : State, ∃ x t u,
      s.fwd.stalled.find? (fun x => x.1 == pipe) = some x ∧ readContext read s = (true, t) ∧ u = { t with cfg := x.2.2, fwd := { t.fwd with stalled := t.fwd.stalled.filter (fun y => y.1 != pipe) } }) ∧
    (∃ n, ∃ s : State, ∃ x rest,
      s.bridge.stopped = false ∧ n < 4 ∧ s.bridge.toQd = x :: rest) ∧
    (∃ n, ∃ s : State, ∃ x rest,
      s.bridge.stopped = false ∧ n < 4 ∧ s.bridge.toFd = x :: rest) ∧
    (∃ n, ∃ s : State, ∃ x rest,
      s.bridge.stopped = false ∧ 4 ≤ n ∧ s.bridge.toQd = x :: rest) ∧
    (∃ s : State,
      s.bridge.stopped = false) ∧
    (∃ s : State, ∃ p rest u v,
      s.bridge.atQd = .toVoq p :: rest ∧ (∀ w ∈ s.qdm.waiting, sameHead p w = false) ∧ p.injected = true ∧ u = { s with bridge := { s.bridge with atQd := rest } } ∧ offer p u = (none, v)) ∧
    (∃ s : State, ∃ p rest u v w,
      s.bridge.atQd = .toVoq p :: rest ∧ (∀ w ∈ s.qdm.waiting, sameHead p w = false) ∧ p.injected = false ∧ u = { s with bridge := { s.bridge with atQd := rest } } ∧ offer p u = (some w, v)) ∧
    (∃ s : State,
      s.qdm.waiting = []) ∧
    (∃ s : State, ∃ w,
      s.qdm.waiting = [w] ∧ w.lossless = false ∧ w.consumer < 10) ∧
    (∃ s : State, ∃ w,
      s.qdm.waiting = [w] ∧ w.lossless = false) ∧
    (∃ s : State, ∃ w v u,
      s.qdm.waiting = [w] ∧ w.lossless = true ∧ sameHead w.pkt w = true ∧ v = w.pkt.dest * 8 + w.pkt.cls ∧ reoffer w s = (true, u)) ∧
    (∃ s : State, ∃ w,
      s.qdm.waiting = [w] ∧ w.lossless = true ∧ sameHead w.pkt w = true ∧ tooOld w.pkt.ts s = true) :=
  ⟨⟨0, [], [], { W.ready with fwd := { W.ready.fwd with recirc := [(0, [W.pkt])] } }, _, _, _, by decide +kernel, by decide +kernel, by decide +kernel, by decide +kernel, is_some (by decide +kernel), rfl, by decide +kernel⟩,
   ⟨0, [], [], W.flowState, _, _, _, by decide +kernel, by decide +kernel, by decide +kernel, by decide +kernel, is_some (by decide +kernel), rfl, by decide +kernel⟩,
   ⟨0, { W.ready with fwd := { W.ready.fwd with muffled := 1 } }, by decide +kernel⟩,
   ⟨0, { W.ready with fwd := { W.ready.fwd with stalled := [(0, W.pkt, W.ready.cfg)] } }, by decide +kernel⟩,
   ⟨0, W.brIs (fun b => { b with atFd := [.toEgress 0 0 W.pkt] }) W.ready, .toEgress 0 0 W.pkt, 0, 0, W.pkt, by decide +kernel⟩,
   ⟨0, W.brIs (fun b => { b with atFd := [.toEgress 0 0 W.pkt] }) (W.macs [(0, W.port .up)] W.ready), .toEgress 0 0 W.pkt, 0, 0, W.pkt, _, by decide +kernel, by decide +kernel, by decide +kernel, is_some (by decide +kernel), by decide +kernel⟩,
   ⟨0, { W.ready with fwd := { W.ready.fwd with stalled := [(0, W.pkt, W.ready.cfg)] } }, _, by decide +kernel, is_some (by decide +kernel)⟩,
   ⟨8, W.brIs (fun b => { b with atFd := [.toEgress 0 0 W.pkt] }) W.ready, .toEgress 0 0 W.pkt, 0, 0, W.pkt, by decide +kernel⟩,
   ⟨0, { channel := 0, address := 0, flips := [], again := [], waited := 100 }, { W.ready with fwd := { W.ready.fwd with stalled := [(0, W.pkt, W.ready.cfg)] } }, _, _, _, is_some (by decide +kernel), is_false (by decide +kernel), rfl⟩,
   ⟨0, { channel := 0, address := 0, flips := [1, 5], again := [1, 5], waited := 100 }, { W.ready with fwd := { W.ready.fwd with stalled := [(0, W.pkt, W.ready.cfg)] } }, _, _, _, is_some (by decide +kernel), is_true (by decide +kernel), rfl⟩,
   ⟨1, W.brIs (fun b => { b with toQd := [.toVoq W.pkt] }) W.ready, .toVoq W.pkt, [], by decide +kernel⟩,
   ⟨1, W.brIs (fun b => { b with toFd := [.toEgress 0 0 W.pkt] }) W.ready, .toEgress 0 0 W.pkt, [], by decide +kernel⟩,
   ⟨4, W.brIs (fun b => { b with toQd := [.toVoq W.pkt] }) W.ready, .toVoq W.pkt, [], by decide +kernel⟩,
   ⟨W.ready, by decide +kernel⟩,
   ⟨W.brIs (fun b => { b with atQd := [.toVoq { W.pkt with injected := true }] }) W.ready, { W.pkt with injected := true }, [], _, _, by decide +kernel, by decide +kernel, by decide +kernel, rfl, is_none (by decide +kernel)⟩,
   ⟨W.brIs (fun b => { b with atQd := [.toVoq { W.pkt with dest := 5 }] }) (W.lossy W.ready), { W.pkt with dest := 5 }, [], _, _, _, by decide +kernel, by decide +kernel, by decide +kernel, rfl, is_pair (by decide +kernel)⟩,
   ⟨W.ready, by decide +kernel⟩,
   ⟨W.qdIs (fun q => { q with waiting := [W.waiting false] }) W.ready, W.waiting false, by decide +kernel⟩,
   ⟨W.qdIs (fun q => { q with waiting := [W.waiting false] }) W.ready, W.waiting false, by decide +kernel⟩,
   ⟨W.qdIs (fun q => { q with waiting := [{ W.waiting true with pkt := { W.pkt with dest := 5 } }] }) (W.conf (fun g => { g with dests := [(5, W.dest 0 0)] }) W.ready), { W.waiting true with pkt := { W.pkt with dest := 5 } }, _, (reoffer ({ W.waiting true with pkt := { W.pkt with dest := 5 } }) (W.qdIs (fun q => { q with waiting := [{ W.waiting true with pkt := { W.pkt with dest := 5 } }] }) (W.conf (fun g => { g with dests := [(5, W.dest 0 0)] }) W.ready))).2, by decide +kernel, by decide +kernel, by decide +kernel, rfl, by decide +kernel⟩,
   ⟨W.tempo (fun t => { t with now := 400000000 * tuPerNs }) (W.qdIs (fun q => { q with waiting := [{ W.waiting true with pkt := { W.pkt with dest := 5 } }] }) (W.conf (fun g => { g with dests := [(5, W.dest 0 0)] }) W.ready)), { W.waiting true with pkt := { W.pkt with dest := 5 } }, by decide +kernel⟩⟩

theorem witness_FabricRowsComplete :
    (∃ v, ∃ s : State, ∃ n q u,
      q = voq v s ∧ writeTurn v s = true ∧ q.spilled = true ∧ spillPath s = true ∧ halted s = false ∧ n = min 2048 (bytesOf q.backlog - q.written) ∧ n ≠ 0 ∧ u = { s with qdm := { s.qdm with lastWrite := some v } } ∧ pagesOf q.segStart (q.segEnd + n) ≤ pagesOf q.segStart q.segEnd) ∧
    (∃ v, ∃ s : State, ∃ n q room u,
      q = voq v s ∧ writeTurn v s = true ∧ q.spilled = true ∧ spillPath s = true ∧ halted s = false ∧ n = min 2048 (bytesOf q.backlog - q.written) ∧ n ≠ 0 ∧ u = { s with qdm := { s.qdm with lastWrite := some v } } ∧ room = (8192 - q.segEnd % 8192) % 8192 ∧ pagesOf q.segStart q.segEnd < pagesOf q.segStart (q.segEnd + n)) ∧
    (∃ v, ∃ errors : ReadErrors, ∃ s : State, ∃ u,
      (voq v s).spilled = true ∧ halted s = false ∧ readTurn v s = true ∧ u = readSegment v errors { s with qdm := { s.qdm with lastRead := some v } }) ∧
    (∃ v, ∃ s : State, ∃ u,
      needOf (voq v s) ≠ 0 ∧ reaches (voqEndpoint v s) s = true ∧ u = advanceTo (max ((voq v s).lastReq.getD 0) ((voq v s).lastGrant.getD 0) + 10000000) s ∧ mayRequest v u = true) ∧
    (∃ lane unit, ∃ s : State, ∃ u,
      lane < 112 ∧ (fabLane lane s).state = .up ∧ headerGood unit = true ∧ u = updLane lane (fun l => { l with failures := 0, search := none }) s ∧ hdr unit 127 124 = 2) ∧
    (∃ lane unit, ∃ s : State, ∃ u,
      lane < 112 ∧ (fabLane lane s).state = .up ∧ headerGood unit = true ∧ u = updLane lane (fun l => { l with failures := 0, search := none }) s ∧ hdr unit 127 124 = 3) ∧
    (∃ lane unit, ∃ s : State, ∃ u,
      lane < 112 ∧ (fabLane lane s).state = .up ∧ headerGood unit = true ∧ u = updLane lane (fun l => { l with failures := 0, search := none }) s ∧ hdr unit 127 124 = 3) ∧
    (∃ lane unit, ∃ s : State, ∃ u,
      lane < 112 ∧ (fabLane lane s).state = .up ∧ headerGood unit = true ∧ u = updLane lane (fun l => { l with failures := 0, search := none }) s ∧ hdr unit 127 124 = 4) ∧
    (∃ lane unit, ∃ s : State, ∃ u,
      lane < 112 ∧ (fabLane lane s).state = .up ∧ headerGood unit = true ∧ u = updLane lane (fun l => { l with failures := 0, search := none }) s ∧ hdr unit 127 124 = 1) ∧
    (∃ lane unit, ∃ s : State, ∃ u,
      lane < 112 ∧ (fabLane lane s).state = .up ∧ headerGood unit = true ∧ u = updLane lane (fun l => { l with failures := 0, search := none }) s ∧ hdr unit 127 124 = 8) ∧
    (∃ lane unit, ∃ s : State, ∃ u,
      lane < 112 ∧ (fabLane lane s).state = .up ∧ headerGood unit = true ∧ u = updLane lane (fun l => { l with failures := 0, search := none }) s ∧ hdr unit 127 124 = 9) ∧
    (∃ lane unit, ∃ s : State, ∃ u,
      lane < 112 ∧ (fabLane lane s).state = .up ∧ headerGood unit = true ∧ u = updLane lane (fun l => { l with failures := 0, search := none }) s ∧ hdr unit 127 124 = 10) ∧
    (∃ lane unit, ∃ s : State, ∃ u,
      lane < 112 ∧ (fabLane lane s).state = .check ∧ headerGood unit = true ∧ u = updLane lane (fun l => { l with failures := 0, search := none }) s ∧ hdr unit 127 124 = 8) ∧
    (∃ lane unit, ∃ s : State, ∃ u,
      lane < 112 ∧ (fabLane lane s).state = .check ∧ headerGood unit = true ∧ u = updLane lane (fun l => { l with failures := 0, search := none }) s ∧ hdr unit 127 124 = 9) ∧
    (∃ lane unit, ∃ s : State, ∃ u,
      lane < 112 ∧ (fabLane lane s).state = .check ∧ headerGood unit = true ∧ u = updLane lane (fun l => { l with failures := 0, search := none }) s ∧ hdr unit 127 124 = 10) ∧
    (∃ unit, ∃ s : State, ∃ u,
      unit ∈ s.fab.loop ∧ u = { s with fab := { s.fab with loop := s.fab.loop.erase unit } } ∧ hdr unit 127 124 = 2) ∧
    (∃ unit, ∃ s : State, ∃ u,
      unit ∈ s.fab.loop ∧ u = { s with fab := { s.fab with loop := s.fab.loop.erase unit } } ∧ hdr unit 127 124 = 3) ∧
    (∃ unit, ∃ s : State, ∃ u,
      unit ∈ s.fab.loop ∧ u = { s with fab := { s.fab with loop := s.fab.loop.erase unit } } ∧ hdr unit 127 124 = 3) ∧
    (∃ unit, ∃ s : State, ∃ u,
      unit ∈ s.fab.loop ∧ u = { s with fab := { s.fab with loop := s.fab.loop.erase unit } } ∧ hdr unit 127 124 = 4) ∧
    (∃ unit, ∃ s : State, ∃ u,
      unit ∈ s.fab.loop ∧ u = { s with fab := { s.fab with loop := s.fab.loop.erase unit } } ∧ hdr unit 127 124 = 1) ∧
    (∃ v, ∃ s : State, ∃ d,
      (voq v s).denyUntil = some d) ∧
    (∃ v, ∃ s : State, ∃ p rest,
      (voq v s).head = p :: rest ∧ 0 < (voq v s).credit ∧ halted s = false ∧ voqExists v s = true ∧ ageAtDequeue p s = false ∧ streamHeld v s = false ∧ reaches (voqEndpoint v s) s = true) ∧
    (∃ v, ∃ s : State, ∃ d,
      drainAt v s = some d ∧ halted s = false) ∧
    (∃ v, ∃ s : State,
      (voq v s).dualStream ≠ dualWanted v s ∧ (voq v s).lastCell = 0) ∧
    (∃ source dual, ∃ s : State, ∃ x g,
      aget s.fab.streams (source * 2 + b2n dual) = some x ∧ x.gapSince = some g) ∧
    (∃ dest, ∃ s : State, ∃ a u,
      aget s.fab.announcing dest = some a ∧ u = advanceTo a.due s ∧ (heldHere dest u).isSome = true ∧ (heldHere dest u).any (fun x => !a.up && (mac? x.localPort u).any (·.announced)) = false) ∧
    (∃ dest, ∃ s : State, ∃ w u,
      aget s.fab.withdrawn dest = some w ∧ u = advanceTo (w.2 + 35000000) s) ∧
    (∃ lane chunk, ∃ s : State, ∃ k,
      aget (fabLane lane s).chunks chunk = some k) ∧
    (∃ lane, ∃ s : State,
      (fabLane lane s).state = .down) ∧
    (∃ lane, ∃ s : State,
      ((fabLane lane s).state = .hunt ∨ (fabLane lane s).state = .check ∨ (fabLane lane s).state = .up)) ∧
    (∃ lane, ∃ s : State, ∃ g,
      (fabLane lane s).consistentSince = some g ∧ (fabLane lane s).state = .check ∧ slotAgrees lane (fabLane lane s).peerEndpoint s = true) ∧
    (∃ lane, ∃ s : State,
      (fabLane lane s).state = .up) ∧
    (∃ lane, ∃ s : State,
      (fabLane lane s).state = .hunt ∧ s.prot.hold = false) ∧
    (∃ group, ∃ s : State, ∃ u l m p,
      selectOnce (s.sched.queues.length + 1) group s = (some (l, m, p), u)) :=
  ⟨⟨0, W.voqIs (fun q => { q with spilled := true, backlog := [W.pkt], segEnd := 100, segStart := 0, pages := [5] }) (W.qdIs (fun q => { q with hbmReady := true, spillEnabled := true }) { W.ready with mem := { W.ready.mem with hbmStacks := List.replicate 4 (2, 0) } }), _, _, _, rfl, by decide +kernel, by decide +kernel, by decide +kernel, by decide +kernel, rfl, by decide +kernel, rfl, by decide +kernel⟩,
   ⟨0, W.voqIs (fun q => { q with spilled := true, backlog := [W.pkt] }) (W.qdIs (fun q => { q with hbmReady := true, spillEnabled := true }) { W.ready with mem := { W.ready.mem with hbmStacks := List.replicate 4 (2, 0) } }), _, _, _, _, rfl, by decide +kernel, by decide +kernel, by decide +kernel, by decide +kernel, rfl, by decide +kernel, rfl, rfl, by decide +kernel⟩,
   ⟨0, { accesses := [(0, [3])], commands := [] }, W.voqIs (fun q => { q with spilled := true, seg := [W.pkt], segEnd := 64, pages := [5] }) (W.conf (fun g => { g with dests := [(0, W.dest 0 0)] }) (W.qdIs (fun q => { q with hbmReady := true, spillEnabled := true }) { W.ready with mem := { W.ready.mem with hbmStacks := List.replicate 4 (2, 0) } })), _, by decide +kernel, by decide +kernel, by decide +kernel, rfl⟩,
   ⟨0, W.voqIs (fun q => { q with head := [W.pkt] }) (W.conf (fun g => { g with dests := [(0, W.dest 0 0)] }) W.ready), _, by decide +kernel, by decide +kernel, rfl, by decide +kernel⟩,
   ⟨0, W.hdrUnit 2, W.laneUp W.ready, _, by decide +kernel, by decide +kernel, by decide +kernel, rfl, by decide +kernel⟩,
   ⟨0, W.hdrUnit 3, W.laneUp W.ready, _, by decide +kernel, by decide +kernel, by decide +kernel, rfl, by decide +kernel⟩,
   ⟨0, W.hdrUnit 3, W.laneUp W.ready, _, by decide +kernel, by decide +kernel, by decide +kernel, rfl, by decide +kernel⟩,
   ⟨0, W.hdrUnit 4, W.laneUp W.ready, _, by decide +kernel, by decide +kernel, by decide +kernel, rfl, by decide +kernel⟩,
   ⟨0, W.hdrUnit 1, W.laneUp W.ready, _, by decide +kernel, by decide +kernel, by decide +kernel, rfl, by decide +kernel⟩,
   ⟨0, W.hdrUnit 8, W.laneUp W.ready, _, by decide +kernel, by decide +kernel, by decide +kernel, rfl, by decide +kernel⟩,
   ⟨0, W.hdrUnit 9, W.laneUp W.ready, _, by decide +kernel, by decide +kernel, by decide +kernel, rfl, by decide +kernel⟩,
   ⟨0, W.hdrUnit 10, W.laneUp W.ready, _, by decide +kernel, by decide +kernel, by decide +kernel, rfl, by decide +kernel⟩,
   ⟨111, W.hdrUnit 8, W.fabIs (fun f => { f with lanes := [(111, { idleLane with state := .check })] }) W.ready, _, by decide +kernel, by decide +kernel, by decide +kernel, rfl, by decide +kernel⟩,
   ⟨111, W.hdrUnit 9, W.fabIs (fun f => { f with lanes := [(111, { idleLane with state := .check })] }) W.ready, _, by decide +kernel, by decide +kernel, by decide +kernel, rfl, by decide +kernel⟩,
   ⟨111, W.hdrUnit 10, W.fabIs (fun f => { f with lanes := [(111, { idleLane with state := .check })] }) W.ready, _, by decide +kernel, by decide +kernel, by decide +kernel, rfl, by decide +kernel⟩,
   ⟨W.hdrUnit 2, W.fabIs (fun f => { f with loop := [W.hdrUnit 2] }) W.ready, _, by decide +kernel, rfl, by decide +kernel⟩,
   ⟨W.hdrUnit 3, W.fabIs (fun f => { f with loop := [W.hdrUnit 3] }) W.ready, _, by decide +kernel, rfl, by decide +kernel⟩,
   ⟨W.hdrUnit 3, W.fabIs (fun f => { f with loop := [W.hdrUnit 3] }) W.ready, _, by decide +kernel, rfl, by decide +kernel⟩,
   ⟨W.hdrUnit 4, W.fabIs (fun f => { f with loop := [W.hdrUnit 4] }) W.ready, _, by decide +kernel, rfl, by decide +kernel⟩,
   ⟨W.hdrUnit 1, W.fabIs (fun f => { f with loop := [W.hdrUnit 1] }) W.ready, _, by decide +kernel, rfl, by decide +kernel⟩,
   ⟨0, W.voqIs (fun q => { q with denyUntil := some 500 }) (W.ready), 500, by decide +kernel⟩,
   ⟨0, W.voqIs (fun q => { q with head := [W.pkt], credit := 100 }) (W.conf (fun g => { g with dests := [(0, W.dest 0 0)] }) W.ready), W.pkt, [], by decide +kernel⟩,
   ⟨0, W.voqIs (fun q => { q with head := [W.pkt] }) (W.fabIs (fun f => { f with withdrawn := [(0, (5, 5))] }) W.ready), drainAt 0 (W.voqIs (fun q => { q with head := [W.pkt] }) (W.fabIs (fun f => { f with withdrawn := [(0, (5, 5))] }) W.ready)) |>.getD 0, by decide +kernel⟩,
   ⟨0, W.voqIs (fun q => { q with dualStream := true }) (W.ready), by decide +kernel⟩,
   ⟨1, false, W.fabIs (fun f => { f with streams := [(2, { next := 0, cells := [], gapSince := some 500, inProgress := [], broken := false, lostDest := 0, lostCls := 0 })] }) W.ready, { next := 0, cells := [], gapSince := some 500, inProgress := [], broken := false, lostDest := 0, lostCls := 0 }, 500, by decide +kernel⟩,
   ⟨0, W.fabIs (fun f => { f with announcing := [(0, { up := true, left := 1, due := 500 })] }) (W.conf (fun g => { g with dests := [(0, W.dest 0 0)] }) W.ready), { up := true, left := 1, due := 500 }, _, by decide +kernel, rfl, by decide +kernel⟩,
   ⟨0, W.fabIs (fun f => { f with withdrawn := [(0, (5, 5))] }) W.ready, (5, 5), _, by decide +kernel, rfl⟩,
   ⟨0, 3, W.fabIs (fun f => { f with lanes := [(0, { idleLane with state := .up, chunks := [(3, (5, 500))] })] }) W.ready, (5, 500), by decide +kernel⟩,
   ⟨0, W.fabIs (fun f => { f with lanes := [(0, { idleLane with state := .down })] }) W.ready, by decide +kernel⟩,
   ⟨0, W.fabIs (fun f => { f with lanes := [(0, { idleLane with state := .up })] }) W.ready, by decide +kernel⟩,
   ⟨0, W.fabIs (fun f => { f with lanes := [(0, { idleLane with state := .check, consistentSince := some 500 })] }) W.ready, 500, by decide +kernel⟩,
   ⟨0, W.fabIs (fun f => { f with lanes := [(0, { idleLane with state := .up })] }) W.ready, by decide +kernel⟩,
   ⟨0, W.fabIs (fun f => { f with lanes := [(0, { idleLane with state := .hunt })] }) W.ready, by decide +kernel⟩,
   ⟨0, W.selState, (selectOnce (W.selState.sched.queues.length + 1) 0 W.selState).2, 0, 0, W.pkt, by decide +kernel⟩⟩

end Sys2Proof.Tests
end

