-- ==== Sys2Proof/WellFormed.lean ====
section
/-! DEFINITION. Which commands are well formed: every operand within the range that the spec gives it. -/

namespace Sys2Proof

/-- A number below a bound. -/
def below (n bound : Nat) : Bool := n < bound

/-- A command's fields fit the fields that carry them (Tables 11-1, 11-2, 10-10). -/
def cmdOk (c : Cmd) : Bool :=
  below c.source 6 && below c.origin 65536 && below c.tag 4294967296 && below c.paramLen 65536 && below c.timeout 65536 &&
  below c.target 256 && below c.flags 256 && below c.reserved 4294967296 && below c.cmdLen 4294967296 &&
  below c.params.length 65537 && below c.respAddr 18446744073709551616 && below c.respLen 4294967296

/-- A descriptor of 64 bytes on a ring that exists (R4, R344). -/
def descOk (d : Desc) : Bool := below d.ring 32768 && d.bytes.length == 64

/-- A port P0 to P79 or a client FC0 to FC127 as DEST of Table 05-5. -/
def macOk (m : Nat) : Bool := below m 80 || (!below m 128 && below m 256)

/-- A function, and an offset in BAR0 (R338, R340). -/
def fnOk (n : Nat) : Bool := below n 2
def bar0Ok (off : Nat) : Bool := below off 67108864

/-- Bits of a 72-bit beat, each once (R424). -/
def flipsOk (l : List Nat) : Bool := l.all (below · 72) && l.eraseDups.length == l.length

/-- A request by one of the six ports (Table 12-2), and the bits that an access finds flipped. -/
def ddrEventOk : DdrEvent → Bool
  | .request r => below r.port 6 && below r.bank 32 && below r.row 1048576
  | .serve flips again => flipsOk flips && flipsOk again
  | .wait _ => true
  | .refresh rank => below rank 2

/-- An Ethernet frame with its addresses, type and check sequence. -/
def frameOk (f : List Byte) : Bool := !below f.length 18

/-- A fabric unit has at least its header (R303). -/
def unitOk (u : List Byte) : Bool := !below u.length 16

/-- A memory error names a memory of Table 15-6 and a die. -/
def sramOk (e : SramError) : Bool := below e.memory 10 && below e.die 2

/-- An overhead frame names a PHY and an instance of it. -/
def overheadOk (f : OhFrame) : Bool := below f.port 80 && below f.inst 4

/-- A grant turn names a port or client, or a DEST and class. -/
def turnOk : GrantTurn → Bool
  | .port m => macOk m
  | .peal d c => below d 65536 && below c 8

/-- Every operand of a command within its range. -/
def Instr.wf : Instr → Bool
  | .sysInfo c => cmdOk c
  | .sysAbort c => cmdOk c
  | .sysCmdQuery c => cmdOk c
  | .sysRestart c => cmdOk c
  | .eventBind c => cmdOk c
  | .journalRead c => cmdOk c
  | .unknownOpcode opcode c => below opcode 65536 && cmdOk c
  | .portConfig c => cmdOk c
  | .portDelete c => cmdOk c
  | .portAdmin c => cmdOk c
  | .portQuery c => cmdOk c
  | .portDegrade c => cmdOk c
  | .portMacSet c => cmdOk c
  | .flexeGroupConfig c => cmdOk c
  | .flexeGroupDelete c => cmdOk c
  | .flexeGroupAdmin c => cmdOk c
  | .flexeClientConfig c => cmdOk c
  | .flexeClientDelete c => cmdOk c
  | .flexeClientAdmin c => cmdOk c
  | .flexeCalendarStage c => cmdOk c
  | .flexeCalendarSwitch c => cmdOk c
  | .flexeQuery c => cmdOk c
  | .parseSelectLayout c => cmdOk c
  | .profileWrite c => cmdOk c
  | .profileDelete c => cmdOk c
  | .profileSelectAdd c => cmdOk c
  | .profileSelectDelete c => cmdOk c
  | .parseClassMapSet c => cmdOk c
  | .ruleTableCreate c => cmdOk c
  | .ruleTableDelete c => cmdOk c
  | .ruleAdd c => cmdOk c
  | .ruleDelete c => cmdOk c
  | .ruleModify c => cmdOk c
  | .ruleOverlaps c => cmdOk c
  | .ruleQuery c => cmdOk c
  | .exceptionConfig c => cmdOk c
  | .tcamStatus c => cmdOk c
  | .fibVrfConfig c => cmdOk c
  | .fibStatus c => cmdOk c
  | .idQuery c => cmdOk c
  | .ecmpHashSeed c => cmdOk c
  | .tableCommit c => cmdOk c
  | .tableCommitQuery c => cmdOk c
  | .flowTableCreate c => cmdOk c
  | .flowTableDelete c => cmdOk c
  | .flowTableFlush c => cmdOk c
  | .flowStatus c => cmdOk c
  | .voqDestSet c => cmdOk c
  | .voqDestDelete c => cmdOk c
  | .voqProfileSet c => cmdOk c
  | .voqEplistSet c => cmdOk c
  | .pealListSet c => cmdOk c
  | .pealListDelete c => cmdOk c
  | .bufPoolLayout c => cmdOk c
  | .bufPoolConfig c => cmdOk c
  | .samplerConfig c => cmdOk c
  | .puntQueueConfig c => cmdOk c
  | .voqQuery c => cmdOk c
  | .bufStatus c => cmdOk c
  | .schedPortConfig c => cmdOk c
  | .schedNodeSet c => cmdOk c
  | .schedNodeDelete c => cmdOk c
  | .gateListSet c => cmdOk c
  | .gateListClear c => cmdOk c
  | .creditConfig c => cmdOk c
  | .creditPealSet c => cmdOk c
  | .policerConfig c => cmdOk c
  | .schedQuery c => cmdOk c
  | .policerQuery c => cmdOk c
  | .fabricConfig c => cmdOk c
  | .fabricQuery c => cmdOk c
  | .fabricLaneQuery c => cmdOk c
  | .ringIndexConfig c => cmdOk c
  | .ringCreate c => cmdOk c
  | .ringEnable c => cmdOk c
  | .ringDisable c => cmdOk c
  | .ringDestroy c => cmdOk c
  | .ringQuery c => cmdOk c
  | .rxGroupConfig c => cmdOk c
  | .puntQueueBind c => cmdOk c
  | .tempoSourceSet c => cmdOk c
  | .tempoTodSet c => cmdOk c
  | .tempoAdjust c => cmdOk c
  | .tempoStep c => cmdOk c
  | .tempoQuery c => cmdOk c
  | .tempoGridSet c => cmdOk c
  | .tempoMaxAgeSet c => cmdOk c
  | .carillonConfig c => cmdOk c
  | .carillonStatus c => cmdOk c
  | .carillonPark c => cmdOk c
  | .mgmtBusConfig c => cmdOk c
  | .protectPairSet c => cmdOk c
  | .protectPairDelete c => cmdOk c
  | .protectSwitch c => cmdOk c
  | .protectQuery c => cmdOk c
  | .fwDownload c => cmdOk c
  | .fwVerify c => cmdOk c
  | .fwDistribute c => cmdOk c
  | .fwActivate c => cmdOk c
  | .fwConfirm c => cmdOk c
  | .fwRevert c => cmdOk c
  | .fwStatus c => cmdOk c
  | .settingsRead c => cmdOk c
  | .settingsWrite c => cmdOk c
  | .keyRevoke c => cmdOk c
  | .attestQuote c => cmdOk c
  | .tollConfig c => cmdOk c
  | .tollSelect c => cmdOk c
  | .tollStart c => cmdOk c
  | .tollStop c => cmdOk c
  | .counterRead c => cmdOk c
  | .tollStatus c => cmdOk c
  | .powerShedConfig c => cmdOk c
  | .powerStatus c => cmdOk c
  | .humConfig c => cmdOk c
  | .humStatus c => cmdOk c
  | .knellRead c => cmdOk c
  | .auditScan c => cmdOk c
  | .auditContextRead c => cmdOk c
  | .auditContextWrite c => cmdOk c
  | .auditStatus c => cmdOk c
  | .memStatus c => cmdOk c
  | .memRetiredQuery c => cmdOk c
  | .diagFaultQuery c => cmdOk c
  | .routeAdd d => descOk d
  | .routeDelete d => descOk d
  | .labelAdd d => descOk d
  | .labelDelete d => descOk d
  | .nhSet d => descOk d
  | .nhFree d => descOk d
  | .ecmpSet d => descOk d
  | .ecmpFree d => descOk d
  | .templateSet d => descOk d
  | .templateFree d => descOk d
  | .flowRead d => descOk d
  | .flowWrite d => descOk d
  | .flowDelete d => descOk d
  | .injectPipeline d => descOk d
  | .injectDirect d => descOk d
  | .bufferPost d => descOk d
  | .newWork fn ring _ => fnOk fn && below ring 32768
  | .invalidate fn ring _ => fnOk fn && below ring 32768
  | .doorbellDiscard fn offset _ _ => fnOk fn && below offset 1048576
  | .mbxSubmit fn _ => fnOk fn
  | .mbxAbort fn => fnOk fn
  | .warmReset fn _ => fnOk fn
  | .dbgInject fn _ => fnOk fn
  | .ddrRhThresholdWrite fn _ => fnOk fn
  | .glbIntEnableWrite fn _ => fnOk fn
  | .w1cClear fn offset _ _ => fnOk fn && bar0Ok offset
  | .counterClearingRead fn offset counted => fnOk fn && bar0Ok offset && below counted 18446744073709551616
  | .groupLatchRead fn offset => fnOk fn && bar0Ok offset
  | .cntValRead fn => fnOk fn
  | .registerWrite fn offset _ => fnOk fn && bar0Ok offset
  | .bar0BadAccess fn offset _ => fnOk fn && bar0Ok offset
  | .unmappedAccess fn offset _ => fnOk fn && bar0Ok offset
  | .functionReset fn => fnOk fn
  | .busMasterEnable fn _ _ => fnOk fn
  | .powerOnReset straps => below straps 4294967296
  | .perst fn _ => fnOk fn
  | .pwrFailNAccepted => true
  | .shedRequestChange board => below board 4
  | .shedLevelDecay => true
  | .s3DormantStep => true
  | .thermalTrip => true
  | .railFault _ => true
  | .sensorSample dies hbm _ => dies.length == 16 && hbm.length == 4
  | .ppsInEdge _ => true
  | .ppsLoss => true
  | .hostAdjustSilence => true
  | .tempoSecondBoundary => true
  | .ppsOutEnd => true
  | .downbeat => true
  | .muffleEnd => true
  | .preparationDone => true
  | .prepare port msg => below port 2 && frameOk msg
  | .vote port msg => below port 2 && frameOk msg
  | .go port msg => below port 2 && frameOk msg
  | .defer port msg => below port 2 && frameOk msg
  | .abort port msg => below port 2 && frameOk msg
  | .ack port msg => below port 2 && frameOk msg
  | .confirm port msg => below port 2 && frameOk msg
  | .revert port msg => below port 2 && frameOk msg
  | .tollInstant => true
  | .tollDumpWrite fn => fnOk fn
  | .gateEntryBoundary mac => macOk mac
  | .gateListStart mac => macOk mac
  | .portLinkOk mac => macOk mac
  | .portLinkFail mac _ _ _ => macOk mac
  | .upDebounceEnd mac => macOk mac
  | .holdTimerExpiry mac => macOk mac
  | .degWindowEnd _ => true
  | .frameReceived mac frame _ => macOk mac && frameOk frame
  | .pauseRefresh mac => macOk mac
  | .macControlFrameRx mac frame => macOk mac && frameOk frame
  | .pauseExpiry mac priority => macOk mac && priority.all (below · 8)
  | .flexeOhFrameRx f => overheadOk f
  | .flexeMarkerMissed port inst => below port 80 && below inst 4
  | .flexeCrSet group => below group 16
  | .flexeCBitChange group => below group 16
  | .flexeNoAck group => below group 16
  | .ingressPass pipe _ _ => below pipe 8
  | .egressPass pipe _ => below pipe 8
  | .stageTimeout pipe => below pipe 16
  | .flowCacheFill pipe read => below pipe 8 && below read.channel 8 && flipsOk read.flips && flipsOk read.again
  | .bridgeTransfer _ _ => true
  | .bridgeStall _ => true
  | .voqAdmission => true
  | .bufAllocRetry => true
  | .bufExhaust => true
  | .losslessReoffer voq => below voq 524288
  | .spillWrite voq => below voq 524288
  | .readBack voq _ => below voq 524288
  | .rerequest voq => below voq 524288
  | .request lane unit => below lane 113 && unitOk unit
  | .grantIssue turn => turnOk turn
  | .grant lane unit => below lane 113 && unitOk unit
  | .deny lane unit => below lane 113 && unitOk unit
  | .denyHoldoffEnd voq => below voq 524288
  | .voqDequeue voq => below voq 524288
  | .ageDrain voq => below voq 524288
  | .dualStreamSwitch voq => below voq 524288
  | .cell lane unit => below lane 113 && unitOk unit
  | .reassemblyGap source _ => below source 4096
  | .announce lane unit => below lane 113 && unitOk unit
  | .announceRepeat dest => below dest 65536
  | .withdrawalLapse dest => below dest 65536
  | .link lane unit => below lane 113 && unitOk unit
  | .linkSend lane => below lane 112
  | .reach lane unit => below lane 113 && unitOk unit
  | .reachChunkExpiry lane chunk => below lane 112 && below chunk 64
  | .fc lane unit => below lane 113 && unitOk unit
  | .unitHeaderFailure lane => below lane 112
  | .fabricLaneAligned lane => below lane 112
  | .fabricLaneLoss lane => below lane 112
  | .fabricLaneConfirmed lane => below lane 112
  | .linkSilence lane => below lane 112
  | .schedulerSelection group => below group 8
  | .frameTransmit mac _ _ => macOk mac
  | .directInjectEnqueue leaf => below leaf 131072
  | .puntDelivery => true
  | .descriptorFetch ring _ descs => below ring 32768 && descs.all (fun b => b.length == 64)
  | .hostIndexPoll _ => true
  | .dmaReadError ring _ desc => below ring 32768 && desc.length == 64
  | .dmaTimeout ring => below ring 32768
  | .completionHeldFlush ring => below ring 32768
  | .interruptModeration ring => below ring 32768
  | .commandTimeout source origin tag => below source 6 && below origin 65536 && below tag 4294967296
  | .watchdogExpiry => true
  | .managementRestart cause => below cause 4
  | .managementRestartEnd => true
  | .heartbeatSend => true
  | .heartbeat port msg => below port 2 && frameOk msg
  | .neighbourLost port _ => below port 2
  | .headBeacon port msg => below port 2 && frameOk msg
  | .headLost => true
  | .claim port msg => below port 2 && frameOk msg
  | .electionSettle => true
  | .electionRetry => true
  | .position port msg => below port 2 && frameOk msg
  | .member port msg => below port 2 && frameOk msg
  | .relayCmd port msg => below port 2 && frameOk msg
  | .relayResp port msg => below port 2 && frameOk msg
  | .fragmentTimeout _ src msgId => below src 256 && below msgId 4294967296
  | .imageChunk port msg => below port 2 && frameOk msg
  | .imageAck port msg => below port 2 && frameOk msg
  | .command msg => frameOk msg
  | .busCollision => true
  | .parkEntry => true
  | .wake frame => frameOk frame
  | .pairBeat _ port msg => below port 2 && frameOk msg
  | .pairBeatSend => true
  | .peerLost => true
  | .relinquish port msg => below port 2 && frameOk msg
  | .relinquishWaitExpiry => true
  | .wtrExpiry => true
  | .pairingTimeout => true
  | .mirrorCfg port msg => below port 2 && frameOk msg
  | .mirrorFlow port msg => below port 2 && frameOk msg
  | .mirrorAck port msg => below port 2 && frameOk msg
  | .flowLockLapse table key => below table 16 && !below key.length 1
  | .flowAging table => below table 16
  | .tcamEntryRewrite _ => true
  | .tcamScrubPass _ => true
  | .sramScrubPass errors => errors.all sramOk
  | .bufferAuditPass => true
  | .configAuditPass _ => true
  | .flashPatrol => true
  | .ddrRecenter _ => true
  | .ddrScrub channel errors again => below channel 8 && errors.all (fun e => flipsOk e.2) && again.all (fun e => flipsOk e.2)
  | .ddrRequestTimeout channel port _ _ => below channel 8 && below port 8
  | .ddrWriteQueueAge channel events => below channel 8 && events.all ddrEventOk
  | .rowWindowStart _ => true
  | .flashCopyChecked _ => true
  | .probationLimit => true
  | .settingsCompaction => true
  | .knellSectorErase => true
  | .retiredPageRecord => true
  | .secondConfirmation lane => below lane 112
  | .hbmTrainingDone failed => below failed 16
  | .startReady ddr => ddr.all (fun d => below d.1 8 && below d.2 7)
  | .flashOperationTimeout _ _ => true
  | .flashWriteDone => true
  | .verificationComplete => true
  | .auditScanComplete context read => below context 4 && read.bytes.length % 64 == 0
  | .configWordRewrite table _ => below table 11
  | .clockLockLoss => true
  | .refusedPacketAge => true
  | .pwrFailNRise => true

end Sys2Proof
end

