-- ==== Sys2Proof/Tests/Slice0.lean ====
section
/-! SUPPORT. Ill-formed terms that each check refuses, and small tests on the spec's own numbers. -/

namespace Sys2Proof.Tests
open Sys2Proof Sys2Proof.Machine

set_option Elab.async false

/-! ### The checks of WellFormed refuse -/

theorem test_wf_ready_command : (Instr.portAdmin (W.cmd [0, 2, 0, 0])).wf = true := by decide
theorem test_wf_source : (Instr.portAdmin { W.cmd [] with source := 6 }).wf = false := by decide
theorem test_wf_origin : (Instr.portAdmin { W.cmd [] with origin := 65536 }).wf = false := by decide
theorem test_wf_tag : (Instr.portAdmin { W.cmd [] with tag := 4294967296 }).wf = false := by decide
theorem test_wf_paramLen : (Instr.portAdmin { W.cmd [] with paramLen := 65536 }).wf = false := by decide
theorem test_wf_timeout : (Instr.portAdmin { W.cmd [] with timeout := 65536 }).wf = false := by decide
theorem test_wf_target : (Instr.portAdmin { W.cmd [] with target := 256 }).wf = false := by decide
theorem test_wf_flags : (Instr.portAdmin { W.cmd [] with flags := 256 }).wf = false := by decide
theorem test_wf_reserved : (Instr.portAdmin { W.cmd [] with reserved := 4294967296 }).wf = false := by decide
theorem test_wf_cmdLen : (Instr.portAdmin { W.cmd [] with cmdLen := 4294967296 }).wf = false := by decide
theorem test_wf_params : (Instr.portAdmin { W.cmd [] with params := List.replicate 65537 0 }).wf = false := by
  have h : below (List.replicate 65537 (0 : Byte)).length 65537 = false := by rw [List.length_replicate]; decide
  simp only [Instr.wf, cmdOk, h, Bool.and_false, Bool.false_and]
theorem test_wf_respAddr : (Instr.portAdmin { W.cmd [] with respAddr := 18446744073709551616 }).wf = false := by decide
theorem test_wf_respLen : (Instr.portAdmin { W.cmd [] with respLen := 4294967296 }).wf = false := by decide
theorem test_wf_opcode : (Instr.unknownOpcode 65536 (W.cmd [])).wf = false := by decide
theorem test_wf_desc_ring : (Instr.routeAdd { W.desc [] with ring := 32768 }).wf = false := by decide +kernel
theorem test_wf_desc_bytes : (Instr.routeAdd { W.desc [] with bytes := zeros 63 }).wf = false := by decide +kernel
theorem test_wf_mac : (Instr.portLinkOk 80).wf = false ∧ (Instr.portLinkOk 127).wf = false ∧ (Instr.portLinkOk 256).wf = false := by decide
theorem test_wf_function : (Instr.mbxAbort 2).wf = false := by decide
theorem test_wf_bar0 : (Instr.registerWrite 0 67108864 0).wf = false := by decide
theorem test_wf_bar2 : (Instr.doorbellDiscard 0 1048576 8 0).wf = false := by decide
theorem test_wf_doorbell_ring : (Instr.newWork 0 32768 none).wf = false := by decide
theorem test_wf_counted : (Instr.counterClearingRead 0 0 18446744073709551616).wf = false := by decide
theorem test_wf_straps : (Instr.powerOnReset 4294967296).wf = false := by decide
theorem test_wf_board : (Instr.shedRequestChange 4).wf = false := by decide
theorem test_wf_frame : (Instr.wake (zeros 17)).wf = false := by decide
theorem test_wf_unit : (Instr.grant 0 (zeros 15)).wf = false := by decide
theorem test_wf_lane : (Instr.grant 113 (zeros 16)).wf = false ∧ (Instr.linkSend 112).wf = false := by decide
theorem test_wf_turn : (Instr.grantIssue (.port 80)).wf = false ∧ (Instr.grantIssue (.peal 0 8)).wf = false := by decide
theorem test_wf_priority : (Instr.pauseExpiry 0 (some 8)).wf = false := by decide
theorem test_wf_pipe : (Instr.egressPass 8 []).wf = false := by decide
theorem test_wf_voq : (Instr.spillWrite 524288).wf = false := by decide
theorem test_wf_chunk : (Instr.reachChunkExpiry 0 64).wf = false := by decide
theorem test_wf_flips : (Instr.ddrScrub 0 [(5, [3, 3])] []).wf = false ∧ (Instr.flowCacheFill 0 ⟨0, 0, [72], [], 0⟩).wf = false := by decide
theorem test_wf_ddr_event : (Instr.ddrWriteQueueAge 0 [.request ⟨true, 6, 0, 0, 0⟩]).wf = false ∧ (Instr.ddrWriteQueueAge 0 [.refresh 2]).wf = false := by
  decide
theorem test_wf_memory : (Instr.sramScrubPass [⟨10, 0, false, 0, 0, 0⟩]).wf = false := by decide
theorem test_wf_overhead : (Instr.flexeOhFrameRx ⟨0, 4, 0, 0, 0, true, false, 0, 0, 0, 0, [], false, false, false, []⟩).wf = false := by decide
theorem test_wf_scan : (Instr.auditScanComplete 4 ⟨[], false⟩).wf = false ∧ (Instr.auditScanComplete 0 ⟨zeros 63, false⟩).wf = false := by decide +kernel
theorem test_wf_channel : (Instr.ddrWriteQueueAge 8 []).wf = false := by decide

/-! ### Check codes on the nine digits whose codes are published with each polynomial -/

def digits : List Byte := [0x31, 0x32, 0x33, 0x34, 0x35, 0x36, 0x37, 0x38, 0x39]

theorem test_crc32c : crc32c digits = 0xE3069283 := by decide +kernel
theorem test_crc32 : crc32 digits = 0xCBF43926 := by decide +kernel
theorem test_crc16 : crc16 digits = 0x29B1 := by decide +kernel
theorem test_crc64 : crc64 digits = 0x6C40DF5F0B497347 := by decide +kernel

/-! ### Table 17-2: addresses of counters -/

theorem test_counter_p44_fcs : counterAt 0x10B120 = some (ctrId 0 44 4) := by decide +kernel
theorem test_counter_fc5_stomp : counterAt 0x241550 = some (ctrId 0 133 10) := by decide +kernel
theorem test_counter_f100_hcrc : counterAt 0x329110 = some (ctrId 4 100 2) := by decide +kernel
theorem test_counter_d3_ce : counterAt 0x11100 = some (ctrId 6 3 0) := by decide +kernel

/-! ### Worked examples of the chapters -/

/-- Table 10-17, steps 2 and 7: occupancies across the wrap of the index. -/
theorem test_occupancy : occupancy 0x18 0xFFFFFFF0 = 40 ∧ 256 - occupancy 0x18 0xFFFFFFFC = 228 := by decide

/-- Chapter 06: the bytes of ROUTE_ADD 198.51.100.0/24 in VRF 5 and of its result, ECMP group 9. -/
theorem test_route_bytes :
    routeOf ([1] ++ zeros 7 ++ [4, 24, 5, 0] ++ zeros 4 ++ [0xC6, 0x33, 0x64, 0] ++ zeros 12 ++ [9, 0, 0, 0, 0, 0, 0, 0x20] ++ zeros 24) =
      some (false, 24, 5, 0xC6336400) ∧ resultOk .net 0x2000000000000009 = true ∧ bits 0x2000000000000009 63 61 = 1 := by decide +kernel

/-- Chapter 08: on the default grid downbeat 1,000,005 falls at 1000.005000000. -/
theorem test_downbeat_at : downbeatAt 1000005 W.ready = 1000005000000 := by decide +kernel

/-- Chapter 08: the gates of the list of 100 µs, with 1 µs of LEAD, at the times of Table 08-6. -/
def windowRun : GateRun :=
  { list := some { cycle := 100000, base := 0, lead := 1000, guards := [185, 185, 185, 185, 185, 185, 185, 31], entries := [(10000, 0x80), (90000, 0x7F)] },
    gates := 0xFF, startedAt := 0, pending := none }

def windowAt : State := { W.ready with sched := { W.ready.sched with gates := [(20, windowRun)] } }

theorem test_gate7_selection : openForSelection 20 7 (8968 * tuPerNs) windowAt = true ∧ openForSelection 20 7 (8970 * tuPerNs) windowAt = false := by
  decide +kernel
theorem test_gate0_selection : openForSelection 20 0 (8999 * tuPerNs) windowAt = false ∧ openForSelection 20 0 (9000 * tuPerNs) windowAt = true := by
  decide +kernel

/-! ### One step -/

/-- R318: the grant of a VOQ that does not exist counts its 256 units of 256 bytes. -/
theorem test_grant_unused : ∃ t, step { W.laneUp W.ready with pending := [.grant 0 (W.hdrUnit 3)] } = .next t ∧ t.pending = [] ∧ ctr (fabCtr 0x140) t = 65536 :=
  ⟨_, rfl, by decide +kernel, by decide +kernel⟩

/-- R383: a command of too few parameter bytes is refused, and nothing of the configuration changes. -/
theorem test_refused : ∃ t, step { W.ready with pending := [.portAdmin (W.cmd [0, 2, 0])] } = .next t ∧ t.cfg = W.ready.cfg ∧ t.mgmt.running = [] :=
  ⟨_, rfl, by decide +kernel, by decide +kernel⟩

/-- R36: after power-on reset Tempo is zero and FREE_RUN. -/
theorem test_power_on : ∃ t, step { W.readyTempo .host .locked W.ready with pending := [.powerOnReset 0] } = .next t ∧ t.tempo.now = 0 ∧
    t.tempo.source = .freeRun := ⟨_, rfl, by decide +kernel, by decide +kernel⟩

end Sys2Proof.Tests
end

section
/-! SUPPORT. Tempo at a reset (R36), and the Tempo commands' own rules (R38 to R45, R54, R407). -/

namespace Sys2Proof.Proofs
open Sys2Proof Sys2Proof.Machine Sys2Proof.Laws

/-! ### The state after reset -/

theorem sound_reset : sound State.reset :=
  have bounds : bounded State.reset :=
    ⟨Nat.zero_le _, Nat.zero_le _, Nat.zero_le _, Nat.zero_le _, Nat.zero_le _, Nat.zero_le _, Nat.zero_le _⟩
  have levels : legalShed State.reset := ⟨Nat.zero_le _, Nat.zero_le _, Nat.zero_le _, Nat.zero_le _, Nat.zero_le _⟩
  ⟨rfl, rfl, rfl, bounds, levels, Nat.zero_le _, by decide⟩

/-- Settles O36: the reset state's logs are empty and its levels are those of S0. -/
theorem resetIsSound : Obligations.ResetIsSound := ⟨sound_reset, rfl⟩

/-! ### Tempo across a power-on reset -/

theorem clampInt_zero {lo hi : Int} (h1 : lo ≤ 0) (h2 : 0 ≤ hi) : clampInt lo hi 0 = 0 := by
  unfold clampInt
  rw [if_neg (by omega), if_neg (by omega)]

/-- At the nominal rate, with nothing to slew, Tempo gains 1 ns in a nanosecond. -/
theorem tickBy_now_nominal {s : State} (ns : Nat) (hf : s.tempo.freq = 0) (hs : s.tempo.slew = 0) :
    (tickBy ns s).tempo.now = s.tempo.now + ns * 1000000000000 := by
  have hm : (0 : Int) ≤ (ns : Int) * maxFreq := Int.mul_nonneg (Int.natCast_nonneg ns) (by decide)
  have hc : clampInt (-((ns : Int) * maxFreq)) ((ns : Int) * maxFreq) 0 = 0 := clampInt_zero (by omega) hm
  simp only [tickBy, hf, hs, Int.sub_zero, Int.add_zero, hc]
  omega

theorem asks_trainLink {r : State} {n : Nat} {s : State} (h : asks r s) : asks r (trainLink n s) := by
  unfold trainLink drawn
  exact asks_ite (asks_mk (asks_updFn h) ⟨rfl, rfl⟩) h

theorem powerOn_tempo (straps : Nat) (wait : Bool) (s : State) : (powerOn straps wait s).tempo = State.resetTempo := by
  unfold powerOn
  exact (asks_trainLink (asks_trainLink (asks_refl _))).1

theorem powerOnReset_answers (straps : Nat) (s : State) :
    ∃ t, exec (.powerOnReset straps) s = .next t ∧ t.tempo = State.resetTempo :=
  ⟨_, rfl, (asks_emit (asks_refl _)).1.trans (powerOn_tempo _ _ s)⟩

/-! ### Tempo across a warm reset -/

theorem warmReset_tempo (s : State) : (warmReset s).tempo = (leaveCarillonTime (warmed s)).tempo :=
  (asks_settleShed (asks_checkHbmIdle (asks_refl _))).1

theorem leaveCarillonTime_now (s : State) : (leaveCarillonTime s).tempo.now = s.tempo.now := by
  unfold leaveCarillonTime
  split <;> rfl

theorem leaveCarillonTime_of_ne {s : State} (h : s.tempo.source ≠ .carillon) : leaveCarillonTime s = s := by
  unfold leaveCarillonTime
  rw [beq_eq_false_iff_ne.mpr h]
  rfl

/-- A write of GLB_CTRL with the key and the reset bit, at a function that serves it, is a warm reset (R588). -/
theorem exec_warmReset {fn : Nat} {value : Word} {s : State} (hf : fnExists fn s = true) (hb : barServed s = true)
    (hk : value.toNat / 65536 = 0x5752) (h0 : bit value.toNat 0 = 1) : exec (.warmReset fn value) s = .next (warmReset s) := by
  show execWarmReset fn value s = _
  simp [execWarmReset, writeThrough, hf, hb, hk, h0]

/-- Settles O49: power-on reset puts Tempo's reset state back, which runs at the nominal rate; a warm reset keeps Tempo's own state, and only a
part that took its time from the carillon falls back to FREE_RUN. -/
theorem tempoAcrossResets : Obligations.TempoAcrossResets := by
  unfold Obligations.TempoAcrossResets
  refine ⟨fun straps s => ?_, fun fn value s hf hb hk h0 => ⟨_, exec_warmReset hf hb hk h0, ?_, fun hs => ?_⟩⟩
  · obtain ⟨t, ht, htempo⟩ := powerOnReset_answers straps s
    have hnow : t.tempo.now = 0 := by rw [htempo]; rfl
    refine ⟨t, ht, hnow, by rw [htempo]; rfl, fun ns => ?_⟩
    rw [tickBy_now_nominal ns (by rw [htempo]; rfl) (by rw [htempo]; rfl), hnow, Nat.zero_add]
  · rw [warmReset_tempo, leaveCarillonTime_now]
    rfl
  · rw [warmReset_tempo, leaveCarillonTime_of_ne (show (warmed s).tempo.source ≠ .carillon from hs)]
    exact ⟨rfl, rfl, rfl⟩

/-! ### The Tempo commands -/

section
variable {h : HeldCmd} {u : State}

theorem tempoSourceSet_selects (h1 : par h 0 1 < 3) (h2 : parZero h 1 3 = true) (hf : follower u = false) :
    tempoSourceSet h u =
      .done St.ok [] (selectSource (if par h 0 1 = 0 then .freeRun else if par h 0 1 = 1 then .pps else .host) u) := by
  unfold tempoSourceSet
  obtain h0 | h0 | h0 : par h 0 1 = 0 ∨ par h 0 1 = 1 ∨ par h 0 1 = 2 := by omega
  all_goals simp [h0, h2, hf]

theorem tempoTodSet_waits (h1 : par h 6 2 = 0) (hs : u.tempo.source = .pps) (hf : follower u = false) :
    tempoTodSet h u = .wait (.timeOfDay (par h 0 6)) [] u := by
  simp [tempoTodSet, h1, hs, hf]

theorem tempoAdjust_adjusts (h1 : (signed 32 (par h 0 4)).natAbs ≤ 200000000) (h2 : (signed 32 (par h 4 4)).natAbs ≤ 10000)
    (h3 : bits (par h 8 1) 7 1 = 0) (h4 : parZero h 9 3 = true) (hs : u.tempo.source = .host) (hf : follower u = false) :
    tempoAdjust h u =
      .done St.ok [] (hostAdjust (signed 32 (par h 0 4)) (signed 32 (par h 4 4)) (bit (par h 8 1) 0 == 1) u) := by
  simp [tempoAdjust, Nat.not_lt.mpr h1, Nat.not_lt.mpr h2, h3, h4, hs, hf]

theorem tempoStep_waits {d : Int} (hd : d = signed 64 (par h 0 8) * 1000000000 + signed 32 (par h 8 4))
    (h1 : (signed 32 (par h 8 4)).natAbs ≤ 999999999) (h2 : ¬ (0 < signed 64 (par h 0 8) ∧ signed 32 (par h 8 4) < 0))
    (h3 : ¬ (signed 64 (par h 0 8) < 0 ∧ 0 < signed 32 (par h 8 4))) (hs : u.tempo.source = .host) (hf : follower u = false)
    (hr : stepResultOk (((u.tempo.nextSecond * 1000000000 : Nat) : Int) + waitingSum u + d) = true) (hc : u.commits = []) :
    tempoStep h u = .wait (.tempoStep d) [] u := by
  subst hd
  have hbad : (decide (999999999 < (signed 32 (par h 8 4)).natAbs) || (decide (0 < signed 64 (par h 0 8)) && decide (signed 32 (par h 8 4) < 0)) ||
      (decide (signed 64 (par h 0 8) < 0) && decide (0 < signed 32 (par h 8 4)))) = false := by
    simpa using ⟨⟨h1, by simpa using h2⟩, by simpa using h3⟩
  unfold tempoStep
  simp only [hbad, hs, hf, hr, hc, bne_self_eq_false, Bool.false_and, Bool.not_true, Bool.or_false, List.isEmpty_nil, Bool.false_eq_true,
    if_false]

theorem tempoQuery_answers (h : HeldCmd) (u : State) : ∃ rest : List Byte,
    tempoQuery h u = .done St.ok ((List.range 15).flatMap (fun k => le 4 (tmpWord (4 * k) u)) ++ rest) (drawn u) := by
  unfold tempoQuery
  simp only [List.append_assoc]
  exact ⟨_, rfl⟩

theorem tempoGridSet_stages (h1 : 1 ≤ par h 0 2) (h2 : par h 0 2 ≤ 400) (h3 : parZero h 2 2 = true) (hf : follower u = false) :
    tempoGridSet h u = staged [] (.grid (par h 0 2)) u := by
  simp [tempoGridSet, Nat.ne_of_gt h1, Nat.not_lt.mpr h2, h3, hf]

theorem tempoMaxAgeSet_stages (h1 : 10 ≤ par h 0 2) (h2 : par h 0 2 ≤ 500) (h3 : parZero h 2 2 = true) (hf : follower u = false) :
    tempoMaxAgeSet h u = staged [] (.maxAge (par h 0 2)) u := by
  simp [tempoMaxAgeSet, Nat.not_lt.mpr h1, Nat.not_lt.mpr h2, h3, hf]
end

/-- `tempo.query` answers the TMP registers and what follows them, and draws a free value for its frequency word. -/
theorem exec_tempoQuery {c : Cmd} {s u : State} (ha : takes 0x0A05 0 c s u) : ∃ rest : List Byte,
    exec (.tempoQuery c) s = .next (completed 0x0A05 c s ((List.range 15).flatMap (fun k => le 4 (tmpWord (4 * k) u)) ++ rest) false (drawn u)) := by
  obtain ⟨ha, rfl⟩ := ha
  obtain ⟨rest, hb⟩ := tempoQuery_answers (heldOf 0x0A05 c) (taken 0x0A05 c s)
  exact ⟨rest, runCmd_done (spec := specTempoQuery) ha (fun h => by cases h) hb⟩

/-- Settles O13: each command's own rules, once nothing of its form is refused, in the shape of its verdict. -/
theorem tempoCommandsComplete : Obligations.TempoCommandsComplete := by
  unfold Obligations.TempoCommandsComplete
  refine ⟨fun c s u ha h1 h2 hf => ?_, fun c s u ha h1 hs hf => ?_, fun c s u ha h1 h2 h3 h4 hs hf => ?_,
    fun c s u d ha hd h1 h2 h3 hs hf hr hc => ?_, fun c s u ha => exec_tempoQuery ha, fun c s u ha h1 h2 h3 hf => ?_,
    fun c s u ha h1 h2 h3 hf => ?_⟩
  · exact effects_of (spec := specTempoSourceSet) ha rfl rfl (tempoSourceSet_selects h1 h2 hf)
  · exact runs_of (spec := specTempoTodSet) ha rfl (tempoTodSet_waits h1 hs hf)
  · exact effects_of (spec := specTempoAdjust) ha rfl rfl (tempoAdjust_adjusts h1 h2 h3 h4 hs hf)
  · exact runs_of (spec := specTempoStep) ha rfl (tempoStep_waits hd h1 h2 h3 hs hf hr hc)
  · exact stages_of (spec := specTempoGridSet) ha rfl rfl (tempoGridSet_stages h1 h2 h3 hf)
  · exact stages_of (spec := specTempoMaxAgeSet) ha rfl rfl (tempoMaxAgeSet_stages h1 h2 h3 hf)

end Sys2Proof.Proofs
end

section
/-! SUPPORT. The commit protocol: what `table.commit` seals and its query reports (R59 to R62, R71), and what each commit message does to the
commit it names (R63 to R67, R458). -/

namespace Sys2Proof.Proofs
open Sys2Proof Sys2Proof.Machine Sys2Proof.Laws

/-! ### `table.commit` of package scope -/

/-- The commit that `table.commit` of package scope registers for a target (R59 to R62). -/
def packageCommit (h : HeldCmd) (d : Nat) (u : State) : Commit :=
  { newCommit false u.nextPackageSeq d with
    pair := mirrors u, noDefer := bit (par h 8 4) 1 == 1, source := h.source, origin := h.origin,
    reapply := if bit (par h 8 4) 2 == 1 then some (par h 12 4) else none }

/-- The state in which it is outstanding, with the changes it seals. -/
def packageCommitted (h : HeldCmd) (d : Nat) (u : State) : State :=
  addCommit (packageCommit h d u)
    (sealInto false u.nextPackageSeq { u with nextPackageSeq := (u.nextPackageSeq + 1) % 4294967296 })

/-- Registering a commit appends it, with its size and its preparation filled in, and keeps its name, target and phase. -/
theorem addCommit_commits (c : Commit) (s : State) : ∃ n start stop lost,
    (addCommit c s).commits = s.commits ++ [{ c with changes := n, prepStart := start, prepEnd := stop, lost := lost }] :=
  ⟨_, _, _, _, rfl⟩

/-- A member outside a pair and without a carillon commit shares none of its commits with another package. -/
theorem packageCommitted_not_shared {h : HeldCmd} {d : Nat} {u : State} (hm : mirrors u = false)
    (hk : ∀ k ∈ u.commits, k.carillon = false ∧ k.pair = false) : ∀ k ∈ (packageCommitted h d u).commits, shared k = false := by
  intro k hmem
  unfold shared
  rcases List.mem_append.mp hmem with hold | hnew
  · obtain ⟨hcar, hpair⟩ := hk k hold
    rw [hcar, hpair]; rfl
  · rw [List.mem_singleton.mp hnew]
    exact hm

/-- Nothing refuses the request: it runs, with its commit registered; a commit that no other package shares sends no PREPARE. -/
theorem tableCommit_waits {h : HeldCmd} {d : Nat} {u : State} (hscope : bit (par h 8 4) 0 = 0) (hform : commitMalformed h u = false)
    (hsb : standsBy u = false) (hm : mirrors u = false) (hd : d = (if par h 0 8 = 0 then earliestTarget false u else par h 0 8))
    (hearly : u.tempo.lastDownbeat + 3 ≤ d) (hroom : u.commits.length < 4)
    (hk : ∀ k ∈ u.commits, k.carillon = false ∧ k.pair = false) (hsp : spaced false d u = true) :
    tableCommit h u = .wait (.commit false u.nextPackageSeq) [] (packageCommitted h d u) := by
  have hcar : u.commits.any (·.carillon) = false := List.any_eq_false.mpr fun k hmem => by simp [(hk k hmem).1]
  have hquiet : ∀ k, findCommit false u.nextPackageSeq (packageCommitted h d u) = some k → shared k = false :=
    fun k hf => packageCommitted_not_shared hm hk k (List.mem_of_find?_eq_some hf)
  unfold tableCommit
  simp only [hscope, hform, hsb, ← hd, hcar, hsp, Nat.not_lt.mpr hearly, Nat.not_le.mpr hroom, Bool.not_false, Bool.true_and, Bool.false_and,
    Bool.not_true, Bool.or_false, decide_false, Bool.false_eq_true, if_false, show ((0 : Nat) == 1) = false from rfl]
  refine congrArg (Verdict.wait _ _) ?_
  change (match findCommit false u.nextPackageSeq (packageCommitted h d u) with | some _ => _ | none => _) = _
  cases hf : findCommit false u.nextPackageSeq (packageCommitted h d u) with
  | none => rfl
  | some k => simp only [hquiet k hf, Bool.false_eq_true, if_false]; rfl

/-! ### `table.commit.query` -/

theorem tableCommitQuery_outstanding {h : HeldCmd} {u : State} {k : Commit} (h1 : bits (par h 4 1) 7 1 = 0) (h2 : parZero h 5 3 = true)
    (hk : findCommit (bit (par h 4 1) 0 == 1) (par h 0 4) u = some k) : ∃ rest : List Byte, tableCommitQuery h u = .done St.ok
      (le 1 (if k.phase == CommitPhase.switched then 3 else if k.decided then 2 else 1) ++ zeros 1 ++ le 2 St.ok ++ le 4 k.seq ++
        le 8 k.target ++ rest) u := by
  refine ⟨le 4 k.changes ++ le 1 k.deferrals ++ le 1 k.missing ++ zeros 2, ?_⟩
  simp [tableCommitQuery, h1, h2, hk, outcomeOf]

theorem tableCommitQuery_unknown {h : HeldCmd} {u : State} (h1 : bits (par h 4 1) 7 1 = 0) (h2 : parZero h 5 3 = true)
    (hk : findCommit (bit (par h 4 1) 0 == 1) (par h 0 4) u = none) (ho : u.outcomes = []) :
    tableCommitQuery h u = .done St.ok (zeros 24) u := by
  simp only [tableCommitQuery, h1, h2, hk, ho, List.find?_nil, Option.getD_none, bne_self_eq_false, Bool.not_true, Bool.or_false,
    Bool.false_eq_true, if_false]
  rfl

/-- Settles O14: the commit that `table.commit` registers, and the two answers of its query. -/
theorem commitCommandsComplete : Obligations.CommitCommandsComplete := by
  unfold Obligations.CommitCommandsComplete
  refine ⟨fun c s u d ha hscope hform hsb hm hd hearly hroom hk hsp => ?_, fun c s u k ha h1 h2 hk => ?_, fun c s u ha h1 h2 hk ho => ?_⟩
  · have hb := tableCommit_waits (h := heldOf 0x0510 c) hscope hform hsb hm hd hearly hroom hk hsp
    obtain ⟨n, start, stop, lost, hcommits⟩ := addCommit_commits (packageCommit (heldOf 0x0510 c) d u)
      (sealInto false u.nextPackageSeq { u with nextPackageSeq := (u.nextPackageSeq + 1) % 4294967296 })
    exact ⟨_, _, runs_of (spec := specTableCommit) ha rfl hb, hcommits, rfl, rfl, rfl, rfl, rfl, rfl, rfl⟩
  · obtain ⟨rest, hb⟩ := tableCommitQuery_outstanding (h := heldOf 0x0511 c) h1 h2 hk
    exact ⟨rest, queries_of (spec := specTableCommitQuery) ha rfl rfl hb⟩
  · exact queries_of (spec := specTableCommitQuery) ha rfl rfl (tableCommitQuery_unknown (h := heldOf 0x0511 c) h1 h2 hk ho)

/-! ### Commit messages -/

/-- A commit message of the current TERM is acted on (R458): its row answers the state that its action leaves. -/
theorem commitMessage_acts {typ port : Nat} {msg : List Byte} {act : Msg → State → State} {s u t : State} {m : Msg}
    (hr : crlReceive port typ msg s = (some m, u)) (ht : cmTerm m = u.crl.term) (ha : act m u = t) :
    (.next (commitMessage typ port msg act s) : Res) = .next t := by
  unfold commitMessage
  rw [hr, ← ha]
  exact congrArg _ (if_pos ht)

section
variable {m : Msg} {u : State} {c : Commit}

/-- A follower prepares a commit it does not know; it stages no change of the grid or of the maximum age that it already has (R45, R63). -/
theorem onPrepare_registers (hre : u.mgmt.restarting = false) (hnew : findCommit true (cmSeq m) u = none) (hdst : m.dst = 0xFF)
    (hrole : u.crl.role = .follower) (hgrid : (nextConf u).grid = cmGrid m) (hage : (nextConf u).maxAge = cmAge m) :
    onPrepare m u = addCommit { newCommit true (cmSeq m) (cmDownbeat m) with
      head := false, pair := false, deferrals := cmAttempt m, source := 5, origin := m.src } (sealInto true (cmSeq m) u) := by
  have hcar : carillonScope m = true := beq_iff_eq.mpr hdst
  simp [onPrepare, hcar, hre, hnew, hrole, hgrid, hage]

theorem onVote_counts (hc : coordinated m u = some c) (hre : u.mgmt.restarting = false) (hdec : c.decided = false)
    (hatt : cmAttempt m = c.deferrals) (hres : cmResult m = 1) (hearly : u.tempo.lastDownbeat + 1 < c.target) :
    onVote m u = updCommit c.carillon c.seq (fun c => { c with votes := c.votes ||| voterBit c m.src }) u := by
  simp [onVote, hc, hre, hdec, hatt, hres, hearly]

theorem onGo_arms (hc : followed m u = some c) (hre : u.mgmt.restarting = false) (hph : c.phase = .prepared)
    (hd : c.target = cmDownbeat m) (hearly : u.tempo.now + 50000 * tuPerNs < downbeatAt c.target u * tuPerNs) :
    onGo m u = journalRings c (updCommit c.carillon c.seq (fun c => { c with phase := .armed, decided := true }) u) := by
  simp only [onGo, hc, hre, hph]
  exact if_pos (by simp [← hd, hearly])

theorem onDefer_moves (hc : followed m u = some c) (hre : u.mgmt.restarting = false) (hdec : c.decided = false)
    (hph : c.phase = .preparing) :
    onDefer m u = updCommit c.carillon c.seq (fun _ => { c with target := cmDownbeat m, deferrals := cmAttempt m }) u := by
  simp [onDefer, hc, hre, hdec, hph]

theorem onAbort_ends (hc : followed m u = some c) (hph : c.phase ≠ .switched) (hpair : c.pair = false) :
    onAbort m u = endCommit c 7 St.ok (restage c u) := by
  simp [onAbort, hc, hph, hpair]

theorem onAck_counts (hc : coordinated m u = some c) (hph : c.phase = .switched) (htime : u.tempo.lastDownbeat ≤ c.target)
    (hres : cmResult m = 1) :
    onAck m u = updCommit c.carillon c.seq (fun c => { c with acks := c.acks ||| voterBit c m.src }) u := by
  simp [onAck, hc, hph, htime, hres]

theorem onConfirm_confirms (hc : followed m u = some c) (hph : c.phase = .switched) (htime : inTime c u = true) :
    onConfirm m u = confirmCommit c u := by
  simp [onConfirm, hc, hph, htime]

theorem onRevert_switched (hc : followed m u = some c) (hph : c.phase = .switched) (htime : inTime c u = true) :
    onRevert m u = dropLater c (updCommit c.carillon c.seq (fun c => { c with reverting := true }) u) := by
  simp [onRevert, hc, hph, htime]

theorem onRevert_unswitched (hc : followed m u = some c) (hph : c.phase ≠ .switched) :
    onRevert m u = dropLater c (journalOutcome c 1 (endCommit c 5 St.ok (takeSealed c u))) := by
  simp [onRevert, hc, hph]
end

/-- Settles O24: a message of the current TERM is acted on, and each kind in turn does what its rule gives. -/
theorem commitMessagesComplete : Obligations.CommitMessagesComplete := by
  unfold Obligations.CommitMessagesComplete
  refine ⟨fun port msg s m u hr ht hre hnew hdst hrole hgrid hage => ?_, fun port msg s m u c hr ht hc hre hdec hatt hres hearly => ?_,
    fun port msg s m u c hr ht hc hre hph hd hearly => ?_, fun port msg s m u c hr ht hc hre hdec hph => ?_,
    fun port msg s m u c hr ht hc hph hpair => ?_, fun port msg s m u c hr ht hc hph htime hres => ?_,
    fun port msg s m u c hr ht hc hph htime => ?_, fun port msg s m u c hr ht hc hph htime => ?_, fun port msg s m u c hr ht hc hph => ?_⟩
  · exact commitMessage_acts hr ht (onPrepare_registers hre hnew hdst hrole hgrid hage)
  · exact commitMessage_acts hr ht (onVote_counts hc hre hdec hatt hres hearly)
  · exact commitMessage_acts hr ht (onGo_arms hc hre hph hd hearly)
  · exact commitMessage_acts hr ht (onDefer_moves hc hre hdec hph)
  · exact commitMessage_acts hr ht (onAbort_ends hc hph hpair)
  · exact commitMessage_acts hr ht (onAck_counts hc hph htime hres)
  · exact commitMessage_acts hr ht (onConfirm_confirms hc hph htime)
  · exact commitMessage_acts hr ht (onRevert_switched hc hph htime)
  · exact commitMessage_acts hr ht (onRevert_unswitched hc hph)

end Sys2Proof.Proofs
end

section
/-! SUPPORT. The configuration commands: what each one's own rules decide is a refusal or a change staged after those staged before (R47, R48). -/

namespace Sys2Proof.Proofs
open Sys2Proof Sys2Proof.Machine Sys2Proof.Laws

/-- A verdict that refuses, or that ends the command over a state that only has changes staged since `r`. -/
def onlyStagesVerdict (r : State) : Verdict → Prop
  | .refuse _ => True
  | .done _ _ t => onlyStages r t
  | .wait _ _ _ => False

/-- A command whose own rules do no more than stage, and leave nothing to wait for. -/
def onlyStagesSpec (c : CmdSpec) : Prop := ∀ r h s, onlyStages r s → onlyStagesVerdict r (c.body h s)

/-- Such a command keeps the frame however it is taken: relayed, held, refused, mirrored or completed. -/
theorem onlyStages_runCmd {op : Nat} {c : CmdSpec} {x : Cmd} {s t : State} (hc : onlyStagesSpec c) (e : runCmd op c x s = .next t) :
    onlyStages s t := by
  refine onlyStages_runConfig (fun r h u st l v hu ev => ?_) (fun h u w l v ev => ?_) e
  · have hv := hc r h u hu
    rwa [ev] at hv
  · have hv := hc u h u (onlyStages_refl u)
    rwa [ev] at hv

section
variable {r s : State}

theorem onlyStagesVerdict_refuse {st : Nat} : onlyStagesVerdict r (.refuse st) := trivial

theorem onlyStagesVerdict_ite {p : Prop} [Decidable p] {a b : Verdict} (ha : onlyStagesVerdict r a) (hb : onlyStagesVerdict r b) :
    onlyStagesVerdict r (if p then a else b) := by split <;> assumption

/-- A check before the rest of a command's rules. -/
theorem onlyStagesVerdict_check {p : Prop} [Decidable p] {st : Nat} {b : Verdict} (hb : onlyStagesVerdict r b) :
    onlyStagesVerdict r (if p then .refuse st else b) := onlyStagesVerdict_ite onlyStagesVerdict_refuse hb

theorem onlyStagesVerdict_staged {resp : List Byte} {ch : Change} (h : onlyStages r s) : onlyStagesVerdict r (staged resp ch s) :=
  onlyStages_staged (k := s.nextOrder) h (undue_append _ _)

/-- A change that also takes an identifier and a place in the order of insertion (R150, R167). -/
theorem onlyStages_numbered {x : Staged} (h : onlyStages r s) :
    onlyStages r { drawn s with nextOrder := s.nextOrder + 1, staged := s.staged ++ [x] } :=
  onlyStages_staged (s := drawn s) (k := s.nextOrder + 1) (onlyStages_leaves h (leaves_mk (leaves_refl false s) rfl)) (undue_append _ _)
end

/-! ### Parsing (Table 05-12) -/

theorem parseSelectLayout_onlyStages : onlyStagesSpec specParseSelectLayout := fun _ _ _ hs =>
  onlyStagesVerdict_check (onlyStagesVerdict_staged hs)

theorem profileWrite_onlyStages : onlyStagesSpec specProfileWrite := fun _ _ _ hs =>
  onlyStagesVerdict_check (onlyStagesVerdict_check (onlyStagesVerdict_check (onlyStagesVerdict_staged hs)))

theorem profileDelete_onlyStages : onlyStagesSpec specProfileDelete := fun _ _ _ hs =>
  onlyStagesVerdict_check (onlyStagesVerdict_check (onlyStagesVerdict_check (onlyStagesVerdict_staged hs)))

theorem profileSelectAdd_onlyStages : onlyStagesSpec specProfileSelectAdd := fun r h s hs => by
  refine onlyStagesVerdict_check (onlyStagesVerdict_check ?_)
  dsimp only
  split
  · exact onlyStagesVerdict_check (onlyStages_numbered hs)
  · exact onlyStagesVerdict_refuse

theorem profileSelectDelete_onlyStages : onlyStagesSpec specProfileSelectDelete := fun _ _ _ hs =>
  onlyStagesVerdict_check (onlyStagesVerdict_staged hs)

theorem parseClassMapSet_onlyStages : onlyStagesSpec specParseClassMapSet := fun _ _ _ hs =>
  onlyStagesVerdict_check (onlyStagesVerdict_staged hs)

theorem ruleTableCreate_onlyStages : onlyStagesSpec specRuleTableCreate := fun r h s hs => by
  refine onlyStagesVerdict_check ?_
  split
  · exact onlyStagesVerdict_refuse
  · exact onlyStagesVerdict_check (onlyStagesVerdict_staged hs)

theorem ruleTableDelete_onlyStages : onlyStagesSpec specRuleTableDelete := fun _ _ _ hs =>
  onlyStagesVerdict_check (onlyStagesVerdict_check (onlyStagesVerdict_check (onlyStagesVerdict_staged hs)))

theorem ruleAdd_onlyStages : onlyStagesSpec specRuleAdd := fun r h s hs => by
  refine onlyStagesVerdict_check ?_
  split
  · exact onlyStagesVerdict_refuse
  refine onlyStagesVerdict_check ?_
  split
  · exact onlyStagesVerdict_refuse
  dsimp only
  split
  · exact onlyStagesVerdict_check (onlyStages_numbered hs)
  · exact onlyStagesVerdict_refuse

theorem ruleDelete_onlyStages : onlyStagesSpec specRuleDelete := fun r h s hs => by
  refine onlyStagesVerdict_check ?_
  split
  · exact onlyStagesVerdict_refuse
  · exact onlyStagesVerdict_staged hs

theorem ruleModify_onlyStages : onlyStagesSpec specRuleModify := fun r h s hs => by
  refine onlyStagesVerdict_check ?_
  split
  · exact onlyStagesVerdict_refuse
  split
  · exact onlyStagesVerdict_refuse
  · exact onlyStagesVerdict_staged hs

theorem exceptionConfig_onlyStages : onlyStagesSpec specExceptionConfig := fun _ _ _ hs =>
  onlyStagesVerdict_check (onlyStagesVerdict_staged hs)

/-! ### Queues and buffers (Table 07-12) -/

theorem voqDestSet_onlyStages : onlyStagesSpec specVoqDestSet := fun r h s hs => by
  refine onlyStagesVerdict_check (onlyStagesVerdict_check ?_)
  split
  · exact onlyStagesVerdict_refuse
  · exact onlyStagesVerdict_staged hs

theorem voqDestDelete_onlyStages : onlyStagesSpec specVoqDestDelete := fun _ _ _ hs =>
  onlyStagesVerdict_check (onlyStagesVerdict_check (onlyStagesVerdict_staged hs))

theorem voqProfileSet_onlyStages : onlyStagesSpec specVoqProfileSet := fun _ _ _ hs =>
  onlyStagesVerdict_check (onlyStagesVerdict_staged hs)

theorem voqEplistSet_onlyStages : onlyStagesSpec specVoqEplistSet := fun _ _ _ hs =>
  onlyStagesVerdict_check (onlyStagesVerdict_staged hs)

theorem pealListSet_onlyStages : onlyStagesSpec specPealListSet := fun r h s hs => by
  refine onlyStagesVerdict_check (onlyStagesVerdict_check ?_)
  split
  · exact onlyStagesVerdict_refuse
  · exact onlyStagesVerdict_check (onlyStagesVerdict_staged hs)

theorem pealListDelete_onlyStages : onlyStagesSpec specPealListDelete := fun _ _ _ hs =>
  onlyStagesVerdict_check (onlyStagesVerdict_check (onlyStagesVerdict_check (onlyStagesVerdict_staged hs)))

theorem bufPoolConfig_onlyStages : onlyStagesSpec specBufPoolConfig := fun _ _ _ hs =>
  onlyStagesVerdict_check (onlyStagesVerdict_staged hs)

theorem samplerConfig_onlyStages : onlyStagesSpec specSamplerConfig := fun _ _ _ hs =>
  onlyStagesVerdict_check (onlyStagesVerdict_staged hs)

theorem puntQueueConfig_onlyStages : onlyStagesSpec specPuntQueueConfig := fun _ _ _ hs =>
  onlyStagesVerdict_check (onlyStagesVerdict_staged hs)

/-! ### Schedulers and policers (Table 08-8) -/

theorem schedPortConfig_onlyStages : onlyStagesSpec specSchedPortConfig := fun _ _ _ hs =>
  onlyStagesVerdict_check (onlyStagesVerdict_staged hs)

theorem schedNodeSet_onlyStages : onlyStagesSpec specSchedNodeSet := fun _ _ _ hs =>
  onlyStagesVerdict_check (onlyStagesVerdict_check (onlyStagesVerdict_check (onlyStagesVerdict_check (onlyStagesVerdict_staged hs))))

theorem schedNodeDelete_onlyStages : onlyStagesSpec specSchedNodeDelete := fun _ _ _ hs =>
  onlyStagesVerdict_check (onlyStagesVerdict_check (onlyStagesVerdict_check (onlyStagesVerdict_check (onlyStagesVerdict_staged hs))))

theorem gateListSet_onlyStages : onlyStagesSpec specGateListSet := fun r h s hs => by
  refine onlyStagesVerdict_check ?_
  split
  · exact onlyStagesVerdict_refuse
  · exact onlyStagesVerdict_check (onlyStagesVerdict_staged hs)

theorem gateListClear_onlyStages : onlyStagesSpec specGateListClear := fun _ _ _ hs =>
  onlyStagesVerdict_check (onlyStagesVerdict_check (onlyStagesVerdict_staged hs))

theorem creditConfig_onlyStages : onlyStagesSpec specCreditConfig := fun _ _ _ hs =>
  onlyStagesVerdict_check (onlyStagesVerdict_staged hs)

theorem creditPealSet_onlyStages : onlyStagesSpec specCreditPealSet := fun _ _ _ hs =>
  onlyStagesVerdict_check (onlyStagesVerdict_staged hs)

theorem policerConfig_onlyStages : onlyStagesSpec specPolicerConfig := fun _ _ _ hs =>
  onlyStagesVerdict_check (onlyStagesVerdict_staged hs)

/-! ### Tables and Tempo (Tables 06-19 and 11-12) -/

theorem fibVrfConfig_onlyStages : onlyStagesSpec specFibVrfConfig := fun _ _ _ hs =>
  onlyStagesVerdict_check (onlyStagesVerdict_staged hs)

theorem ecmpHashSeed_onlyStages : onlyStagesSpec specEcmpHashSeed := fun _ _ _ hs => onlyStagesVerdict_staged hs

theorem tempoGridSet_onlyStages : onlyStagesSpec specTempoGridSet := fun _ _ _ hs =>
  onlyStagesVerdict_check (onlyStagesVerdict_check (onlyStagesVerdict_staged hs))

theorem tempoMaxAgeSet_onlyStages : onlyStagesSpec specTempoMaxAgeSet := fun _ _ _ hs =>
  onlyStagesVerdict_check (onlyStagesVerdict_check (onlyStagesVerdict_staged hs))

/-! ### All of them -/

/-- The row of a configuration command runs its rules as a command. -/
theorem exec_isConfig : ∀ p, isConfig p → ∀ c s, exec (p.2.2 c) s = runCmd p.1 p.2.1 c s := by
  unfold isConfig
  simp only [List.forall_mem_cons]
  refine ⟨?_, ?_, ?_, ?_, ?_, ?_, ?_, ?_, ?_, ?_, ?_, ?_, ?_, ?_, ?_, ?_, ?_, ?_, ?_, ?_, ?_, ?_, ?_, ?_, ?_, ?_, ?_, ?_, ?_, ?_, ?_, ?_,
    ?_, List.forall_mem_nil _⟩
  all_goals exact fun _ _ => rfl

/-- The rules of every configuration command do no more than stage. -/
theorem onlyStagesSpec_of_isConfig : ∀ p, isConfig p → onlyStagesSpec p.2.1 := by
  unfold isConfig
  simp only [List.forall_mem_cons]
  exact ⟨parseSelectLayout_onlyStages, profileWrite_onlyStages, profileDelete_onlyStages, profileSelectAdd_onlyStages,
    profileSelectDelete_onlyStages, parseClassMapSet_onlyStages, ruleTableCreate_onlyStages, ruleTableDelete_onlyStages,
    ruleAdd_onlyStages, ruleDelete_onlyStages, ruleModify_onlyStages, exceptionConfig_onlyStages, voqDestSet_onlyStages,
    voqDestDelete_onlyStages, voqProfileSet_onlyStages, voqEplistSet_onlyStages, pealListSet_onlyStages, pealListDelete_onlyStages,
    bufPoolConfig_onlyStages, samplerConfig_onlyStages, puntQueueConfig_onlyStages, schedPortConfig_onlyStages, schedNodeSet_onlyStages,
    schedNodeDelete_onlyStages, gateListSet_onlyStages, gateListClear_onlyStages, creditConfig_onlyStages, creditPealSet_onlyStages,
    policerConfig_onlyStages, fibVrfConfig_onlyStages, ecmpHashSeed_onlyStages, tempoGridSet_onlyStages, tempoMaxAgeSet_onlyStages,
    List.forall_mem_nil _⟩

/-- Settles O40: every configuration command runs as a command whose own rules only stage, and the bookkeeping around them keeps the frame. -/
theorem configurationCommandsOnlyStage : Obligations.ConfigurationCommandsOnlyStage := fun p hp c s _ e =>
  onlyStages_runCmd (onlyStagesSpec_of_isConfig p hp) ((exec_isConfig p hp c s).symm.trans e)

end Sys2Proof.Proofs
end

section
/-! SUPPORT. The port commands' own rules (R79 to R82, R142, R613). -/

namespace Sys2Proof.Proofs
open Sys2Proof Sys2Proof.Machine Sys2Proof.Laws

section
variable {h : HeldCmd} {u : State} {x : Mac}

/-- A new port takes its settings (R79): nothing refuses a combination of Table 03-1 on free lanes of one group. -/
theorem portConfig_adds (hm : par h 0 2 < 80) (hnew : mac? (par h 0 2) u = none)
    (hcombo : comboOk (portCfgOf h).speed (portCfgOf h).lanes (portCfgOf h).laneRate (portCfgOf h).fec = true)
    (hmac : (portCfgOf h).flexePhy = false → macParamsBad h (speedGbps (portCfgOf h).speed) = false ∧ portNodes u < 192)
    (hphy : (portCfgOf h).flexePhy = true → phyType (portCfgOf h).speed = true)
    (hlane : par h 0 2 % 10 % (portCfgOf h).lanes = 0) (hgroup : par h 0 2 % 10 + (portCfgOf h).lanes ≤ 10)
    (hfree : ∀ p ∈ u.macs, p.1 < 80 → p.1 ≠ par h 0 2 → lanesMeet (par h 0 2) (portCfgOf h).lanes p.1 p.2.cfg.lanes = false) :
    portConfig h u = .done St.ok []
      { u with macs := aset u.macs (par h 0 2) (newMac (portCfgOf h) (speedGbps (portCfgOf h).speed) u) } := by
  have hlanes : u.macs.any (fun p => p.1 < 80 && p.1 != par h 0 2 && lanesMeet (par h 0 2) (portCfgOf h).lanes p.1 p.2.cfg.lanes) = false := by
    simpa [List.any_eq_false] using hfree
  unfold portConfig
  cases hk : (portCfgOf h).flexePhy
  case true => simp [hk, hphy hk, hnew, hcombo, hlane, hlanes, Nat.not_le.mpr hm, Nat.not_lt.mpr hgroup]
  case false =>
    obtain ⟨hform, hnodes⟩ := hmac hk
    simp [hk, hform, hnew, hcombo, hlane, hlanes, Nat.not_le.mpr hm, Nat.not_lt.mpr hgroup, Nat.not_le.mpr hnodes]

theorem portDelete_drops (hm : par h 0 2 < 80) (hz : parZero h 2 2 = true) (hx : mac? (par h 0 2) u = some x)
    (hphy : phyGroup (par h 0 2) u = none) (hlink : x.link = .adminDown) (hnode : nodeInUse (par h 0 2) u = false) :
    portDelete h u = .done St.ok []
      (dropMac (par h 0 2) { u with flexe := { u.flexe with lines := adel u.flexe.lines (par h 0 2) } }) := by
  simp [portDelete, Nat.not_le.mpr hm, hz, hx, hphy, hlink, hnode]

theorem portAdmin_moves (hm : par h 0 2 < 80) (hstate : par h 2 1 ≤ 2) (hz : parZero h 3 1 = true)
    (hx : mac? (par h 0 2) u = some x) (hphy : phyGroup (par h 0 2) u = none) :
    portAdmin h u = .done St.ok [] (adminTo (par h 2 1) (par h 0 2) u) := by
  simp [portAdmin, Nat.not_le.mpr hm, Nat.not_lt.mpr hstate, hz, hx, hphy]

/-- The answer begins with the port's settings and PRT_STATUS; the rest is its other state and its source address (Table 03-9). -/
theorem portQuery_answers (hm : par h 0 2 < 80) (hz : parZero h 2 2 = true) (hx : mac? (par h 0 2) u = some x) : ∃ rest : List Byte,
    portQuery h u = .done St.ok (le 2 (par h 0 2) ++ le 1 x.cfg.speed ++ le 1 x.cfg.lanes ++ le 1 x.cfg.laneRate ++ le 1 x.cfg.fec ++
      macCfgBytes x.cfg ++ le 4 (prtStatus (par h 0 2) u) ++ rest) u := by
  refine ⟨le 4 (ctStatus (par h 0 2) u) ++ le 4 (holdLeft x u) ++ fit 6 x.sa ++ zeros 2, ?_⟩
  simp [portQuery, portQueryResp, Nat.not_le.mpr hm, hz, hx]

/-- A port on which DEG is not declared takes new rules with nothing to clear (R142); its window runs start over (log 66). -/
theorem portDegrade_sets (hm : par h 0 2 < 80) (hact : par h 2 1 ≤ 2) (hset : 1 ≤ par h 3 1) (hset' : par h 3 1 ≤ 16)
    (hclear : 1 ≤ par h 4 1) (hz : parZero h 5 3 = true) (hle : par h 12 4 ≤ par h 8 4) (hx : mac? (par h 0 2) u = some x)
    (hdeg : x.degrade.declared = false) :
    portDegrade h u = .done St.ok [] (linkChange (par h 0 2) (updMac (par h 0 2) (fun x => { x with degrade :=
      { x.degrade with action := par h 2 1, set := par h 8 4, clear := par h 12 4, windowsSet := par h 3 1, windowsClear := par h 4 1,
                       badRun := 0, goodRun := 0 } })) u) := by
  simp [portDegrade, Nat.not_le.mpr hm, Nat.not_lt.mpr hact, Nat.ne_of_gt hset, Nat.not_lt.mpr hset', Nat.ne_of_gt hclear, hz,
    Nat.not_lt.mpr hle, hx, hdeg]

theorem portMacSet_sets (hm : par h 0 2 < 80 ∨ (128 ≤ par h 0 2 ∧ par h 0 2 < 256)) (huni : bit (par h 2 1) 0 = 0)
    (hx : mac? (par h 0 2) u = some x) (hmac : x.cfg.flexePhy = false) :
    portMacSet h u = .done St.ok [] (updMac (par h 0 2) (fun x => { x with sa := slice (pars h) 2 6 }) u) := by
  have hnum : ¬ (256 ≤ par h 0 2 ∨ 80 ≤ par h 0 2 ∧ par h 0 2 < 128) := by omega
  have hhas : hasMac (par h 0 2) u = true := by simp [hasMac, hx, hmac]
  simp [portMacSet, hnum, huni, hhas]
end

/-- Settles O2: each command's own rules, once nothing of its form is refused, in the shape of its verdict. -/
theorem portCommandsComplete : Obligations.PortCommandsComplete := by
  unfold Obligations.PortCommandsComplete
  refine ⟨fun c s u ha hm hnew hcombo hmac hphy hlane hgroup hfree => ?_, fun c s u x ha hm hz hx hphy hlink hnode => ?_,
    fun c s u x ha hm hstate hz hx hphy => ?_, fun c s u x ha hm hz hx => ?_,
    fun c s u x ha hm hact hset hset' hclear hz hle hx hdeg => ?_, fun c s u x ha hm huni hx hmac => ?_⟩
  · exact effects_of (spec := specPortConfig) ha rfl rfl
      (portConfig_adds (h := heldOf 0x0201 c) hm hnew hcombo hmac hphy hlane hgroup hfree)
  · exact effects_of (spec := specPortDelete) ha rfl rfl (portDelete_drops (h := heldOf 0x0202 c) hm hz hx hphy hlink hnode)
  · exact effects_of (spec := specPortAdmin) ha rfl rfl (portAdmin_moves (h := heldOf 0x0203 c) hm hstate hz hx hphy)
  · obtain ⟨rest, hb⟩ := portQuery_answers (h := heldOf 0x0204 c) hm hz hx
    exact ⟨rest, queries_of (spec := specPortQuery) ha rfl rfl hb⟩
  · exact effects_of (spec := specPortDegrade) ha rfl rfl
      (portDegrade_sets (h := heldOf 0x0205 c) hm hact hset hset' hclear hz hle hx hdeg)
  · exact effects_of (spec := specPortMacSet) ha rfl rfl (portMacSet_sets (h := heldOf 0x0206 c) hm huni hx hmac)

end Sys2Proof.Proofs
end

section
/-! SUPPORT. Clearing reads (R11, R112): where the counters lie in BAR0, and what a read of either word of one does. -/

namespace Sys2Proof.Proofs
open Sys2Proof Sys2Proof.Machine Sys2Proof.Laws

/-! ### Where the counters lie -/

/-- Offsets among which a counter's _LO word lies (Table 17-1): doublewords of the spans of both functions, from 0x100 of a kilobyte on and
below the latched seconds of a port or client (0x208) or of a FlexE line or group (0x200). -/
def counterPlace (off : Nat) : Prop :=
  off % 8 = 0 ∧ 0x100 ≤ off % 0x400 ∧ off % 0x400 < 0x208 ∧ (0x200000 ≤ off → off < 0x240000 → off % 0x400 < 0x200) ∧
  (off < 0xB000 ∨ (0x10000 ≤ off ∧ off < 0x30000) ∨ (0x100000 ≤ off ∧ off < 0x120000) ∨ (0x200000 ≤ off ∧ off < 0x280000) ∨
    (0x300000 ≤ off ∧ off < 0x32C000))

/-- Where a choice answers something, one of its branches does. -/
theorem ite_eq_some_iff {p : Prop} [Decidable p] {a b : Option Nat} {v : Nat} :
    (if p then a else b) = some v ↔ (p ∧ a = some v) ∨ (¬ p ∧ b = some v) := by
  by_cases hp : p
  · simp only [hp, if_true, true_and, not_true_eq_false, false_and, or_false]
  · simp only [hp, if_false, false_and, not_false_eq_true, true_and, false_or]

/-- The map names a counter at no other offset. -/
theorem counterPlace_of_counterAt {off id : Nat} (h : counterAt off = some id) : counterPlace off := by
  unfold counterAt at h
  simp only [Bool.and_eq_true, decide_eq_true_eq, ite_eq_some_iff, reduceCtorEq, and_false, or_false, false_or] at h
  unfold counterPlace
  rcases h with ⟨hlow, h⟩ | h
  · split at h
    case h_5 => cases h
    all_goals
      simp only [ite_eq_some_iff, reduceCtorEq, and_false, or_false] at h
      omega
  · omega

/-- The _HI word of a counter is no counter's _LO word. -/
theorem counterAt_hi {off : Nat} (h : counterPlace off) : counterAt (off + 4) = none := by
  obtain ⟨halign, -⟩ := h
  cases hid : counterAt (off + 4) with
  | none => rfl
  | some id =>
    obtain ⟨halign', -⟩ := counterPlace_of_counterAt hid
    omega

/-- Within its kilobyte or block a latched group ends below the counters or begins behind them (R42). -/
theorem groupWords_beside_counters {base o : Nat} {g : Nat × Nat} (h : g ∈ groupWords base o) :
    g.1 + 4 * g.2 ≤ 0x100 ∨ (0x10000 ≤ base ∧ 0x208 ≤ g.1) ∨ ((base = 0x200000 ∨ base = 0x220000) ∧ 0x200 ≤ g.1) := by
  obtain ⟨lowest, words⟩ := g
  unfold groupWords at h
  simp only [Bool.or_eq_true, decide_eq_true_eq] at h
  repeat' split at h
  all_goals simp only [List.mem_cons, List.not_mem_nil, Prod.mk.injEq, or_false] at h <;> omega

/-- The base of a block below 0x10000 is that of its 4 KiB, and the two bases of FlexE lines and groups serve their spans only. -/
theorem blockBase_spans (off : Nat) : (blockBase off < 0x10000 → blockBase off = off / 0x1000 * 0x1000) ∧
    (blockBase off = 0x200000 ∨ blockBase off = 0x220000 → 0x200000 ≤ off ∧ off < 0x240000) := by
  unfold blockBase
  simp only [Bool.and_eq_true, decide_eq_true_eq]
  repeat' split
  all_goals omega

/-- The _HI word of a counter is in no latched group: its read returns the copy of the last read of the _LO word. -/
theorem groupAt_hi {off : Nat} (h : counterPlace off) : groupAt (off + 4) = none := by
  obtain ⟨halign, hfirst, hlast, hflx, -⟩ := h
  obtain ⟨hlow, hspan⟩ := blockBase_spans (off + 4)
  unfold groupAt
  simp only [Option.map_eq_none_iff, List.find?_eq_none, Bool.and_eq_true, decide_eq_true_eq]
  intro g hg
  have hbeside := groupWords_beside_counters hg
  by_cases hbase : blockBase (off + 4) < 0x10000
  · have hpage := hlow hbase
    rw [if_pos hbase]
    omega
  · rw [if_neg hbase]
    omega

/-- Both functions read the _HI word. -/
theorem readableAt_hi {off : Nat} (fn : Nat) (h : counterPlace off) : readableAt fn (off + 4) = true := by
  obtain ⟨halign, -, -, -, hspan⟩ := h
  unfold readableAt unassigned
  simp only [Bool.not_not, Bool.and_eq_true, Bool.or_eq_true, decide_eq_true_eq]
  omega

/-! ### The two reads -/

section
variable {fn off id : Nat} {s : State}

theorem readThrough_live {live : State → State} (hf : fnExists fn s = true) (hb : barServed s = true) : readThrough fn live s = live s := by
  simp only [readThrough, hf, hb, Bool.not_true, Bool.false_eq_true, if_false, if_true]

/-- While no instant is frozen, a read of the _LO word answers bits 31:0, keeps bits 63:32 for the _HI word, and leaves the counter at what
was counted in the cycle of the read. -/
theorem clearingRead_stopped (counted : Nat) (hrun : s.toll.running = false) : ∃ t,
    clearingRead off id counted s = emit (.readData (ctr id s % 4294967296)) t ∧ t.ctrs = aset s.ctrs id counted ∧
      t.glb.hiCopy = aset s.glb.hiCopy (off + 4) (ctr id s / 4294967296) := by
  simp only [clearingRead, readCounter, hrun, Bool.false_eq_true, if_false]
  exact ⟨_, rfl, rfl, rfl⟩

/-- The read of a counter's _HI word answers the copy, and no more; its row is that of any register read (log 10). -/
theorem readReg_hi (h : counterAt off = some id) :
    readReg (off + 4) s = emit (.readData (agetD s.glb.hiCopy (off + 4) 0)) s := by
  have hp := counterPlace_of_counterAt h
  have hsel : off + 4 ≠ 0x6008 := by
    obtain ⟨halign, -⟩ := hp
    omega
  simp only [readReg, readWord, counterAt_hi hp, groupAt_hi hp, if_neg hsel, Nat.add_sub_cancel, h, Nat.le_add_left, decide_true,
    Option.isSome_some, Bool.and_self, if_true]

theorem exec_counterClearingRead (counted : Nat) (hf : fnExists fn s = true) (hb : barServed s = true) (hc : counterAt off = some id) :
    exec (.counterClearingRead fn off counted) s = .next (clearingRead off id counted s) := by
  show execCounterClearingRead fn off counted s = _
  unfold execCounterClearingRead
  simp only [hc, readThrough_live hf hb]

theorem exec_groupLatchRead (hf : fnExists fn s = true) (hb : barServed s = true) (hr : readableAt fn off = true) :
    exec (.groupLatchRead fn off) s = .next (readReg off s) := by
  show execGroupLatchRead fn off s = _
  unfold execGroupLatchRead
  rw [if_pos hr, readThrough_live hf hb]
end

/-- Settles O48: a read of a _LO word sets its counter and its copy alone; the _HI word lies in no latched group, so that its read is the
copy's. -/
theorem clearingReads : Obligations.ClearingReads := by
  unfold Obligations.ClearingReads
  intro fn off id counted s hf hb hc hrun
  obtain ⟨t, hread, hctrs, hcopy⟩ := clearingRead_stopped (off := off) (id := id) counted hrun
  have hself : ctr id t = counted := by rw [ctr, hctrs, agetD_aset_self]
  have hother : ∀ other, other ≠ id → ctr other t = ctr other s := fun other hne => by rw [ctr, hctrs, agetD_aset_ne _ _ _ hne, ctr]
  have hhi : agetD t.glb.hiCopy (off + 4) 0 = ctr id s / 4294967296 := by rw [hcopy, agetD_aset_self]
  exact ⟨⟨t, (exec_counterClearingRead counted hf hb hc).trans (congrArg _ hread), hself, hother, hhi⟩,
    (exec_groupLatchRead hf hb (readableAt_hi fn (counterPlace_of_counterAt hc))).trans (congrArg _ (readReg_hi hc))⟩

end Sys2Proof.Proofs
end

section
/-! SUPPORT. The rule commands' own rules (R150, R151, R167 to R170, R181, R558). -/

namespace Sys2Proof.Proofs
open Sys2Proof Sys2Proof.Machine Sys2Proof.Laws

section
variable {h : HeldCmd} {u : State}

/-! ### Entries that take an identifier and a place -/

/-- The state in which a change is staged that took an identifier, a place and a number in the order of insertion (R150, R167). -/
def numbered (ch : Change) (moves : List (Nat × Nat)) (u : State) : State :=
  { drawn u with
    nextOrder := u.nextOrder + 1,
    staged := u.staged ++ [{ change := ch, units := 1, sealedBy := none, moves := moves }] }

/-- The parameters of `profile.select.add` are well formed: no key bit where the mask is clear, and no bit of 148:144
compared against one (R151). -/
structure SelectFormed (h : HeldCmd) : Prop where
  profile : par h 4 2 ≤ 511
  reserved : parZero h 6 2 = true
  masked : beVal (slice (pars h) 8 20) ||| beVal (slice (pars h) 28 20) = beVal (slice (pars h) 28 20)
  unused : bits (beVal (slice (pars h) 8 20)) 148 144 = 0

/-- The selection entry that the parameters describe, before it has a place. -/
def selectOf (h : HeldCmd) (u : State) : SelEntry :=
  { prio := par h 0 4, profile := par h 4 2, key := beVal (slice (pars h) 8 20), mask := beVal (slice (pars h) 28 20),
    order := u.nextOrder, index := 0 }

theorem profileSelectAdd_numbers {id index : Nat} {moves : List (Nat × Nat)} (hform : SelectFormed h)
    (hprofile : liveOrStaged (fun g => ahas g.profiles (par h 4 2)) u = true)
    (hid : pickId 2048 (fun k => !selectHeld u k) u = some id) (hplace : selectPlace (selectOf h u) u = some (index, moves))
    (hroom : (selectIndices u).length + selectCopies u + moves.length + 1 ≤ 2048) :
    profileSelectAdd h u =
      .done St.ok (le 4 id) (numbered (.select id (some { selectOf h u with index := index })) moves u) := by
  obtain ⟨hnum, hres, hmask, hunused⟩ := hform
  unfold selectOf at hplace
  simp [profileSelectAdd, numbered, selectOf, Nat.not_lt.mpr hnum, hres, hmask, hunused, hprofile, hid, hplace, Nat.not_lt.mpr hroom, drawn]

/-- The parameters of `rule.add` are well formed: no key bit where the mask is clear, the table's number first in the key and wholly
compared, no byte past the table's width (R168). -/
structure RuleFormed (h : HeldCmd) (width : Nat) : Prop where
  direction : par h 0 1 ≤ 1
  table : par h 1 1 ≤ 254
  reserved : parZero h 2 2 = true
  masked : beVal (slice (pars h) 8 80) ||| beVal (slice (pars h) 88 80) = beVal (slice (pars h) 88 80)
  keyTable : rd (slice (pars h) 8 80) 0 1 = par h 1 1
  maskTable : rd (slice (pars h) 88 80) 0 1 = 0xFF
  action : actionMalformed (slice (pars h) 168 32) = false
  keyWidth : allZero ((slice (pars h) 8 80).drop (20 * 2 ^ width)) = true
  maskWidth : allZero ((slice (pars h) 88 80).drop (20 * 2 ^ width)) = true

/-- The rule that the parameters describe, before it has a place. -/
def ruleOf (h : HeldCmd) (u : State) : Rule :=
  { table := par h 1 1, prio := par h 4 4, key := slice (pars h) 8 80, mask := slice (pars h) 88 80, action := slice (pars h) 168 32,
    order := u.nextOrder, index := 0 }

theorem ruleAdd_numbers {tb : RuleTable} {id index : Nat} {moves : List (Nat × Nat)} (hform : RuleFormed h tb.width)
    (htable : aget (nextConf u).ruleTables (tableKey (par h 0 1) (par h 1 1)) = some tb)
    (haction : actionRefused (par h 0 1) (par h 1 1) (slice (pars h) 168 32) u = none)
    (hid : pickId (ruleIds (par h 0 1)) (fun id => !ruleHeld u (ruleKey (par h 0 1) id)) u = some id)
    (hplace : rulePlace (par h 0 1) tb (ruleOf h u) u = some (index, moves))
    (hroom : entriesUsed (par h 0 1) u + ruleCopies (par h 0 1) none u + (moves.length + 1) * 2 ^ tb.width ≤ ruleCapacity (par h 0 1)) :
    ruleAdd h u =
      .done St.ok (le 4 id)
        (numbered (.rule (ruleKey (par h 0 1) id) (some { ruleOf h u with index := index })) moves u) := by
  obtain ⟨hdir, hnum, hres, hmask, hkeyTable, hmaskTable, hact, hkeyWidth, hmaskWidth⟩ := hform
  unfold ruleOf at hplace
  simp [ruleAdd, numbered, ruleOf, Nat.not_lt.mpr hdir, Nat.not_lt.mpr hnum, hres, hmask, hkeyTable, hmaskTable, hact, htable, hkeyWidth,
    hmaskWidth, haction, hid, hplace, Nat.not_lt.mpr hroom, drawn]

/-! ### Commands that name a rule -/

theorem ruleNameBad_eq_false (hdir : par h 0 1 ≤ 1) (hz : parZero h 1 3 = true) : ruleNameBad h = false := by
  simp [ruleNameBad, Nat.not_lt.mpr hdir, hz]

theorem ruleNext_of_lt (hid : par h 4 4 < ruleIds (par h 0 1)) :
    ruleNext h u = aget (nextConf u).rules (ruleKey (par h 0 1) (par h 4 4)) := if_pos hid

theorem ruleDelete_stages (hname : ruleNameBad h = false) (hid : par h 4 4 < ruleIds (par h 0 1))
    (hrule : ahas (nextConf u).rules (ruleKey (par h 0 1) (par h 4 4)) = true) :
    ruleDelete h u = staged [] (.rule (ruleKey (par h 0 1) (par h 4 4)) none) u := by
  obtain ⟨r, hr⟩ := Option.isSome_iff_exists.mp hrule
  simp [ruleDelete, hname, ruleNext_of_lt hid, hr, ruleNamed]

theorem ruleModify_stages {r : Rule} (hname : ruleNameBad h = false) (hid : par h 4 4 < ruleIds (par h 0 1))
    (hact : actionMalformed (slice (pars h) 8 32) = false) (hr : aget (nextConf u).rules (ruleKey (par h 0 1) (par h 4 4)) = some r)
    (haction : actionRefused (par h 0 1) r.table (slice (pars h) 8 32) u = none) :
    ruleModify h u = staged [] (.ruleAction (ruleKey (par h 0 1) (par h 4 4)) (slice (pars h) 8 32)) u := by
  simp [ruleModify, hname, hact, ruleNext_of_lt hid, hr, haction, ruleNamed]

/-- The answer counts the overlapping rules and lists at most 256 of them, from the START that the command names (R169). -/
theorem ruleOverlaps_answers {r : Rule} (hname : ruleNameBad h = false) (hid : par h 4 4 < ruleIds (par h 0 1))
    (hr : (standingRules u).find? (fun q => q.1 == ruleKey (par h 0 1) (par h 4 4)) = some (ruleKey (par h 0 1) (par h 4 4), r)) :
    ruleOverlaps h u = .done St.ok (le 4 (overlapsOf (ruleKey (par h 0 1) (par h 4 4)) r u).length ++ zeros 4 ++
      (((overlapsOf (ruleKey (par h 0 1) (par h 4 4)) r u).drop (par h 8 4)).take 256).flatMap
        (fun q => le 4 (q.1 % 131072) ++ le 4 q.2.prio ++ le 1 (b2n (ruleBefore q.2 r)) ++ zeros 3)) u := by
  simp [ruleOverlaps, hname, hid, ruleNamed, hr]

/-- The answer begins with the rule's table and its STATE of Table 05-17. -/
theorem ruleQuery_answers {r : Rule} (hname : ruleNameBad h = false) (hid : par h 4 4 < ruleIds (par h 0 1))
    (hheld : ruleHeld u (ruleKey (par h 0 1) (par h 4 4)) = true) (hr : ruleRecord u (ruleKey (par h 0 1) (par h 4 4)) = some r) :
    ∃ rest : List Byte, ruleQuery h u =
      .done St.ok (le 1 r.table ++ le 1 (ruleState u (ruleKey (par h 0 1) (par h 4 4))) ++ rest) (drawn u) := by
  simp only [ruleQuery, ruleNamed, hname, hid, hheld, hr, decide_true, Bool.and_self, Bool.not_true, Bool.false_eq_true, if_false,
    List.append_assoc]
  exact ⟨_, rfl⟩

/-! ### TCAM status -/

/-- The answer begins with the entries used and staged, and those left of all that the direction's TCAM has (R170). -/
theorem tcamStatus_answers (hdir : par h 0 1 ≤ 1) (hz : parZero h 1 3 = true) : ∃ used stg tables : Nat, ∃ rest : List Byte,
    tcamStatus h u = .done St.ok
      (le 4 used ++ le 4 stg ++ le 4 ((if par h 0 1 = 0 then 131072 else 65536) - used - stg) ++ le 4 tables ++ rest) u := by
  simp only [tcamStatus, Nat.not_lt.mpr hdir, hz, decide_false, Bool.not_true, Bool.or_self, Bool.false_eq_true, if_false, List.append_assoc]
  exact ⟨_, _, _, _, rfl⟩
end

/-- `rule.query` draws a free value: what it answers for the action of an epoch in which the rule does not stand. -/
theorem exec_ruleQuery {c : Cmd} {s u : State} {r : Rule} (ha : takes 0x040D 8 c s u) (hdir : arg c 0 1 ≤ 1) (hz : argZero c 1 3)
    (hid : arg c 4 4 < ruleIds (arg c 0 1)) (hheld : ruleHeld u (ruleKey (arg c 0 1) (arg c 4 4)) = true)
    (hr : ruleRecord u (ruleKey (arg c 0 1) (arg c 4 4)) = some r) : ∃ rest : List Byte,
    exec (.ruleQuery c) s = .next (completed 0x040D c s
      (le 1 r.table ++ le 1 (ruleState u (ruleKey (arg c 0 1) (arg c 4 4))) ++ rest) false (drawn u)) := by
  obtain ⟨ha, rfl⟩ := ha
  obtain ⟨rest, hb⟩ := ruleQuery_answers (h := heldOf 0x040D c) (ruleNameBad_eq_false hdir hz) hid hheld hr
  exact ⟨rest, runCmd_done (spec := specRuleQuery) ha (fun h => by cases h) hb⟩

/-- Settles O5: each command's own rules, once nothing of its form is refused, in the shape of its verdict. -/
theorem ruleCommandsComplete : Obligations.RuleCommandsComplete := by
  unfold Obligations.RuleCommandsComplete
  refine ⟨fun c s u e id index moves ha hnum hres hmask hunused hprofile he hid hplace hroom => ?_,
    fun c s u tb r id index moves ha hdir hnum hres hmask hkeyTable hmaskTable hact htable hkeyWidth hmaskWidth haction hr hid hplace hroom => ?_,
    fun c s u ha hdir hz hid hrule => ?_, fun c s u r ha hdir hz hid hact hr haction => ?_, fun c s u r ha hdir hz hid hr => ?_,
    fun c s u r ha hdir hz hid hheld hr => exec_ruleQuery ha hdir hz hid hheld hr, fun c s u ha hdir hz => ?_⟩
  · subst he
    exact configWith_of (spec := specProfileSelectAdd) ha rfl rfl
      (profileSelectAdd_numbers (h := heldOf 0x0404 c) ⟨hnum, hres, hmask, hunused⟩ hprofile hid hplace hroom)
  · subst hr
    exact configWith_of (spec := specRuleAdd) ha rfl rfl
      (ruleAdd_numbers (h := heldOf 0x0409 c)
        ⟨hdir, hnum, hres, hmask, hkeyTable, hmaskTable, hact, hkeyWidth, hmaskWidth⟩ htable haction hid hplace hroom)
  · exact stages_of (spec := specRuleDelete) ha rfl rfl
      (ruleDelete_stages (h := heldOf 0x040A c) (ruleNameBad_eq_false hdir hz) hid hrule)
  · exact stages_of (spec := specRuleModify) ha rfl rfl
      (ruleModify_stages (h := heldOf 0x040B c) (ruleNameBad_eq_false hdir hz) hid hact hr haction)
  · exact queries_of (spec := specRuleOverlaps) ha rfl rfl
      (ruleOverlaps_answers (h := heldOf 0x040C c) (ruleNameBad_eq_false hdir hz) hid hr)
  · obtain ⟨used, stg, tables, rest, hb⟩ := tcamStatus_answers (h := heldOf 0x040F c) (u := u) hdir hz
    exact ⟨used, stg, tables, rest, queries_of (spec := specTcamStatus) ha rfl rfl hb⟩

end Sys2Proof.Proofs
end

section
/-! SUPPORT. The route, identifier and flow-table commands' own rules (R186, R193, R196, R210 to R212). -/

namespace Sys2Proof.Proofs
open Sys2Proof Sys2Proof.Machine Sys2Proof.Laws

section
variable {h : HeldCmd} {u : State}

theorem le_length (n v : Nat) : (le n v).length = n := by
  induction n generalizing v with
  | zero => rfl
  | succ n ih => simp only [le, List.length_cons, ih]

theorem capRecord_length (used stg cap : Nat) : (capRecord used stg cap).length = 12 := by
  simp only [capRecord, List.length_append, le_length]

/-! ### Routes and identifiers -/

theorem fibVrfConfig_stages (hmiss : par h 2 1 ≤ 1) (hz : parZero h 3 1 = true) :
    fibVrfConfig h u = staged [] (.vrfMiss (par h 0 2) (par h 2 1)) u := by
  simp [fibVrfConfig, Nat.not_lt.mpr hmiss, hz]

/-- The answer begins with the route units; five records follow (Table 06-21). -/
theorem fibStatus_answers : ∃ rest : List Byte, rest.length = 60 ∧
    fibStatus h u = .done St.ok (capRecord (capOf unitsHeld u).1 (capOf unitsHeld u).2 routeUnitCapacity ++ rest) u := by
  simp only [fibStatus, List.append_assoc]
  exact ⟨_, by simp only [List.length_append, capRecord_length], rfl⟩

/-- The answer begins with the identifier's STATE and its references; the commit that freed it and its release downbeat follow (R210). -/
theorem idQuery_answers (hz : parZero h 1 3 = true) (hid : par h 4 4 < idCapacity (par h 0 1)) : ∃ rest : List Byte, rest.length = 16 ∧
    idQuery h u = .done St.ok
      (le 1 (idState (par h 0 1) (par h 4 4) u) ++ zeros 3 ++ le 4 (refsIn (par h 0 1) (par h 4 4) (nextConf u)) ++ rest) u := by
  simp only [idQuery, hz, Nat.not_le.mpr hid, Bool.not_true, decide_false, Bool.or_self, Bool.false_eq_true, if_false, List.append_assoc]
  exact ⟨_, by simp only [List.length_append, le_length], rfl⟩

/-! ### Flow tables -/

/-- The flow table that the parameters of `flow.table.create` describe (R211). -/
def flowTableFrom (h : HeldCmd) : FlowTable :=
  { policy := par h 1 1, flags := par h 2 1, contexts := par h 4 4, idle := par h 8 4, learnAction := par h 12 4, learnNh := par h 16 4 }

/-- The parameters of `flow.table.create` are well formed (R211). -/
structure FlowTableFormed (h : HeldCmd) : Prop where
  table : par h 0 1 ≤ 15
  policy : par h 1 1 ≤ 1
  flags : par h 2 1 ≤ 31
  reserved : parZero h 3 1 = true
  nonempty : par h 4 4 ≠ 0
  whole : par h 4 4 % 65536 = 0
  idle : par h 8 4 ≤ 86400
  action : ctxActionBad (par h 12 4) (par h 16 4) = false

theorem flowTableCreate_adds (hform : FlowTableFormed h) (hnew : flowTable (par h 0 1) u = none)
    (hroom : u.fwd.flowTables.foldl (fun a p => if p.1 = par h 0 1 then a else a + p.2.contexts) 0 + par h 4 4 ≤ 4194304) :
    flowTableCreate h u =
      .done St.ok [] { u with fwd := { u.fwd with flowTables := aset u.fwd.flowTables (par h 0 1) (flowTableFrom h) } } := by
  obtain ⟨htable, hpolicy, hflags, hz, hsome, hwhole, hidle, haction⟩ := hform
  have hmost : par h 4 4 ≤ 4194304 := Nat.le_trans (Nat.le_add_left _ _) hroom
  simp [flowTableCreate, flowTableFrom, Nat.not_lt.mpr htable, Nat.not_lt.mpr hpolicy, Nat.not_lt.mpr hflags, hz, hsome, hwhole,
    Nat.not_lt.mpr hmost, Nat.not_lt.mpr hidle, haction, hnew, Nat.not_lt.mpr hroom]

/-- A table that holds no context and that nothing names goes, and no context with it. -/
theorem flowTableDelete_drops {f : FlowTable} (htable : par h 0 1 ≤ 15) (hz : parZero h 1 3 = true) (hf : flowTable (par h 0 1) u = some f)
    (hnamed : flowNamed (par h 0 1) u = false) (hempty : flowsOf (par h 0 1) u = []) :
    flowTableDelete h u = .done St.ok [] { u with fwd := { u.fwd with flowTables := adel u.fwd.flowTables (par h 0 1) } } := by
  simp [flowTableDelete, Nat.not_lt.mpr htable, hz, hf, hnamed, hempty]

/-- The unlocked contexts go, static ones only where the command asks for them, and the answer counts them (R212). -/
theorem flowTableFlush_drops {f : FlowTable} {gone : List FlowCtx} (htable : par h 0 1 ≤ 15) (hstatic : par h 1 1 ≤ 1)
    (hz : parZero h 2 2 = true) (hf : flowTable (par h 0 1) u = some f)
    (hgone : gone = (flowsOf (par h 0 1) u).filter (fun f => f.lock.isNone && (!f.isStatic || par h 1 1 == 1))) :
    flowTableFlush h u = .done St.ok (le 4 gone.length) (gone.foldl (fun s f => dropFlow f s) u) := by
  subst hgone
  simp [flowTableFlush, Nat.not_lt.mpr htable, Nat.not_lt.mpr hstatic, hz, hf]
end

/-- Settles O6: each command's own rules, once nothing of its form is refused, in the shape of its verdict. -/
theorem tableCommandsComplete : Obligations.TableCommandsComplete := by
  unfold Obligations.TableCommandsComplete
  refine ⟨fun c s u ha hmiss hz => ?_, fun c s u ha => ?_, fun c s u ha hz hid => ?_, fun c s u ha => ?_,
    fun c s u ft ha htable hpolicy hflags hz hsome hwhole hidle haction hnew hroom hft => ?_,
    fun c s u f ha htable hz hf hnamed hempty => ?_, fun c s u f gone ha htable hstatic hz hf hgone => ?_, fun c s u ha => ?_⟩
  · exact stages_of (spec := specFibVrfConfig) ha rfl rfl (fibVrfConfig_stages (h := heldOf 0x0501 c) hmiss hz)
  · obtain ⟨rest, hlen, hb⟩ := fibStatus_answers (h := heldOf 0x0502 c) (u := u)
    exact ⟨rest, hlen, queries_of (spec := specFibStatus) ha rfl rfl hb⟩
  · obtain ⟨rest, hlen, hb⟩ := idQuery_answers (h := heldOf 0x0503 c) (u := u) hz hid
    exact ⟨rest, hlen, queries_of (spec := specIdQuery) ha rfl rfl hb⟩
  · exact stages_of (spec := specEcmpHashSeed) ha rfl rfl rfl
  · subst hft
    exact effects_of (spec := specFlowTableCreate) ha rfl rfl (flowTableCreate_adds (h := heldOf 0x0520 c)
      ⟨htable, hpolicy, hflags, hz, hsome, hwhole, hidle, haction⟩ hnew hroom)
  · exact effects_of (spec := specFlowTableDelete) ha rfl rfl (flowTableDelete_drops (h := heldOf 0x0521 c) htable hz hf hnamed hempty)
  · obtain ⟨ha, rfl⟩ := ha
    exact runCmd_done (spec := specFlowTableFlush) ha (fun h => by cases h)
      (flowTableFlush_drops (h := heldOf 0x0522 c) htable hstatic hz hf hgone)
  · exact queries_of (spec := specFlowStatus) ha rfl rfl rfl

end Sys2Proof.Proofs
end

section
/-! SUPPORT. The ECMP hash (R196 to R198): sixteen bits, so that its slot lies in the group. -/

namespace Sys2Proof.Proofs
open Sys2Proof Sys2Proof.Machine Sys2Proof.Laws

/-- A reflected CRC of 32 bits stays one: a bit halves the running value and may add the polynomial, which is one itself. -/
theorem crcBitR_lt {poly c : Nat} (hp : poly < 2 ^ 32) (hc : c < 2 ^ 32) : crcBitR poly c < 2 ^ 32 := by
  have hhalf : c / 2 < 2 ^ 32 := Nat.lt_of_le_of_lt (Nat.div_le_self c 2) hc
  unfold crcBitR
  split
  · exact Nat.xor_lt_two_pow hhalf hp
  · exact hhalf

theorem iter_crcBitR_lt {poly : Nat} (hp : poly < 2 ^ 32) (n : Nat) {c : Nat} (hc : c < 2 ^ 32) : iter (crcBitR poly) n c < 2 ^ 32 := by
  induction n generalizing c with
  | zero => exact hc
  | succ n ih => exact ih (crcBitR_lt hp hc)

theorem crc32cRun_lt (bs : List Byte) {c : Nat} (hc : c < 2 ^ 32) : crc32cRun c bs < 2 ^ 32 := by
  induction bs generalizing c with
  | nil => exact hc
  | cons b bs ih =>
    have hb : b.toNat < 2 ^ 32 := Nat.lt_trans b.isLt (by decide)
    exact ih (iter_crcBitR_lt (by decide) 8 (Nat.xor_lt_two_pow hc hb))

theorem crc32c_lt (bs : List Byte) : crc32c bs < 2 ^ 32 := Nat.xor_lt_two_pow (crc32cRun_lt bs (by decide)) (by decide)

/-- The fold of 32 bits to 16. -/
theorem foldHalves_lt {crc : Nat} (hc : crc < 2 ^ 32) : crc / 65536 ^^^ crc % 65536 < 2 ^ 16 :=
  Nat.xor_lt_two_pow (n := 16) (by omega) (by omega)

theorem ecmpHash_lt (p bs : List Byte) (seed : Nat) : ecmpHash p bs seed < 2 ^ 16 := foldHalves_lt (crc32c_lt _)

/-- The slot of a sixteen-bit hash is one of the group's. -/
theorem slot_lt {h n : Nat} (hh : h < 2 ^ 16) (hn : 0 < n) : h * n / 65536 < n :=
  Nat.div_lt_of_lt_mul (Nat.mul_lt_mul_of_pos_right hh hn)

theorem ecmpHash_eq (p bs : List Byte) (seed : Nat) {crc : Nat}
    (hcrc : crc = crc32c (be 4 seed ++ ((List.range 32).filter (fun n => bit (pHash p) n = 1)).flatMap (fun n => be 4 (fieldVal p bs n)))) :
    ecmpHash p bs seed = (crc >>> 16) ^^^ (crc &&& 0xFFFF) := by
  have hlow : crc &&& 0xFFFF = crc % 65536 := Nat.and_two_pow_sub_one_eq_mod crc 16
  rw [hlow, Nat.shiftRight_eq_div_pow, hcrc]
  rfl

theorem memberOf_group {p bs : List Byte} {c : Conf} {id : Nat} {slots : List Nat} (hs : aget c.ecmp id = some slots) :
    memberOf true id p bs c = slots[ecmpHash p bs c.hashSeed * slots.length / 65536]? := by
  simp only [memberOf, hs, if_true, Option.bind_some]

/-- Settles O46: the hash has sixteen bits, so that its slot is one of the group's, whose next hop the pass takes. -/
theorem ecmpSlotOfTheHash : Obligations.EcmpSlotOfTheHash := by
  unfold Obligations.EcmpSlotOfTheHash
  intro p bs c id slots crc h hs hpos hcrc hh
  have hhash : ecmpHash p bs c.hashSeed = h := (ecmpHash_eq p bs c.hashSeed hcrc).trans hh.symm
  have hslot : ecmpHash p bs c.hashSeed * slots.length / 65536 < slots.length := slot_lt (ecmpHash_lt p bs c.hashSeed) hpos
  have hshift : (h * slots.length) >>> 16 = ecmpHash p bs c.hashSeed * slots.length / 65536 := by
    rw [hhash]; exact Nat.shiftRight_eq_div_pow _ 16
  rw [hshift, memberOf_group hs]
  exact ⟨_, List.getElem?_eq_getElem hslot, List.getElem?_eq_getElem hslot⟩

end Sys2Proof.Proofs
end

section
/-! SUPPORT. The table engine (R202 to R209, R222 to R224): what a descriptor that it takes does, by what its operation's own rules decide. -/

namespace Sys2Proof.Proofs
open Sys2Proof Sys2Proof.Machine Sys2Proof.Laws

/-! ### The engine -/

section
variable {op : Nat} {t : TableOp} {i : Instr} {d : Desc} {s u : State} {x : Ring}

theorem stagedFrom_prot (units : Nat) (ch : Change) : (stagedFrom d x units ch u).prot = u.prot := rfl

/-- Taking a descriptor touches the ring it came from, the ring's index in host memory and the engine's own counts: no memory's errors. -/
theorem takesTable_mem (h : takesTable op d s x u) : u.mem = s.mem := by
  obtain ⟨-, -, -, -, -, -, -, rfl⟩ := h
  obtain ⟨host, hostMem, hc⟩ := consume_shape d.ring { s with fwd := { s.fwd with lastTable := some d.ring } }
  have hmem : (consumedTable d s).mem = s.mem := by
    unfold consumedTable
    rw [hc]; rfl
  split <;> exact hmem

/-- A change that the operation's rules stage: a member outside a pair stages it, waits for no standby, and completes the descriptor. -/
theorem runTable_stages {units : Nat} {ch : Change} (h : takesTable op d s x u) (ht : tableOpOf op = some t) (hsb : standsBy u = false)
    (hm : mirroring u = false) (hroom : stagingFull units u = false) (hb : t.body (bytesOf64 d) d.data x.fn u = .stage units ch) :
    runTable op t d s = closedFrom d x u (tableDone x (bytesOf64 d) op St.ok (t.id (bytesOf64 d)) 0
      (t.free (bytesOf64 d) (stagedFrom d x units ch u)) none (releaseUnmirrored (stagedFrom d x units ch u))) := by
  obtain ⟨hring, htyp, hbegin, hturn, hop, hz, -, hu⟩ := h
  have hms : mirroring (stagedFrom d x units ch u) = false := (mirroring_prot (stagedFrom_prot units ch)).trans hm
  unfold stagedFrom bytesOf64 consumedTable at *
  simp only [runTable, hring, htyp, hbegin, hturn, hop, ht, hz, ← hu, hb, hsb, hroom, mirrorCfg_none hms, mirrors_of_mirroring hms,
    bne_self_eq_false, Option.isSome_some, Option.isNone_some, Bool.not_true, Bool.and_false, Bool.or_self, Bool.false_eq_true, if_false]
  rfl

/-- An immediate operation that its rules complete. -/
theorem runTable_acts {v : State} (h : takesTable op d s x u) (ht : tableOpOf op = some t) (himm : 0x10 ≤ op)
    (hb : t.body (bytesOf64 d) d.data x.fn u = .acted St.ok v) :
    runTable op t d s = tableDone x (bytesOf64 d) op St.ok (t.id (bytesOf64 d)) 0 (t.free (bytesOf64 d) v) none v := by
  have hmem := takesTable_mem h
  obtain ⟨hring, htyp, hbegin, hturn, hop, hz, hbad, hu⟩ := h
  have hflow : u.mem.flowBad = false := by rw [hmem]; exact hbad himm
  unfold bytesOf64 consumedTable at *
  simp only [runTable, hring, htyp, hbegin, hturn, hop, ht, hz, ← hu, hb, hflow, bne_self_eq_false,
    Option.isSome_some, Option.isNone_some, Bool.not_true, Bool.and_false, Bool.or_self, Bool.false_eq_true, if_false]

theorem stagesFrom_of {units : Nat} {ch : Change} (h : takesTable op d s x u) (ht : tableOpOf op = some t)
    (hi : exec i s = .next (runTable op t d s)) (hsb : standsBy u = false) (hm : mirroring u = false) (hroom : stagingFull units u = false)
    (hb : t.body (bytesOf64 d) d.data x.fn u = .stage units ch) : stagesFrom op i d s x u units (t.id (bytesOf64 d)) ch :=
  ⟨_, hi.trans (congrArg _ (runTable_stages h ht hsb hm hroom hb))⟩

theorem actsFrom_of {v : State} (h : takesTable op d s x u) (ht : tableOpOf op = some t) (hi : exec i s = .next (runTable op t d s))
    (himm : 0x10 ≤ op) (hid : t.id (bytesOf64 d) = 0) (hb : t.body (bytesOf64 d) d.data x.fn u = .acted St.ok v) :
    actsFrom op i d s x v :=
  ⟨_, hi.trans (congrArg _ ((runTable_acts h ht himm hb).trans (by rw [hid])))⟩
end

/-! ### Routes and labels -/

section
variable {b : List Byte} {data : Option (List Byte)} {fn : Nat} {u : State}

/-- A host route takes exact-match entries, another route units; both hold the change. -/
theorem opRouteAdd_stages {v6 : Bool} {len vrf v : Nat} (hr : routeOf b = some (v6, len, vrf, v))
    (hform : resultOk (if len = (if v6 then 128 else 32) then .host else .net) (rd b 32 8) = true) (hid : resultDangling (rd b 32 8) u = false)
    (hentries : entriesHeld (heldWith (.route (routeKey v6 vrf len v) (some (rd b 32 8))) u) ≤ entryCapacity)
    (hunits : unitsHeld (heldWith (.route (routeKey v6 vrf len v) (some (rd b 32 8))) u) ≤ routeUnitCapacity) :
    opRouteAdd.body b data fn u = .stage 1 (.route (routeKey v6 vrf len v) (some (rd b 32 8))) := by
  simp only [opRouteAdd, routeAddBody, hr]
  by_cases hhost : len = (if v6 then 128 else 32)
  · subst hhost
    rw [if_pos rfl] at hform
    simp [hform, hid, Nat.not_lt.mpr hentries]
  · rw [if_neg hhost] at hform
    simp [hhost, hform, hid, Nat.not_lt.mpr hunits]

theorem opRouteDelete_stages {v6 : Bool} {len vrf v : Nat} (hr : routeOf b = some (v6, len, vrf, v)) (hzero : rd b 32 8 = 0)
    (hroute : ahas (nextConf u).routes (routeKey v6 vrf len v) = true) :
    opRouteDelete.body b data fn u = .stage 1 (.route (routeKey v6 vrf len v) none) := by
  simp [opRouteDelete, routeDeleteBody, hr, hzero, hroute]

theorem opLabelAdd_stages (hlabel : rd b 8 4 < 1048576) (hz : descZero b 12 20 = true) (hz' : descZero b 40 24 = true)
    (hform : resultOk .label (rd b 32 8) = true) (hid : resultDangling (rd b 32 8) u = false)
    (hentries : entriesHeld (heldWith (.label (rd b 8 4) (some (rd b 32 8))) u) ≤ entryCapacity) :
    opLabelAdd.body b data fn u = .stage 1 (.label (rd b 8 4) (some (rd b 32 8))) := by
  simp [opLabelAdd, labelAddBody, Nat.not_le.mpr hlabel, hz, hz', hform, hid, Nat.not_lt.mpr hentries]

theorem opLabelDelete_stages (hlabel : rd b 8 4 < 1048576) (hz : descZero b 12 52 = true)
    (hhas : ahas (nextConf u).labels (rd b 8 4) = true) : opLabelDelete.body b data fn u = .stage 1 (.label (rd b 8 4) none) := by
  simp [opLabelDelete, labelDeleteBody, Nat.not_le.mpr hlabel, hz, hhas]

/-! ### Identifiers -/

theorem setId_stages {kind id units : Nat} {ch : Change} (hset : setRefused kind id u = none) : setId kind id units ch u = .stage units ch := by
  simp only [setId, hset]

theorem freeId_stages {kind id : Nat} {ch : Change} (hid : idNext kind id u = true) (hrefs : refsIn kind id (nextConf u) = 0) :
    freeId kind id ch u = .stage 1 ch := by
  simp [freeId, hid, hrefs]

theorem opNhSet_stages (hform : nextHopBad b = false) (htemplate : (nextHopOf b).kind = 0 → idNext 2 (nextHopOf b).template u = true)
    (hset : setRefused 0 (descId b) u = none) :
    opNhSet.body b data fn u = .stage 1 (.nextHop (descId b) (some (nextHopOf b))) := by
  have hnamed : ((nextHopOf b).kind == 0 && !idNext 2 (nextHopOf b).template u) = false := by simpa using htemplate
  simp only [opNhSet, nhSetBody, hform, hnamed, Bool.false_eq_true, if_false, setId_stages hset]

theorem opNhFree_stages (hcap : descId b < nextHopCapacity) (hz : descZero b 12 52 = true) (hid : idNext 0 (descId b) u = true)
    (hrefs : refsIn 0 (descId b) (nextConf u) = 0) : opNhFree.body b data fn u = .stage 1 (.nextHop (descId b) none) := by
  simp [opNhFree, nhFreeBody, Nat.not_le.mpr hcap, hz, freeId_stages hid hrefs]

/-- A group's change is one unit and one for each 16 slots begun (Table 06-10). -/
theorem opEcmpSet_stages {m : List Byte} {l : List Nat} (hl : l = (List.range (rd b 12 2)).map (fun k => rd m (4 * k) 4))
    (hcap : descId b < groupCapacity) (hmin : 1 ≤ rd b 12 2) (hmax : rd b 12 2 ≤ 512) (hz : descZero b 14 2 = true)
    (hz' : descZero b 24 40 = true) (hslots : ∀ k ∈ l, k < nextHopCapacity ∧ idNext 0 k u = true) (hset : setRefused 1 (descId b) u = none)
    (hroom : slotsUsed u + slotsStaged (batchesWith (.ecmp (descId b) (some l)) u) ≤ slotCapacity) :
    opEcmpSet.body b (some m) fn u = .stage (1 + (rd b 12 2 + 15) / 16) (.ecmp (descId b) (some l)) := by
  have hnum : l.any (fun k => nextHopCapacity ≤ k) = false :=
    List.any_eq_false.mpr fun k hk => by simpa using (hslots k hk).1
  have hlive : l.any (fun k => !idNext 0 k u) = false := List.any_eq_false.mpr fun k hk => by simpa using (hslots k hk).2
  have hform : (decide (groupCapacity ≤ descId b) || decide (rd b 12 2 < 1) || decide (512 < rd b 12 2) || !descZero b 14 2 ||
      !descZero b 24 40) = false := by
    simp only [Nat.not_le.mpr hcap, Nat.not_lt.mpr hmin, Nat.not_lt.mpr hmax, hz, hz', decide_false, Bool.not_true, Bool.or_self]
  simp only [opEcmpSet, ecmpSetBody, hform, ← hl, hnum, hlive, hset, Nat.not_lt.mpr hroom, Bool.false_eq_true, if_false]

theorem opEcmpFree_stages (hcap : descId b < groupCapacity) (hz : descZero b 12 52 = true) (hid : idNext 1 (descId b) u = true)
    (hrefs : refsIn 1 (descId b) (nextConf u) = 0) : opEcmpFree.body b data fn u = .stage 1 (.ecmp (descId b) none) := by
  simp [opEcmpFree, ecmpFreeBody, Nat.not_le.mpr hcap, hz, freeId_stages hid hrefs]

theorem opTemplateSet_stages {m : List Byte} (hcap : descId b < templateCapacity) (hz : descZero b 12 4 = true)
    (hz' : descZero b 24 40 = true) (hform : templateMalformed (fit 64 m) = false) (hend : tChain (fit 64 m) = none)
    (hchains : chainsBad (applyChange (nextConf u) (.template (descId b) (some (fit 64 m)))) = false)
    (hset : setRefused 2 (descId b) u = none) :
    opTemplateSet.body b (some m) fn u = .stage 1 (.template (descId b) (some (fit 64 m))) := by
  simp [opTemplateSet, templateSetBody, Nat.not_le.mpr hcap, hz, hz', hform, hend, hchains, setId_stages hset]

theorem opTemplateFree_stages (hcap : descId b < templateCapacity) (hz : descZero b 12 52 = true) (hid : idNext 2 (descId b) u = true)
    (hrefs : refsIn 2 (descId b) (nextConf u) = 0) : opTemplateFree.body b data fn u = .stage 1 (.template (descId b) none) := by
  simp [opTemplateFree, templateFreeBody, Nat.not_le.mpr hcap, hz, freeId_stages hid hrefs]
end

/-- Settles O7: the engine stages what each operation's own rules decide once nothing of the descriptor's form is refused. -/
theorem tableDescriptorsStage : Obligations.TableDescriptorsStage := by
  unfold Obligations.TableDescriptorsStage
  refine ⟨fun d s x u v6 len vrf v ha hsb hm hroom hr hform hid hentries hunits => ?_,
    fun d s x u v6 len vrf v ha hsb hm hroom hr hzero hroute => ?_,
    fun d s x u ha hsb hm hroom hlabel hz hz' hform hid hentries => ?_, fun d s x u ha hsb hm hroom hlabel hz hhas => ?_,
    fun d s x u ha hsb hm hroom hform htemplate hset => ?_, fun d s x u ha hsb hm hroom hcap hz hid hrefs => ?_,
    fun d s x u m l ha hsb hm hdata hl hcap hmin hmax hz hz' hslots hset hfit hroom => ?_,
    fun d s x u ha hsb hm hroom hcap hz hid hrefs => ?_,
    fun d s x u m ha hsb hm hroom hdata hcap hz hz' hform hend hchains hset => ?_,
    fun d s x u ha hsb hm hroom hcap hz hid hrefs => ?_⟩
  · exact stagesFrom_of (t := opRouteAdd) ha rfl rfl hsb hm hroom (opRouteAdd_stages hr hform hid hentries hunits)
  · exact stagesFrom_of (t := opRouteDelete) ha rfl rfl hsb hm hroom (opRouteDelete_stages hr hzero hroute)
  · exact stagesFrom_of (t := opLabelAdd) ha rfl rfl hsb hm hroom (opLabelAdd_stages hlabel hz hz' hform hid hentries)
  · exact stagesFrom_of (t := opLabelDelete) ha rfl rfl hsb hm hroom (opLabelDelete_stages hlabel hz hhas)
  · exact stagesFrom_of (t := opNhSet) ha rfl rfl hsb hm hroom (opNhSet_stages hform htemplate hset)
  · exact stagesFrom_of (t := opNhFree) ha rfl rfl hsb hm hroom (opNhFree_stages hcap hz hid hrefs)
  · exact stagesFrom_of (t := opEcmpSet) ha rfl rfl hsb hm hroom
      (hdata ▸ opEcmpSet_stages hl hcap hmin hmax hz hz' hslots hset hfit)
  · exact stagesFrom_of (t := opEcmpFree) ha rfl rfl hsb hm hroom (opEcmpFree_stages hcap hz hid hrefs)
  · exact stagesFrom_of (t := opTemplateSet) ha rfl rfl hsb hm hroom
      (hdata ▸ opTemplateSet_stages hcap hz hz' hform hend hchains hset)
  · exact stagesFrom_of (t := opTemplateFree) ha rfl rfl hsb hm hroom (opTemplateFree_stages hcap hz hid hrefs)

/-! ### Flow operations -/

section
variable {b m : List Byte} {data : Option (List Byte)} {fn : Nat} {u : State} {ft : FlowTable} {f : FlowCtx}

theorem opFlowRead_reads (hform : flowDescBad b 1 = false) (hft : flowTable (rd b 8 1) u = some ft)
    (hf : findFlow (rd b 8 1) (slice m 8 48) u = some f) (hflags : rd b 9 1 = 0) :
    opFlowRead.body b (some m) fn u = .acted St.ok (dmaWrite fn (rd b 16 8) (ctxBytes f) u) := by
  simp [opFlowRead, flowReadBody, hform, hft, hf, hflags]

/-- With LOCK the context is locked from now on, with nothing yet counted aside, and the host reads it so (R223). -/
theorem opFlowRead_locks {g : FlowCtx} (hform : flowDescBad b 1 = false) (hft : flowTable (rd b 8 1) u = some ft)
    (hf : findFlow (rd b 8 1) (slice m 8 48) u = some f) (hflags : rd b 9 1 = 1) (hlock : f.lock = none) (hroom : lockCount u < 1024)
    (hg : g = { f with lock := some u.elapsed, keptPackets := 0, keptBytes := 0, keptLast := 0, lapsed := false }) :
    opFlowRead.body b (some m) fn u =
      .acted St.ok (dmaWrite fn (rd b 16 8) (ctxBytes g) (updFlow (rd b 8 1) f.key (fun _ => g) u)) := by
  subst hg
  simp [opFlowRead, flowReadBody, hform, hft, hf, hflags, hlock, Nat.not_le.mpr hroom]

theorem opFlowWrite_rewrites (hform : flowDescBad b 15 = false) (hmode : rd b 9 1 % 4 = 2) (hft : flowTable (rd b 8 1) u = some ft)
    (hf : findFlow (rd b 8 1) (ctxOf (rd b 8 1) m).key u = some f) (hlock : f.lock = none) :
    opFlowWrite.body b (some m) fn u = .acted St.ok (writeFlow f (fun f => rewriteCtx f (ctxOf (rd b 8 1) m)) u) := by
  simp [opFlowWrite, flowWriteBody, hform, hmode, hft, hf, hlock]

theorem flowInsert_stores {t k : Nat} {evict : Bool} {g : FlowCtx} {v : State}
    (hroom : makeRoom evict t ft (flowBucketOf t ft g.key) u = some (k, v)) :
    flowInsert t ft evict g u =
      .acted St.ok (storeFlow { g with bucket := flowBucketOf t ft g.key, slot := k, first := u.tempo.now } v) := by
  simp only [flowInsert, hroom]

/-- A key that the table lacks is inserted, where its bucket has or makes room (R222). -/
theorem opFlowWrite_inserts {k : Nat} {v : State} (hform : flowDescBad b 15 = false) (hreplace : rd b 9 1 % 4 ≠ 1) (hmode : rd b 9 1 % 4 ≠ 3)
    (hft : flowTable (rd b 8 1) u = some ft) (hf : findFlow (rd b 8 1) (ctxOf (rd b 8 1) m).key u = none)
    (hroom : makeRoom (bit (rd b 9 1) 3 == 1) (rd b 8 1) ft (flowBucketOf (rd b 8 1) ft (ctxOf (rd b 8 1) m).key) u = some (k, v)) :
    opFlowWrite.body b (some m) fn u = .acted St.ok (storeFlow { ctxOf (rd b 8 1) m with
      bucket := flowBucketOf (rd b 8 1) ft (ctxOf (rd b 8 1) m).key, slot := k, first := u.tempo.now } v) := by
  simp [opFlowWrite, flowWriteBody, hform, hreplace, hmode, hft, hf, flowInsert_stores hroom]

theorem opFlowDelete_drops (hform : flowDescBad b 0 = false) (hft : flowTable (rd b 8 1) u = some ft)
    (hf : findFlow (rd b 8 1) (slice m 8 48) u = some f) : opFlowDelete.body b (some m) fn u = .acted St.ok (dropFlow f u) := by
  simp [opFlowDelete, flowDeleteBody, hform, hft, hf]
end

/-- Settles O8: the engine leaves what each operation's own rules make of the context, and completes the descriptor at once. -/
theorem flowDescriptorsAct : Obligations.FlowDescriptorsAct := by
  unfold Obligations.FlowDescriptorsAct
  refine ⟨fun d s x u m ft f ha hform hft hdata hf hflags => ?_, fun d s x u m ft f g ha hform hft hdata hf hflags hlock hroom hg => ?_,
    fun d s x u m ft f ha hform hmode hft hdata hf hlock => ?_, fun d s x u m ft k v ha hform hreplace hmode hft hdata hf hroom => ?_,
    fun d s x u m ft f ha hform hft hdata hf => ?_⟩
  · exact actsFrom_of (t := opFlowRead) ha rfl rfl (by decide) rfl (hdata ▸ opFlowRead_reads hform hft hf hflags)
  · exact actsFrom_of (t := opFlowRead) ha rfl rfl (by decide) rfl (hdata ▸ opFlowRead_locks hform hft hf hflags hlock hroom hg)
  · exact actsFrom_of (t := opFlowWrite) ha rfl rfl (by decide) rfl (hdata ▸ opFlowWrite_rewrites hform hmode hft hf hlock)
  · exact actsFrom_of (t := opFlowWrite) ha rfl rfl (by decide) rfl (hdata ▸ opFlowWrite_inserts hform hreplace hmode hft hf hroom)
  · exact actsFrom_of (t := opFlowDelete) ha rfl rfl (by decide) rfl (hdata ▸ opFlowDelete_drops hform hft hf)

end Sys2Proof.Proofs
end

section
/-! SUPPORT. The queue and buffer commands' own rules (R229 to R231, R234, R235, R239, R255, R257, R259, R262, R265). -/

namespace Sys2Proof.Proofs
open Sys2Proof Sys2Proof.Machine Sys2Proof.Laws

section
variable {h : HeldCmd} {u : State}

/-! ### Destinations -/

/-- A MULTICAST destination names lists that the next epoch has, and none of the destination's eight VOQs is quarantined (R230). -/
theorem voqDestSet_stages (hform : destBad h u = false)
    (hlists : par h 2 1 = 1 → ahas (nextConf u).epLists (par h 6 2) = true ∧ ahas (nextConf u).pealLists (par h 16 4) = true)
    (hset : ∀ k < 8, setRefused 3 (8 * par h 0 2 + k) u = none) :
    voqDestSet h u = staged [] (.dest (par h 0 2) (some (destParam h))) u := by
  have hfree : (List.range 8).filterMap (fun k => setRefused 3 (8 * par h 0 2 + k) u) = [] :=
    List.filterMap_eq_nil_iff.mpr fun k hk => hset k (List.mem_range.mp hk)
  have hnamed : ((destParam h).kind == 1 &&
      !(ahas (nextConf u).epLists (destParam h).epList && ahas (nextConf u).pealLists (destParam h).pealList)) = false := by
    by_cases hcast : par h 2 1 = 1
    · simp [destParam, hlists hcast]
    · simp [destParam, hcast]
  simp only [voqDestSet, hform, hnamed, hfree, Bool.false_eq_true, if_false]

theorem voqDestDelete_stages (hz : parZero h 2 2 = true) (hdest : ahas (nextConf u).dests (par h 0 2) = true) :
    voqDestDelete h u = staged [] (.dest (par h 0 2) none) u := by
  simp [voqDestDelete, hz, hdest]

/-! ### VOQ profiles -/

/-- The four points of a profile's curve, as the parameters give them (Table 07-5). -/
def curveFrom (h : HeldCmd) : List (Nat × Nat) := (List.range 4).map (fun k => (par h (24 + 8 * k) 4, par h (28 + 8 * k) 4))

/-- The profile that the parameters of `voq.profile.set` describe (R239). -/
def voqProfileFrom (h : HeldCmd) : VoqProfile :=
  { flags := par h 1 1, tailLimit := par h 4 4, ondieLimit := par h 8 4, spillHigh := par h 12 4, spillLow := par h 16 4,
    headKeep := par h 20 4, curve := curveFrom h }

/-- The parameters of `voq.profile.set` are well formed: whole multiples of 256 in falling order, and a curve that rises within the
tail limit (R239). -/
structure VoqProfileFormed (h : HeldCmd) : Prop where
  flags : par h 1 1 ≤ 15
  reserved : parZero h 2 2 = true
  whole : ∀ o ∈ [4, 8, 12, 16, 20], par h o 4 % 256 = 0
  headKeep : par h 20 4 ≤ 262144
  spillLow : par h 20 4 ≤ par h 16 4
  spillHigh : par h 16 4 ≤ par h 12 4
  ondieLimit : par h 12 4 ≤ par h 8 4
  tailLimit : par h 8 4 ≤ par h 4 4
  depths : chain (fun a b => a ≤ b) ((curveFrom h).map (·.1)) = true
  probs : chain (fun a b => a ≤ b) ((curveFrom h).map (·.2)) = true
  points : ∀ p ∈ curveFrom h, p.1 ≤ par h 4 4 ∧ p.2 ≤ 65536

theorem voqProfileSet_stages (hform : VoqProfileFormed h) :
    voqProfileSet h u = staged [] (.voqProfile (par h 0 1) (voqProfileFrom h)) u := by
  obtain ⟨hflags, hz, hwhole, hkeep, hlow, hhigh, hondie, htail, hdepths, hprobs, hpoints⟩ := hform
  have hlimits : chain (fun a b => a ≤ b) [par h 20 4, par h 16 4, par h 12 4, par h 8 4, par h 4 4] = true := by
    simp [chain, hlow, hhigh, hondie, htail]
  have hmultiples : [par h 20 4, par h 16 4, par h 12 4, par h 8 4, par h 4 4].any (fun x => x % 256 != 0) = false := by
    simp [hwhole]
  have hcurve : (curveFrom h).any (fun p => par h 4 4 < p.1 || 65536 < p.2) = false :=
    List.any_eq_false.mpr fun p hp => by simp [Nat.not_lt.mpr (hpoints p hp).1, Nat.not_lt.mpr (hpoints p hp).2]
  unfold curveFrom at hdepths hprobs hcurve
  simp only [voqProfileSet, voqProfileFrom, curveFrom, Nat.not_lt.mpr hflags, hz, hmultiples, Nat.not_lt.mpr hkeep, hlimits, hdepths, hprobs,
    hcurve, decide_false, Bool.not_true, Bool.or_self, Bool.false_eq_true, if_false]

/-! ### Endpoint and Peal lists -/

/-- The destinations listed are PEAL_RX destinations of the next epoch, at endpoints that differ (R255). -/
theorem voqEplistSet_stages {l : List Nat} (hl : l = (List.range (par h 2 2)).map (fun k => par h (4 + 2 * k) 2))
    (hlist : par h 0 2 ≤ 4095) (hmin : 1 ≤ par h 2 2) (hmax : par h 2 2 ≤ 64) (hlen : 4 + 2 * par h 2 2 ≤ h.paramLen)
    (hkind : ∀ d ∈ l, ∃ e, aget (nextConf u).dests d = some e ∧ e.kind = 2)
    (hdiffer : noRepeat (l.filterMap (fun d => (aget (nextConf u).dests d).map (·.endpoint))) = true) :
    voqEplistSet h u = staged [] (.epList (par h 0 2) l) u := by
  have hkinds : (l.map (fun d => aget (nextConf u).dests d)).any (fun e => !e.any (fun e => e.kind == 2)) = false := by
    refine List.any_eq_false.mpr fun e he => ?_
    obtain ⟨d, hd, rfl⟩ := List.mem_map.mp he
    obtain ⟨e, hde, hrx⟩ := hkind d hd
    simp [hde, hrx]
  have hends : noRepeat ((l.map (fun d => aget (nextConf u).dests d)).filterMap (fun e => e.map (·.endpoint))) = true := by
    rw [List.filterMap_map]; exact hdiffer
  simp only [voqEplistSet, ← hl, Nat.not_lt.mpr hlist, Nat.not_lt.mpr hmin, Nat.not_lt.mpr hmax, Nat.not_lt.mpr hlen, hkinds, hends,
    decide_false, Bool.not_true, Bool.or_self, Bool.false_eq_true, if_false]

/-- A target of a Peal list is well formed, and names a template and a leaf queue that the next epoch has (R257). -/
def TargetGood (u : State) (t : Nat) : Prop :=
  bits t 62 51 = 0 ∧ bits t 31 17 = 0 ∧ (bit t 63 = 1 → idNext 2 (bits t 50 32) u = true) ∧ ahas (nextConf u).leaves (bits t 16 0) = true

theorem pealListSet_stages {l : List Nat} (hl : l = (List.range (par h 2 2)).map (fun k => par h (8 + 8 * k) 8))
    (hmax : par h 2 2 ≤ 256) (hz : parZero h 4 4 = true) (hlen : 8 + 8 * par h 2 2 ≤ h.paramLen) (htargets : ∀ t ∈ l, TargetGood u t)
    (hset : setRefused 5 (par h 0 2) u = none)
    (hroom : targetsUsed u + targetsStaged (batchesWith (.pealList (par h 0 2) (some l)) u) ≤ targetCapacity) :
    pealListSet h u = staged [] (.pealList (par h 0 2) (some l)) u := by
  have hform : l.any (fun t => bits t 62 51 != 0 || bits t 31 17 != 0 || !ahas (nextConf u).leaves (bits t 16 0)) = false := by
    refine List.any_eq_false.mpr fun t ht => ?_
    obtain ⟨hhigh, hmid, -, hleaf⟩ := htargets t ht
    simp [hhigh, hmid, hleaf]
  have htemplates : l.any (fun t => bit t 63 == 1 && !idNext 2 (bits t 50 32) u) = false := by
    refine List.any_eq_false.mpr fun t ht => ?_
    obtain ⟨-, -, htemplate, -⟩ := htargets t ht
    simpa using htemplate
  simp only [pealListSet, ← hl, Nat.not_lt.mpr hmax, hz, Nat.not_lt.mpr hlen, hform, htemplates, hset, Nat.not_lt.mpr hroom,
    decide_false, Bool.not_true, Bool.or_self, Bool.false_eq_true, if_false]

theorem pealListDelete_stages (hz : parZero h 2 2 = true) (hlist : ahas (nextConf u).pealLists (par h 0 2) = true)
    (hunnamed : ∀ d ∈ avals (nextConf u).dests, d.kind = 1 → d.pealList ≠ par h 0 2) :
    pealListDelete h u = staged [] (.pealList (par h 0 2) none) u := by
  have hfree : (avals (nextConf u).dests).any (fun d => d.kind == 1 && d.pealList == par h 0 2) = false :=
    List.any_eq_false.mpr fun d hd => by simpa using hunnamed d hd
  simp only [pealListDelete, hz, hlist, hfree, Bool.not_true, Bool.false_eq_true, if_false]

/-! ### Buffer pools -/

/-- The sizes and counts of the pools that the parameters of `buf.pool.layout` list (R234). -/
def poolsFrom (h : HeldCmd) : List (Nat × Nat) := (List.range (par h 0 1)).map (fun k => (par h (4 + 8 * k) 4, par h (8 + 8 * k) 4))

/-- The parameters of `buf.pool.layout` are well formed: one to seven pools of rising sizes, the last of 16,384 bytes, within the
128 MiB of buffer memory (R234). -/
structure LayoutFormed (h : HeldCmd) : Prop where
  atLeast : 1 ≤ par h 0 1
  atMost : par h 0 1 ≤ 7
  reserved : parZero h 1 3 = true
  listed : 4 + 8 * par h 0 1 ≤ h.paramLen
  rising : chain (fun a b => a < b) ((poolsFrom h).map (·.1)) = true
  pools : ∀ p ∈ poolsFrom h, p.1 % 256 = 0 ∧ 256 ≤ p.1 ∧ p.1 ≤ 16384 ∧ p.2 % 128 = 0 ∧ 128 ≤ p.2
  largest : ((poolsFrom h).map (·.1)).getLast? = some 16384
  fits : (poolsFrom h).foldl (fun a p => a + p.1 * p.2) 0 ≤ 134217728

/-- The layout written at once: empty pools, each at the warning level its place had, and no pool settings left, live, staged or
retained (R234). -/
def laidOut (h : HeldCmd) (u : State) : State :=
  { u with
    qdm := { u.qdm with pools := (List.range (par h 0 1)).map (fun k =>
      { State.resetPool ((poolsFrom h).getD k (0, 0)).1 ((poolsFrom h).getD k (0, 0)).2 with level := (u.qdm.pools.map (·.level)).getD k 0 }) },
    cfg := { u.cfg with pools := [] },
    staged := u.staged.filter (fun x => !isPool x.change),
    commits := u.commits.map (fun c => { c with retained := c.retained.map (fun c => { c with pools := [] }) }) }

theorem bufPoolLayout_lays (hform : LayoutFormed h) (hempty : u.qdm.stored = []) (hlinks : ∀ m ∈ avals u.macs, linkHolds m = false) :
    bufPoolLayout h u = .done St.ok [] (reportLevels (laidOut h u)) := by
  obtain ⟨hmin, hmax, hz, hlen, hrising, hpools, hlast, hfits⟩ := hform
  have hsizes : ((poolsFrom h).map (·.1)).any (fun z => z % 256 != 0 || z < 256 || 16384 < z) = false := by
    refine List.any_eq_false.mpr fun z hz => ?_
    obtain ⟨p, hp, rfl⟩ := List.mem_map.mp hz
    obtain ⟨hwhole, hleast, hmost, -, -⟩ := hpools p hp
    simp [hwhole, Nat.not_lt.mpr hleast, Nat.not_lt.mpr hmost]
  have hcounts : (poolsFrom h).any (fun p => p.2 % 128 != 0 || p.2 < 128) = false := by
    refine List.any_eq_false.mpr fun p hp => ?_
    obtain ⟨-, -, -, hwhole, hleast⟩ := hpools p hp
    simp [hwhole, Nat.not_lt.mpr hleast]
  have hidle : (avals u.macs).any linkHolds = false := List.any_eq_false.mpr fun m hm => by simp [hlinks m hm]
  unfold poolsFrom at hrising hlast hfits hsizes hcounts
  simp only [bufPoolLayout, laidOut, poolsFrom, Nat.not_lt.mpr hmin, Nat.not_lt.mpr hmax, hz, Nat.not_lt.mpr hlen, hrising, hsizes, hlast,
    bne_self_eq_false, hcounts, Nat.not_lt.mpr hfits, hempty, List.isEmpty_nil, hidle, decide_false, Bool.not_true, Bool.or_self,
    Bool.false_eq_true, if_false]

theorem bufPoolConfig_stages (hpool : par h 0 1 < u.qdm.pools.length) (hz : parZero h 1 3 = true) (hwarn : par h 8 4 < par h 4 4)
    (hwarn' : par h 12 4 < par h 8 4) (hpos : 0 < par h 12 4)
    (hroom : 8 * par h 16 4 + par h 20 4 + par h 24 4 ≤ (pool (par h 0 1) u).count / 2) :
    bufPoolConfig h u = staged [] (.pool (par h 0 1) {
      warn1 := par h 4 4, warn2 := par h 8 4, warn3 := par h 12 4,
      resLg := par h 16 4, resEgress := par h 20 4, resHost := par h 24 4 }) u := by
  simp only [bufPoolConfig, Nat.not_le.mpr hpool, hz, hwarn, hwarn', hpos, Nat.not_lt.mpr hroom, decide_true, decide_false, Bool.and_self,
    Bool.not_true, Bool.or_self, Bool.false_eq_true, if_false]

/-! ### Samplers and punt queues -/

/-- The sampler that the parameters of `sampler.config` describe (R259). -/
def samplerFrom (h : HeldCmd) : SamplerCfg := { mode := par h 2 1, reason := par h 3 1, n := par h 4 4, truncate := par h 8 2 }

/-- The parameters of `sampler.config` are well formed (R259). -/
structure SamplerFormed (h : HeldCmd) : Prop where
  sampler : par h 0 2 ≤ 4095
  mode : par h 2 1 ≤ 1
  reason : par h 3 1 = 24 ∨ 64 ≤ par h 3 1
  periodMin : 1 ≤ par h 4 4
  periodMax : par h 4 4 ≤ 16777216
  truncateMin : 64 ≤ par h 8 2
  truncateMax : par h 8 2 ≤ 512
  whole : par h 8 2 % 64 = 0
  reserved : parZero h 10 2 = true

theorem samplerConfig_stages (hform : SamplerFormed h) :
    samplerConfig h u = staged [] (.sampler (par h 0 2) (samplerFrom h)) u := by
  obtain ⟨hnum, hmode, hreason, hmin, hmax, htmin, htmax, hwhole, hz⟩ := hform
  have hcode : (par h 3 1 != 24 && decide (par h 3 1 < 64)) = false := by
    rcases hreason with hexact | huser
    · simp [hexact]
    · simp [Nat.not_lt.mpr huser]
  simp only [samplerConfig, samplerFrom, Nat.not_lt.mpr hnum, Nat.not_lt.mpr hmode, hcode, Nat.not_lt.mpr hmin, Nat.not_lt.mpr hmax,
    Nat.not_lt.mpr htmin, Nat.not_lt.mpr htmax, hwhole, bne_self_eq_false, hz, decide_false, Bool.not_true, Bool.or_self,
    Bool.false_eq_true, if_false]

theorem puntQueueConfig_stages (hqueue : par h 0 2 ≤ 4095) (hz : parZero h 2 2 = true) (hwhole : par h 4 4 % 256 = 0)
    (hmin : 65536 ≤ par h 4 4) (hmax : par h 4 4 ≤ 67108864) :
    puntQueueConfig h u = staged [] (.puntLimit (par h 0 2) (par h 4 4)) u := by
  simp [puntQueueConfig, Nat.not_lt.mpr hqueue, hz, hwhole, Nat.not_lt.mpr hmin, Nat.not_lt.mpr hmax]

/-! ### Queries -/

/-- The answer ends with the time stamp of the queue's first packet, zero for an empty queue (Table 07-13). -/
theorem voqQuery_answers (hv : par h 0 4 < 524288) : ∃ ts, voqQuery h u = .done St.ok
    (le 1 (if (destOf u.cfg (par h 0 4)).isNone then 0 else if (voq (par h 0 4) u).spilled then 2 else 1) ++
      le 1 (voqProfileNo (par h 0 4) u) ++ zeros 2 ++ le 4 (voqAll (voq (par h 0 4) u)).length ++ le 8 (onDie (voq (par h 0 4) u)) ++
      le 8 ((voq (par h 0 4) u).segEnd - (voq (par h 0 4) u).segStart) ++ le 4 (nsOf ts) ++ le 4 (secOf ts)) u := by
  refine ⟨((voqAll (voq (par h 0 4) u)).head?.map (·.ts)).getD 0, ?_⟩
  simp only [voqQuery, Nat.not_le.mpr hv, if_false]
end

/-- Settles O9: each command's own rules, once nothing of its form is refused, in the shape of its verdict. -/
theorem queueCommandsComplete : Obligations.QueueCommandsComplete := by
  unfold Obligations.QueueCommandsComplete
  refine ⟨fun c s u ha hform hlists hset => ?_, fun c s u ha hz hdest => ?_,
    fun c s u curve ha hcurve hflags hz hwhole hkeep hlow hhigh hondie htail hdepths hprobs hpoints => ?_,
    fun c s u l ha hl hlist hmin hmax hlen hkind hdiffer => ?_, fun c s u l ha hl hmax hz hlen htargets hset hroom => ?_,
    fun c s u ha hz hlist hunnamed => ?_,
    fun c s u ps ha hps hmin hmax hz hlen hrising hpools hlast hfits hempty hlinks => ?_,
    fun c s u ha hpool hz hwarn hwarn' hpos hroom => ?_,
    fun c s u ha hnum hmode hreason hmin hmax htmin htmax hwhole hz => ?_,
    fun c s u ha hqueue hz hwhole hmin hmax => ?_, fun c s u ha hv => ?_, fun c s u ha => ?_⟩
  · exact stages_of (spec := specVoqDestSet) ha rfl rfl (voqDestSet_stages (h := heldOf 0x0601 c) hform hlists hset)
  · exact stages_of (spec := specVoqDestDelete) ha rfl rfl (voqDestDelete_stages (h := heldOf 0x0602 c) hz hdest)
  · subst hcurve
    exact stages_of (spec := specVoqProfileSet) ha rfl rfl (voqProfileSet_stages (h := heldOf 0x0603 c)
      ⟨hflags, hz, hwhole, hkeep, hlow, hhigh, hondie, htail, hdepths, hprobs, hpoints⟩)
  · exact stages_of (spec := specVoqEplistSet) ha rfl rfl
      (voqEplistSet_stages (h := heldOf 0x0604 c) hl hlist hmin hmax hlen hkind hdiffer)
  · exact stages_of (spec := specPealListSet) ha rfl rfl
      (pealListSet_stages (h := heldOf 0x0605 c) hl hmax hz hlen htargets hset hroom)
  · exact stages_of (spec := specPealListDelete) ha rfl rfl (pealListDelete_stages (h := heldOf 0x0606 c) hz hlist hunnamed)
  · subst hps
    exact effects_of (spec := specBufPoolLayout) ha rfl rfl (bufPoolLayout_lays (h := heldOf 0x0607 c)
      ⟨hmin, hmax, hz, hlen, hrising, hpools, hlast, hfits⟩ hempty hlinks)
  · exact stages_of (spec := specBufPoolConfig) ha rfl rfl
      (bufPoolConfig_stages (h := heldOf 0x0608 c) hpool hz hwarn hwarn' hpos hroom)
  · exact stages_of (spec := specSamplerConfig) ha rfl rfl (samplerConfig_stages (h := heldOf 0x0609 c)
      ⟨hnum, hmode, hreason, hmin, hmax, htmin, htmax, hwhole, hz⟩)
  · exact stages_of (spec := specPuntQueueConfig) ha rfl rfl
      (puntQueueConfig_stages (h := heldOf 0x060A c) hqueue hz hwhole hmin hmax)
  · obtain ⟨ts, hb⟩ := voqQuery_answers (h := heldOf 0x060B c) (u := u) hv
    exact ⟨ts, queries_of (spec := specVoqQuery) ha rfl rfl hb⟩
  · exact queries_of (spec := specBufStatus) ha rfl rfl rfl

end Sys2Proof.Proofs
end

section
/-! SUPPORT. The scheduler, gate, credit and policer commands' own rules (R270 to R272, R278, R281, R292 to R294, R297, R298). -/

namespace Sys2Proof.Proofs
open Sys2Proof Sys2Proof.Machine Sys2Proof.Laws

section
variable {h : HeldCmd} {u : State}

/-! ### Ports and nodes -/

theorem schedPortConfig_stages (hmac : hasMac (par h 0 2) u = true) (hz : parZero h 2 2 = true) (hrate : rateOk (par h 4 4) = true)
    (hburst : par h 8 4 ≤ 16777215) (hover : Machine.overheadOk (par h 12 1) = true) (hz' : parZero h 13 3 = true) :
    schedPortConfig h u =
      staged [] (.portSched (par h 0 2) { rate := par h 4 4, burst := par h 8 4, overhead := signed 8 (par h 12 1) }) u := by
  simp [schedPortConfig, hmac, hz, hrate, Nat.not_lt.mpr hburst, hover, hz']

/-- A new node leaves no other port, so that only its form, its parent and, for a leaf queue, its quarantine could refuse it (R271). -/
theorem schedNodeSet_stages (hform : nodeBad h = false) (hparent : parentNext (par h 0 1) (par h 8 4) u = true)
    (hnew : nodeIn (nextConf u) (par h 0 1) (par h 4 4) = none) (hset : par h 0 1 = 3 → setRefused 4 (par h 4 4) u = none) :
    schedNodeSet h u = staged [] (nodeChange (par h 0 1) (par h 4 4) (some (nodeParam h))) u := by
  have hparent' : parentNext (par h 0 1) (nodeParam h).parent u = true := hparent
  have hfree : (par h 0 1 == 3 && (setRefused 4 (par h 4 4) u).isSome) = false := by
    simpa using hset
  simp only [schedNodeSet, hform, hparent', hnew, Option.any_none, hfree, Bool.not_true, Bool.false_eq_true, if_false]

/-- A node without a child, or a leaf queue that nothing names, is removed (R272). -/
theorem schedNodeDelete_stages {n : SchedNode} (hmin : 1 ≤ par h 0 1) (hmax : par h 0 1 ≤ 3) (hz : parZero h 1 3 = true)
    (hnum : par h 4 4 < nodeCount (par h 0 1)) (hnode : nodeIn (nextConf u) (par h 0 1) (par h 4 4) = some n)
    (hchild : par h 0 1 < 3 → hasChild (par h 0 1) (par h 4 4) u = false) (hnamed : par h 0 1 = 3 → leafNamed (par h 4 4) u = false) :
    schedNodeDelete h u = staged [] (nodeChange (par h 0 1) (par h 4 4) none) u := by
  have hbarren : (decide (par h 0 1 < 3) && hasChild (par h 0 1) (par h 4 4) u) = false := by simpa using hchild
  have hunnamed : (par h 0 1 == 3 && leafNamed (par h 4 4) u) = false := by simpa using hnamed
  simp only [schedNodeDelete, Nat.not_lt.mpr hmin, Nat.not_lt.mpr hmax, hz, Nat.not_le.mpr hnum, hnode, Option.isNone_some, hbarren, hunnamed,
    decide_false, Bool.not_true, Bool.or_self, Bool.false_eq_true, if_false]

/-! ### Gate lists -/

/-- The entries of a gate list of `n` in the data operand: INTERVAL and GATES of each (Table 08-4). -/
def gateEntries (n : Nat) (b : List Byte) : List (Nat × Nat) := (List.range n).map (fun k => (rd b (8 * k) 4, rd b (8 * k + 4) 1))

/-- The gate list that the parameters and the data of `gate.list.set` describe; a LEAD of 0 selects 1,000 ns (Table 08-3; log 34). -/
def gateListFrom (h : HeldCmd) (b : List Byte) : GateList :=
  { cycle := par h 4 4, base := par h 8 8 * 1000000000 + par h 16 4, lead := if par h 20 4 = 0 then 1000 else par h 20 4,
    guards := (List.range 8).map (fun k => par h (24 + 4 * k) 4), entries := gateEntries (par h 2 2) b }

/-- The parameters of `gate.list.set` are within their ranges (Table 08-3). -/
structure GateListFormed (h : HeldCmd) : Prop where
  countMin : 1 ≤ par h 2 2
  countMax : par h 2 2 ≤ 256
  cycleMin : 10000 ≤ par h 4 4
  cycleMax : par h 4 4 ≤ 1000000000
  seconds : par h 8 8 < 281474976710656
  nanoseconds : par h 16 4 ≤ 999999999
  lead : par h 20 4 ≤ 100000
  guards : ∀ k < 8, par h (24 + 4 * k) 4 ≤ 1000000

/-- The entries of a gate list are well formed: nothing in their reserved bytes, none below 100 ns, and all together one cycle (R281). -/
structure GateEntriesFormed (h : HeldCmd) (b : List Byte) : Prop where
  reserved : ∀ k < par h 2 2, rd b (8 * k + 5) 3 = 0
  durations : ∀ e ∈ gateEntries (par h 2 2) b, 100 ≤ e.1
  total : (gateEntries (par h 2 2) b).foldl (fun a e => a + e.1) 0 = par h 4 4

theorem gateListSet_stages {b : List Byte} (hform : GateListFormed h) (hmac : hasMac (par h 0 2) u = true) (hdata : h.data = some b)
    (hentries : GateEntriesFormed h b) : gateListSet h u = staged [] (.gateList (par h 0 2) (some (gateListFrom h b))) u := by
  obtain ⟨hmin, hmax, hcmin, hcmax, hsec, hns, hlead, hguards⟩ := hform
  obtain ⟨hz, hdurations, htotal⟩ := hentries
  have hguard : ((List.range 8).map (fun k => par h (24 + 4 * k) 4)).any (fun g => 1000000 < g) = false := by
    refine List.any_eq_false.mpr fun g hg => ?_
    obtain ⟨k, hk, rfl⟩ := List.mem_map.mp hg
    simpa using hguards k (List.mem_range.mp hk)
  have hreserved : (List.range (par h 2 2)).any (fun k => rd b (8 * k + 5) 3 != 0) = false :=
    List.any_eq_false.mpr fun k hk => by simp [hz k (List.mem_range.mp hk)]
  have hlong : (gateEntries (par h 2 2) b).any (fun e => e.1 < 100) = false :=
    List.any_eq_false.mpr fun e he => by simp [Nat.not_lt.mpr (hdurations e he)]
  unfold gateEntries at hlong htotal
  simp only [gateListSet, gateListFrom, gateEntries, Nat.not_lt.mpr hmin, Nat.not_lt.mpr hmax, Nat.not_lt.mpr hcmin, Nat.not_lt.mpr hcmax,
    Nat.not_le.mpr hsec, Nat.not_lt.mpr hns, Nat.not_lt.mpr hlead, hguard, hmac, hdata, hreserved, hlong, htotal, bne_self_eq_false,
    decide_false, Bool.not_true, Bool.or_self, Bool.false_eq_true, if_false]

theorem gateListClear_stages (hz : parZero h 2 2 = true) (hport : destEncoded (par h 0 2) = true)
    (hlist : liveOrStaged (fun g => ahas g.gateLists (par h 0 2)) u = true) :
    gateListClear h u = staged [] (.gateList (par h 0 2) none) u := by
  simp [gateListClear, hz, hport, hlist]

/-! ### Credit -/

/-- A size of 0 selects 4,096 bytes and a ratio of 0 selects 1,056 (R292). -/
theorem creditConfig_stages {b r : Nat} (hb : b = if par h 0 4 = 0 then 4096 else par h 0 4)
    (hr : r = if par h 4 2 = 0 then 1056 else par h 4 2) (hwhole : b % 256 = 0) (hbmin : 256 ≤ b) (hbmax : b ≤ 65536) (hrmin : 1024 ≤ r)
    (hrmax : r ≤ 1280) (hz : parZero h 6 2 = true) : creditConfig h u = staged [] (.credit b r) u := by
  simp only [creditConfig, ← hb, ← hr, hwhole, bne_self_eq_false, Nat.not_lt.mpr hbmin, Nat.not_lt.mpr hbmax, Nat.not_lt.mpr hrmin,
    Nat.not_lt.mpr hrmax, hz, decide_false, Bool.not_true, Bool.or_self, Bool.false_eq_true, if_false]

/-- The destination is a PEAL_RX destination of this package in the next epoch (R293). -/
theorem creditPealSet_stages {d : Dest} (hz : parZero h 2 2 = true) (hdest : aget (nextConf u).dests (par h 0 2) = some d)
    (hkind : d.kind = 2) (hhere : d.endpoint = u.fab.endpoint) :
    creditPealSet h u = staged [] (.creditPeal (par h 0 2) ((List.range 8).map (fun k => par h (4 + 4 * k) 4))) u := by
  simp [creditPealSet, hz, hdest, hkind, hhere]

/-! ### Policers -/

/-- BURST as `policer.config` takes it: 0 selects one packet, or 64 bytes in byte mode (Table 08-7). -/
def burstFrom (h : HeldCmd) : Nat := if par h 12 4 = 0 then (if bit (par h 4 1) 1 = 1 then 1 else 64) else par h 12 4

/-- The parameters of `policer.config` are within their ranges, which depend on the mode (Table 08-7). -/
structure PolicerFormed (h : HeldCmd) : Prop where
  policer : par h 0 4 < 524288
  flags : par h 4 1 ≤ 3
  overhead : Machine.overheadOk (par h 5 1) = true
  reserved : parZero h 6 2 = true
  rate : par h 8 4 ≤ if bit (par h 4 1) 1 = 1 then 2000000000 else 4000000000
  burstMax : burstFrom h ≤ 16777215
  burstMin : bit (par h 4 1) 1 = 0 → 64 ≤ burstFrom h

theorem policerConfig_stages (hform : PolicerFormed h) : policerConfig h u =
    staged [] (.policer (par h 0 4) { flags := par h 4 1, overhead := signed 8 (par h 5 1), rate := par h 8 4, burst := burstFrom h }) u := by
  obtain ⟨hnum, hflags, hover, hz, hrate, hmax, hmin⟩ := hform
  have hburst : (!(bit (par h 4 1) 1 == 1) && decide (burstFrom h < 64)) = false := by
    by_cases hpackets : bit (par h 4 1) 1 = 1
    · simp [hpackets]
    · simp [Nat.not_lt.mpr (hmin (Nat.mod_two_ne_one.mp hpackets))]
  unfold burstFrom at hmax hburst
  simp only [policerConfig, burstFrom, beq_iff_eq, Nat.not_le.mpr hnum, Nat.not_lt.mpr hflags, hover, hz, Nat.not_lt.mpr hrate,
    Nat.not_lt.mpr hmax, hburst, decide_false, Bool.not_true, Bool.or_self, Bool.false_eq_true, if_false]

/-! ### Queries -/

/-- The answer begins with the node's settings; its rate, its eligibility, its credit and its queue follow (Table 08-11). -/
theorem schedQuery_answers {x : SchedNode} (hlevel : par h 0 1 ≤ 3) (hz : parZero h 1 3 = true)
    (hport : par h 0 1 = 0 → destEncoded (par h 4 4) = true) (hnum : par h 0 1 ≠ 0 → par h 4 4 < nodeCount (par h 0 1))
    (hnode : nodeKnown (par h 0 1) (par h 4 4) u = some x) : ∃ rest : List Byte,
    schedQuery h u = .done St.ok (nodeSettings (par h 0 1) (par h 4 4) x ++ rest) u := by
  have hrange : (if par h 0 1 = 0 then !destEncoded (par h 4 4) else decide (nodeCount (par h 0 1) ≤ par h 4 4)) = false := by
    split
    case isTrue hzero => simp [hport hzero]
    case isFalse hpos => simp [hnum hpos]
  simp only [schedQuery, Nat.not_lt.mpr hlevel, hz, hrange, hnode, decide_false, Bool.not_true, Bool.or_self, Bool.false_eq_true, if_false,
    List.append_assoc]
  exact ⟨_, rfl⟩

/-- The answer gives the bucket's level in parts of 256 of a byte or packet, and the policer's four counters (R297). -/
theorem policerQuery_answers (hnum : par h 0 4 < 524288) : ∃ level : Nat, policerQuery h u = .done St.ok
    (le 4 (par h 0 4) ++ le 1 (policerOf u.cfg (par h 0 4)).flags ++ le 1 (unsignedOf 8 (policerOf u.cfg (par h 0 4)).overhead) ++ zeros 2 ++
      le 4 (policerOf u.cfg (par h 0 4)).rate ++ le 4 (policerOf u.cfg (par h 0 4)).burst ++ le 8 level ++
      (List.range 4).flatMap (fun k => le 8 (ctr (ctrId 26 (par h 0 4) k) u))) u := by
  refine ⟨(policerNow (par h 0 4) u).level * 256 / policerUnit (policerOf u.cfg (par h 0 4)), ?_⟩
  simp only [policerQuery, Nat.not_le.mpr hnum, if_false]
end

/-- Settles O10: each command's own rules, once nothing of its form is refused, in the shape of its verdict. -/
theorem schedulerCommandsComplete : Obligations.SchedulerCommandsComplete := by
  unfold Obligations.SchedulerCommandsComplete
  refine ⟨fun c s u ha hmac hz hrate hburst hover hz' => ?_, fun c s u ha hform hparent hnew hset => ?_,
    fun c s u n ha hmin hmax hz hnum hnode hchild hnamed => ?_,
    fun c s u b es ha hmin hmax hcmin hcmax hsec hns hlead hguards hmac hdata hz hes hdurations htotal => ?_,
    fun c s u ha hz hport hlist => ?_, fun c s u b r ha hb hr hwhole hbmin hbmax hrmin hrmax hz => ?_,
    fun c s u d ha hz hdest hkind hhere => ?_, fun c s u b ha hb hnum hflags hover hz hrate hmax hmin => ?_,
    fun c s u x ha hlevel hz hport hnum hnode => ?_, fun c s u ha hnum => ?_⟩
  · exact stages_of (spec := specSchedPortConfig) ha rfl rfl
      (schedPortConfig_stages (h := heldOf 0x0701 c) hmac hz hrate hburst hover hz')
  · exact stages_of (spec := specSchedNodeSet) ha rfl rfl (schedNodeSet_stages (h := heldOf 0x0702 c) hform hparent hnew hset)
  · exact stages_of (spec := specSchedNodeDelete) ha rfl rfl
      (schedNodeDelete_stages (h := heldOf 0x0703 c) hmin hmax hz hnum hnode hchild hnamed)
  · subst hes
    exact stages_of (spec := specGateListSet) ha rfl rfl (gateListSet_stages (h := heldOf 0x0706 c)
      ⟨hmin, hmax, hcmin, hcmax, hsec, hns, hlead, hguards⟩ hmac hdata ⟨hz, hdurations, htotal⟩)
  · exact stages_of (spec := specGateListClear) ha rfl rfl (gateListClear_stages (h := heldOf 0x0707 c) hz hport hlist)
  · exact stages_of (spec := specCreditConfig) ha rfl rfl
      (creditConfig_stages (h := heldOf 0x0708 c) hb hr hwhole hbmin hbmax hrmin hrmax hz)
  · exact stages_of (spec := specCreditPealSet) ha rfl rfl (creditPealSet_stages (h := heldOf 0x0709 c) hz hdest hkind hhere)
  · subst hb
    exact stages_of (spec := specPolicerConfig) ha rfl rfl (policerConfig_stages (h := heldOf 0x070A c)
      ⟨hnum, hflags, hover, hz, hrate, hmax, hmin⟩)
  · obtain ⟨rest, hb⟩ := schedQuery_answers (h := heldOf 0x070B c) hlevel hz hport hnum hnode
    exact ⟨rest, queries_of (spec := specSchedQuery) ha rfl rfl hb⟩
  · obtain ⟨level, hb⟩ := policerQuery_answers (h := heldOf 0x070C c) (u := u) hnum
    exact ⟨level, queries_of (spec := specPolicerQuery) ha rfl rfl hb⟩

end Sys2Proof.Proofs
end

section
/-! SUPPORT. The fabric commands' own rules (R301, R302, R319), and a GRANT of a VOQ that does not exist (R318). -/

namespace Sys2Proof.Proofs
open Sys2Proof Sys2Proof.Machine Sys2Proof.Laws

/-! ### The settings -/

section
variable {h : HeldCmd} {u : State}

/-- The state with the settings of `fabric.config` written (Table 09-1). -/
def fabricSet (h : HeldCmd) (u : State) : State :=
  { u with fab := { u.fab with
    mode := par h 0 1, dual := par h 1 1, endpoint := par h 2 2, systemId := par h 4 4, laneEnable := par h 8 14, planeB := par h 24 14 } }

/-- The parameters of `fabric.config` are within their ranges (R301). -/
structure FabricFormed (h : HeldCmd) : Prop where
  mode : par h 0 1 ≤ 2
  endpoint : par h 2 2 < 4096
  reserved : parZero h 22 2 = true
  reserved' : parZero h 38 2 = true

/-- A fabric in use keeps its mode, its endpoint and its system: only the way through OFF changes them (R301). -/
def fabricFree (h : HeldCmd) (u : State) : Prop :=
  u.fab.mode = 0 ∨ par h 0 1 = 0 ∨ (par h 0 1 = u.fab.mode ∧ par h 2 2 = u.fab.endpoint ∧ par h 4 4 = u.fab.systemId)

theorem fabricFree_not_busy (hfree : fabricFree h u) :
    (u.fab.mode != 0 && par h 0 1 != 0 &&
      (par h 0 1 != u.fab.mode || par h 2 2 != u.fab.endpoint || par h 4 4 != u.fab.systemId)) = false := by
  obtain hoff | hoff | ⟨hmode, hep, hsys⟩ := hfree
  · simp [hoff]
  · simp [hoff]
  · simp [hmode, hep, hsys]

/-- The lanes are brought to the settings, after a new endpoint has dropped what stood under the old one. -/
theorem fabricConfig_applies (hform : FabricFormed h) (hfree : fabricFree h u) :
    fabricConfig h u = .done St.ok [] (lookReach (applyLanes u.fab.planeB (par h 0 1 != u.fab.mode)
      (if par h 2 2 = u.fab.endpoint then fabricSet h u else changeEndpoint (fabricSet h u)))) := by
  obtain ⟨hmode, hep, hz, hz'⟩ := hform
  simp only [fabricConfig, fabricSet, Nat.not_lt.mpr hmode, Nat.not_le.mpr hep, hz, hz', fabricFree_not_busy hfree, decide_false,
    Bool.not_true, Bool.or_self, Bool.false_eq_true, if_false]

theorem fabricConfig_keeps_endpoint (hform : FabricFormed h) (hep : par h 2 2 = u.fab.endpoint)
    (hfree : u.fab.mode = 0 ∨ par h 0 1 = 0 ∨ (par h 0 1 = u.fab.mode ∧ par h 4 4 = u.fab.systemId)) :
    fabricConfig h u =
      .done St.ok [] (lookReach (applyLanes u.fab.planeB (par h 0 1 != u.fab.mode) (fabricSet h u))) := by
  rw [fabricConfig_applies hform (hfree.imp_right (.imp_right fun ⟨hmode, hsys⟩ => ⟨hmode, hep, hsys⟩)), if_pos hep]

theorem fabricConfig_changes_endpoint (hform : FabricFormed h) (hep : par h 2 2 ≠ u.fab.endpoint)
    (hfree : u.fab.mode = 0 ∨ par h 0 1 = 0) :
    fabricConfig h u =
      .done St.ok [] (lookReach (applyLanes u.fab.planeB (par h 0 1 != u.fab.mode) (changeEndpoint (fabricSet h u)))) := by
  rw [fabricConfig_applies hform (hfree.imp_right .inl), if_neg hep]

/-! ### Queries -/

theorem zeros_length (n : Nat) : (zeros n).length = n := List.length_replicate

/-- The answer begins with FAB_STATUS; the endpoint's reachability and the lanes to it follow (R319). -/
theorem fabricQuery_answers (hep : par h 0 2 < 4096) (hz : parZero h 2 2 = true) : ∃ rest : List Byte, rest.length = 20 ∧
    fabricQuery h u = .done St.ok (le 4 (fabStatus u) ++ rest) u := by
  simp only [fabricQuery, Nat.not_le.mpr hep, hz, decide_false, Bool.not_true, Bool.or_self, Bool.false_eq_true, if_false, List.append_assoc]
  exact ⟨_, by simp only [List.length_append, le_length, zeros_length], rfl⟩

/-- The answer begins with FAB_LANE_STATUS and FAB_LANE_PEER; the map of the endpoints that the lane reaches ends it (Table 09-15). -/
theorem fabricLaneQuery_answers (hlane : par h 0 1 < 112) (hz : parZero h 1 3 = true) : ∃ rest : List Byte, rest.length = 520 ∧
    fabricLaneQuery h u =
      .done St.ok (le 4 (laneStatus (par h 0 1) u) ++ le 4 (lanePeerWord (par h 0 1) u) ++ rest) u := by
  simp only [fabricLaneQuery, Nat.not_le.mpr hlane, hz, decide_false, Bool.not_true, Bool.or_self, Bool.false_eq_true, if_false,
    List.append_assoc]
  exact ⟨_, by simp only [List.length_append, le_length, zeros_length], rfl⟩
end

/-- Settles O11: each command's own rules, once nothing of its form is refused, in the shape of its verdict. -/
theorem fabricCommandsComplete : Obligations.FabricCommandsComplete := by
  unfold Obligations.FabricCommandsComplete
  refine ⟨fun c s u ha hmode hnum hz hz' hep hfree => ?_, fun c s u ha hmode hnum hz hz' hep hfree => ?_, fun c s u ha hep hz => ?_,
    fun c s u ha hlane hz => ?_⟩
  · exact effects_of (spec := specFabricConfig) ha rfl rfl
      (fabricConfig_keeps_endpoint (h := heldOf 0x0801 c) ⟨hmode, hnum, hz, hz'⟩ hep hfree)
  · exact effects_of (spec := specFabricConfig) ha rfl rfl
      (fabricConfig_changes_endpoint (h := heldOf 0x0801 c) ⟨hmode, hnum, hz, hz'⟩ hep hfree)
  · obtain ⟨rest, hlen, hb⟩ := fabricQuery_answers (h := heldOf 0x0802 c) (u := u) hep hz
    exact ⟨rest, hlen, queries_of (spec := specFabricQuery) ha rfl rfl hb⟩
  · obtain ⟨rest, hlen, hb⟩ := fabricLaneQuery_answers (h := heldOf 0x0803 c) (u := u) hlane hz
    exact ⟨rest, hlen, queries_of (spec := specFabricLaneQuery) ha rfl rfl hb⟩

/-! ### A GRANT on a lane in UP -/

section
variable {lane typ : Nat} {unit : List Byte} {s : State}

/-- A lane that has taken a header that checks: its failures are forgotten and its search is over (R306). -/
def headerSeen (lane : Nat) (s : State) : State := updLane lane (fun l => { l with failures := 0, search := none }) s

@[simp] theorem headerSeen_endpoint : (headerSeen lane s).fab.endpoint = s.fab.endpoint := rfl

@[simp] theorem voqExists_headerSeen (v : Nat) : voqExists v (headerSeen lane s) = voqExists v s := rfl

/-- A lane in UP gives the row a unit of its TYPE whose header checks. -/
theorem unitArrives_up (hlane : lane < 112) (hup : (fabLane lane s).state = .up) (hgood : headerGood unit = true)
    (htyp : hdr unit 127 124 = typ) : unitArrives lane typ unit s = (true, headerSeen lane s) := by
  simp [unitArrives, headerSeen, Nat.ne_of_lt hlane, hup, hgood, htyp]

theorem onUnit_up {act : List Byte → State → State} (hlane : lane < 112) (hup : (fabLane lane s).state = .up)
    (hgood : headerGood unit = true) (htyp : hdr unit 127 124 = typ) :
    onUnit lane typ unit act s = .next (act unit (headerSeen lane s)) := by
  simp only [onUnit, unitArrives_up hlane hup hgood htyp, if_true]

/-- A unit of credit is 256 bytes, and UNITS 0 stands for 256 of them (Table 09-9). -/
theorem grantBytes_eq (units : Nat) : (if units = 0 then 65536 else units * 256) = (if units = 0 then 256 else units) * 256 := by
  split <;> rfl

/-- A GRANT for this endpoint whose VOQ does not exist counts its bytes and touches no balance. -/
theorem onGrant_unused {v n : Nat} (hgrant : hdr unit 123 123 = 0) (hhere : hdr unit 111 100 = s.fab.endpoint)
    (hv : v = hdr unit 87 72 * 8 + hdr unit 122 120) (hnone : voqExists v s = false)
    (hn : n = (if hdr unit 119 112 = 0 then 256 else hdr unit 119 112) * 256) : onGrant unit s = bump (fabCtr 0x140) n s := by
  rw [← grantBytes_eq] at hn
  simp [onGrant, hgrant, hhere, ← hv, hnone, ← hn]
end

/-- Settles O45: the lane gives the GRANT to its row, which finds no VOQ to credit; taking the header changes neither the VOQs nor the
endpoint. -/
theorem grantOfMissingVoqIsCounted : Obligations.GrantOfMissingVoqIsCounted := by
  unfold Obligations.GrantOfMissingVoqIsCounted
  intro lane u s v n hlane hup hgood htyp hgrant hhere hv hnone hn
  calc exec (.grant lane u) s
      = onUnit lane 3 u onGrant s := rfl
    _ = .next (onGrant u (headerSeen lane s)) := onUnit_up hlane hup hgood htyp
    _ = .next (bump (fabCtr 0x140) n (headerSeen lane s)) :=
        congrArg _ (onGrant_unused hgrant hhere hv ((voqExists_headerSeen v).trans hnone) hn)

end Sys2Proof.Proofs
end

section
/-! SUPPORT. Host memory: the one write of a part-written entry (R350), and the bytes that taking a command and ending it store to (R351, R383,
R386). -/

namespace Sys2Proof.Proofs
open Sys2Proof Sys2Proof.Machine Sys2Proof.Laws

/-! ### One write -/

theorem memRead_hostWrite_outside {a b : Nat} {bs : List Byte} {s : State} (h : ∀ k < bs.length, a ≠ b + k) :
    memRead (hostWrite b bs s).hostMem a = memRead s.hostMem a := by
  refine memRead_memWrite_outside bs ?_
  by_cases hlt : a < b
  · exact .inl hlt
  · exact .inr (Nat.le_of_not_lt fun hin => h (a - b) (by omega) (by omega))

section
variable {r : Nat} {x : Ring} {s : State}

/-- The part-written entry of a ring whose function has index blocks and may issue requests is one write (R350). -/
theorem publish_writes (hx : ring? r s = some x) (hv : (pciFn x.fn s).indexValid = true) (hb : (pciFn x.fn s).busMaster = true) :
    publish r s = hostWrite ((pciFn x.fn s).pib + (pciFn x.fn s).stride * r) (indexEntry x) s := by
  simp [publish, hx, hv, hb]

/-- An address outside a ring's part-written entry reads as before, whether the entry is written or waits. -/
theorem memRead_publish_outside {a : Nat}
    (h : ∀ x, ring? r s = some x → ∀ k < 8, a ≠ (pciFn x.fn s).pib + (pciFn x.fn s).stride * r + k) :
    memRead (publish r s).hostMem a = memRead s.hostMem a := by
  unfold publish
  split
  case h_1 => rfl
  case h_2 x hx =>
    dsimp only
    split
    case isTrue => exact memRead_hostWrite_outside (by simpa only [indexEntry_length] using h x hx)
    case isFalse => rfl

theorem ring?_updRing (r : Nat) (f : Ring → Ring) (s : State) : ring? r (updRing r f s) = (ring? r s).map f := by
  simp only [ring?, updRing, aget_aupd, if_true]
end

/-- Settles O51: the entry is written by one write of eight bytes, and a write changes the bytes it covers and host memory alone. -/
theorem partWrittenEntryIsOneWrite : Obligations.PartWrittenEntryIsOneWrite := by
  unfold Obligations.PartWrittenEntryIsOneWrite
  intro r x s hx hv hb
  refine ⟨indexEntry_length x, fun k hk => ?_, fun a ha => ?_, ?_⟩
  · rw [publish_writes hx hv hb]
    exact memRead_memWrite_inside (indexEntry x) (by rwa [indexEntry_length])
  · rw [publish_writes hx hv hb]
    exact memRead_hostWrite_outside (by rwa [indexEntry_length])
  · rw [publish_writes hx hv hb]
    rfl

/-! ### Taking a command -/

/-- Consuming a descriptor writes at most the part-written entry of its ring. -/
theorem memRead_consume_outside {a r : Nat} {s : State}
    (h : ∀ x, ring? r s = some x → ∀ k < 8, a ≠ (pciFn x.fn s).pib + (pciFn x.fn s).stride * r + k) :
    memRead (consume r s).hostMem a = memRead s.hostMem a := by
  refine memRead_publish_outside fun y hy => ?_
  rw [ring?_updRing] at hy
  obtain ⟨x, hx, rfl⟩ := Option.map_eq_some_iff.mp hy
  exact h x hx

theorem taken_fromRing (op : Nat) {c : Cmd} (s : State) (h : c.source ≤ 1) :
    (taken op c s).hostMem = (consume c.origin s).hostMem := by
  obtain ⟨w, hw⟩ := windowRunning_shape (heldOf op c) (consumeCmd (heldOf op c) (arrived op c s))
  have harr : arrived op c s = s := if_pos h
  have hcons : consumeCmd (heldOf op c) s = consume c.origin s := if_pos h
  rw [taken, hw, harr, hcons]

theorem taken_fromElsewhere (op : Nat) {c : Cmd} (s : State) (h : ¬ c.source ≤ 1) : (taken op c s).hostMem = s.hostMem := by
  obtain ⟨w, hw⟩ := windowRunning_shape (heldOf op c) (consumeCmd (heldOf op c) (arrived op c s))
  obtain ⟨_, _, _, _, harr⟩ := arrived_shape op c s
  have hcons : consumeCmd (heldOf op c) (arrived op c s) = arrived op c s := if_neg h
  rw [taken, hw, hcons, harr]

/-! ### What writes no host memory -/

theorem updFn_hostMem (n : Nat) (f : PciFn → PciFn) (s : State) : (updFn n f s).hostMem = s.hostMem := by
  unfold updFn
  split <;> rfl

theorem sendMsix_hostMem (n v : Nat) (s : State) : (sendMsix n v s).hostMem = s.hostMem := by
  unfold sendMsix
  split
  · rfl
  · exact (apply_ite State.hostMem _ _ _).trans (by rw [updFn_hostMem, emit_hostMem, ite_self])

theorem signalRing_hostMem (r : Nat) (s : State) : (signalRing r s).hostMem = s.hostMem := by
  unfold signalRing
  split
  · rfl
  · exact sendMsix_hostMem _ _ _

theorem moderate_hostMem (r : Nat) (s : State) : (moderate r s).hostMem = s.hostMem := by
  unfold moderate
  split
  · rfl
  · simp only [apply_ite State.hostMem, signalRing_hostMem, updRing_hostMem, ite_self]

theorem freeTs_hostMem (rec : List Byte) (s : State) : (freeTs rec s).hostMem = s.hostMem := by
  unfold freeTs
  split <;> rfl

theorem markDue_hostMem (n : Nat) (due : Due) (s : State) : (markDue n due s).hostMem = s.hostMem := by
  unfold markDue
  split <;> rfl

/-! ### Ending a command -/

/-- A record is one write of 32 bytes at the producer index, after which the ring's part-written entry is written (R351). -/
theorem memRead_writeRecord_outside {a r : Nat} {rec : List Byte} {s : State} {q : Ring} (hq : ring? r s = some q)
    (hrec : ∀ k < 32, a ≠ q.base + 32 * (q.partIndex % q.size) + k)
    (hent : ∀ k < 8, a ≠ (pciFn q.fn s).pib + (pciFn q.fn s).stride * r + k) :
    memRead (writeRecord r rec s).hostMem a = memRead s.hostMem a := by
  simp only [writeRecord, hq, moderate_hostMem]
  rw [memRead_publish_outside, updRing_hostMem, memRead_hostWrite_outside (by rwa [fit_length])]
  intro y hy
  rw [ring?_updRing, show ring? r (hostWrite _ _ s) = some q from hq] at hy
  obtain rfl := Option.some.inj hy
  exact hent

/-- A completion ring that has room and holds nothing back takes a record at once (R367). -/
theorem postCompletion_writes {r : Nat} {rec : List Byte} {s : State} {q : Ring} (hq : ring? r s = some q) (hheld : q.held = [])
    (hroom : canWrite q s = true) : postCompletion r rec s = freeTs rec (writeRecord r rec s) := by
  simp [postCompletion, hq, hheld, hroom]

/-- A DMA write changes host memory, or what its function holds back (R341); every ring stays. -/
theorem dmaWrite_shape (n b : Nat) (bs : List Byte) (s : State) :
    ∃ i m, dmaWrite n b bs s = { s with host := i, hostMem := m } ∧ i.rings = s.host.rings := by
  unfold dmaWrite updFn
  split
  · exact ⟨_, _, rfl, rfl⟩
  · split <;> exact ⟨_, _, rfl, rfl⟩

/-- It keeps every function's index blocks and Bus Master Enable. -/
theorem pciFn_dmaWrite (n b m : Nat) (bs : List Byte) (s : State) : (pciFn m (dmaWrite n b bs s)).pib = (pciFn m s).pib ∧
    (pciFn m (dmaWrite n b bs s)).stride = (pciFn m s).stride ∧ (pciFn m (dmaWrite n b bs s)).busMaster = (pciFn m s).busMaster := by
  unfold dmaWrite
  split
  · exact ⟨rfl, rfl, rfl⟩
  · unfold updFn pciFn
    split <;> split <;> exact ⟨rfl, rfl, rfl⟩

theorem ring?_dmaWrite (n b r : Nat) (bs : List Byte) (s : State) : ring? r (dmaWrite n b bs s) = ring? r s := by
  obtain ⟨i, m, hw, hrings⟩ := dmaWrite_shape n b bs s
  rw [hw, ring?, ring?, hrings]

theorem memRead_dmaWrite_outside {a n b : Nat} {bs : List Byte} {s : State} (h : ∀ k < bs.length, a ≠ b + k) :
    memRead (dmaWrite n b bs s).hostMem a = memRead s.hostMem a := by
  unfold dmaWrite
  split
  · exact memRead_hostWrite_outside h
  · rw [updFn_hostMem]

/-- A command that asks for no event ends with its answer, over a state that differs from its own in Teruo's records alone. -/
theorem finish_quiet {h : HeldCmd} {index status d0 d1 : Nat} {resp : List Byte} {eff : Bool} {t : State} (hf : bit h.flags 0 = 0) :
    ∃ m, finish h index status resp eff d0 d1 t = answer h (replyTo h t) index status resp { t with mgmt := m } := by
  cases hj : eff && !t.mgmt.rom <;> exact ⟨_, by simp only [finish, finishTo, hf, hj]; rfl⟩

/-- The answer to a ring's command is its response, then its record at the completion ring of its ring (R386). -/
theorem answer_toRing {h : HeldCmd} {index status : Nat} {resp : List Byte} {s t : State} {x q : Ring} (hs : h.source ≤ 1)
    (hx : ring? h.origin t = some x) (hq : ring? x.cq t = some q) (hst : s.host = t.host) : answer h (replyTo h t) index status resp s =
      postCompletion x.cq (completionBytes h index status resp.length s) (dmaWrite h.source h.respAddr (resp.take h.respLen) s) := by
  have hq' : ring? x.cq s = some q := by rw [ring?, hst]; exact hq
  simp [answer, replyTo, hs, hx, ringRef, hq, stands, hq']

/-- Such an answer reaches the response area, one record at the producer index and the completion ring's part-written entry. -/
theorem memRead_answer_outside {a : Nat} {h : HeldCmd} {index status : Nat} {resp : List Byte} {s t : State} {x q : Ring} (hs : h.source ≤ 1)
    (hx : ring? h.origin t = some x) (hq : ring? x.cq t = some q) (hheld : q.held = []) (hroom : canWrite q t = true)
    (hresp : ∀ k < min resp.length h.respLen, a ≠ h.respAddr + k) (hrec : ∀ k < 32, a ≠ q.base + 32 * (q.partIndex % q.size) + k)
    (hent : ∀ k < 8, a ≠ (pciFn q.fn t).pib + (pciFn q.fn t).stride * x.cq + k) (hst : s.host = t.host) :
    memRead (answer h (replyTo h t) index status resp s).hostMem a = memRead s.hostMem a := by
  have hfn : pciFn q.fn s = pciFn q.fn t := by rw [pciFn, pciFn, hst]
  obtain ⟨hpib, hstride, hbus⟩ := pciFn_dmaWrite h.source h.respAddr q.fn (resp.take h.respLen) s
  have hq' : ring? x.cq (dmaWrite h.source h.respAddr (resp.take h.respLen) s) = some q := by
    rw [ring?_dmaWrite, ring?, hst]
    exact hq
  have hroom' : canWrite q (dmaWrite h.source h.respAddr (resp.take h.respLen) s) = true := by
    rw [canWrite, hbus, hfn]
    exact hroom
  rw [answer_toRing hs hx hq hst, postCompletion_writes hq' hheld hroom', freeTs_hostMem,
    memRead_writeRecord_outside hq' hrec (by rwa [hpib, hstride, hfn]), memRead_dmaWrite_outside]
  rwa [List.length_take, Nat.min_comm]

/-- Settles O44: taking a command consumes its descriptor, its end answers it; each store of these is one of those that the statement names. -/
theorem commandsWriteOnlyTheirBytes : Obligations.CommandsWriteOnlyTheirBytes := by
  unfold Obligations.CommandsWriteOnlyTheirBytes
  refine ⟨fun op c s a hent => ?_, fun op c s resp eff t a hresp hclear => ?_,
    fun op c s resp eff t a x q hs hf hx hq hheld hroom hresp hrec hent => ?_⟩
  · by_cases hs : c.source ≤ 1
    · rw [taken_fromRing op s hs]
      exact memRead_consume_outside (hent hs)
    · rw [taken_fromElsewhere op s hs]
  · have hcalm : calm a (memRead t.hostMem a) t := ⟨rfl, hclear⟩
    exact (calm_markDue (calm_finish (a0 := heldOf op c) hcalm hresp)).1
  · obtain ⟨m, hm⟩ := finish_quiet (h := heldOf op c) (index := cmdIndex (heldOf op c) s) (status := St.ok) (d0 := 0) (d1 := 0)
      (resp := resp) (eff := eff) (t := t) hf
    rw [completed, closed, markDue_hostMem, hm]
    exact memRead_answer_outside (h := heldOf op c) hs hx hq hheld hroom hresp hrec hent rfl

end Sys2Proof.Proofs
end

section
/-! SUPPORT. The ring commands' own rules (R346 to R348, R355, R356, R369, R370, R377). -/

namespace Sys2Proof.Proofs
open Sys2Proof Sys2Proof.Machine Sys2Proof.Laws

section
variable {h : HeldCmd} {u : State} {x : Ring}

/-! ### Index blocks and new rings -/

/-- The index blocks of a function with no ring in use are placed (R348). -/
theorem ringIndexConfig_places (hfn : fnExists (par h 0 1) u = true) (hstride : par h 1 1 ≤ 2) (hz : parZero h 2 6 = true)
    (hhib : par h 8 8 % 4096 = 0) (hpib : par h 16 8 % 4096 = 0)
    (hidle : ∀ x ∈ avals u.host.rings, x.fn = par h 0 1 → x.state ≠ .enabled ∧ x.state ≠ .stopped) :
    ringIndexConfig h u = .done St.ok [] (updFn (par h 0 1) (fun f => { f with
      indexValid := true, stride := (if par h 1 1 = 0 then 8 else if par h 1 1 = 1 then 16 else 64), hib := par h 8 8,
      pib := par h 16 8 }) u) := by
  have hany : (avals u.host.rings).any (fun x => x.fn == par h 0 1 && (x.state == .enabled || x.state == .stopped)) = false := by
    simpa [List.any_eq_false] using hidle
  simp only [ringIndexConfig, hfn, Nat.not_lt.mpr hstride, hz, hhib, hpib, hany, decide_false, bne_self_eq_false, Bool.not_true,
    Bool.or_self, Bool.false_eq_true, if_false]

/-- A ring of a FREE identifier takes its settings and is DISABLED; a work ring names a COMPLETION ring of its function (R346, R347). -/
theorem ringCreate_creates {t : RingType} (htype : ringTypeOf (par h 2 1) = some t) (hform : ringCreateBad t h u = false)
    (hcq : (t = .inject ∨ t = .table ∨ t = .command) →
      ∃ q, ring? (par h 16 2 % 32768) u = some q ∧ q.typ = .completion ∧ q.fn = par h 3 1)
    (hfree : ring? (par h 0 2) u = none) :
    ringCreate h u = .done St.ok [] (publish (par h 0 2) (setRing (par h 0 2) { newRing t h with made := u.host.made }
      { u with host := { u.host with made := u.host.made + 1 } })) := by
  by_cases hwork : t = .inject ∨ t = .table ∨ t = .command
  · obtain ⟨q, hq, hqtyp, hqfn⟩ := hcq hwork
    simp [ringCreate, htype, hform, hq, hqtyp, hqfn, hfree]
  · obtain ⟨hi, ht, hc⟩ : t ≠ .inject ∧ t ≠ .table ∧ t ≠ .command := by simpa using hwork
    simp [ringCreate, htype, hform, hi, ht, hc, hfree]

/-! ### Enabling and disabling -/

/-- The ring is ENABLED at the start index (R355). -/
def ringEnabled (h : HeldCmd) (u : State) : State :=
  updRing (par h 0 2) (fun x => { x with
    state := .enabled, partIndex := par h 4 4, hostIndex := par h 4 4, fetched := [], fetchStopped := false, armed := !x.noIrq,
    unsignalled := 0, modDeadline := none }) u

/-- The ring's host-written entry is read where its value is given (log 4). -/
def hostIndexGiven (r : Nat) (data : Option (List Byte)) (s : State) : State :=
  match data with
  | some b => hostIndexRead r (rd b 0 4) s
  | none => s

/-- A DISABLED ring is enabled, its host-written entry read and its part-written entry published; one that the part writes is drained. -/
theorem ringEnable_enables (hr : par h 0 2 ≤ 32767) (hz : parZero h 2 2 = true) (hx : ring? (par h 0 2) u = some x)
    (hst : x.state = .disabled) (hv : (pciFn x.fn u).indexValid = true) :
    ringEnable h u = .done St.ok [] (if partWritten x.typ then
        drainRing (par h 0 2) (publish (par h 0 2) (hostIndexGiven (par h 0 2) h.data (ringEnabled h u)))
      else publish (par h 0 2) (hostIndexGiven (par h 0 2) h.data (ringEnabled h u))) := by
  simp only [ringEnable, Nat.not_lt.mpr hr, hz, hx, hst, hv, decide_false, bne_self_eq_false, Bool.not_true, Bool.or_self,
    Bool.false_eq_true, if_false]
  rfl

/-- With no descriptor begun the command completes at once (R356). -/
theorem ringDisable_disables (hr : par h 0 2 ≤ 32767) (hz : parZero h 2 2 = true) (hx : ring? (par h 0 2) u = some x)
    (hst : x.state ≠ .disabled) (hbegun : x.begun = 0) : ringDisable h u = .done St.ok [] (ringDisabled (par h 0 2) u) := by
  simp [ringDisable, Nat.not_lt.mpr hr, hz, hx, hst, hbegun]

/-- With descriptors begun it waits for them, and the others are dropped (R356). -/
theorem ringDisable_waits (hr : par h 0 2 ≤ 32767) (hz : parZero h 2 2 = true) (hx : ring? (par h 0 2) u = some x)
    (hst : x.state ≠ .disabled) (hbegun : x.begun ≠ 0) : ringDisable h u = .wait (.ringDisable (par h 0 2)) []
      (updRing (par h 0 2) (fun x => { x with disabling := true, fetched := [] }) (dropPosted (par h 0 2) u)) := by
  simp [ringDisable, Nat.not_lt.mpr hr, hz, hx, hst, hbegun]

/-! ### Destroying and querying -/

/-- No other ring depends on a work ring: a DISABLED one is FREE again, and its part-written entry says so (R347). -/
theorem ringDestroy_frees (hr : par h 0 2 ≤ 32767) (hz : parZero h 2 2 = true) (hx : ring? (par h 0 2) u = some x)
    (hst : x.state = .disabled) (hwork : x.typ = .inject ∨ x.typ = .table ∨ x.typ = .command) :
    ∃ t, ringDestroy h u = .done St.ok [] t ∧ t.host.rings = adel u.host.rings (par h 0 2) ∧ t.cfg = u.cfg ∧ t.macs = u.macs := by
  have hfree : (x.typ == .completion) = false ∧ (x.typ == .receive) = false ∧ (x.typ == .buffer) = false := by
    rcases hwork with htyp | htyp | htyp <;> rw [htyp] <;> exact ⟨rfl, rfl, rfl⟩
  obtain ⟨hcompletion, hreceive, hbuffer⟩ := hfree
  have hany : u.host.rings.any (fun p => (p.2.typ == .inject || p.2.typ == .table || p.2.typ == .command) && p.2.cq == par h 0 2 &&
      x.typ == .completion) = false := by simp [hcompletion]
  simp only [ringDestroy, Nat.not_lt.mpr hr, hz, hx, hst, hany, hreceive, hbuffer, decide_false, bne_self_eq_false, Bool.false_and,
    Bool.not_true, Bool.or_self, Bool.false_eq_true, if_false]
  refine ⟨_, rfl, ?_⟩
  split
  · obtain ⟨i, m, hw, hrings⟩ := dmaWrite_shape x.fn ((pciFn x.fn u).pib + (pciFn x.fn u).stride * par h 0 2)
      (indexEntry { x with state := .free, cause := 0 }) { u with host := { u.host with rings := adel u.host.rings (par h 0 2) } }
    rw [hw]
    exact ⟨hrings, rfl, rfl⟩
  · exact ⟨rfl, rfl, rfl⟩

theorem ringQuery_answers (hr : par h 0 2 ≤ 32767) (hz : parZero h 2 2 = true) (hx : ring? (par h 0 2) u = some x) :
    ringQuery h u = .done St.ok (ringQueryResp (par h 0 2) x u) u := by
  simp [ringQuery, Nat.not_lt.mpr hr, hz, hx]

/-- A FREE ring answers zeros (R377). -/
theorem ringQuery_free (hr : par h 0 2 ≤ 32767) (hz : parZero h 2 2 = true) (hx : ring? (par h 0 2) u = none) :
    ringQuery h u = .done St.ok (zeros 64) u := by
  simp [ringQuery, Nat.not_lt.mpr hr, hz, hx]

/-! ### Receive groups and punt queues -/

/-- The pools that `rx.group.config` lists (Table 10-15). -/
def groupPools (h : HeldCmd) : List Nat := (List.range (par h 2 1)).map (fun k => par h (4 + 2 * k) 2)

/-- Every pool of the list is a DISABLED BUFFER ring of function `n`. -/
def poolsReady (n : Nat) (pools : List Nat) (u : State) : Prop :=
  ∀ p ∈ pools, ∃ q, ring? p u = some q ∧ q.typ = .buffer ∧ q.fn = n ∧ q.state = .disabled

theorem poolsReady_length {n : Nat} {pools : List Nat} (hp : poolsReady n pools u) :
    (pools.filterMap (fun p => ring? p u)).length = pools.length := by
  rw [List.filterMap_length_eq_length]
  intro p hmem
  obtain ⟨q, hq, -⟩ := hp p hmem
  rw [hq, Option.isSome_some]

theorem poolsReady_ring {n : Nat} {pools : List Nat} (hp : poolsReady n pools u) :
    ∀ q ∈ pools.filterMap (fun p => ring? p u), q.typ = .buffer ∧ q.fn = n ∧ q.state = .disabled := by
  intro q hmem
  obtain ⟨p, hmem, hq⟩ := List.mem_filterMap.mp hmem
  obtain ⟨q', hq', hready⟩ := hp p hmem
  obtain rfl : q' = q := Option.some.inj (hq'.symm.trans hq)
  exact hready

/-- A RECEIVE ring takes one to four pools of rising buffer sizes that no other group has (R370). -/
theorem rxGroupConfig_binds (hr : par h 0 2 ≤ 32767) (hmin : 1 ≤ par h 2 1) (hmax : par h 2 1 ≤ 4) (hz : parZero h 3 1 = true)
    (hz' : parZero h (4 + 2 * par h 2 1) (8 - 2 * par h 2 1) = true) (hx : ring? (par h 0 2) u = some x) (htyp : x.typ = .receive)
    (hst : x.state = .disabled) (hpools : poolsReady x.fn (groupPools h) u)
    (hrise : rising (((groupPools h).filterMap (fun p => ring? p u)).map (fun q => q.bufSize)) = true)
    (hfree : ∀ g ∈ u.host.groups, g.1 ≠ par h 0 2 → ∀ p ∈ groupPools h, p ∉ g.2.pools) :
    rxGroupConfig h u =
      .done St.ok [] { u with host := { u.host with groups := aset u.host.groups (par h 0 2) { pools := groupPools h } } } := by
  have hlen : ((groupPools h).filterMap (fun p => ring? p u)).length = par h 2 1 := by
    rw [poolsReady_length hpools, groupPools, List.length_map, List.length_range]
  have hready := poolsReady_ring hpools
  have hkind : ((groupPools h).filterMap (fun p => ring? p u)).any (fun q => q.typ != .buffer || q.fn != x.fn) = false :=
    List.any_eq_false.mpr fun q hq => by simp [hready q hq]
  have hidle : ((groupPools h).filterMap (fun p => ring? p u)).any (fun q => q.state != .disabled) = false :=
    List.any_eq_false.mpr fun q hq => by simp [hready q hq]
  have hother : u.host.groups.any (fun g => g.1 != par h 0 2 && (groupPools h).any (fun p => g.2.pools.contains p)) = false := by
    simpa [List.any_eq_false] using hfree
  unfold groupPools at hlen hkind hidle hother hrise
  simp only [rxGroupConfig, groupPools, Nat.not_lt.mpr hr, Nat.not_lt.mpr hmin, Nat.not_lt.mpr hmax, hz, hz', hx, htyp, hst, hlen, hkind,
    hidle, hother, hrise, decide_false, bne_self_eq_false, Bool.not_true, Bool.or_self, Bool.false_eq_true, if_false]

theorem puntQueueBind_binds (hq : par h 0 2 ≤ 4095) (hvalid : bit (par h 2 2) 15 = 1) (hweight : par h 4 1 ≠ 0)
    (hz : parZero h 5 3 = true) (hx : ring? (par h 2 2 % 32768) u = some x) (htyp : x.typ = .receive) :
    puntQueueBind h u = .done St.ok [] { u with host := { u.host with
      binds := aset u.host.binds (par h 0 2) { ring := par h 2 2 % 32768, weight := par h 4 1 } } } := by
  simp [puntQueueBind, Nat.not_lt.mpr hq, hvalid, hweight, hz, hx, htyp]

/-- Without VALID the queue's binding goes (R369). -/
theorem puntQueueBind_unbinds (hq : par h 0 2 ≤ 4095) (hvalid : bit (par h 2 2) 15 = 0) (hz : parZero h 5 3 = true) :
    puntQueueBind h u = .done St.ok [] { u with host := { u.host with binds := adel u.host.binds (par h 0 2) } } := by
  simp [puntQueueBind, Nat.not_lt.mpr hq, hvalid, hz]
end

/-- `ring.enable` completes over the enabled ring, its host-written entry read and its part-written entry published (R355). -/
theorem exec_ringEnable {c : Cmd} {s u : State} {x : Ring} (ha : takes 0x0903 8 c s u) (hr : arg c 0 2 ≤ 32767) (hz : argZero c 2 2)
    (hx : ring? (arg c 0 2) u = some x) (hst : x.state = .disabled) (hv : (pciFn x.fn u).indexValid = true) :
    effects 0x0903 (.ringEnable c) c s (if partWritten x.typ then
        drainRing (arg c 0 2) (publish (arg c 0 2) (hostIndexGiven (arg c 0 2) c.data (ringEnabled (heldOf 0x0903 c) u)))
      else publish (arg c 0 2) (hostIndexGiven (arg c 0 2) c.data (ringEnabled (heldOf 0x0903 c) u))) :=
  effects_of (spec := specRingEnable) ha rfl rfl (ringEnable_enables (h := heldOf 0x0903 c) hr hz hx hst hv)

/-- Settles O12: each command's own rules, once nothing of its form is refused, in the shape of its verdict. -/
theorem ringCommandsComplete : Obligations.RingCommandsComplete := by
  unfold Obligations.RingCommandsComplete
  refine ⟨fun c s u ha hfn hstride hz hhib hpib hidle => ?_, fun c s u t ha htype hform hcq hfree => ?_,
    fun c s u x v ha hr hz hx hst hv hen => ?_, fun c s u x ha hr hz hx hst hbegun => ?_, fun c s u x ha hr hz hx hst hbegun => ?_,
    fun c s u x ha hr hz hx hst hwork => ?_, fun c s u x ha hr hz hx => ?_, fun c s u ha hr hz hx => ?_,
    fun c s u x pools ha hpools hr hmin hmax hz hz' hx htyp hst hready hrise hfree => ?_,
    fun c s u x ha hq hvalid hweight hz hx htyp => ?_, fun c s u ha hq hvalid hz => ?_⟩
  · exact effects_of (spec := specRingIndexConfig) ha rfl rfl
      (ringIndexConfig_places (h := heldOf 0x0901 c) hfn hstride hz hhib hpib hidle)
  · exact effects_of (spec := specRingCreate) ha rfl rfl (ringCreate_creates (h := heldOf 0x0902 c) htype hform hcq hfree)
  · subst hen
    have hends := exec_ringEnable ha hr hz hx hst hv
    refine ⟨fun hd hp => ?_, fun b hd hp => ?_, fun hd hp => ?_, fun b hd hp => ?_⟩
    all_goals rw [hd, hp] at hends; exact hends
  · exact effects_of (spec := specRingDisable) ha rfl rfl (ringDisable_disables (h := heldOf 0x0904 c) hr hz hx hst hbegun)
  · exact runs_of (spec := specRingDisable) ha rfl (ringDisable_waits (h := heldOf 0x0904 c) hr hz hx hst hbegun)
  · obtain ⟨t, hb, hkeep⟩ := ringDestroy_frees (h := heldOf 0x0905 c) hr hz hx hst hwork
    exact ⟨t, effects_of (spec := specRingDestroy) ha rfl rfl hb, hkeep⟩
  · exact queries_of (spec := specRingQuery) ha rfl rfl (ringQuery_answers (h := heldOf 0x0906 c) hr hz hx)
  · exact queries_of (spec := specRingQuery) ha rfl rfl (ringQuery_free (h := heldOf 0x0906 c) hr hz hx)
  · subst hpools
    exact effects_of (spec := specRxGroupConfig) ha rfl rfl
      (rxGroupConfig_binds (h := heldOf 0x0907 c) hr hmin hmax hz hz' hx htyp hst hready hrise hfree)
  · exact effects_of (spec := specPuntQueueBind) ha rfl rfl
      (puntQueueBind_binds (h := heldOf 0x0908 c) hq hvalid hweight hz hx htyp)
  · exact effects_of (spec := specPuntQueueBind) ha rfl rfl (puntQueueBind_unbinds (h := heldOf 0x0908 c) hq hvalid hz)

end Sys2Proof.Proofs
end

section
/-! SUPPORT. Resets, starts, parking and management restarts (R342, R467, R468, R492, R540 to R543, R588, R601, R606). -/

namespace Sys2Proof.Proofs
open Sys2Proof Sys2Proof.Machine Sys2Proof.Laws

section
variable {s : State}

/-! ### Power-on reset -/

/-- Releasing the pins sends at most their levels (R604, R606). -/
theorem releasePins_shape (s : State) : ∃ o, releasePins s = { s with out := o } := by
  unfold releasePins
  cases s.pwr.ppsOutUntil.isSome <;> cases s.pwr.thermalTrip <;> exact ⟨_, rfl⟩

theorem releasePins_pending (s : State) : (releasePins s).pending = s.pending := by
  obtain ⟨o, ho⟩ := releasePins_shape s
  rw [ho]

theorem releasePins_flash (s : State) : (releasePins s).fw.flash = s.fw.flash := by
  obtain ⟨o, ho⟩ := releasePins_shape s
  rw [ho]

theorem releasePins_revoked (s : State) : (releasePins s).fw.revoked = s.fw.revoked := by
  obtain ⟨o, ho⟩ := releasePins_shape s
  rw [ho]

/-- A link that trains changes its function's record and draws a free value; every ring stays. -/
theorem trainLink_shape (n : Nat) (s : State) :
    ∃ k i, trainLink n s = { s with fresh := k, host := i } ∧ i.rings = s.host.rings := by
  unfold trainLink updFn
  split
  · split <;> exact ⟨_, _, rfl, rfl⟩
  · exact ⟨_, _, rfl, rfl⟩

/-- The part before its links train: what the reset input puts back, with the memories in training (Table 14-4). -/
def powered (straps : Nat) (wait : Bool) (s : State) : State :=
  let r := coreReset straps (releasePins s)
  { r with
    mem := { r.mem with ddr := List.replicate 8 { State.resetDdr with state := 1 }, hbmStacks := List.replicate 4 (1, 0) },
    pwr := { r.pwr with waitFail := wait } }

theorem powerOn_shape (straps : Nat) (wait : Bool) (s : State) :
    ∃ k i, powerOn straps wait s = { powered straps wait s with fresh := k, host := i } ∧ i.rings = [] := by
  have hlinks : powerOn straps wait s = trainLink 1 (trainLink 0 (powered straps wait s)) := rfl
  obtain ⟨k, i, h0, hrings⟩ := trainLink_shape 0 (powered straps wait s)
  obtain ⟨k', i', h1, hrings'⟩ := trainLink_shape 1 { powered straps wait s with fresh := k, host := i }
  exact ⟨k', i', by rw [hlinks, h0, h1], hrings'.trans hrings⟩

/-- Power-on reset puts the reset state back under the straps sampled; flash and fuses stay, and what is pending. -/
theorem exec_powerOnReset (straps : Nat) (s : State) : ∃ t, exec (.powerOnReset straps) s = .next t ∧ t.mgmt.ready = false ∧
    t.mgmt.journal = [] ∧ t.pending = s.pending ∧ t.host.rings = [] ∧ t.cfg = State.reset.cfg ∧ t.glb.strap = straps % 8192 ∧
    t.fw.flash = s.fw.flash ∧ t.fw.revoked = s.fw.revoked := by
  obtain ⟨k, i, hon, hrings⟩ := powerOn_shape (straps % 8192) (bit straps 31 == 1) s
  refine ⟨emit (.pulse .flResetN false 10000) (powerOn (straps % 8192) (bit straps 31 == 1) s), rfl, ?_⟩
  rw [hon]
  exact ⟨rfl, rfl, releasePins_pending s, hrings, rfl, rfl, releasePins_flash s, releasePins_revoked s⟩

/-! ### Function reset -/

/-- Host interface, host memory and configuration are those of `r`. -/
def sameHost (r s : State) : Prop := s.host = r.host ∧ s.hostMem = r.hostMem ∧ s.cfg = r.cfg

theorem foldl_sameHost {β : Type} {r : State} {f : State → β → State} (hf : ∀ s b, sameHost r s → sameHost r (f s b)) {l : List β}
    (h : sameHost r s) : sameHost r (l.foldl f s) := by
  induction l generalizing s with
  | nil => exact h
  | cons b l ih => exact ih (hf s b h)

/-- Packets recalled from the bridge go to their punt queues (R369). -/
theorem recallPunts_sameHost {r : State} {gone : Nat → Bool} (h : sameHost r s) : sameHost r (recallPunts gone s) := by
  unfold recallPunts
  exact foldl_sameHost (fun s x hs => by cases x <;> exact hs) h

/-- The numbers of a function's rings. -/
def ownRings (fn : Nat) (s : State) : List Nat := (s.host.rings.filter (fun p => p.2.fn == fn)).map Prod.fst

theorem mem_ownRings {fn r : Nat} : r ∈ ownRings fn s ↔ ∃ y, (r, y) ∈ s.host.rings ∧ y.fn = fn := by
  simp [ownRings]

/-- The state before the function's own records go: its mirrored completions and POSTED commands dropped, its punted packets recalled. -/
def recalled (fn : Nat) (s : State) : State :=
  (ownRings fn s).foldl (fun s r => dropPosted r s) (recallPunts (fun r => (ownRings fn s).contains r)
    { s with prot := { s.prot with mirrorHeld := s.prot.mirrorHeld.filter (fun h => !(ownRings fn s).contains h.2.1) } })

theorem recalled_sameHost (fn : Nat) (s : State) : sameHost s (recalled fn s) :=
  foldl_sameHost (f := fun s r => dropPosted r s) (fun _ _ hs => hs) (recallPunts_sameHost ⟨rfl, rfl, rfl⟩)

/-- A function's reset drops every ring whose number the function has, and touches neither host memory nor the configuration. -/
theorem functionReset_host (fn : Nat) (s : State) :
    (functionReset fn s).host.rings = s.host.rings.filter (fun p => !(ownRings fn s).contains p.1) ∧
    (functionReset fn s).hostMem = s.hostMem ∧ (functionReset fn s).cfg = s.cfg := by
  obtain ⟨hhost, hmem, hcfg⟩ := recalled_sameHost fn s
  have hrings : (recalled fn s).host.rings.filter (fun p => !(ownRings fn s).contains p.1) =
      s.host.rings.filter (fun p => !(ownRings fn s).contains p.1) := by rw [hhost]
  unfold functionReset updFn
  split <;> exact ⟨hrings, hmem, hcfg⟩

/-- The rings left are those whose number no ring of the function has (R342). -/
theorem mem_functionReset {fn r : Nat} {x : Ring} : (r, x) ∈ (functionReset fn s).host.rings ↔
    (r, x) ∈ s.host.rings ∧ ∀ y, (r, y) ∈ s.host.rings → y.fn ≠ fn := by
  have hown : (ownRings fn s).contains r = false ↔ ∀ y, (r, y) ∈ s.host.rings → y.fn ≠ fn := by
    rw [List.contains_eq_mem, decide_eq_false_iff_not, mem_ownRings]
    exact ⟨fun hno y hy he => hno ⟨y, hy, he⟩, fun hall ⟨y, hy, he⟩ => hall y hy he⟩
  rw [(functionReset_host fn s).1, List.mem_filter, Bool.not_eq_true', hown]

theorem exec_functionReset {fn : Nat} (hf : fnExists fn s = true) : exec (.functionReset fn) s = .next (functionReset fn s) := by
  show execFunctionReset fn s = _
  rw [execFunctionReset, if_pos hf]

/-! ### The pins, the rails and parking -/

section
variable {fn : Nat}

theorem exec_busMasterEnable_clear {hosts : List (Nat × Nat)} (hf : fnExists fn s = true) :
    exec (.busMasterEnable fn false hosts) s = .next (updFn fn (fun f => { f with busMaster := false }) s) := by
  show execBusMasterEnable fn false hosts s = _
  simp [execBusMasterEnable, hf]

theorem exec_busMasterEnable_set {hosts : List (Nat × Nat)} (hf : fnExists fn s = true) (hb : (pciFn fn s).busMaster = false) :
    exec (.busMasterEnable fn true hosts) s = .next (resumeFn fn hosts s) := by
  show execBusMasterEnable fn true hosts s = _
  simp [execBusMasterEnable, hf, hb]

theorem exec_perst_low (hf : fnExists fn s = true) :
    exec (.perst fn true) s = .next (linkDown fn (updFn fn (fun f => { f with perstLow := true }) s)) := by
  show execPerst fn true s = _
  simp [execPerst, hf]

/-- A link that is down trains when its PERST rises on an awake part (R606). -/
theorem exec_perst_rise (hf : fnExists fn s = true) (ha : awake s = true) (hl : s.pwr.level < 5) (hup : (pciFn fn s).linkUp = false) :
    exec (.perst fn false) s = .next (trainLink fn (updFn fn (fun f => { f with perstLow := false }) s)) := by
  show execPerst fn false s = _
  simp [execPerst, hf, ha, hl, hup]

theorem exec_railFault_core (ha : awake s = true) :
    exec (.railFault .core) s = .next (settleShed { s with pwr := { s.pwr with railLow := true, railOkSince := none } }) := by
  show execRailFault .core s = _
  simp [execRailFault, ha, updPwr]

theorem exec_railFault_other (ha : awake s = true) (hp : s.pwr.powerFail = false) :
    exec (.railFault .other) s = .next (powerFails s) := by
  show execRailFault .other s = _
  simp [execRailFault, ha, hp]

/-- Without its management rail the part is held in reset; flash stays (R601). -/
theorem exec_railFault_management (ha : awake s = true) : ∃ t, exec (.railFault .management) s = .next t ∧ t.pwr.dead = true ∧
    t.mgmt.ready = false ∧ t.fw.flash = s.fw.flash := by
  have hdead : exec (.railFault .management) s =
      .next { coreReset s.glb.strap (releasePins s) with pwr := { (coreReset s.glb.strap (releasePins s)).pwr with dead := true } } := by
    show execRailFault .management s = _
    simp [execRailFault, ha]
  exact ⟨_, hdead, rfl, rfl, releasePins_flash s⟩

/-- A parked package has lost all but flash, fuses and the node address of its wake detector (R467). -/
theorem exec_parkEntry {u : Nat} (hu : s.crl.parkAt = some u) (ha : awake s = true) : ∃ t, exec .parkEntry s = .next t ∧
    t.crl.parked = true ∧ t.mgmt.ready = false ∧ t.cfg = State.reset.cfg ∧ t.bus.nodeBase = busNode s := by
  show ∃ t, execParkEntry s = .next t ∧ _
  simp only [execParkEntry, hu, ha, Bool.not_true, Bool.false_eq_true, if_false]
  exact ⟨_, rfl, rfl, rfl, rfl, rfl⟩

theorem exec_wake {frame : List Byte} (hp : s.crl.parked = true) (hd : s.pwr.dead = false) (hw : wakes frame s = true) :
    exec (.wake frame) s = .next (powerOn s.glb.strap false s) := by
  show execWake frame s = _
  simp [execWake, hp, hd, hw]
end

/-! ### Starts and management restarts -/

/-- A start whose DDR4 has trained goes to Teruo at once (R492). -/
theorem exec_startReady_trained {ddr : List (Nat × Nat)} (hs : startDue s = true) (htrained : ∀ d ∈ s.mem.ddr, 2 ≤ d.state) :
    exec (.startReady ddr) s = .next (startTeruo s) := by
  have hany : s.mem.ddr.any (fun d => d.state < 2) = false :=
    List.any_eq_false.mpr fun d hd hlow => Nat.not_lt.mpr (htrained d hd) (of_decide_eq_true hlow)
  show execStartReady ddr s = _
  simp only [execStartReady, hs, hany, Bool.and_false, Bool.not_true, Bool.false_eq_true, if_false]

/-- A start without FORCE_RECOVERY trains DDR4 first (R492). -/
theorem exec_startReady_training {ddr : List (Nat × Nat)} (hs : startDue s = true) (hforce : bit s.glb.strap 12 = 0)
    (htrain : ∃ d ∈ s.mem.ddr, d.state < 2) : exec (.startReady ddr) s = .next (startTeruo (trainDdr ddr s)) := by
  have hany : s.mem.ddr.any (fun d => d.state < 2) = true := by
    obtain ⟨d, hd, hlow⟩ := htrain
    exact List.any_eq_true.mpr ⟨d, hd, decide_eq_true hlow⟩
  show execStartReady ddr s = _
  simp only [execStartReady, hs, hforce, hany, Nat.reduceBEq, Bool.false_and, Bool.not_true, Bool.false_eq_true, if_false, if_true]

theorem exec_managementRestart_due {d : Nat} (hrom : s.mgmt.rom = false) (hp : s.crl.parked = false) (hl : s.pwr.level < 5)
    (hready : s.mgmt.ready = true) (hdue : s.mgmt.restartDue = some d) : exec (.managementRestart 1) s = .next (beginRestart 1 s) := by
  show execManagementRestart 1 s = _
  simp [execManagementRestart, hrom, hp, Nat.not_le.mpr hl, hready, hdue]

theorem advanceTo_mgmt (t : Nat) (s : State) : (advanceTo t s).mgmt = s.mgmt := by
  unfold advanceTo
  split <;> rfl

/-- The watchdog restarts a Teruo that runs, 1 s after its last service (R541). -/
theorem exec_watchdogExpiry_ready (hrom : s.mgmt.rom = false) (hp : s.crl.parked = false) (hl : s.pwr.level < 5)
    (hready : s.mgmt.ready = true) :
    exec .watchdogExpiry s = .next (beginRestart 0 (advanceTo (s.mgmt.watchdogAt + 1000000000) s)) := by
  show execWatchdogExpiry s = _
  simp [execWatchdogExpiry, hrom, hp, Nat.not_le.mpr hl, advanceTo_mgmt, hready]

section
variable (hre : s.mgmt.restarting = true) (hrom : s.mgmt.rom = false) (hok : (teruoRuns s).1 = false)
include hre hrom hok

/-- A restart whose image runs is over (R542). -/
theorem exec_managementRestartEnd_inTime (ht : s.elapsed ≤ s.mgmt.restartAt + 3000000000) :
    exec .managementRestartEnd s = .next (restartOver (teruoRuns s).2) := by
  show execManagementRestartEnd s = _
  simp [execManagementRestartEnd, hre, hrom, hok, Nat.not_lt.mpr ht]

/-- One that ends later than 3 s after it began counts as a failed start (R543). -/
theorem exec_managementRestartEnd_late (ht : s.mgmt.restartAt + 3000000000 < s.elapsed) : exec .managementRestartEnd s =
    .next (restartOver (updFw (fun f => { f with failedStarts := s.fw.failedStarts + 1 }) (teruoRuns s).2)) := by
  show execManagementRestartEnd s = _
  simp [execManagementRestartEnd, hre, hrom, hok, ht]
end
end

/-- Settles O21: each row's own lemma; the reset of a function drops its rings alone, and the last rows are their definitions. -/
theorem resetRowsComplete : Obligations.ResetRowsComplete := by
  unfold Obligations.ResetRowsComplete
  refine ⟨fun straps s => exec_powerOnReset straps s, fun fn value s hf hb hk h0 => exec_warmReset hf hb hk h0, fun fn s hf => ?_,
    fun fn hosts s hf => exec_busMasterEnable_clear hf, fun fn hosts s hf hb => exec_busMasterEnable_set hf hb,
    fun fn s hf => exec_perst_low hf, fun fn s hf ha hl hup => exec_perst_rise hf ha hl hup, fun s ha => exec_railFault_core ha,
    fun s ha hp => exec_railFault_other ha hp, fun s ha => exec_railFault_management ha, fun s u hu ha => exec_parkEntry hu ha,
    fun frame s hp hd hw => exec_wake hp hd hw, fun ddr s hs ht => exec_startReady_trained hs ht,
    fun ddr s hs hforce ht => exec_startReady_training hs hforce ht, fun s => rfl,
    fun s d hrom hp hl hready hdue => exec_managementRestart_due hrom hp hl hready hdue,
    fun s hrom hp hl hready => exec_watchdogExpiry_ready hrom hp hl hready,
    fun s hre hrom hok ht => exec_managementRestartEnd_inTime hre hrom hok ht,
    fun s hre hrom hok ht => exec_managementRestartEnd_late hre hrom hok ht, fun s => rfl⟩
  obtain ⟨-, hmem, hcfg⟩ := functionReset_host fn s
  exact ⟨_, exec_functionReset hf, fun r x hx => (mem_functionReset.mp hx).2 x (mem_functionReset.mp hx).1,
    fun r x hx hother => mem_functionReset.mpr ⟨hx, hother⟩, hmem, hcfg⟩

end Sys2Proof.Proofs
end

section
/-! SUPPORT. Soundness as an invariant of every step: the operations keep it (Sys2Proof/Laws/Keeps*.lean), so every row and the idle step do. -/

namespace Sys2Proof.Proofs
open Sys2Proof Sys2Proof.Machine Sys2Proof.Laws

/-- Every row of the table keeps a sound state sound: one case for each arm of `exec`, by the lemma about what the arm calls. -/
theorem keeps_exec {s : State} (h : sound s) : ∀ i, soundRes (exec i s)
  | .sysInfo .. => keeps_execSysInfo h
  | .sysAbort .. => keeps_execSysAbort h
  | .sysCmdQuery .. => keeps_execSysCmdQuery h
  | .sysRestart .. => keeps_execSysRestart h
  | .eventBind .. => keeps_execEventBind h
  | .journalRead .. => keeps_execJournalRead h
  | .unknownOpcode .. => keeps_execUnknownOpcode h
  | .portConfig .. => keeps_execPortConfig h
  | .portDelete .. => keeps_execPortDelete h
  | .portAdmin .. => keeps_execPortAdmin h
  | .portQuery .. => keeps_execPortQuery h
  | .portDegrade .. => keeps_execPortDegrade h
  | .portMacSet .. => keeps_execPortMacSet h
  | .flexeGroupConfig .. => keeps_execFlexeGroupConfig h
  | .flexeGroupDelete .. => keeps_execFlexeGroupDelete h
  | .flexeGroupAdmin .. => keeps_execFlexeGroupAdmin h
  | .flexeClientConfig .. => keeps_execFlexeClientConfig h
  | .flexeClientDelete .. => keeps_execFlexeClientDelete h
  | .flexeClientAdmin .. => keeps_execFlexeClientAdmin h
  | .flexeCalendarStage .. => keeps_execFlexeCalendarStage h
  | .flexeCalendarSwitch .. => keeps_execFlexeCalendarSwitch h
  | .flexeQuery .. => keeps_execFlexeQuery h
  | .parseSelectLayout .. => keeps_execParseSelectLayout h
  | .profileWrite .. => keeps_execProfileWrite h
  | .profileDelete .. => keeps_execProfileDelete h
  | .profileSelectAdd .. => keeps_execProfileSelectAdd h
  | .profileSelectDelete .. => keeps_execProfileSelectDelete h
  | .parseClassMapSet .. => keeps_execParseClassMapSet h
  | .ruleTableCreate .. => keeps_execRuleTableCreate h
  | .ruleTableDelete .. => keeps_execRuleTableDelete h
  | .ruleAdd .. => keeps_execRuleAdd h
  | .ruleDelete .. => keeps_execRuleDelete h
  | .ruleModify .. => keeps_execRuleModify h
  | .ruleOverlaps .. => keeps_execRuleOverlaps h
  | .ruleQuery .. => keeps_execRuleQuery h
  | .exceptionConfig .. => keeps_execExceptionConfig h
  | .tcamStatus .. => keeps_execTcamStatus h
  | .fibVrfConfig .. => keeps_execFibVrfConfig h
  | .fibStatus .. => keeps_execFibStatus h
  | .idQuery .. => keeps_execIdQuery h
  | .ecmpHashSeed .. => keeps_execEcmpHashSeed h
  | .tableCommit .. => keeps_execTableCommit h
  | .tableCommitQuery .. => keeps_execTableCommitQuery h
  | .flowTableCreate .. => keeps_execFlowTableCreate h
  | .flowTableDelete .. => keeps_execFlowTableDelete h
  | .flowTableFlush .. => keeps_execFlowTableFlush h
  | .flowStatus .. => keeps_execFlowStatus h
  | .voqDestSet .. => keeps_execVoqDestSet h
  | .voqDestDelete .. => keeps_execVoqDestDelete h
  | .voqProfileSet .. => keeps_execVoqProfileSet h
  | .voqEplistSet .. => keeps_execVoqEplistSet h
  | .pealListSet .. => keeps_execPealListSet h
  | .pealListDelete .. => keeps_execPealListDelete h
  | .bufPoolLayout .. => keeps_execBufPoolLayout h
  | .bufPoolConfig .. => keeps_execBufPoolConfig h
  | .samplerConfig .. => keeps_execSamplerConfig h
  | .puntQueueConfig .. => keeps_execPuntQueueConfig h
  | .voqQuery .. => keeps_execVoqQuery h
  | .bufStatus .. => keeps_execBufStatus h
  | .schedPortConfig .. => keeps_execSchedPortConfig h
  | .schedNodeSet .. => keeps_execSchedNodeSet h
  | .schedNodeDelete .. => keeps_execSchedNodeDelete h
  | .gateListSet .. => keeps_execGateListSet h
  | .gateListClear .. => keeps_execGateListClear h
  | .creditConfig .. => keeps_execCreditConfig h
  | .creditPealSet .. => keeps_execCreditPealSet h
  | .policerConfig .. => keeps_execPolicerConfig h
  | .schedQuery .. => keeps_execSchedQuery h
  | .policerQuery .. => keeps_execPolicerQuery h
  | .fabricConfig .. => keeps_execFabricConfig h
  | .fabricQuery .. => keeps_execFabricQuery h
  | .fabricLaneQuery .. => keeps_execFabricLaneQuery h
  | .ringIndexConfig .. => keeps_execRingIndexConfig h
  | .ringCreate .. => keeps_execRingCreate h
  | .ringEnable .. => keeps_execRingEnable h
  | .ringDisable .. => keeps_execRingDisable h
  | .ringDestroy .. => keeps_execRingDestroy h
  | .ringQuery .. => keeps_execRingQuery h
  | .rxGroupConfig .. => keeps_execRxGroupConfig h
  | .puntQueueBind .. => keeps_execPuntQueueBind h
  | .tempoSourceSet .. => keeps_execTempoSourceSet h
  | .tempoTodSet .. => keeps_execTempoTodSet h
  | .tempoAdjust .. => keeps_execTempoAdjust h
  | .tempoStep .. => keeps_execTempoStep h
  | .tempoQuery .. => keeps_execTempoQuery h
  | .tempoGridSet .. => keeps_execTempoGridSet h
  | .tempoMaxAgeSet .. => keeps_execTempoMaxAgeSet h
  | .carillonConfig .. => keeps_execCarillonConfig h
  | .carillonStatus .. => keeps_execCarillonStatus h
  | .carillonPark .. => keeps_execCarillonPark h
  | .mgmtBusConfig .. => keeps_execMgmtBusConfig h
  | .protectPairSet .. => keeps_execProtectPairSet h
  | .protectPairDelete .. => keeps_execProtectPairDelete h
  | .protectSwitch .. => keeps_execProtectSwitch h
  | .protectQuery .. => keeps_execProtectQuery h
  | .fwDownload .. => keeps_execFwDownload h
  | .fwVerify .. => keeps_execFwVerify h
  | .fwDistribute .. => keeps_execFwDistribute h
  | .fwActivate .. => keeps_execFwActivate h
  | .fwConfirm .. => keeps_execFwConfirm h
  | .fwRevert .. => keeps_execFwRevert h
  | .fwStatus .. => keeps_execFwStatus h
  | .settingsRead .. => keeps_execSettingsRead h
  | .settingsWrite .. => keeps_execSettingsWrite h
  | .keyRevoke .. => keeps_execKeyRevoke h
  | .attestQuote .. => keeps_execAttestQuote h
  | .tollConfig .. => keeps_execTollConfig h
  | .tollSelect .. => keeps_execTollSelect h
  | .tollStart .. => keeps_execTollStart h
  | .tollStop .. => keeps_execTollStop h
  | .counterRead .. => keeps_execCounterRead h
  | .tollStatus .. => keeps_execTollStatus h
  | .powerShedConfig .. => keeps_execPowerShedConfig h
  | .powerStatus .. => keeps_execPowerStatus h
  | .humConfig .. => keeps_execHumConfig h
  | .humStatus .. => keeps_execHumStatus h
  | .knellRead .. => keeps_execKnellRead h
  | .auditScan .. => keeps_execAuditScan h
  | .auditContextRead .. => keeps_execAuditContextRead h
  | .auditContextWrite .. => keeps_execAuditContextWrite h
  | .auditStatus .. => keeps_execAuditStatus h
  | .memStatus .. => keeps_execMemStatus h
  | .memRetiredQuery .. => keeps_execMemRetiredQuery h
  | .diagFaultQuery .. => keeps_execDiagFaultQuery h
  | .routeAdd .. => keeps_execRouteAdd h
  | .routeDelete .. => keeps_execRouteDelete h
  | .labelAdd .. => keeps_execLabelAdd h
  | .labelDelete .. => keeps_execLabelDelete h
  | .nhSet .. => keeps_execNhSet h
  | .nhFree .. => keeps_execNhFree h
  | .ecmpSet .. => keeps_execEcmpSet h
  | .ecmpFree .. => keeps_execEcmpFree h
  | .templateSet .. => keeps_execTemplateSet h
  | .templateFree .. => keeps_execTemplateFree h
  | .flowRead .. => keeps_execFlowRead h
  | .flowWrite .. => keeps_execFlowWrite h
  | .flowDelete .. => keeps_execFlowDelete h
  | .injectPipeline .. => keeps_execInjectPipeline h
  | .injectDirect .. => keeps_execInjectDirect h
  | .bufferPost .. => keeps_execBufferPost h
  | .newWork .. => keeps_execNewWork h
  | .invalidate .. => keeps_execInvalidate h
  | .doorbellDiscard .. => keeps_execDoorbellDiscard h
  | .mbxSubmit .. => keeps_execMbxSubmit h
  | .mbxAbort .. => keeps_execMbxAbort h
  | .warmReset .. => keeps_execWarmReset h
  | .dbgInject .. => keeps_execDbgInject h
  | .ddrRhThresholdWrite .. => keeps_execDdrRhThresholdWrite h
  | .glbIntEnableWrite .. => keeps_execGlbIntEnableWrite h
  | .w1cClear .. => keeps_execW1cClear h
  | .counterClearingRead .. => keeps_execCounterClearingRead h
  | .groupLatchRead .. => keeps_execGroupLatchRead h
  | .cntValRead .. => keeps_execCntValRead h
  | .registerWrite .. => keeps_execRegisterWrite h
  | .bar0BadAccess .. => keeps_execBar0BadAccess h
  | .unmappedAccess .. => keeps_execUnmappedAccess h
  | .functionReset .. => keeps_execFunctionReset h
  | .busMasterEnable .. => keeps_execBusMasterEnable h
  | .powerOnReset .. => keeps_execPowerOnReset h
  | .perst .. => keeps_execPerst h
  | .pwrFailNAccepted .. => keeps_execPwrFailNAccepted h
  | .shedRequestChange .. => keeps_execShedRequestChange h
  | .shedLevelDecay .. => keeps_execShedLevelDecay h
  | .s3DormantStep .. => keeps_execS3DormantStep h
  | .thermalTrip .. => keeps_execThermalTrip h
  | .railFault .. => keeps_execRailFault h
  | .sensorSample .. => keeps_execSensorSample h
  | .ppsInEdge .. => keeps_execPpsInEdge h
  | .ppsLoss .. => keeps_execPpsLoss h
  | .hostAdjustSilence .. => keeps_execHostAdjustSilence h
  | .tempoSecondBoundary .. => keeps_execTempoSecondBoundary h
  | .ppsOutEnd .. => keeps_execPpsOutEnd h
  | .downbeat .. => keeps_execDownbeat h
  | .muffleEnd .. => keeps_execMuffleEnd h
  | .preparationDone .. => keeps_execPreparationDone h
  | .prepare .. => keeps_execPrepare h
  | .vote .. => keeps_execVote h
  | .go .. => keeps_execGo h
  | .defer .. => keeps_execDefer h
  | .abort .. => keeps_execAbort h
  | .ack .. => keeps_execAck h
  | .confirm .. => keeps_execConfirm h
  | .revert .. => keeps_execRevert h
  | .tollInstant .. => keeps_execTollInstant h
  | .tollDumpWrite .. => keeps_execTollDumpWrite h
  | .gateEntryBoundary .. => keeps_execGateEntryBoundary h
  | .gateListStart .. => keeps_execGateListStart h
  | .portLinkOk .. => keeps_execPortLinkOk h
  | .portLinkFail .. => keeps_execPortLinkFail h
  | .upDebounceEnd .. => keeps_execUpDebounceEnd h
  | .holdTimerExpiry .. => keeps_execHoldTimerExpiry h
  | .degWindowEnd .. => keeps_execDegWindowEnd h
  | .frameReceived .. => keeps_execFrameReceived h
  | .pauseRefresh .. => keeps_execPauseRefresh h
  | .macControlFrameRx .. => keeps_execMacControlFrameRx h
  | .pauseExpiry .. => keeps_execPauseExpiry h
  | .flexeOhFrameRx .. => keeps_execFlexeOhFrameRx h
  | .flexeMarkerMissed .. => keeps_execFlexeMarkerMissed h
  | .flexeCrSet .. => keeps_execFlexeCrSet h
  | .flexeCBitChange .. => keeps_execFlexeCBitChange h
  | .flexeNoAck .. => keeps_execFlexeNoAck h
  | .ingressPass .. => keeps_execIngressPass h
  | .egressPass .. => keeps_execEgressPass h
  | .stageTimeout .. => keeps_execStageTimeout h
  | .flowCacheFill .. => keeps_execFlowCacheFill h
  | .bridgeTransfer .. => keeps_execBridgeTransfer h
  | .bridgeStall .. => keeps_execBridgeStall h
  | .voqAdmission .. => keeps_execVoqAdmission h
  | .bufAllocRetry .. => keeps_execBufAllocRetry h
  | .bufExhaust .. => keeps_execBufExhaust h
  | .losslessReoffer .. => keeps_execLosslessReoffer h
  | .spillWrite .. => keeps_execSpillWrite h
  | .readBack .. => keeps_execReadBack h
  | .rerequest .. => keeps_execRerequest h
  | .request .. => keeps_execRequest h
  | .grantIssue .. => keeps_execGrantIssue h
  | .grant .. => keeps_execGrant h
  | .deny .. => keeps_execDeny h
  | .denyHoldoffEnd .. => keeps_execDenyHoldoffEnd h
  | .voqDequeue .. => keeps_execVoqDequeue h
  | .ageDrain .. => keeps_execAgeDrain h
  | .dualStreamSwitch .. => keeps_execDualStreamSwitch h
  | .cell .. => keeps_execCell h
  | .reassemblyGap .. => keeps_execReassemblyGap h
  | .announce .. => keeps_execAnnounce h
  | .announceRepeat .. => keeps_execAnnounceRepeat h
  | .withdrawalLapse .. => keeps_execWithdrawalLapse h
  | .link .. => keeps_execLink h
  | .linkSend .. => keeps_execLinkSend h
  | .reach .. => keeps_execReach h
  | .reachChunkExpiry .. => keeps_execReachChunkExpiry h
  | .fc .. => keeps_execFc h
  | .unitHeaderFailure .. => keeps_execUnitHeaderFailure h
  | .fabricLaneAligned .. => keeps_execFabricLaneAligned h
  | .fabricLaneLoss .. => keeps_execFabricLaneLoss h
  | .fabricLaneConfirmed .. => keeps_execFabricLaneConfirmed h
  | .linkSilence .. => keeps_execLinkSilence h
  | .schedulerSelection .. => keeps_execSchedulerSelection h
  | .frameTransmit .. => keeps_execFrameTransmit h
  | .directInjectEnqueue .. => keeps_execDirectInjectEnqueue h
  | .puntDelivery .. => keeps_execPuntDelivery h
  | .descriptorFetch .. => keeps_execDescriptorFetch h
  | .hostIndexPoll .. => keeps_execHostIndexPoll h
  | .dmaReadError .. => keeps_execDmaReadError h
  | .dmaTimeout .. => keeps_execDmaTimeout h
  | .completionHeldFlush .. => keeps_execCompletionHeldFlush h
  | .interruptModeration .. => keeps_execInterruptModeration h
  | .commandTimeout .. => keeps_execCommandTimeout h
  | .watchdogExpiry .. => keeps_execWatchdogExpiry h
  | .managementRestart .. => keeps_execManagementRestart h
  | .managementRestartEnd .. => keeps_execManagementRestartEnd h
  | .heartbeatSend .. => keeps_execHeartbeatSend h
  | .heartbeat .. => keeps_execHeartbeat h
  | .neighbourLost .. => keeps_execNeighbourLost h
  | .headBeacon .. => keeps_execHeadBeacon h
  | .headLost .. => keeps_execHeadLost h
  | .claim .. => keeps_execClaim h
  | .electionSettle .. => keeps_execElectionSettle h
  | .electionRetry .. => keeps_execElectionRetry h
  | .position .. => keeps_execPosition h
  | .member .. => keeps_execMember h
  | .relayCmd .. => keeps_execRelayCmd h
  | .relayResp .. => keeps_execRelayResp h
  | .fragmentTimeout .. => keeps_execFragmentTimeout h
  | .imageChunk .. => keeps_execImageChunk h
  | .imageAck .. => keeps_execImageAck h
  | .command .. => keeps_execCommand h
  | .busCollision .. => keeps_execBusCollision h
  | .parkEntry .. => keeps_execParkEntry h
  | .wake .. => keeps_execWake h
  | .pairBeat .. => keeps_execPairBeat h
  | .pairBeatSend .. => keeps_execPairBeatSend h
  | .peerLost .. => keeps_execPeerLost h
  | .relinquish .. => keeps_execRelinquish h
  | .relinquishWaitExpiry .. => keeps_execRelinquishWaitExpiry h
  | .wtrExpiry .. => keeps_execWtrExpiry h
  | .pairingTimeout .. => keeps_execPairingTimeout h
  | .mirrorCfg .. => keeps_execMirrorCfg h
  | .mirrorFlow .. => keeps_execMirrorFlow h
  | .mirrorAck .. => keeps_execMirrorAck h
  | .flowLockLapse .. => keeps_execFlowLockLapse h
  | .flowAging .. => keeps_execFlowAging h
  | .tcamEntryRewrite .. => keeps_execTcamEntryRewrite h
  | .tcamScrubPass .. => keeps_execTcamScrubPass h
  | .sramScrubPass .. => keeps_execSramScrubPass h
  | .bufferAuditPass .. => keeps_execBufferAuditPass h
  | .configAuditPass .. => keeps_execConfigAuditPass h
  | .flashPatrol .. => keeps_execFlashPatrol h
  | .ddrRecenter .. => keeps_execDdrRecenter h
  | .ddrScrub .. => keeps_execDdrScrub h
  | .ddrRequestTimeout .. => keeps_execDdrRequestTimeout h
  | .ddrWriteQueueAge .. => keeps_execDdrWriteQueueAge h
  | .rowWindowStart .. => keeps_execRowWindowStart h
  | .flashCopyChecked .. => keeps_execFlashCopyChecked h
  | .probationLimit .. => keeps_execProbationLimit h
  | .settingsCompaction .. => keeps_execSettingsCompaction h
  | .knellSectorErase .. => keeps_execKnellSectorErase h
  | .retiredPageRecord .. => keeps_execRetiredPageRecord h
  | .secondConfirmation .. => keeps_execSecondConfirmation h
  | .hbmTrainingDone .. => keeps_execHbmTrainingDone h
  | .startReady .. => keeps_execStartReady h
  | .flashOperationTimeout .. => keeps_execFlashOperationTimeout h
  | .flashWriteDone .. => keeps_execFlashWriteDone h
  | .verificationComplete .. => keeps_execVerificationComplete h
  | .auditScanComplete .. => keeps_execAuditScanComplete h
  | .configWordRewrite .. => keeps_execConfigWordRewrite h
  | .clockLockLoss .. => keeps_execClockLockLoss h
  | .refusedPacketAge .. => keeps_execRefusedPacketAge h
  | .pwrFailNRise .. => keeps_execPwrFailNRise h

/-- Settles O37: the front of the queue leaves soundness alone, and its row, or the idle step, keeps it. -/
theorem everyStepKeepsSoundness : Obligations.EveryStepKeepsSoundness := by
  unfold Obligations.EveryStepKeepsSoundness
  intro s t h e
  unfold step at e
  split at e
  · injection e with e
    exact e ▸ keeps_idleStep h
  · next i rest _ =>
    have hrest : sound { s with pending := rest } := sound_mk h rfl
    exact keeps_exec hrest i t e

end Sys2Proof.Proofs
end

section
/-! SUPPORT. What a command's bookkeeping and the queries leave as it was (R382, R383, R386, R402). -/

namespace Sys2Proof.Proofs
open Sys2Proof Sys2Proof.Machine Sys2Proof.Laws

/-! ### Arrival, refusal and completion -/

theorem sameData_taken (op : Nat) (c : Cmd) (s : State) : sameData s (taken op c s) := by
  obtain ⟨_, _, _, _, _, _, e⟩ := taken_shape op c s
  rw [e]
  exact (leaves_refl false s).1

/-- Marking what staged changes wait for leaves them otherwise the same. -/
theorem undue_markDue (n : Nat) (due : Due) (s : State) : undue (markDue n due s).staged = undue s.staged := by
  unfold markDue
  split
  · rfl
  · have hmark : undue ((s.staged.drop n).map (fun x => { x with due := due })) = undue (s.staged.drop n) := by
      unfold undue
      rw [List.map_map]
      rfl
    unfold undue at hmark ⊢
    rw [List.map_append, hmark, ← List.map_append, List.take_append_drop]

/-- Nothing but the staged changes is marked. -/
theorem sameData_markDue (n : Nat) (due : Due) (s : State) :
    sameData { s with staged := (markDue n due s).staged } (markDue n due s) := by
  unfold markDue
  split <;> exact (leaves_refl false _).1

/-- Settles O38: the frame passes through each operation of a command's bookkeeping. -/
theorem bookkeepingLeavesTheData : Obligations.BookkeepingLeavesTheData := by
  unfold Obligations.BookkeepingLeavesTheData
  refine ⟨sameData_taken, fun h i st resp eff a b t => ?_, fun op c s t => ?_, fun h status s => ?_⟩
  · exact (leaves_finish (leaves_refl false t)).1
  · exact ⟨undue_markDue _ _ t, sameData_markDue _ _ t⟩
  · exact (leaves_refuse (leaves_refl false s)).1

/-- Settles O42: a refusal consumes the descriptor and answers, and both leave the data and the RUNNING commands. -/
theorem refusalsAffectNoOtherCommand : Obligations.RefusalsAffectNoOtherCommand := by
  unfold Obligations.RefusalsAffectNoOtherCommand
  intro h status s
  obtain ⟨hdata, hrunning⟩ : leaves true s (refuse h status s) := leaves_refuse (leaves_refl true s)
  exact ⟨hrunning rfl, hdata⟩

/-! ### The queries -/

section
variable {k : Bool} {r s : State}

/-- A check before the rest of a query's rules. -/
theorem leavesVerdict_check {p : Prop} [Decidable p] {st : Nat} {v : Verdict} (hv : leavesVerdict k r v) :
    leavesVerdict k r (if p then .refuse st else v) := leavesVerdict_ite leavesVerdict_refuse hv

/-- Drawing a free value leaves the data. -/
theorem leaves_drawn (h : leaves k r s) : leaves k r (drawn s) := leaves_mk h rfl
end

theorem sysInfo_leaves : leavesSpec specSysInfo := fun _ _ _ hs => leavesVerdict_done hs

theorem sysCmdQuery_leaves : leavesSpec specSysCmdQuery := fun _ _ _ hs => by
  refine leavesVerdict_check ?_
  split <;> exact leavesVerdict_done hs

theorem portQuery_leaves : leavesSpec specPortQuery := fun _ _ _ hs => by
  refine leavesVerdict_check ?_
  split
  · exact leavesVerdict_refuse
  · exact leavesVerdict_done hs

theorem flexeQuery_leaves : leavesSpec specFlexeQuery := fun _ _ _ hs => by
  refine leavesVerdict_check ?_
  split
  · exact leavesVerdict_refuse
  · exact leavesVerdict_done hs

theorem ruleOverlaps_leaves : leavesSpec specRuleOverlaps := fun _ _ _ hs => by
  refine leavesVerdict_check ?_
  split
  · exact leavesVerdict_refuse
  · exact leavesVerdict_done hs

/-- The ACTION of an epoch in which the rule is not in force is drawn (log 18, place 1). -/
theorem ruleQuery_leaves : leavesSpec specRuleQuery := fun _ _ _ hs => by
  refine leavesVerdict_check (leavesVerdict_check ?_)
  split
  · exact leavesVerdict_refuse
  · exact leavesVerdict_done (leaves_drawn hs)

theorem tcamStatus_leaves : leavesSpec specTcamStatus := fun _ _ _ hs => leavesVerdict_check (leavesVerdict_done hs)

theorem tableCommitQuery_leaves : leavesSpec specTableCommitQuery := fun _ _ _ hs => leavesVerdict_check (leavesVerdict_done hs)

theorem fibStatus_leaves : leavesSpec specFibStatus := fun _ _ _ hs => leavesVerdict_done hs

theorem idQuery_leaves : leavesSpec specIdQuery := fun _ _ _ hs => leavesVerdict_check (leavesVerdict_done hs)

theorem flowStatus_leaves : leavesSpec specFlowStatus := fun _ _ _ hs => leavesVerdict_done hs

theorem voqQuery_leaves : leavesSpec specVoqQuery := fun _ _ _ hs => leavesVerdict_check (leavesVerdict_done hs)

theorem bufStatus_leaves : leavesSpec specBufStatus := fun _ _ _ hs => leavesVerdict_done hs

theorem schedQuery_leaves : leavesSpec specSchedQuery := fun _ _ _ hs => by
  refine leavesVerdict_check ?_
  split
  · exact leavesVerdict_refuse
  · exact leavesVerdict_done hs

theorem policerQuery_leaves : leavesSpec specPolicerQuery := fun _ _ _ hs => leavesVerdict_check (leavesVerdict_done hs)

theorem fabricQuery_leaves : leavesSpec specFabricQuery := fun _ _ _ hs => leavesVerdict_check (leavesVerdict_done hs)

theorem fabricLaneQuery_leaves : leavesSpec specFabricLaneQuery := fun _ _ _ hs => leavesVerdict_check (leavesVerdict_done hs)

theorem ringQuery_leaves : leavesSpec specRingQuery := fun _ _ _ hs => by
  refine leavesVerdict_check ?_
  split <;> exact leavesVerdict_done hs

/-- The STATE of a follower is drawn (log 18, place 24). -/
theorem tempoQuery_leaves : leavesSpec specTempoQuery := fun _ _ _ hs => leavesVerdict_done (leaves_drawn hs)

theorem carillonStatus_leaves : leavesSpec specCarillonStatus := fun _ _ _ hs => leavesVerdict_done hs

theorem protectQuery_leaves : leavesSpec specProtectQuery := fun _ _ _ hs =>
  leavesVerdict_check (leavesVerdict_check (leavesVerdict_done hs))

theorem fwStatus_leaves : leavesSpec specFwStatus := fun _ _ _ hs => leavesVerdict_done hs

theorem settingsRead_leaves : leavesSpec specSettingsRead := fun _ _ _ hs => by
  refine leavesVerdict_check ?_
  split
  · exact leavesVerdict_refuse
  · exact leavesVerdict_done hs

theorem attestQuote_leaves : leavesSpec specAttestQuote := fun _ _ _ hs => leavesVerdict_done hs

theorem counterRead_leaves : leavesSpec specCounterRead := fun _ _ _ hs =>
  leavesVerdict_check (leavesVerdict_check (leavesVerdict_done hs))

theorem tollStatus_leaves : leavesSpec specTollStatus := fun _ _ _ hs => leavesVerdict_done hs

theorem powerStatus_leaves : leavesSpec specPowerStatus := fun _ _ _ hs => leavesVerdict_done hs

theorem humStatus_leaves : leavesSpec specHumStatus := fun _ _ _ hs => leavesVerdict_done hs

theorem knellRead_leaves : leavesSpec specKnellRead := fun _ _ _ hs => by
  refine leavesVerdict_check (leavesVerdict_check ?_)
  split
  · exact leavesVerdict_refuse
  · exact leavesVerdict_done hs

theorem auditContextRead_leaves : leavesSpec specAuditContextRead := fun _ _ _ hs => leavesVerdict_check (leavesVerdict_done hs)

theorem auditStatus_leaves : leavesSpec specAuditStatus := fun _ _ _ hs => leavesVerdict_done hs

theorem memStatus_leaves : leavesSpec specMemStatus := fun _ _ _ hs => leavesVerdict_done hs

theorem memRetiredQuery_leaves : leavesSpec specMemRetiredQuery := fun _ _ _ hs => leavesVerdict_check (leavesVerdict_done hs)

theorem diagFaultQuery_leaves : leavesSpec specDiagFaultQuery := fun _ _ _ hs => leavesVerdict_done hs

/-- A row that runs a command whose own rules leave the data, and that no pair mirrors. -/
def leavesRow (f : Cmd → Instr) : Prop :=
  ∃ op spec, leavesSpec spec ∧ spec.kind ≠ .config ∧ ∀ c s, exec (f c) s = runCmd op spec c s

/-- Such a row leaves the data however its command is taken: refused, relayed, held or completed. -/
theorem sameData_of_leavesRow {f : Cmd → Instr} {c : Cmd} {s t : State} (hf : leavesRow f) (e : exec (f c) s = .next t) : sameData s t := by
  obtain ⟨_, _, hspec, hkind, hexec⟩ := hf
  exact leaves_runQuery hkind hspec ((hexec c s).symm.trans e)

theorem leavesRow_of_isQuery : ∀ f, isQuery f → leavesRow f := by
  unfold isQuery
  simp only [List.forall_mem_cons]
  exact ⟨⟨_, _, sysCmdQuery_leaves, by decide, fun _ _ => rfl⟩, ⟨_, _, carillonStatus_leaves, by decide, fun _ _ => rfl⟩,
    ⟨_, _, tableCommitQuery_leaves, by decide, fun _ _ => rfl⟩, ⟨_, _, flexeQuery_leaves, by decide, fun _ _ => rfl⟩,
    ⟨_, _, fwStatus_leaves, by decide, fun _ _ => rfl⟩, ⟨_, _, attestQuote_leaves, by decide, fun _ _ => rfl⟩,
    ⟨_, _, settingsRead_leaves, by decide, fun _ _ => rfl⟩, ⟨_, _, humStatus_leaves, by decide, fun _ _ => rfl⟩,
    ⟨_, _, auditContextRead_leaves, by decide, fun _ _ => rfl⟩, ⟨_, _, auditStatus_leaves, by decide, fun _ _ => rfl⟩,
    ⟨_, _, diagFaultQuery_leaves, by decide, fun _ _ => rfl⟩, ⟨_, _, memStatus_leaves, by decide, fun _ _ => rfl⟩,
    ⟨_, _, memRetiredQuery_leaves, by decide, fun _ _ => rfl⟩, ⟨_, _, ruleOverlaps_leaves, by decide, fun _ _ => rfl⟩,
    ⟨_, _, ruleQuery_leaves, by decide, fun _ _ => rfl⟩, ⟨_, _, tcamStatus_leaves, by decide, fun _ _ => rfl⟩,
    ⟨_, _, portQuery_leaves, by decide, fun _ _ => rfl⟩, ⟨_, _, powerStatus_leaves, by decide, fun _ _ => rfl⟩,
    ⟨_, _, knellRead_leaves, by decide, fun _ _ => rfl⟩, ⟨_, _, protectQuery_leaves, by decide, fun _ _ => rfl⟩,
    ⟨_, _, voqQuery_leaves, by decide, fun _ _ => rfl⟩, ⟨_, _, bufStatus_leaves, by decide, fun _ _ => rfl⟩,
    ⟨_, _, fabricQuery_leaves, by decide, fun _ _ => rfl⟩, ⟨_, _, fabricLaneQuery_leaves, by decide, fun _ _ => rfl⟩,
    ⟨_, _, ringQuery_leaves, by decide, fun _ _ => rfl⟩, ⟨_, _, schedQuery_leaves, by decide, fun _ _ => rfl⟩,
    ⟨_, _, policerQuery_leaves, by decide, fun _ _ => rfl⟩, ⟨_, _, sysInfo_leaves, by decide, fun _ _ => rfl⟩,
    ⟨_, _, fibStatus_leaves, by decide, fun _ _ => rfl⟩, ⟨_, _, idQuery_leaves, by decide, fun _ _ => rfl⟩,
    ⟨_, _, flowStatus_leaves, by decide, fun _ _ => rfl⟩, ⟨_, _, tempoQuery_leaves, by decide, fun _ _ => rfl⟩,
    ⟨_, _, counterRead_leaves, by decide, fun _ _ => rfl⟩, ⟨_, _, tollStatus_leaves, by decide, fun _ _ => rfl⟩,
    List.forall_mem_nil _⟩

/-- Settles O39: a query's own rules refuse or answer over the state they were given; `journal.read` has its own lemma. -/
theorem queriesLeaveTheData : Obligations.QueriesLeaveTheData :=
  ⟨fun f hf _ _ _ e => sameData_of_leavesRow (leavesRow_of_isQuery f hf) e, fun _ _ _ e => leaves_journalRead e⟩

end Sys2Proof.Proofs
end

section
/-! SUPPORT. The checks that come before a command's own rules, in the order of R385. -/

namespace Sys2Proof.Proofs
open Sys2Proof Sys2Proof.Machine Sys2Proof.Laws

/-- A command that its source offers is kept POSTED while Teruo cannot take it (R388, R395, R396). -/
theorem enter_holds {op : Nat} {begin : HeldCmd → State → State} {c : Cmd} {s : State} (ho : sourceOffers c s)
    (hc : canAccept s = false) : enter begin (heldOf op c) s = hold (heldOf op c) (arrived op c s) := by
  unfold enter arrived
  unfold sourceOffers at ho
  by_cases hring : c.source ≤ 1
  · rw [if_pos hring] at ho
    obtain ⟨-, x, hx, htyp, hfn, hstate, -⟩ := ho
    simp [heldOf, hring, hx, htyp, hfn, hstate, hc]
  by_cases hwindow : c.source ≤ 3
  · rw [if_neg hring, if_pos hwindow] at ho
    obtain ⟨hfn, hbar, hpending, hrunning, hlen⟩ := ho
    have hc' : canAccept { s with mgmt := { s.mgmt with mbx := .pending, mbxFn := c.source - 2 } } = false := hc
    simp [heldOf, hring, hwindow, hfn, hbar, hpending, hrunning, Nat.not_lt.mpr hlen, hc']
  · rw [if_neg hring, if_neg hwindow] at ho
    obtain ⟨-, hremote, hparked, hdead, hlevel⟩ := ho
    simp [heldOf, hring, hwindow, hremote, hparked, hdead, Nat.not_le.mpr hlevel, hc]

section
variable {spec : CmdSpec} {h : HeldCmd} {s : State}

/-- Recovery mode serves its own commands only, from a window or the bus (R511, R512). -/
theorem beginCmd_outsideRecovery (hrom : s.mgmt.rom = true) (hop : recoveryOp h.op = false ∨ ¬ (2 ≤ h.source ∧ h.source ≤ 4)) :
    beginCmd spec h s = refuse h St.unknownOpcode s := by
  have hserved : (recoveryOp h.op && 2 ≤ h.source && h.source ≤ 4) = false := by
    rw [Bool.and_assoc, Bool.and_eq_false_iff, ← Bool.decide_and, decide_eq_false_iff_not]
    exact hop
  unfold beginCmd
  rw [hrom, hserved]
  rfl

variable (hrom : s.mgmt.rom = false)
include hrom

theorem beginCmd_tagInUse (htag : tagInUse h s = true) : beginCmd spec h s = refuse h St.tagInUse s := by
  simp [beginCmd, hrom, htag]

theorem beginCmd_headerBad (htag : tagInUse h s = false) (hhdr : headerBad spec.minLen h = true) :
    beginCmd spec h s = refuse h St.invalidParam s := by
  simp [beginCmd, hrom, htag, hhdr]

/-- R384: no open carillon port reaches the target. -/
theorem beginCmd_unreachable (htag : tagInUse h s = false) (hhdr : headerBad spec.minLen h = false) (hrelay : relayTo h s = some none) :
    beginCmd spec h s = refuse h St.targetUnreachable s := by
  simp [beginCmd, hrom, htag, hhdr, hrelay]
end

/-- The row of every command of the catalogue runs rules of its fixed length under its opcode. -/
theorem exec_isCommand : ∀ p, isCommand p → ∃ spec : CmdSpec, (∀ c s, exec (p.2.2 c) s = runCmd p.1 spec c s) ∧ spec.minLen = p.2.1 := by
  unfold isCommand
  simp only [List.forall_mem_cons, List.not_mem_nil, false_implies, implies_true, and_true]
  and_intros
  all_goals exact ⟨_, fun _ _ => rfl, rfl⟩

/-- Settles O41: the command arrives, and is held or begun; what begins it makes the checks one after the other. -/
theorem commandsTurnedAway : Obligations.CommandsTurnedAway := by
  unfold Obligations.CommandsTurnedAway
  rintro p hp c s h rfl ho
  obtain ⟨spec, hexec, hlen⟩ := exec_isCommand p hp
  rw [hexec, ← hlen]
  unfold runCmd issue
  refine ⟨fun hc => congrArg _ (enter_holds ho hc), fun hc => ?_⟩
  rw [enter_begins ho hc]
  refine ⟨fun hrom hop => ?_, fun hrom htag => ?_, fun hrom htag hhdr => ?_, fun hrom htag hhdr hrelay => ?_⟩
  · rw [beginCmd_outsideRecovery (by simpa using hrom) hop]
  · rw [beginCmd_tagInUse (by simpa using hrom) (by simpa using htag)]
  · rw [beginCmd_headerBad (by simpa using hrom) (by simpa using htag) hhdr]
  · rw [beginCmd_unreachable (by simpa using hrom) (by simpa using htag) hhdr hrelay]

end Sys2Proof.Proofs
end

section
/-! SUPPORT. The system commands' own rules (R390, R391, R398, R402 to R406). -/

namespace Sys2Proof.Proofs
open Sys2Proof Sys2Proof.Machine Sys2Proof.Laws

/-- The records that `journal.read` answers: from the first asked for that the journal still holds, oldest first (R404). -/
def recordsRead (h : HeldCmd) (u : State) : List JRec :=
  let oldest := u.mgmt.journalNext - u.mgmt.journal.length
  (u.mgmt.journal.reverse.drop (max (par h 0 8) oldest - oldest)).take (par h 8 2)

theorem recordsRead_length_le (h : HeldCmd) (u : State) : (recordsRead h u).length ≤ par h 8 2 := List.length_take_le _ _

theorem mem_journal_of_mem_recordsRead {h : HeldCmd} {u : State} {j : JRec} (hj : j ∈ recordsRead h u) : j ∈ u.mgmt.journal :=
  List.mem_reverse.mp (List.mem_of_mem_drop (List.mem_of_mem_take hj))

section
variable {h : HeldCmd} {u : State}

/-- Table 11-11: 8 bytes of the part and its form, then 36 of what runs on it. -/
theorem sysInfo_answers (h : HeldCmd) (u : State) : ∃ rest : List Byte, rest.length = 36 ∧
    sysInfo h u = .done St.ok (le 2 0x1640 ++ le 1 0xB0 ++ le 1 u.glb.form ++ rest) u := by
  unfold sysInfo
  simp only [List.append_assoc]
  exact ⟨_, by simp only [List.length_append, le_length, zeros_length], rfl⟩

/-- The form of Table 11-4. -/
theorem nameBad_eq_false (hsrc : par h 0 1 ≤ 5) (hz : parZero h 1 1 = true) : nameBad h = false := by
  simp [nameBad, Nat.not_lt.mpr hsrc, hz]

section
variable (hsrc : par h 0 1 ≤ 5) (hz : parZero h 1 1 = true)
include hsrc hz

theorem sysAbort_ends {r : Running} (hr : namedRunning (par h 0 1) (par h 2 2) (par h 4 4) u = some r)
    (hw : waitsMirror r.waits = false) : sysAbort h u = .done St.ok [] (endEarly St.aborted r u) := by
  simp [sysAbort, nameBad_eq_false hsrc hz, hr, hw]

theorem sysCmdQuery_running {r : Running} (hr : namedRunning (par h 0 1) (par h 2 2) (par h 4 4) u = some r) :
    sysCmdQuery h u = .done St.ok (le 1 1 ++ zeros 1 ++ le 2 r.cmd.op ++ zeros 12) u := by
  simp [sysCmdQuery, nameBad_eq_false hsrc hz, hr]

theorem sysCmdQuery_done {d : DoneCmd} (hr : namedRunning (par h 0 1) (par h 2 2) (par h 4 4) u = none)
    (hd : namedDone (par h 0 1) (par h 2 2) (par h 4 4) u = some d) :
    sysCmdQuery h u = .done St.ok (le 1 2 ++ zeros 1 ++ le 2 d.op ++ le 2 d.status ++ zeros 2 ++ le 8 d.journalSeq) u := by
  simp [sysCmdQuery, nameBad_eq_false hsrc hz, hr, hd]
end

theorem sysRestart_orders (hz : parZero h 0 4 = true) :
    sysRestart h u = .done St.ok [] { u with mgmt := { u.mgmt with restartDue := some (u.elapsed + 10000000) } } := by
  simp [sysRestart, hz]

/-- A ring bound is written the events that waited at its function (R398). -/
theorem eventBind_binds {r : Option Nat} (hfn : par h 0 1 ≤ 1) (hex : fnExists (par h 0 1) u = true) (hz : parZero h 1 1 = true)
    (hmute : par h 4 2 % 2 = 0) (hz' : parZero h 6 2 = true) (hr : tollRingOf (par h 0 1) (par h 2 2) u = some r) :
    ∃ n, eventBind h u = .done St.ok [] (flushEvents n (par h 0 1)
      (updFn (par h 0 1) (fun f => { f with evRing := r, evMute := par h 4 2 }) u)) := by
  simp only [eventBind, hex, hz, hmute, hz', hr, decide_eq_false (Nat.not_lt.mpr hfn), Bool.not_true, bne_self_eq_false, Bool.or_self,
    Bool.false_eq_true, if_false]
  exact ⟨_, rfl⟩

section
variable (hmin : 1 ≤ par h 8 2) (hmax : par h 8 2 ≤ 1000) (hz : parZero h 10 6 = true) (hstart : par h 0 8 ≤ u.mgmt.journalNext)
include hmin hmax hz hstart

theorem journalRead_answers (hgood : u.mem.journalBad = false) :
    journalRead h u = .done St.ok (le 8 (u.mgmt.journalNext - u.mgmt.journal.length) ++ le 8 u.mgmt.journalNext ++
      (recordsRead h u).flatMap journalBytes) u := by
  simp [journalRead, recordsRead, hgood, hz, Nat.ne_of_gt hmin, Nat.not_lt.mpr hmax, Nat.not_lt.mpr hstart]

/-- R426: the read that meets a journal in error ends MEM_ERROR and clears the mark (log 73). -/
theorem journalRead_memError (hbad : u.mem.journalBad = true) :
    journalRead h u = .done St.memError [] { u with mem := { u.mem with journalBad := false } } := by
  simp [journalRead, hbad, hz, Nat.ne_of_gt hmin, Nat.not_lt.mpr hmax, Nat.not_lt.mpr hstart]
end
end

theorem exec_journalRead_memError {c : Cmd} {s u : State} (ha : takes 0x0106 16 c s u) (hmin : 1 ≤ arg c 8 2) (hmax : arg c 8 2 ≤ 1000)
    (hz : argZero c 10 6) (hstart : arg c 0 8 ≤ u.mgmt.journalNext) (hbad : u.mem.journalBad = true) :
    exec (.journalRead c) s = .next (closed 0x0106 c s (finish (heldOf 0x0106 c) (cmdIndex (heldOf 0x0106 c) s) St.memError [] false 0 0
      { u with mem := { u.mem with journalBad := false } })) := by
  obtain ⟨ha, rfl⟩ := ha
  exact runCmd_done (spec := specJournalRead) ha (fun h => by cases h) (journalRead_memError (h := heldOf 0x0106 c) hmin hmax hz hstart hbad)

theorem specOf_eq_none {op : Nat} (hop : ∀ x ∈ catalogue, x.1 ≠ op) : specOf op = none := by
  unfold specOf
  rw [Option.map_eq_none_iff, List.find?_eq_none]
  exact fun x hx he => hop x hx (eq_of_beq he)

/-- A command of no opcode of the catalogue is refused before any other check (R14, R385). -/
theorem exec_unknownOpcode {op : Nat} {c : Cmd} {s : State} (ho : sourceOffers c s) (hc : canAccept s = true)
    (hop : ∀ x ∈ catalogue, x.1 ≠ op) :
    exec (.unknownOpcode op c) s = .next (refuse (heldOf op c) St.unknownOpcode (arrived op c s)) := by
  have hnone : specOf (heldOf op c).op = none := specOf_eq_none hop
  show execUnknownOpcode op c s = _
  rw [execUnknownOpcode, enter_begins ho hc, beginAny, hnone]

/-- Settles O1: each command's own rules, once nothing of its form is refused, in the shape of its verdict. -/
theorem systemCommandsComplete : Obligations.SystemCommandsComplete := by
  unfold Obligations.SystemCommandsComplete
  refine ⟨fun c s u ha => ?_, fun c s u r ha hsrc hz hr hw => ?_, fun c s u r ha hsrc hz hr => ?_,
    fun c s u d ha hsrc hz hr hd => ?_, fun c s u ha hz => ?_, fun c s u r ha hfn hex hz hmute hz' hr => ?_,
    fun c s u ha hmin hmax hz hstart hgood => ?_,
    fun c s u ha hmin hmax hz hstart hbad => exec_journalRead_memError ha hmin hmax hz hstart hbad,
    fun op c s ho hc hop => exec_unknownOpcode ho hc hop⟩
  · obtain ⟨rest, hlen, hb⟩ := sysInfo_answers (heldOf 0x0101 c) u
    exact ⟨rest, hlen, queries_of (spec := specSysInfo) ha rfl rfl hb⟩
  · exact effects_of (spec := specSysAbort) ha rfl rfl (sysAbort_ends (h := heldOf 0x0102 c) hsrc hz hr hw)
  · exact queries_of (spec := specSysCmdQuery) ha rfl rfl (sysCmdQuery_running (h := heldOf 0x0103 c) hsrc hz hr)
  · exact queries_of (spec := specSysCmdQuery) ha rfl rfl (sysCmdQuery_done (h := heldOf 0x0103 c) hsrc hz hr hd)
  · exact effects_of (spec := specSysRestart) ha rfl rfl (sysRestart_orders (h := heldOf 0x0104 c) hz)
  · obtain ⟨n, hb⟩ := eventBind_binds (h := heldOf 0x0105 c) hfn hex hz hmute hz' hr
    exact ⟨n, effects_of (spec := specEventBind) ha rfl rfl hb⟩
  · exact ⟨recordsRead (heldOf 0x0106 c) u, recordsRead_length_le _ _, fun _ => mem_journal_of_mem_recordsRead,
      queries_of (spec := specJournalRead) ha rfl rfl (journalRead_answers (h := heldOf 0x0106 c) hmin hmax hz hstart hgood)⟩

end Sys2Proof.Proofs
end

section
/-! SUPPORT. A configuration command at a member of a protection pair: mirrored, ended at once or refused (R471, R473). -/

namespace Sys2Proof.Proofs
open Sys2Proof Sys2Proof.Machine Sys2Proof.Laws

theorem kind_of_isConfig : ∀ p, isConfig p → p.2.1.kind = .config := by
  unfold isConfig
  simp only [List.forall_mem_cons, List.not_mem_nil, false_implies, implies_true, and_true]
  and_intros
  all_goals rfl

/-- Whether a member mirrors or stands by depends on its pair's own state alone. -/
theorem mirrors_prot {s t : State} (h : t.prot = s.prot) : mirrors t = mirrors s := by
  unfold mirrors
  rw [h]

theorem standsBy_prot {s t : State} (h : t.prot = s.prot) : standsBy t = standsBy s := by
  unfold standsBy
  rw [h]

/-- An accepted configuration command whose own rules stage its change: what becomes of it depends on the pair's own state alone. -/
theorem runCmd_config {op : Nat} {spec : CmdSpec} {c : Cmd} {s t : State} {st : Nat} {resp : List Byte}
    (ha : accepted op spec.minLen c s) (hk : spec.kind = .config) (hb : spec.body (heldOf op c) (taken op c s) = .done st resp t) :
    runCmd op spec c s = .next (
      if standsBy s then refuse (heldOf op c) St.protectStandby (arrived op c s)
      else if mirrors s then
        releaseUnmirrored (mirrorCfg 0 (blockBytes (heldOf op c)) (running (heldOf op c) (cmdIndex (heldOf op c) s)
          (.mirror s.prot.mirrorSeq) resp (markDue s.staged.length (.mirror s.prot.mirrorSeq) t)))
      else closed op c s (finish (heldOf op c) (cmdIndex (heldOf op c) s) st resp (st == St.ok) 0 0
        (mirrorCfg 0 (blockBytes (heldOf op c)) t))) := by
  rw [runCmd_begins ha]
  obtain ⟨-, -, hrom, htag, hhdr, htarget⟩ := ha
  have hrelay : relayTo (heldOf op c) (arrived op c s) = none := relayTo_own (by simpa using htarget)
  have hstands : standsBy (arrived op c s) = standsBy s := standsBy_prot (arrived_prot op c s)
  have hmirrors : mirrors (arrived op c s) = mirrors s := mirrors_prot (arrived_prot op c s)
  have hbody : spec.body (heldOf op c) (windowRunning (heldOf op c) (consumeCmd (heldOf op c) (arrived op c s))) = .done st resp t := hb
  have hjournalled : ∀ ok : Bool, (CmdKind.config != .query && (ok || CmdKind.config == .bulk)) = ok := by decide
  unfold beginCmd closed
  simp [hrom, htag, hhdr, hrelay, hbody, hk, standbyRefuses, hstands, hmirrors, hjournalled, arrived_cmdIndex]

/-! ### What keeps the pair's own state -/

theorem prot_of_leaves {k : Bool} {s t : State} (h : leaves k s t) : t.prot = s.prot := by
  obtain ⟨⟨-, -, -, -, -, -, -, -, -, -, -, -, -, -, -, -, -, -, -, hprot, -, -⟩, -⟩ := h
  exact hprot

@[simp] theorem flood_prot (typ dst : Nat) (b : List Byte) (s : State) : (flood typ dst b s).prot = s.prot :=
  prot_of_leaves (leaves_flood (leaves_refl false s))

theorem raiseEvent_prot {code : Nat} (a b c : Nat) (s : State) (hcode : faultClass code = none) :
    (raiseEvent code a b c s).prot = s.prot :=
  prot_of_leaves (leaves_raiseEvent hcode (leaves_refl false s))

@[simp] theorem running_prot (h : HeldCmd) (index : Nat) (w : WaitFor) (resp : List Byte) (s : State) :
    (running h index w resp s).prot = s.prot := rfl

@[simp] theorem markDue_prot (n : Nat) (due : Due) (s : State) : (markDue n due s).prot = s.prot := by
  unfold markDue
  split <;> rfl

/-! ### The mirror queue (R473) -/

theorem mirroring_of_mirrors {s : State} (h : mirrors s = true) : mirroring s = true := by
  unfold mirrors at h
  obtain ⟨hactive, hsync⟩ := Bool.and_eq_true_iff.mp h
  simp [mirroring, hactive, hsync]

/-- With room in its queue the member sends the change and goes on mirroring. -/
theorem mirrors_mirrorCfg {k : Nat} {b : List Byte} {s : State} (h : mirrors s = true) (hroom : s.prot.mirrorQueue.length < 65536) :
    mirrors (mirrorCfg k b s) = true := by
  unfold mirrorCfg mirrorOut
  rw [if_pos (mirroring_of_mirrors h), if_neg (Nat.not_le.mpr hroom), mirrors_prot (flood_prot _ _ _ _)]
  exact h

/-- With its queue full the member discards the change and takes its standby to be out of sync. -/
theorem mirrors_mirrorCfg_full {k : Nat} {b : List Byte} {s : State} (h : mirrors s = true)
    (hfull : 65536 ≤ s.prot.mirrorQueue.length) : mirrors (mirrorCfg k b s) = false := by
  unfold mirrorCfg mirrorOut
  rw [if_pos (mirroring_of_mirrors h), if_pos hfull, mirrors_prot (raiseEvent_prot _ _ _ _ rfl)]
  exact Bool.and_false _

theorem releaseUnmirrored_of_mirrors {s : State} (h : mirrors s = true) : releaseUnmirrored s = s := if_pos h

theorem releaseUnmirrored_of_not_mirrors {s : State} (h : mirrors s = false) : releaseUnmirrored s = releaseMirror s :=
  if_neg (Bool.eq_false_iff.mp h)

/-- Settles O43: the row runs its rules as a command, and where the member mirrors, its queue decides whether the wait goes on. -/
theorem mirroredConfiguration : Obligations.MirroredConfiguration := by
  unfold Obligations.MirroredConfiguration
  rintro p hp c s h st resp t u rfl ha hb rfl
  rw [exec_isConfig p hp, runCmd_config ha (kind_of_isConfig p hp) hb]
  refine ⟨fun hstands hm hmt => ?_, fun hstands hm => ?_, fun hstands => ?_⟩
  · generalize hu : running (heldOf p.1 c) (cmdIndex (heldOf p.1 c) s) (.mirror s.prot.mirrorSeq) resp
      (markDue s.staged.length (.mirror s.prot.mirrorSeq) t) = u
    have hprot : u.prot = t.prot := by rw [← hu, running_prot, markDue_prot]
    have hmu : mirrors u = true := (mirrors_prot hprot).trans hmt
    rw [if_neg (by simp [hstands]), if_pos hm, ← hprot]
    exact ⟨fun hroom => congrArg _ (releaseUnmirrored_of_mirrors (mirrors_mirrorCfg hmu hroom)),
      fun hfull => congrArg _ (releaseUnmirrored_of_not_mirrors (mirrors_mirrorCfg_full hmu hfull))⟩
  · rw [if_neg (by simp [hstands]), if_neg (by simp [hm])]
  · rw [if_pos hstands]

end Sys2Proof.Proofs
end

section
/-! SUPPORT. The rows of a protection pair: beats, switches, timers and the mirror (R471 to R480). -/

namespace Sys2Proof.Proofs
open Sys2Proof Sys2Proof.Machine Sys2Proof.Laws

@[simp] theorem advanceTo_prot (d : Nat) (s : State) : (advanceTo d s).prot = s.prot := by
  unfold advanceTo
  split <;> rfl

/-- Only a STANDBY or a member in WTR may switch (R475). -/
theorem standby_of_maySwitch {s : State} (h : maySwitch s = true) : s.prot.state = 4 ∨ s.prot.state = 5 := by
  unfold maySwitch at h
  obtain ⟨hstate, -⟩ := Bool.and_eq_true_iff.mp (Bool.and_eq_true_iff.mp h).1
  simpa using hstate

theorem not_active_of_maySwitch {s : State} (h : maySwitch s = true) : s.prot.state ≠ 6 := by
  rcases standby_of_maySwitch h with h4 | h5 <;> omega

section
variable {port : Nat} {msg : List Byte} {s u : State} {m : Msg}

/-! ### Beats and switches -/

/-- Table 13-5: the beat of this member's peer, on either path, moves the member. -/
theorem execPairBeat_ofPeer {bus : Bool} (hr : (if bus then busReceive 0x40 msg s else crlReceive port 0x40 msg s) = (some m, u))
    (hstate : u.prot.state ≠ 0) (hpeer : rdBe m.payload 4 8 = u.prot.peerSerial) :
    execPairBeat bus port msg s = .next (peerBeat m.payload u) := by
  unfold execPairBeat
  rw [hr]
  exact congrArg _ (if_pos (by simp [hstate, hpeer]))

theorem execPairBeatSend_sends (hstate : s.prot.state ≠ 0) (hparked : s.crl.parked = false) (hlevel : s.pwr.level < 5)
    (hrom : s.mgmt.rom = false) (hu : u = applyPair (advanceTo ((s.elapsed / 10000000 + 1) * 10000000) s)) :
    execPairBeatSend s = .next (busSend 0x40 0xFF (pairBeatOf u)
      (flood 0x40 0xFF (pairBeatOf u) { u with prot := { u.prot with ownBeat := pairBeatOf u } })) := by
  unfold execPairBeatSend
  rw [if_neg (by simp [hstate, hparked, hrom, Nat.not_le.mpr hlevel]), hu]
  rfl

/-- R480: an ACTIVE member that loses its peer mirrors to nobody. -/
theorem execPeerLost_active {p : Nat} (hp : s.prot.peerAt = some p) (hu : u = advanceTo (p + 30000000) s) (hstate : s.prot.state = 6) :
    execPeerLost s = .next (releaseMirror
      { u with prot := { u.prot with peerAt := none, peerSync := false, resync := false, wtrAt := none } }) := by
  have hactive : (updProt (fun p => { p with peerAt := none }) u).prot.state = 6 := by simp [hu, hstate]
  unfold execPeerLost
  rw [hp]
  dsimp only
  rw [← hu, if_pos hactive]
  rfl

/-- R475: a standby in sync that loses its peer takes over. -/
theorem execPeerLost_maySwitch {p : Nat} (hp : s.prot.peerAt = some p)
    (hu : u = updProt (fun p => { p with peerAt := none }) (advanceTo (p + 30000000) s)) (hswitch : maySwitch u = true) :
    execPeerLost s = .next (takeOver 0 u) := by
  unfold execPeerLost
  rw [hp]
  dsimp only
  rw [← hu, if_neg (not_active_of_maySwitch hswitch), if_pos hswitch]

/-- R476: the RELINQUISH of its own pair starts the member that stands by for it. -/
theorem execRelinquish_starts (hr : crlReceive port 0x44 msg s = (some m, u)) (hpair : rdBe m.payload 0 1 = u.prot.pair)
    (hstate : u.prot.state = 4 ∨ u.prot.state = 5 ∨ (u.prot.state = 3 ∧ u.prot.switching.isSome = true)) :
    execRelinquish port msg s = .next (takeOver ((u.prot.switching.map (·.2)).getD (rdBe m.payload 1 1)) u) := by
  unfold execRelinquish
  rw [hr]
  exact congrArg _ (if_pos (by simpa [hpair, or_assoc] using hstate))

theorem execRelinquishWaitExpiry_starts {d cause : Nat} (h : s.prot.switching = some (d, cause)) :
    execRelinquishWaitExpiry s = .next (takeOver cause (advanceTo d s)) := by
  unfold execRelinquishWaitExpiry
  rw [h]

/-- The old active member moves first (R476, log 76). -/
theorem execWtrExpiry_active {d : Nat} (h : s.prot.wtrAt = some d) (hstate : s.prot.state = 6) :
    execWtrExpiry s = .next (stepDown 4 (advanceTo d s)) := by
  unfold execWtrExpiry
  rw [h]
  exact congrArg _ (if_pos hstate)

/-- R479: the wait to restore over, the HOME member that may switch is triggered. -/
theorem execWtrExpiry_maySwitch {d : Nat} (h : s.prot.wtrAt = some d) (hswitch : maySwitch s = true) :
    execWtrExpiry s = .next (triggerSwitch 4 (advanceTo d s)) := by
  unfold execWtrExpiry
  rw [h]
  exact congrArg _ ((if_neg (not_active_of_maySwitch hswitch)).trans (if_pos hswitch))

theorem execPairingTimeout_starts (hstate : s.prot.state = 1) (hpeer : s.prot.peerAt = none) :
    execPairingTimeout s =
      .next (startActive (advanceTo (s.prot.since + (if isHome s then 3000000000 else 10000000000)) s)) := by
  unfold execPairingTimeout
  rw [if_pos (by simp [hstate, hpeer])]

/-! ### The mirror -/

/-- R471: a mirrored command in turn is staged, numbered and acknowledged. -/
theorem execMirrorCfg_command (hr : crlReceive port 0x41 msg s = (some m, u))
    (hturn : mirrorInTurn (rdBe m.payload 4 4) false u = true) (hkind : rdBe m.payload 0 1 = 0) :
    execMirrorCfg port msg s = .next (mirrorDone (rdBe m.payload 4 4) (applyMirrorCmd (m.payload.drop 8) u)) := by
  unfold execMirrorCfg
  rw [hr]
  dsimp only
  rw [hkind]
  exact congrArg _ (if_pos hturn)

/-- R471: so is a mirrored table-update descriptor. -/
theorem execMirrorCfg_descriptor (hr : crlReceive port 0x41 msg s = (some m, u))
    (hturn : mirrorInTurn (rdBe m.payload 4 4) false u = true) (hkind : rdBe m.payload 0 1 = 1) :
    execMirrorCfg port msg s = .next (mirrorDone (rdBe m.payload 4 4) (applyMirrorDesc (m.payload.drop 8) u)) := by
  unfold execMirrorCfg
  rw [hr]
  dsimp only
  rw [hkind]
  exact congrArg _ (if_pos hturn)

/-- R473: a mirrored context in turn is written. -/
theorem execMirrorFlow_writes (hr : crlReceive port 0x42 msg s = (some m, u))
    (hturn : mirrorInTurn (rdBe m.payload 0 4) false u = true) :
    execMirrorFlow port msg s =
      .next (mirrorDone (rdBe m.payload 0 4) (applyMirrorFlow (rdBe m.payload 4 1 == 1) (slice m.payload 8 128) u)) := by
  unfold execMirrorFlow
  rw [hr]
  exact congrArg _ (if_pos hturn)

/-- R471: where nothing waits for it, an acknowledgement empties the queue of what it covers, and does no more. -/
theorem execMirrorAck_nothingWaits {ack : Nat} (hr : crlReceive port 0x43 msg s = (some m, u)) (hstate : u.prot.state = 6)
    (hack : ack = rdBe m.payload 0 4) (hheld : u.prot.mirrorHeld = []) (hwaits : ∀ r ∈ u.mgmt.running, waitsMirror r.waits = false) :
    execMirrorAck port msg s = .next { u with prot := { u.prot with
      mirrorAcked := ack, mirrorQueue := u.prot.mirrorQueue.filter (fun q => !covered ack q), mirrorHeld := [] } } := by
  unfold execMirrorAck
  rw [hr]
  dsimp only
  rw [if_neg (by simp [hstate]), ← hack]
  simp only [updProt, hheld, List.filter_nil, List.foldl_nil]
  refine congrArg _ (congrArg (List.foldl _ _) (List.filter_eq_nil_iff.mpr fun r hrun => ?_))
  have hw := hwaits r hrun
  split
  next q hq => rw [hq] at hw; cases hw
  next => exact Bool.false_ne_true
end

/-- Settles O26: each row, and each message that its frame delivers, does what its rule gives. -/
theorem protectRowsComplete : Obligations.ProtectRowsComplete := by
  unfold Obligations.ProtectRowsComplete
  refine ⟨fun port msg s m u hr hstate hpeer => ?_, fun port msg s m u hr hstate hpeer => ?_,
    fun s u b hstate hparked hlevel hrom hu hbeat => ?_, fun s p u hp hu hstate => ?_, fun s p u hp hu _ hswitch => ?_,
    fun port msg s m u hr hpair hstate => ?_, fun s d cause h => ?_, fun s d h hstate => ?_, fun s d h hswitch => ?_,
    fun s hstate hpeer => ?_, fun port msg s m u hr hturn hkind => ?_, fun port msg s m u hr hturn hkind => ?_,
    fun port msg s m u hr hturn => ?_, fun port msg s m u ack hr hstate hack hheld hwaits => ?_⟩
  · exact execPairBeat_ofPeer (bus := false) hr hstate hpeer
  · exact execPairBeat_ofPeer (bus := true) hr hstate hpeer
  · subst hbeat
    exact execPairBeatSend_sends hstate hparked hlevel hrom hu
  · exact execPeerLost_active hp hu hstate
  · exact execPeerLost_maySwitch hp hu hswitch
  · exact execRelinquish_starts hr hpair hstate
  · exact execRelinquishWaitExpiry_starts h
  · exact execWtrExpiry_active h hstate
  · exact execWtrExpiry_maySwitch h hswitch
  · exact execPairingTimeout_starts hstate hpeer
  · exact execMirrorCfg_command hr hturn hkind
  · exact execMirrorCfg_descriptor hr hturn hkind
  · exact execMirrorFlow_writes hr hturn
  · exact execMirrorAck_nothingWaits hr hstate hack hheld hwaits

end Sys2Proof.Proofs
end

section
/-! SUPPORT. The commands of Toll (R567 to R572, R577), and what the event that `toll.start` raises leaves alone. -/

namespace Sys2Proof.Proofs
open Sys2Proof Sys2Proof.Machine Sys2Proof.Laws

/-! ### An event on its way to the rings leaves the counters -/

/-- `t` has the counters and the management bus of `r`. -/
def countsAs (r t : State) : Prop := t.ctrs = r.ctrs ∧ t.bus = r.bus

section
variable {r s : State}

theorem countsAs_refl (s : State) : countsAs s s := ⟨rfl, rfl⟩

theorem countsAs_ite {p : Prop} [Decidable p] {a b : State} (ha : countsAs r a) (hb : countsAs r b) :
    countsAs r (if p then a else b) := by split <;> assumption

theorem countsAs_updFn {n : Nat} {f : PciFn → PciFn} (h : countsAs r s) : countsAs r (updFn n f s) := by
  unfold updFn
  exact countsAs_ite h h

theorem countsAs_sendMsix {n v : Nat} (h : countsAs r s) : countsAs r (sendMsix n v s) := by
  unfold sendMsix
  exact countsAs_ite h (countsAs_ite (countsAs_updFn h) h)

theorem countsAs_signalRing {n : Nat} (h : countsAs r s) : countsAs r (signalRing n s) := by
  unfold signalRing
  split
  · exact h
  · exact countsAs_sendMsix (s := updRing n _ s) h

theorem countsAs_moderate {n : Nat} (h : countsAs r s) : countsAs r (moderate n s) := by
  unfold moderate
  split
  · exact h
  · exact countsAs_ite h (countsAs_ite (countsAs_signalRing h) (countsAs_ite h h))

theorem countsAs_publish {n : Nat} (h : countsAs r s) : countsAs r (publish n s) := by
  obtain ⟨m, hm⟩ := publish_shape n s
  rw [hm]
  exact h

theorem countsAs_writeRecord {n : Nat} {rec : List Byte} (h : countsAs r s) : countsAs r (writeRecord n rec s) := by
  unfold writeRecord
  split
  · exact h
  · exact countsAs_moderate (countsAs_publish (s := updRing n _ (hostWrite _ _ s)) h)

theorem countsAs_flushEvents {fuel n : Nat} (h : countsAs r s) : countsAs r (flushEvents fuel n s) := by
  induction fuel generalizing s with
  | zero => exact h
  | succ fuel ih =>
    have hnumbered : countsAs r { s with mgmt := { s.mgmt with eventSeq := (s.mgmt.eventSeq + 1) % 4294967296 } } := h
    unfold flushEvents
    split
    · exact countsAs_ite (ih (countsAs_writeRecord (countsAs_updFn hnumbered))) (ih (countsAs_writeRecord (countsAs_updFn h)))
    · exact h

theorem countsAs_giveEvent {e : Event} {n : Nat} (h : countsAs r s) : countsAs r (giveEvent e n s) := by
  unfold giveEvent
  exact countsAs_ite h (countsAs_ite (countsAs_updFn h) (countsAs_flushEvents (countsAs_updFn h)))

theorem busEvent_off (e : Event) (hoff : s.bus.enable = false) : busEvent e s = s := by
  simp [busEvent, hoff]

/-- An event counts nothing at a package without a management bus: what counts is the bus's frame (R462, R466). -/
theorem raiseEvent_ctrs {code : Nat} (a b c : Nat) (hcode : faultClass code = none) (hoff : s.bus.enable = false) :
    (raiseEvent code a b c s).ctrs = s.ctrs := by
  have hnumbered : countsAs s { s with mgmt := { s.mgmt with eventSeq := (s.mgmt.eventSeq + 1) % 4294967296 } } := countsAs_refl s
  unfold raiseEvent
  rw [logFault_none hcode]
  dsimp only
  split
  · split <;> rfl
  · obtain ⟨hctrs, hbus⟩ := countsAs_giveEvent (n := 1) (countsAs_giveEvent (n := 0) hnumbered)
    rw [busEvent_off _ (by rw [hbus]; exact hoff), hctrs]

theorem raiseEvent_toll {code : Nat} (a b c : Nat) (s : State) (hcode : faultClass code = none) :
    (raiseEvent code a b c s).toll = s.toll := by
  obtain ⟨⟨-, -, -, -, -, -, -, -, -, -, htoll, -⟩, -⟩ := leaves_raiseEvent hcode (leaves_refl false s)
  exact htoll
end

/-! ### The commands' own rules -/

section
variable {h : HeldCmd} {u : State}

theorem tollConfig_sets {a b : Option Nat} (hten : par h 0 4 % 10 = 0) (hmin : 20 ≤ par h 0 4) (hmax : par h 0 4 ≤ 60000)
    (hz : parZero h 8 4 = true) (ha : tollRingOf 0 (par h 4 2) u = some a) (hb : tollRingOf 1 (par h 6 2) u = some b)
    (hrun : u.toll.running = false) :
    tollConfig h u = .done St.ok [] (updFn 1 (fun f => { f with tollRing := b }) (updFn 0 (fun f => { f with tollRing := a })
      { u with toll := { u.toll with period := par h 0 4 } })) := by
  simp [tollConfig, hten, Nat.not_lt.mpr hmin, Nat.not_lt.mpr hmax, hz, ha, hb, hrun]

/-- No entry selects no counter. -/
theorem tollSelect_clears (hfn : fnExists (par h 0 1) u = true) (hn : par h 2 2 = 0) (hz : parZero h 1 1 = true)
    (hz' : parZero h 4 4 = true) :
    tollSelect h u = .done St.ok (le 4 0) (updFn (par h 0 1) (fun f => { f with tollSel := [] }) u) := by
  simp [tollSelect, hfn, hn, hz, hz']

/-- The list selects what its entries name, in their order (R568). -/
theorem tollSelect_selects {b : List Byte} {ids : List Nat} (hfn : fnExists (par h 0 1) u = true) (hmin : 1 ≤ par h 2 2)
    (hmax : par h 2 2 ≤ 1024) (hz : parZero h 1 1 = true) (hz' : parZero h 4 4 = true) (hdata : h.data = some b)
    (hnames : ∀ k, k < par h 2 2 → entryIds (fit 16 (b.drop (16 * k))) ≠ [])
    (hids : ids = (List.range (par h 2 2)).flatMap (fun k => entryIds (fit 16 (b.drop (16 * k))))) (hlen : ids.length ≤ 4194304) :
    tollSelect h u = .done St.ok (le 4 ids.length) (updFn (par h 0 1) (fun f => { f with tollSel := ids }) u) := by
  have hany : ((List.range (par h 2 2)).map (fun k => entryIds (fit 16 (b.drop (16 * k))))).any (·.isEmpty) = false := by
    simpa [List.any_eq_false] using hnames
  have hflat : ((List.range (par h 2 2)).map (fun k => entryIds (fit 16 (b.drop (16 * k))))).flatMap id = ids := by
    rw [hids, List.flatMap_map]
    rfl
  simp only [tollSelect, hfn, Nat.not_lt.mpr hmax, hz, hz', Nat.ne_of_gt hmin, hdata, hany, hflat, Nat.not_lt.mpr hlen, decide_false,
    Bool.not_true, Bool.or_self, Bool.false_eq_true, if_false]

/-- Each total starts from its counter, and the first instant is the next multiple of PERIOD (R570). -/
theorem tollStart_starts (hz : parZero h 0 4 = true) (hrun : u.toll.running = false) :
    ∃ v, tollStart h u = .done St.ok [] (raiseEvent Ev.tollState 1 u.toll.period (v.toll.next / periodNs u) v) ∧
      v.toll.running = true ∧ v.toll.next = (tempoNs u / periodNs u + 1) * periodNs u ∧ v.toll.snap = u.ctrs ∧ v.ctrs = u.ctrs ∧
      v.bus = u.bus := by
  simp only [tollStart, hz, hrun, Bool.not_true, Bool.false_eq_true, if_false]
  exact ⟨_, rfl, rfl, rfl, rfl, rfl, rfl⟩

/-- Toll that is stopped has nothing to stop (log 44). -/
theorem tollStop_stopped (hz : parZero h 0 4 = true) (hrun : u.toll.running = false) : tollStop h u = .done St.ok [] u := by
  simp [tollStop, hz, hrun]

theorem tollStop_stops (hz : parZero h 0 4 = true) (hrun : u.toll.running = true) (hdone : dumpsDone u = true) :
    tollStop h u = .done St.ok [] (tollStopped u) := by
  simp [tollStop, hz, hrun, hdone]

theorem tollStop_waits (hz : parZero h 0 4 = true) (hrun : u.toll.running = true) (hdone : dumpsDone u = false) :
    tollStop h u = .wait .tollStop [] u := by
  simp [tollStop, hz, hrun, hdone]

theorem counterRead_answers {t : Nat} (hmin : 1 ≤ par h 4 2) (hfit : par h 0 4 % 64 + par h 4 2 ≤ 64) (hz : parZero h 6 2 = true)
    (hname : namesCounter (par h 0 4) = true) (ht : t = (if u.toll.running then u.toll.lastTempo else u.tempo.now)) :
    counterRead h u = .done St.ok
      (le 6 (secOf t) ++ le 4 (nsOf t) ++ le 6 (secOf t) ++ le 4 (nsOf t) ++ le 1 (b2n u.toll.running) ++ zeros 3 ++
        le 8 (if u.toll.running then u.toll.last else 0) ++
        (List.range (par h 4 2)).flatMap (fun k =>
          le 8 (if namesCounter (par h 0 4 + k) then readCounter (par h 0 4 + k) u else 0))) u := by
  have hmax : ¬ 64 < par h 4 2 := by omega
  simp only [counterRead, Nat.not_lt.mpr hmin, hmax, Nat.not_lt.mpr hfit, hz, hname, ← ht, decide_false, Bool.not_true, Bool.or_self,
    Bool.false_eq_true, if_false]
end

/-- `toll.start` completes over the running Toll; the event of its start counts nothing at a package without a management bus (R570). -/
theorem exec_tollStart {c : Cmd} {s u : State} (ha : takes 0x0D03 4 c s u) (hz : argZero c 0 4) (hrun : u.toll.running = false) :
    ∃ t, effects 0x0D03 (.tollStart c) c s t ∧ t.toll.running = true ∧ t.toll.next = (tempoNs u / periodNs u + 1) * periodNs u ∧
      t.toll.snap = u.ctrs ∧ (u.bus.enable = false → t.ctrs = u.ctrs) := by
  obtain ⟨v, hb, hruns, hnext, hsnap, hctrs, hbus⟩ := tollStart_starts (h := heldOf 0x0D03 c) hz hrun
  refine ⟨_, effects_of (spec := specTollStart) ha rfl rfl hb, ?_⟩
  rw [raiseEvent_toll _ _ _ v rfl]
  exact ⟨hruns, hnext, hsnap, fun hoff => (raiseEvent_ctrs _ _ _ rfl (by rw [hbus]; exact hoff)).trans hctrs⟩

/-- Settles O15: each command's own rules, once nothing of its form is refused, in the shape of its verdict. -/
theorem tollCommandsComplete : Obligations.TollCommandsComplete := by
  unfold Obligations.TollCommandsComplete
  refine ⟨fun c s u a b ha hten hmin hmax hz hra hrb hrun => ?_, fun c s u ids ha hfn hn hz hz' hids => ?_,
    fun c s u b ids ha hfn hmin hmax hz hz' hdata hnames hids hlen => ?_, fun c s u ha hz hrun => exec_tollStart ha hz hrun,
    fun c s u ha hz hrun => ?_, fun c s u ha hz hrun hdone => ?_, fun c s u ha hz hrun hdone => ?_,
    fun c s u t ha hmin hfit hz hname ht => ?_, fun c s u ha => ?_⟩
  · exact effects_of (spec := specTollConfig) ha rfl rfl (tollConfig_sets (h := heldOf 0x0D01 c) hten hmin hmax hz hra hrb hrun)
  · subst hids
    exact effectsWith_of (spec := specTollSelect) ha rfl rfl (tollSelect_clears (h := heldOf 0x0D02 c) hfn hn hz hz')
  · exact effectsWith_of (spec := specTollSelect) ha rfl rfl
      (tollSelect_selects (h := heldOf 0x0D02 c) hfn hmin hmax hz hz' hdata hnames hids hlen)
  · exact effects_of (spec := specTollStop) ha rfl rfl (tollStop_stopped (h := heldOf 0x0D04 c) hz hrun)
  · exact effects_of (spec := specTollStop) ha rfl rfl (tollStop_stops (h := heldOf 0x0D04 c) hz hrun hdone)
  · exact runs_of (spec := specTollStop) ha rfl (tollStop_waits (h := heldOf 0x0D04 c) hz hrun hdone)
  · exact queries_of (spec := specCounterRead) ha rfl rfl (counterRead_answers (h := heldOf 0x0D05 c) hmin hfit hz hname ht)
  · exact queries_of (spec := specTollStatus) ha rfl rfl rfl

end Sys2Proof.Proofs
end

section
/-! SUPPORT. The step itself (log 1): the front of the queue, the idle step, and that every row answers; and the accesses that GLB_ERROR records
(R586). -/

namespace Sys2Proof.Proofs
open Sys2Proof Sys2Proof.Machine Sys2Proof.Laws

/-- Settles O33: the queue's rest is all that the step changes before it runs the row. -/
theorem stepRunsTheFrontCommand : Obligations.StepRunsTheFrontCommand := fun _ _ _ => rfl

/-! ### The idle step -/

theorem step_idle {s : State} (h : s.pending = []) : step s = .next (idleStep s) := by
  unfold step
  rw [h]

/-- With nothing armed, the idle 1 ns is only time (log 26). -/
theorem tick_of_unarmed {s : State} (h : s.glb.inject = none) : tick s = tickBy 1 s := by
  have hkeep : (tickBy 1 s).glb = s.glb := rfl
  unfold tick storeInjection
  rw [hkeep, h]

/-- Settles O34: the idle step's three cases, in their order. -/
theorem emptyQueueStep : Obligations.EmptyQueueStep := by
  unfold Obligations.EmptyQueueStep
  refine ⟨fun s t hq hb => ?_, fun s hq hb hm => ?_, fun s hq hb hm hi => ?_⟩
  all_goals rw [step_idle hq, idleStep, hb]
  · simp [hm]
  · simp [hm, tick_of_unarmed hi]

/-! ### Every row answers -/

theorem ite_next {p : Prop} [Decidable p] (a b : State) : ∃ t, (if p then (.next a : Res) else .next b) = .next t := by
  split <;> exact ⟨_, rfl⟩

/-- Every row's meaning is a next state, as it stands or, for the lane-local units, on either side of the internal loop. -/
theorem exec_answers (i : Instr) (s : State) : ∃ t, exec i s = .next t := by
  cases i
  case link => exact ite_next _ _
  case reach => exact ite_next _ _
  case fc => exact ite_next _ _
  all_goals exact ⟨_, rfl⟩

/-- Settles O35: the idle step answers, and so does every row. -/
theorem everyStepGoesOn : Obligations.EveryStepGoesOn := by
  unfold Obligations.EveryStepGoesOn goesOn
  intro s
  cases hq : s.pending with
  | nil => exact ⟨_, step_idle hq⟩
  | cons i rest =>
    have hs : s = { s with pending := i :: rest } := by rw [← hq]
    rw [hs, stepRunsTheFrontCommand]
    exact exec_answers i _

/-! ### Recorded accesses -/

theorem sendMsix_glb (n v : Nat) (s : State) : (sendMsix n v s).glb = s.glb := by
  obtain ⟨⟨-, -, -, -, -, -, -, -, -, -, -, hglb, -⟩, -⟩ := leaves_sendMsix (a0 := n) (a1 := v) (leaves_refl false s)
  exact hglb

theorem sendMsix_ctrs (n v : Nat) (s : State) : (sendMsix n v s).ctrs = s.ctrs := (countsAs_sendMsix (countsAs_refl s)).1

/-- A status bit that rises leaves the recorded access alone and counts nothing (R587). -/
theorem raiseGlb_keeps (mask : Nat) (s : State) : (raiseGlb mask s).glb.error = s.glb.error ∧
    (raiseGlb mask s).glb.errorAddr = s.glb.errorAddr ∧ (raiseGlb mask s).ctrs = s.ctrs := by
  unfold raiseGlb
  dsimp only
  split
  · exact ⟨rfl, rfl, rfl⟩
  · rw [sendMsix_glb, sendMsix_ctrs]
    exact ⟨rfl, rfl, rfl⟩

/-- GLB_ERROR_ADDR is read only: a write of it names a register that stores nothing (R10). -/
theorem writeReg_errorAddr (fn v : Nat) (s : State) : writeReg fn 0x1C v s = s := by
  have hmsix : ¬ (0x800000 + fn * 0x10000 ≤ 0x1C) := by omega
  simp [writeReg, storeReg, hmsix]

/-- Settles O47: the record, kept by the status bit that it raises; and the write that names no stored register. -/
theorem recordedAccesses : Obligations.RecordedAccesses := by
  unfold Obligations.RecordedAccesses
  refine ⟨fun cause fn offset write s t ht => ?_, fun fn value s => ?_⟩
  · have haddr : b2n write * 1073741824 = if write then 1073741824 else 0 := by cases write <;> rfl
    subst ht
    unfold recordAccess
    dsimp only
    rw [haddr]
    split
    · exact ⟨rfl, rfl, rfl⟩
    · exact raiseGlb_keeps 16 _
  · show execRegisterWrite fn 0x1C value s = _
    simp [execRegisterWrite, writeThrough, writeReg_errorAddr]

end Sys2Proof.Proofs
end

section
/-! SUPPORT. `flexe.calendar.stage` on a group whose transmitters are on: it sends the group's overhead, both calendars in it (R126), which the
statement of the FlexE commands leaves out. -/

namespace Sys2Proof.Proofs
open Sys2Proof Sys2Proof.Machine Sys2Proof.Laws

/-- Teruo READY after reset, with FlexE group 0 in DOWN: one PHY of 100 Gb/s on port 0, every slot unused. -/
def groupInDown : State :=
  { State.reset with mgmt := { State.reset.mgmt with ready := true },
                     flexe := { State.reset.flexe with groups := [(0, { newFlxGroup 0 0 1 [(0, 1)] with state := .down })] } }

/-- `flexe.calendar.stage` from the window: 20 unused slots for the transmit calendar of group 0. -/
def stageUnused : Cmd :=
  { source := 2, origin := 0, tag := 1, paramLen := 24, timeout := 0, target := 0xFF, flags := 0, reserved := 0, cmdLen := 40,
    params := [0, 1] ++ le 2 20 ++ List.replicate 20 0xFF, respAddr := 0, respLen := 0, data := none }

/-- What a row has sent to the outside. -/
def sentBy : Res → List Out
  | .next t => t.out
  | _ => []

theorem takes_stageUnused : takes 0x0307 4 stageUnused groupInDown (taken 0x0307 stageUnused groupInDown) := by
  refine ⟨⟨?_, by decide +kernel⟩, rfl⟩
  show fnExists 0 groupInDown = true ∧ barServed groupInDown = true ∧ groupInDown.mgmt.mbx ≠ .pending ∧ groupInDown.mgmt.mbx ≠ .running ∧
    16 + stageUnused.paramLen ≤ 1024
  decide +kernel

theorem staged_slots : (List.range (arg stageUnused 2 2)).map (fun k => arg stageUnused (4 + k) 1) = List.replicate 20 0xFF := by
  decide +kernel

/-- The row sends the one overhead of the group's one FlexE line. -/
theorem sentBy_stageUnused : (sentBy (exec (.flexeCalendarStage stageUnused) groupInDown)).length = 1 := by decide +kernel

/-- Refutes O3: in DOWN the group's transmitter is on, and staging a transmit calendar sends an overhead that carries it; the state that the
statement gives has sent nothing. -/
theorem not_flexeCommandsComplete : ¬ Obligations.FlexeCommandsComplete := by
  unfold Obligations.FlexeCommandsComplete
  rintro ⟨-, -, -, -, -, -, hstage, -⟩
  have hunused : ∀ e ∈ List.replicate 20 0xFF, e = 0xFF := by decide +kernel
  have hdistinct : ∀ e ∈ distinct (List.replicate 20 0xFF), e = 0xFF := by decide +kernel
  have hexec := hstage stageUnused groupInDown _ _ _ takes_stageUnused staged_slots.symm (by decide +kernel) (by decide +kernel)
    (by decide +kernel) rfl (by decide +kernel) rfl (fun e he => .inl (hunused e he))
    (fun e he => .inl (hdistinct e he)) (by decide +kernel)
  have hsent := congrArg (fun r => (sentBy r).length) hexec
  rw [sentBy_stageUnused] at hsent
  exact absurd hsent (by decide +kernel)

end Sys2Proof.Proofs
end

section
/-! SUPPORT. The parse, profile and rule-table commands' own rules (R149 to R159, R166, R181). -/

namespace Sys2Proof.Proofs
open Sys2Proof Sys2Proof.Machine Sys2Proof.Laws

section
variable {h : HeldCmd} {u : State}

theorem parseSelectLayout_stages (hoffs : ∀ k < 18, par h k 1 ≤ 63) :
    parseSelectLayout h u = staged [] (.layout ((List.range 18).map (fun k => par h k 1))) u := by
  have hin : ((List.range 18).map (fun k => par h k 1)).any (fun o => 63 < o) = false := by
    simpa [List.any_eq_false] using hoffs
  simp only [parseSelectLayout, hin, Bool.false_eq_true, if_false]

/-- A profile that names no rule table finds its tables and its keys fit (R153, R156). -/
theorem profileWrite_stages {p : List Byte} (hp : slice (pars h) 0 192 = p) (hform : profileMalformed p = false)
    (hing : pIngTable p = 0xFF) (hegr : pEgrTable p = 0xFF) (hbits : keyBits p (pFlow p) ≤ 384) :
    profileWrite h u = staged [] (.profile (rd p 0 2) (some p)) u := by
  simp [profileWrite, hp, hform, hing, hegr, Nat.not_lt.mpr hbits]

theorem profileDelete_stages (hid : par h 0 2 ≤ 511) (hz : parZero h 2 2 = true)
    (hhas : liveOrStaged (fun g => ahas g.profiles (par h 0 2)) u = true)
    (hfree : liveOrStaged (fun g => (avals g.selects).any (fun e => e.profile == par h 0 2)) u = false) :
    profileDelete h u = staged [] (.profile (par h 0 2) none) u := by
  simp [profileDelete, Nat.not_lt.mpr hid, hz, hhas, hfree]

theorem profileSelectDelete_stages (hhas : liveOrStaged (fun g => ahas g.selects (par h 0 4)) u = true) :
    profileSelectDelete h u = staged [] (.select (par h 0 4) none) u := by
  simp [profileSelectDelete, hhas]

theorem parseClassMapSet_stages (hmap : par h 0 1 ≤ 15) (hcls : ∀ k < 64, par h (1 + k) 1 ≤ 7) :
    parseClassMapSet h u = staged [] (.classMap (par h 0 1) ((List.range 64).map (fun k => par h (1 + k) 1))) u := by
  have hin : ((List.range 64).map (fun k => par h (1 + k) 1)).any (fun o => 7 < o) = false := by
    simpa [List.any_eq_false] using hcls
  simp only [parseClassMapSet, hin, Nat.not_lt.mpr hmap, decide_false, Bool.or_self, Bool.false_eq_true, if_false]

/-- A table new to its number changes no width, so that no rule or profile can stand in its way (R166). -/
theorem ruleTableCreate_stages (hdir : par h 0 1 ≤ 1) (ht : par h 1 1 ≤ 254) (hw : par h 2 1 ≤ 2)
    (hhole : par h 3 1 ∈ [1, 4, 8, 16, 32, 64]) (hact : actionRefused (par h 0 1) (par h 1 1) (slice (pars h) 4 32) u = none)
    (hnew : tablesNamed (par h 0 1) (par h 1 1) u = []) :
    ruleTableCreate h u = staged [] (.ruleTable (tableKey (par h 0 1) (par h 1 1))
      (some { width := par h 2 1, hole := par h 3 1, dflt := slice (pars h) 4 32 })) u := by
  have hset : par h 3 1 ≠ 0 := fun h0 => absurd (h0 ▸ hhole) (by decide)
  have hhole' : [1, 4, 8, 16, 32, 64].contains (par h 3 1) = true := List.contains_iff_mem.mpr hhole
  simp only [ruleTableCreate, hset, if_false, Nat.not_lt.mpr hdir, Nat.not_lt.mpr ht, Nat.not_lt.mpr hw, hhole', hact, hnew, List.any_nil,
    decide_false, Bool.not_true, Bool.or_self, Bool.false_and, Bool.false_eq_true]

theorem ruleTableDelete_stages (hdir : par h 0 1 ≤ 1) (ht : par h 1 1 ≤ 254) (hz : parZero h 2 2 = true)
    (hhas : tablesNamed (par h 0 1) (par h 1 1) u ≠ []) (hrules : tableHoldsRule (par h 0 1) (par h 1 1) u = false)
    (hnamed : tableNamed (par h 0 1) (par h 1 1) u = false) :
    ruleTableDelete h u = staged [] (.ruleTable (tableKey (par h 0 1) (par h 1 1)) none) u := by
  simp [ruleTableDelete, Nat.not_lt.mpr hdir, Nat.not_lt.mpr ht, hz, hhas, hrules, hnamed]

theorem exceptionConfig_stages (hz : parZero h 1 1 = true) (hq : par h 2 2 ≤ 4095)
    (htrunc : par h 4 2 = 0 ∨ (64 ≤ par h 4 2 ∧ par h 4 2 ≤ 512 ∧ par h 4 2 % 64 = 0)) (hburst : par h 6 2 ≠ 0)
    (hrate : par h 8 4 ≤ 200000000) :
    exceptionConfig h u = staged [] (.exception (par h 0 1)
      { queue := par h 2 2, truncate := par h 4 2, burst := par h 6 2, rate := par h 8 4 }) u := by
  have htrunc' : (par h 4 2 != 0 && (decide (par h 4 2 < 64) || decide (512 < par h 4 2) || par h 4 2 % 64 != 0)) = false := by
    rcases htrunc with h0 | ⟨hmin, hmax, hmod⟩
    · simp [h0]
    · simp [hmod, Nat.not_lt.mpr hmin, Nat.not_lt.mpr hmax]
  simp only [exceptionConfig, hz, htrunc', Nat.not_lt.mpr hq, Nat.not_lt.mpr hrate, beq_eq_false_iff_ne.mpr hburst, decide_false,
    Bool.not_true, Bool.or_self, Bool.false_eq_true, if_false]
end

/-- Settles O4: each command's own rules, once nothing of its form is refused, stage its one change. -/
theorem parseCommandsComplete : Obligations.ParseCommandsComplete := by
  unfold Obligations.ParseCommandsComplete
  refine ⟨fun c s u ha hoffs => ?_, fun c s u ha hform hing hegr hbits => ?_, fun c s u ha hid hz hhas hfree => ?_,
    fun c s u ha hhas => ?_, fun c s u ha hmap hcls => ?_, fun c s u ha hdir ht hw hhole hact hnew => ?_,
    fun c s u ha hdir ht hz hhas hrules hnamed => ?_, fun c s u ha hz hq htrunc hburst hrate => ?_⟩
  · exact stages_of (spec := specParseSelectLayout) ha rfl rfl (parseSelectLayout_stages (h := heldOf 0x0401 c) hoffs)
  · exact stages_of (spec := specProfileWrite) ha rfl rfl (profileWrite_stages (h := heldOf 0x0402 c) rfl hform hing hegr hbits)
  · exact stages_of (spec := specProfileDelete) ha rfl rfl (profileDelete_stages (h := heldOf 0x0403 c) hid hz hhas hfree)
  · exact stages_of (spec := specProfileSelectDelete) ha rfl rfl (profileSelectDelete_stages (h := heldOf 0x0405 c) hhas)
  · exact stages_of (spec := specParseClassMapSet) ha rfl rfl (parseClassMapSet_stages (h := heldOf 0x0406 c) hmap hcls)
  · exact stages_of (spec := specRuleTableCreate) ha rfl rfl
      (ruleTableCreate_stages (h := heldOf 0x0407 c) hdir ht hw hhole hact hnew)
  · exact stages_of (spec := specRuleTableDelete) ha rfl rfl
      (ruleTableDelete_stages (h := heldOf 0x0408 c) hdir ht hz hhas hrules hnamed)
  · exact stages_of (spec := specExceptionConfig) ha rfl rfl
      (exceptionConfig_stages (h := heldOf 0x040E c) hz hq htrunc hburst hrate)

end Sys2Proof.Proofs
end

section
/-! SUPPORT. The commands about power, Hum, the audit engine, the memories and the faults (R440, R441, R522 to R533, R546, R550). -/

namespace Sys2Proof.Proofs
open Sys2Proof Sys2Proof.Machine Sys2Proof.Laws

theorem leVal_lt (b : List Byte) : leVal b < 256 ^ b.length := by
  induction b with
  | nil => exact Nat.one_pos
  | cons x b ih =>
    have hx := x.isLt
    simp only [leVal, List.length_cons, Nat.pow_succ]
    omega

/-- Records of one length, one after the other. -/
theorem length_flatMap_records {α : Type} {n : Nat} {f : α → List Byte} (hf : ∀ a, (f a).length = n) (l : List α) :
    (l.flatMap f).length = n * l.length := by
  induction l with
  | nil => rfl
  | cons a l ih => rw [List.flatMap_cons, List.length_append, hf, ih, List.length_cons, Nat.mul_succ, Nat.add_comm]

/-- A parameter of one byte. -/
theorem par_byte_le (h : HeldCmd) (off : Nat) : par h off 1 ≤ 255 := by
  have hlen : (slice (pars h) off 1).length ≤ 1 := List.length_take_le _ _
  have hlt : 256 ^ (slice (pars h) off 1).length ≤ 256 ^ 1 := Nat.pow_le_pow_right (by decide) hlen
  exact Nat.le_of_lt_succ (Nat.lt_of_lt_of_le (leVal_lt _) hlt)

section
variable {h : HeldCmd} {u : State}

/-! ### Power -/

/-- FLOOR and S3_KEEP_RANK set, and the plan of S3 made again where S3 is the level (R546). -/
theorem powerShedConfig_sets {u1 : State} (hfloor : par h 0 1 ≤ 4) (hkeep : par h 1 1 ≤ 16) (hz : parZero h 2 2 = true)
    (hu1 : u1 = updPwr (fun p => { p with floor := par h 0 1, keepRank := par h 1 1 }) u) :
    powerShedConfig h u = .done St.ok []
      (settleShed (if u.pwr.level = 3 then updPwr (fun p => { p with toSleep := sleepPlan u1 }) u1 else u1)) := by
  subst hu1
  simp only [powerShedConfig, Nat.not_lt.mpr hfloor, Nat.not_lt.mpr hkeep, hz, decide_false, Bool.not_true, Bool.or_self,
    Bool.false_eq_true, if_false]
  rfl

/-- The answer begins with PWR_STATUS and the die temperatures (Table 15-14). -/
theorem powerStatus_answers (h : HeldCmd) (u : State) : ∃ rest : List Byte, rest.length = 42 ∧
    powerStatus h u = .done St.ok
      (le 4 (pwrStatus u) ++ le 1 (unsignedOf 8 u.pwr.tempFd) ++ le 1 (unsignedOf 8 u.pwr.tempQd) ++ rest) u := by
  unfold powerStatus
  simp only [List.append_assoc]
  refine ⟨_, ?_, rfl⟩
  simp only [List.length_append, length_flatMap_records (fun _ => le_length _ _), List.length_range, le_length, zeros_length]

theorem knellRead_answers {x : Nat × List Byte} (hz : parZero h 1 3 = true) (hflash : flashUsable u = true)
    (hrec : (knellRecords u)[par h 0 1]? = some x) : knellRead h u = .done St.ok (le 4 x.1 ++ zeros 4 ++ x.2) u := by
  simp [knellRead, Nat.not_lt.mpr (par_byte_le h 0), hz, hflash, hrec]

/-! ### Hum -/

theorem humConfig_sets
    (hid : (par h 0 1 = 7 ∧ 10 ≤ par h 4 4 ∧ par h 4 4 ≤ 3600) ∨ (par h 0 1 = 8 ∧ 3600 ≤ par h 4 4 ∧ par h 4 4 ≤ 604800))
    (hen : par h 1 1 ≤ 1) (hz : parZero h 2 2 = true) :
    humConfig h u = .done St.ok [] (updPwr (fun p =>
      { p with hum := p.hum.modify (par h 0 1) (fun x => { x with enabled := par h 1 1 == 1, period := par h 4 4 }) }) u) := by
  rcases hid with ⟨hid, hmin, hmax⟩ | ⟨hid, hmin, hmax⟩
  · simp [humConfig, hid, Nat.not_lt.mpr hmin, Nat.not_lt.mpr hmax, Nat.not_lt.mpr hen, hz]
  · simp [humConfig, hid, Nat.not_lt.mpr hmin, Nat.not_lt.mpr hmax, Nat.not_lt.mpr hen, hz]

/-- Nine records of 32 bytes, then the most worn sector (Table 15-14). -/
theorem humStatus_answers (h : HeldCmd) (u : State) : ∃ recs : List Byte, recs.length = 288 ∧
    humStatus h u = .done St.ok (recs ++ le 4 (mostWorn u).1 ++ le 4 (65536 * (mostWorn u).2)) u := by
  unfold humStatus
  refine ⟨_, ?_, rfl⟩
  refine length_flatMap_records (n := 32) (fun id => ?_) _
  simp only [List.length_append, le_length, zeros_length]

/-! ### The audit engine -/

theorem auditScan_waits {v : Nat} (hctx : par h 0 1 = 2 ∨ par h 0 1 = 3) (halgo : par h 1 1 ≤ 1) (hflags : par h 2 1 = 0)
    (hspace : par h 3 1 ≤ 2) (hz : parZero h 4 4 = true) (hstart : par h 8 8 % 64 = 0) (hlen : par h 16 8 % 64 = 0) (hmin : 64 ≤ par h 16 8)
    (hmax : par h 16 8 ≤ 0x3FFFFFFFC0) (hfree : (auditCtx (par h 0 1) u).running = false)
    (hin : outsideSpace (par h 3 1) (par h 8 8) (par h 16 8) u = false) (hv : v = auditInit (par h 1 1)) :
    auditScan h u = .wait (.scan (par h 0 1)) (scanResp 0 (auditResult (par h 1 1) v) false)
      (updPwr (fun p => { p with scans := p.scans ++ [{ context := par h 0 1, algo := par h 1 1, compare := false, space := par h 3 1,
                                                        start := par h 8 8, length := par h 16 8, expected := par h 24 8, done := 0 }] })
        (setCtx (par h 0 1) { algo := par h 1 1, value := v, running := true } u)) := by
  have hctx' : ¬ 3 < par h 0 1 ∧ ¬ par h 0 1 < 2 := by omega
  have hspace' : ¬ 3 < par h 3 1 ∧ (par h 3 1 == 3) = false := ⟨by omega, beq_eq_false_iff_ne.mpr (by omega)⟩
  subst hv
  simp only [auditScan, hctx', hspace', hflags, Nat.not_lt.mpr halgo, hz, hstart, hlen, Nat.not_lt.mpr hmin, Nat.not_lt.mpr hmax, hfree, hin,
    show bit 0 0 = 0 from rfl, show bit 0 1 = 0 from rfl]
  rfl

theorem auditContextRead_answers (hctx : par h 0 1 ≤ 3) (hz : parZero h 1 3 = true) :
    auditContextRead h u = .done St.ok (le 1 (auditCtx (par h 0 1) u).algo ++ le 1 (b2n (ctxRuns (par h 0 1) u)) ++ zeros 6 ++
      le 8 (auditCtx (par h 0 1) u).value) u := by
  simp [auditContextRead, Nat.not_lt.mpr hctx, hz]

theorem auditContextWrite_sets (hctx : par h 0 1 = 2 ∨ par h 0 1 = 3) (halgo : par h 1 1 ≤ 1) (hz : parZero h 2 6 = true)
    (hfree : (auditCtx (par h 0 1) u).running = false) :
    auditContextWrite h u = .done St.ok [] (setCtx (par h 0 1) { algo := par h 1 1, value := par h 8 8, running := false } u) := by
  have hctx' : ¬ 3 < par h 0 1 ∧ ¬ par h 0 1 < 2 := by omega
  simp [auditContextWrite, hctx', Nat.not_lt.mpr halgo, hz, hfree]

/-! ### The memories -/

/-- The answer begins with DDR_STATUS and HBM_STATUS (R440). -/
theorem memStatus_answers (h : HeldCmd) (u : State) : ∃ rest : List Byte,
    memStatus h u = .done St.ok (le 4 (ddrStatus u) ++ le 4 (hbmStatus u) ++ rest) u := by
  unfold memStatus
  simp only [List.append_assoc]
  exact ⟨_, rfl⟩

/-- As many items of 8 bytes as are asked for and listed (R441). -/
theorem memRetiredQuery_answers {l : List (Nat × Nat × Nat × Nat × Bool)} (hmin : 1 ≤ par h 4 2) (hmax : par h 4 2 ≤ 4096)
    (hz : parZero h 6 2 = true) (hl : l = retiredList u) (hstart : par h 0 4 ≤ l.length) : ∃ items : List Byte,
    memRetiredQuery h u = .done St.ok (le 4 l.length ++ zeros 4 ++ items) u ∧
      items.length = 8 * min (par h 4 2) (l.length - par h 0 4) := by
  subst hl
  unfold memRetiredQuery
  simp only [Nat.not_lt.mpr hmin, Nat.not_lt.mpr hmax, hz, Nat.not_lt.mpr hstart, decide_false, Bool.not_true, Bool.or_self,
    Bool.false_eq_true, if_false]
  refine ⟨_, rfl, ?_⟩
  rw [length_flatMap_records (n := 8) (fun _ => by simp only [List.length_append, le_length]), List.length_take, List.length_drop]
end

/-- Settles O16: each command's own rules, once nothing of its form is refused, in the shape of its verdict. -/
theorem upkeepCommandsComplete : Obligations.UpkeepCommandsComplete := by
  unfold Obligations.UpkeepCommandsComplete
  refine ⟨fun c s u u1 ha hfloor hkeep hz hlevel hu1 => ?_, fun c s u u1 ha hfloor hkeep hz hlevel hu1 => ?_, fun c s u ha => ?_,
    fun c s u ha hid hen hz => ?_, fun c s u ha => ?_, fun c s u x ha hz hflash hrec => ?_,
    fun c s u v ha hctx halgo hflags hspace hz hstart hlen hmin hmax hfree hin hv => ?_, fun c s u x ha hctx hz hx => ?_,
    fun c s u ha hctx halgo hz hfree => ?_, fun c s u ha => ?_, fun c s u ha => ?_, fun c s u l ha hmin hmax hz hl hstart => ?_,
    fun c s u ha => ?_⟩
  · have hb := powerShedConfig_sets (h := heldOf 0x0E01 c) hfloor hkeep hz hu1
    rw [if_neg hlevel] at hb
    exact effects_of (spec := specPowerShedConfig) ha rfl rfl hb
  · have hb := powerShedConfig_sets (h := heldOf 0x0E01 c) hfloor hkeep hz hu1
    rw [if_pos hlevel] at hb
    exact effects_of (spec := specPowerShedConfig) ha rfl rfl hb
  · obtain ⟨rest, hlen, hb⟩ := powerStatus_answers (heldOf 0x0E02 c) u
    exact ⟨rest, hlen, queries_of (spec := specPowerStatus) ha rfl rfl hb⟩
  · exact effects_of (spec := specHumConfig) ha rfl rfl (humConfig_sets (h := heldOf 0x0E03 c) hid hen hz)
  · obtain ⟨recs, hlen, hb⟩ := humStatus_answers (heldOf 0x0E04 c) u
    exact ⟨recs, hlen, queries_of (spec := specHumStatus) ha rfl rfl hb⟩
  · have hb := knellRead_answers (h := heldOf 0x0E05 c) hz hflash hrec
    exact queries_of (spec := specKnellRead) ha rfl rfl hb
  · exact runs_of (spec := specAuditScan) ha rfl
      (auditScan_waits (h := heldOf 0x0F01 c) hctx halgo hflags hspace hz hstart hlen hmin hmax hfree hin hv)
  · subst hx
    exact queries_of (spec := specAuditContextRead) ha rfl rfl (auditContextRead_answers (h := heldOf 0x0F02 c) hctx hz)
  · exact effects_of (spec := specAuditContextWrite) ha rfl rfl (auditContextWrite_sets (h := heldOf 0x0F03 c) hctx halgo hz hfree)
  · exact queries_of (spec := specAuditStatus) ha rfl rfl rfl
  · obtain ⟨rest, hb⟩ := memStatus_answers (heldOf 0x0F05 c) u
    exact ⟨rest, queries_of (spec := specMemStatus) ha rfl rfl hb⟩
  · obtain ⟨items, hb, hlen⟩ := memRetiredQuery_answers (h := heldOf 0x0F06 c) hmin hmax hz hl hstart
    exact ⟨items, queries_of (spec := specMemRetiredQuery) ha rfl rfl hb, hlen⟩
  · exact queries_of (spec := specDiagFaultQuery) ha rfl rfl rfl

end Sys2Proof.Proofs
end

section
/-! SUPPORT. The commands of the carillon, the management bus and the protection pairs (R467 to R482, R509). -/

namespace Sys2Proof.Proofs
open Sys2Proof Sys2Proof.Machine Sys2Proof.Laws

/-! ### A changed setting (R509) -/

/-- The header of an accepted command gives its fixed parameters (R381). -/
theorem minLen_le_paramLen {op n : Nat} {c : Cmd} {s u : State} (ha : takes op n c s u) : n ≤ (heldOf op c).paramLen := by
  obtain ⟨⟨-, -, -, -, hhdr, -⟩, -⟩ := ha
  unfold headerBad at hhdr
  simp only [Bool.or_eq_false_iff, decide_eq_false_iff_not, Nat.not_lt] at hhdr
  exact hhdr.2

theorem slice_pars_length {h : HeldCmd} {off n : Nat} (hlen : off + n ≤ h.paramLen) : (slice (pars h) off n).length = n := by
  have hpars : (pars h).length = h.paramLen := fit_length _ _
  simp only [slice, List.length_take, List.length_drop, hpars]
  omega

/-- A setting whose record fits the journal waits for its commitment (R508, R509). -/
theorem changeSetting_waits {id n : Nat} {v : List Byte} {s : State} (hflash : flashUsable s = true) (hn : v.length = n)
    (hfits : journalFits n s = true) : changeSetting id v s = .wait (.setting id (some v)) [] s := by
  subst hn
  simp [changeSetting, hflash, hfits]

section
variable {h : HeldCmd} {u : State}

/-! ### The carillon and the management bus -/

theorem carillonConfig_waits (hlen : 8 ≤ h.paramLen) (hen : par h 0 1 ≤ 1) (hz : parZero h 2 2 = true) (hlow : par h 4 4 ≠ 0)
    (hhigh : par h 4 4 ≠ 0xFFFFFFFF) (hcommits : ∀ k ∈ u.commits, k.carillon = false) (hdist : u.fw.dist = none)
    (hrx : u.fw.rxTransfer = none) (hflash : flashUsable u = true) (hfits : journalFits 8 u = true) :
    carillonConfig h u = .wait (.setting 1 (some (slice (pars h) 0 8))) [] u := by
  have hquiet : u.commits.any (·.carillon) = false := by simpa [List.any_eq_false] using hcommits
  simp [carillonConfig, Nat.not_lt.mpr hen, hz, hlow, hhigh, hquiet, hdist, hrx,
    changeSetting_waits hflash (slice_pars_length (h := h) (off := 0) (by omega)) hfits]

theorem carillonPark_orders (hz : parZero h 0 4 = true) (hstate : u.prot.state ≠ 6) :
    carillonPark h u = .done St.ok [] { u with crl := { u.crl with parkAt := some (u.elapsed + 100000000) } } := by
  simp [carillonPark, hz, hstate, updCrl]

theorem mgmtBusConfig_waits (hlen : 8 ≤ h.paramLen) (hen : par h 0 1 ≤ 1) (hmin : 1 ≤ par h 1 1) (hmax : par h 1 1 ≤ 0x37)
    (hz : parZero h 3 1 = true) (hz' : parZero h 6 2 = true) (hflash : flashUsable u = true) (hfits : journalFits 8 u = true) :
    mgmtBusConfig h u = .wait (.setting 2 (some (slice (pars h) 0 8))) [] u := by
  simp [mgmtBusConfig, Nat.not_lt.mpr hen, Nat.ne_of_gt hmin, Nat.not_lt.mpr hmax, hz, hz',
    changeSetting_waits hflash (slice_pars_length (h := h) (off := 0) (by omega)) hfits]

/-! ### The protection pair -/

/-- A new pair starts in PAIRING with its settings in force, held where the package does not forward (R469, R470). -/
theorem protectPairSet_pairs {u1 : State} (hform : pairSetBad h = false) (hstate : u.prot.state = 0) (hmember : isMember u = true)
    (hu1 : u1 = updProt (fun p => { p with
      pair := par h 0 1, flags := par h 1 1, wtr := if par h 2 2 = 0 then 5 else par h 2 2, peerSerial := par h 8 8, portMask := par h 16 10,
      state := 1, since := u.elapsed, inSync := false, lockout := false, peerAt := none, peerBeat := [], wtrAt := none, switching := none,
      resync := false, next := none }) u) :
    protectPairSet h u = .done St.ok [] (if forwarding u1 then u1 else enterHold u1) := by
  have hnew : protTo 1 (updProt (fun p => { p with
      inSync := false, lockout := false, peerAt := none, peerBeat := [], wtrAt := none, switching := none, resync := false })
      (pairNow (pairSettings h) (updProt (fun p => { p with pair := par h 0 1 }) u))) = u1 := by
    simp only [hu1, protTo, updProt, pairNow, pairSettings]
  simp only [protectPairSet, hform, hstate, hmember, hnew, bne_self_eq_false, Bool.false_and, Bool.not_true, Bool.false_eq_true, if_false,
    if_true]

theorem protectPairDelete_active (hpair : par h 0 1 ≤ 3) (hz : parZero h 1 3 = true) (hstate : u.prot.state = 6)
    (hown : u.prot.pair = par h 0 1) :
    protectPairDelete h u = .done St.ok [] (releaseMirror { u with prot := State.resetProt }) := by
  simp [protectPairDelete, Nat.not_lt.mpr hpair, hz, hstate, hown]

/-- CLEAR ends a lockout. -/
theorem protectSwitch_clears (hpair : par h 0 1 ≤ 3) (hact : par h 1 1 = 3) (hz : parZero h 2 2 = true) (hstate : u.prot.state ≠ 0)
    (hown : u.prot.pair = par h 0 1) : protectSwitch h u = .done St.ok [] (updProt (fun p => { p with lockout := false }) u) := by
  simp [protectSwitch, Nat.not_lt.mpr hpair, hact, hz, hstate, hown]

/-- MANUAL at a standby in sync waits for the switch that it triggers (R475, R476). -/
theorem protectSwitch_waits (hpair : par h 0 1 ≤ 3) (hact : par h 1 1 = 0) (hz : parZero h 2 2 = true) (hstate : u.prot.state = 4)
    (hown : u.prot.pair = par h 0 1) (hstands : standsBy u = true) (hsync : u.prot.inSync = true) (hlock : lockedOut u = false) :
    protectSwitch h u = .wait (.switchOver 0) [] (triggerSwitch 2 u) := by
  have hpsync : pairInSync u = true := by simp [pairInSync, hstate, hstands, hsync]
  have horder : orderSwitch 2 u = triggerSwitch 2 u := by simp [orderSwitch, hstate]
  simp [protectSwitch, Nat.not_lt.mpr hpair, hact, hz, hstate, hown, hpsync, hlock, horder]

/-- The answer gives both members' beats, the timers and the last switch, whose instant closes it (Table 13-8). -/
theorem protectQuery_answers (hpair : par h 0 1 ≤ 3) (hz : parZero h 1 3 = true) (hstate : u.prot.state ≠ 0)
    (hown : u.prot.pair = par h 0 1) : ∃ rest : List Byte, protectQuery h u = .done St.ok
      (beatRecord (fit 44 u.prot.ownBeat) ++ beatRecord (fit 44 u.prot.peerBeat) ++ le 4 (wtrLeft u) ++ le 4 u.prot.mirrorQueue.length ++
        le 1 u.prot.lastCause ++ zeros 3 ++ rest) u ∧ rest.length = 12 := by
  refine ⟨le 6 (secOf u.prot.lastSwitch) ++ le 4 (nsOf u.prot.lastSwitch) ++ zeros 2, ?_,
    by simp only [List.length_append, le_length, zeros_length]⟩
  simp [protectQuery, Nat.not_lt.mpr hpair, hz, hstate, hown]
end

/-- Settles O17: each command's own rules, once nothing of its form is refused, in the shape of its verdict. -/
theorem peerCommandsComplete : Obligations.PeerCommandsComplete := by
  unfold Obligations.PeerCommandsComplete
  refine ⟨fun c s u ha hen hz hlow hhigh hcommits hdist hrx hflash hfits => ?_, fun c s u ha => ?_, fun c s u ha hz hstate => ?_,
    fun c s u ha hen hmin hmax hz hz' hflash hfits => ?_, fun c s u u1 ha hform hstate hmember hu1 => ?_,
    fun c s u ha hpair hz hstate hown => ?_, fun c s u ha hpair hact hz hstate hown => ?_,
    fun c s u ha hpair hact hz hstate hown hstands hsync hlock => ?_, fun c s u ha hpair hz hstate hown => ?_⟩
  · exact runs_of (spec := specCarillonConfig) ha rfl
      (carillonConfig_waits (h := heldOf 0x0B01 c) (minLen_le_paramLen ha) hen hz hlow hhigh hcommits hdist hrx hflash hfits)
  · exact queries_of (spec := specCarillonStatus) ha rfl rfl rfl
  · exact effects_of (spec := specCarillonPark) ha rfl rfl (carillonPark_orders (h := heldOf 0x0B03 c) hz hstate)
  · exact runs_of (spec := specMgmtBusConfig) ha rfl
      (mgmtBusConfig_waits (h := heldOf 0x0B04 c) (minLen_le_paramLen ha) hen hmin hmax hz hz' hflash hfits)
  · exact effects_of (spec := specProtectPairSet) ha rfl rfl (protectPairSet_pairs (h := heldOf 0x0B05 c) hform hstate hmember hu1)
  · exact effects_of (spec := specProtectPairDelete) ha rfl rfl (protectPairDelete_active (h := heldOf 0x0B06 c) hpair hz hstate hown)
  · exact effects_of (spec := specProtectSwitch) ha rfl rfl (protectSwitch_clears (h := heldOf 0x0B07 c) hpair hact hz hstate hown)
  · exact runs_of (spec := specProtectSwitch) ha rfl
      (protectSwitch_waits (h := heldOf 0x0B07 c) hpair hact hz hstate hown hstands hsync hlock)
  · obtain ⟨rest, hb, hlen⟩ := protectQuery_answers (h := heldOf 0x0B08 c) hpair hz hstate hown
    exact ⟨rest, queries_of (spec := specProtectQuery) ha rfl rfl hb, hlen⟩

end Sys2Proof.Proofs
end

section
/-! SUPPORT. The commands of firmware, settings and keys (R490, R498 to R509, R519, R520). -/

namespace Sys2Proof.Proofs
open Sys2Proof Sys2Proof.Machine Sys2Proof.Laws

/-- A bulk command that ends OK with no response completes as one with an effect: it journals no count of units (R386, R402). -/
theorem bulkEffects_of {op : Nat} {spec : CmdSpec} {i : Instr} {c : Cmd} {s u t : State}
    (ha : takes op spec.minLen c s u) (hi : exec i s = runCmd op spec c s) (hk : spec.kind = .bulk)
    (hb : spec.body (heldOf op c) u = .done St.ok [] t) : effects op i c s t := by
  obtain ⟨ha, rfl⟩ := ha
  unfold effects completed
  rw [hi, runCmd_done ha (fun h => by rw [hk] at h; cases h) hb, hk]
  rfl

section
variable {h : HeldCmd} {u : State}

/-! ### Staging -/

/-- FIRST opens the staging; the data follow once the flash has taken them (R498, R499). -/
theorem fwDownload_first (hform : downloadBad h u = false) (hfree : stagingBusy u = false) (hfirst : bit (par h 8 1) 1 = 1)
    (hoff : par h 0 4 = 0) (hflash : flashUsable u = true) (hdata : downloadData h ≠ none) :
    fwDownload h u = .wait .flash (le 4 0) (updFw (fun f => { f with rxTransfer := none }) (beginStaging (par h 12 4) u)) := by
  obtain ⟨b, hb⟩ := Option.ne_none_iff_exists'.mp hdata
  simp [fwDownload, hform, hfree, hfirst, hoff, hflash, hb]

/-- Data that begin where the staged ones end wait for the flash. -/
theorem fwDownload_next (hform : downloadBad h u = false) (hfree : stagingBusy u = false) (hfirst : bit (par h 8 1) 1 = 0)
    (hoff : par h 0 4 = u.fw.contig) (hflash : flashUsable u = true) (hdata : downloadData h ≠ none) :
    fwDownload h u = .wait .flash (le 4 0) u := by
  obtain ⟨b, hb⟩ := Option.ne_none_iff_exists'.mp hdata
  simp [fwDownload, hform, hfree, hfirst, hoff, hflash, hb]

/-- A staged image, COMPLETE or VERIFIED, is verified (R498). -/
theorem fwVerify_waits (hz : parZero h 0 4 = true) (hfree : stagingBusy u = false) (hstage : uStage u = 2 ∨ uStage u = 3)
    (hflash : flashUsable u = true) : fwVerify h u = .wait .verify [] (beginVerify u) := by
  have hmin : ¬ uStage u < 2 := by omega
  have hmax : ¬ 3 < uStage u := by omega
  simp [fwVerify, hz, hfree, hmin, hmax, hflash]

/-- A distribution to the neighbour sends from the image's first byte (R516). -/
theorem fwDistribute_neighbour {d : Distribution} (hflags : bits (par h 1 1) 7 2 = 0) (hz : parZero h 2 2 = true)
    (hto : bit (par h 1 1) 0 = 1) (hfree : stagingBusy u = false) (hdist : u.fw.dist = none) (hstage : uStage u = 3)
    (hd : d = { transfer := u.crl.msgId, positions := par h 0 1, neighbour := some (bit (par h 1 1) 1), contig := [], results := [], sent := 0 }) :
    fwDistribute h u = .wait .distribute [] (distributeFrom 0 (updFw (fun f => { f with dist := some d }) u)) := by
  subst hd
  simp [fwDistribute, hflags, hz, hto, hfree, hdist, hstage]

/-! ### Activation, confirmation and revert -/

theorem fwActivate_package (hscope : par h 0 1 = 0) (hflags : bits (par h 1 1) 7 1 = 0) (hpar : par h 3 1 ≤ 8)
    (hok : activateRefusal u = none) (hrom : u.mgmt.rom = false) :
    fwActivate h u = .done St.ok [] (activatePackage (bit (par h 1 1) 0 == 1) u) := by
  simp [fwActivate, hscope, hflags, Nat.not_lt.mpr hpar, hok, hrom]

theorem fwConfirm_package (hscope : par h 0 1 = 0) (hz : parZero h 2 2 = true) (hstate : uState u = Upd.probation)
    (hmig : uMigrated u = true) : fwConfirm h u = .done St.ok []
      (finishConfirm (moveRec Upd.confirmed (fun r => setRec 26 1 (min 64 (rd r 24 1)) r) u)) := by
  simp [fwConfirm, hscope, hz, hstate, hmig]

/-- In probation the revert restarts Teruo (R505). -/
theorem fwRevert_probation (hz : parZero h 0 4 = true) (hstate : uState u = Upd.probation) :
    fwRevert h u = .done St.ok [] (beginRestart 3 (toReverting 1 u)) := by
  simp [fwRevert, hz, hstate, show Upd.probation ≠ Upd.copyPrev by decide, show Upd.probation ≠ Upd.copyActive by decide,
    show Upd.probation ≠ Upd.armed by decide]

/-- Before the restart it copies PREVIOUS back (Table 14-6). -/
theorem fwRevert_unstarted (hz : parZero h 0 4 = true) (hstate : uState u = Upd.copyActive ∨ uState u = Upd.armed) :
    fwRevert h u = .done St.ok [] (startCopy 1 0 false (toReverting 1 u)) := by
  have hprev : uState u ≠ Upd.copyPrev := by rcases hstate with hs | hs <;> rw [hs] <;> decide
  simp [fwRevert, hz, hprev, hstate]

/-! ### Status, settings and keys -/

/-- The answer begins with the update record, the slots and the fuses (Table 14-12). -/
theorem fwStatus_answers (h : HeldCmd) (u : State) : ∃ rest : List Byte, fwStatus h u = .done St.ok
    (updRec u ++ slotRecord 0 u ++ slotRecord 1 u ++ slotRecord 2 u ++ le 1 u.fw.fuseCounter ++ le 1 u.fw.revoked ++ rest) u := by
  unfold fwStatus
  simp only [List.append_assoc]
  exact ⟨_, rfl⟩

theorem settingsRead_answers {v : List Byte} (hz : parZero h 2 2 = true) (hv : settingValue (par h 0 2) u = some v) :
    settingsRead h u = .done St.ok (le 2 v.length ++ zeros 2 ++ le 4 (liveGen u) ++ v) u := by
  simp [settingsRead, hz, hv]

/-- A writable setting waits for its journal record (R509). -/
theorem settingsWrite_waits (hid : par h 0 2 = 3 ∨ par h 0 2 = 5 ∨ (0x100 ≤ par h 0 2 ∧ par h 0 2 ≤ 0x13F))
    (hlen : 4 + par h 2 2 ≤ h.paramLen) (hval : settingBad (par h 0 2) (par h 2 2) (par h 4 4) = false) (hflash : flashUsable u = true)
    (hfits : journalFits (par h 2 2) u = true) :
    settingsWrite h u = .wait (.setting (par h 0 2) (some (slice (pars h) 4 (par h 2 2)))) [] u := by
  have hread : ¬ ((par h 0 2 = 1 ∨ par h 0 2 = 2) ∨ par h 0 2 = 4) := by omega
  have hwrite : ¬ ((¬ par h 0 2 = 3 ∧ ¬ par h 0 2 = 5) ∧ (par h 0 2 < 256 ∨ 319 < par h 0 2)) := by omega
  simp [settingsWrite, Nat.not_lt.mpr hlen, hval, hread, hwrite, changeSetting_waits hflash (slice_pars_length (h := h) hlen) hfits]

/-- A key that neither ACTIVE nor a verified STAGING names, and that is not the last, is revoked (R490). -/
theorem keyRevoke_revokes (hkey : par h 0 1 ≤ 2) (hz : parZero h 1 3 = true) (hmagic : par h 4 4 = 0x5245564B)
    (hfree : ∀ k, k = 0 ∨ (k = 2 ∧ uStage u = 3) → headerChecks (slotHeader k u) = true → rd (slotHeader k u) 6 1 ≠ par h 0 1)
    (hother : ∃ j, j < 3 ∧ j ≠ par h 0 1 ∧ bit u.fw.revoked j = 0) :
    keyRevoke h u = .done St.ok [] (raiseEvent Ev.keyRevoked (par h 0 1) 0 0
      { u with fw := { u.fw with revoked := u.fw.revoked ||| 2 ^ par h 0 1 } }) := by
  have hactive : (headerChecks (slotHeader 0 u) && rd (slotHeader 0 u) 6 1 == par h 0 1) = false := by
    simpa using hfree 0 (.inl rfl)
  have hstaging : (uStage u == 3 && (headerChecks (slotHeader 2 u) && rd (slotHeader 2 u) 6 1 == par h 0 1)) = false := by
    simpa using fun hs => hfree 2 (.inr ⟨rfl, hs⟩)
  have hlast : (List.range 3).all (fun j => j == par h 0 1 || bit u.fw.revoked j == 1) = false := by
    obtain ⟨j, hj, hne, hbit⟩ := hother
    exact List.all_eq_false.mpr ⟨j, List.mem_range.mpr hj, by simp [hne, hbit]⟩
  simp only [keyRevoke, Nat.not_lt.mpr hkey, hz, hmagic, hactive, hstaging, hlast, bne_self_eq_false, decide_false, Bool.not_true,
    Bool.or_self, Bool.and_false, Bool.false_eq_true, if_false, updFw]

/-- The quote begins with the serial number, the nonce and the instant (R520). -/
theorem attestQuote_answers (h : HeldCmd) (u : State) : ∃ rest : List Byte, attestQuote h u = .done St.ok
    (le 8 u.glb.serial ++ slice (pars h) 0 64 ++ le 6 (secOf u.tempo.now) ++ le 4 (nsOf u.tempo.now) ++ le 1 u.fw.fuseCounter ++
      le 1 u.fw.revoked ++ le 1 (uState u) ++ zeros 3 ++ rest) u := by
  unfold attestQuote
  simp only [List.append_assoc]
  exact ⟨_, rfl⟩
end

/-- Settles O18: each command's own rules, once nothing of its form is refused, in the shape of its verdict. -/
theorem firmwareCommandsComplete : Obligations.FirmwareCommandsComplete := by
  unfold Obligations.FirmwareCommandsComplete
  refine ⟨fun c s u ha hform hfree hfirst hoff hflash hdata => ?_, fun c s u ha hform hfree hfirst hoff hflash hdata => ?_,
    fun c s u ha hz hfree hstage hflash => ?_, fun c s u d ha hflags hz hto hfree hdist hstage hd => ?_,
    fun c s u ha hscope hflags hpar hok hrom => ?_, fun c s u ha hscope hz hstate hmig => ?_, fun c s u ha hz hstate => ?_,
    fun c s u ha hz hstate => ?_, fun c s u ha => ?_, fun c s u v ha hz hv => ?_, fun c s u ha hid hlen hval hflash hfits => ?_,
    fun c s u ha hkey hz hmagic hfree hother => ?_, fun c s u ha => ?_⟩
  · exact runs_of (spec := specFwDownload) ha rfl (fwDownload_first (h := heldOf 0x0C01 c) hform hfree hfirst hoff hflash hdata)
  · exact runs_of (spec := specFwDownload) ha rfl (fwDownload_next (h := heldOf 0x0C01 c) hform hfree hfirst hoff hflash hdata)
  · exact runs_of (spec := specFwVerify) ha rfl (fwVerify_waits (h := heldOf 0x0C02 c) hz hfree hstage hflash)
  · exact runs_of (spec := specFwDistribute) ha rfl
      (fwDistribute_neighbour (h := heldOf 0x0C03 c) hflags hz hto hfree hdist hstage hd)
  · exact bulkEffects_of (spec := specFwActivate) ha rfl rfl (fwActivate_package (h := heldOf 0x0C04 c) hscope hflags hpar hok hrom)
  · exact effects_of (spec := specFwConfirm) ha rfl rfl (fwConfirm_package (h := heldOf 0x0C05 c) hscope hz hstate hmig)
  · exact effects_of (spec := specFwRevert) ha rfl rfl (fwRevert_probation (h := heldOf 0x0C06 c) hz hstate)
  · exact effects_of (spec := specFwRevert) ha rfl rfl (fwRevert_unstarted (h := heldOf 0x0C06 c) hz hstate)
  · obtain ⟨rest, hb⟩ := fwStatus_answers (heldOf 0x0C07 c) u
    exact ⟨rest, queries_of (spec := specFwStatus) ha rfl rfl hb⟩
  · exact queries_of (spec := specSettingsRead) ha rfl rfl (settingsRead_answers (h := heldOf 0x0C08 c) hz hv)
  · exact runs_of (spec := specSettingsWrite) ha rfl (settingsWrite_waits (h := heldOf 0x0C09 c) hid hlen hval hflash hfits)
  · exact effects_of (spec := specKeyRevoke) ha rfl rfl (keyRevoke_revokes (h := heldOf 0x0C0A c) hkey hz hmagic hfree hother)
  · obtain ⟨rest, hb⟩ := attestQuote_answers (heldOf 0x0C0B c) u
    exact ⟨rest, queries_of (spec := specAttestQuote) ha rfl rfl hb⟩

end Sys2Proof.Proofs
end

section
/-! SUPPORT. The inject and receive descriptors and the rows of the host interface (R338 to R375). -/

namespace Sys2Proof.Proofs
open Sys2Proof Sys2Proof.Machine Sys2Proof.Laws

section
variable {s : State} {x : Ring} {r : Nat}

/-! ### Inject descriptors -/

/-- A descriptor in its ring's turn that no check of R361 refuses goes on with its frame. -/
theorem beginInject_goes {mode n : Nat} {d : Desc} {b : List Byte} {credits : Assoc Nat} {check : Nat → State → Option Nat}
    {go : List Byte → State → State} (hx : ring? d.ring s = some x) (htyp : x.typ = .inject) (hmay : mayBegin x s = true)
    (hblock : ringBlocked d.ring s = false) (hroom : begunTotal s < 2048) (hform : injectBad mode d = false) (hlen : injectLen d = .inl n)
    (hcheck : check n s = none) (hturn : injectTurn d.ring n s = some credits) (hdata : d.data = some b) :
    beginInject mode d check go s =
      go (injectFrame n b) (bump (hifCtr 0x130) n { s with host := { s.host with injectCredits := credits } }) := by
  simp [beginInject, hx, htyp, hmay, hblock, Nat.not_le.mpr hroom, hform, hlen, hcheck, hturn, hdata]

/-- The leaf queue exists, and its port takes a frame of that length (R361). -/
theorem directCheck_passes {d : Desc} {n m : Nat} {y : Mac} (hleaf : ahas s.cfg.leaves (rd d.bytes 20 4) = true)
    (hm : leafMac (rd d.bytes 20 4) s = some m) (hy : mac? m s = some y) (hn : n ≤ y.cfg.maxFrame - 4) : directCheck d n s = none := by
  simp [directCheck, hleaf, hm, hy, Nat.not_lt.mpr hn]

/-- The only path's head frame goes to QD where its leaf queue takes it (R363). -/
theorem execDirectInjectEnqueue_releases {leaf g : Nat} {p : Pkt} {rest : List Pkt} (hpath : s.fwd.injectPath = [(g, p :: rest)])
    (hdirect : p.direct = true) (hleaf : p.leaf = leaf) (htakes : leafTakes leaf s = true) :
    execDirectInjectEnqueue leaf s =
      .next (toQd (.toLeaf leaf p) { s with fwd := { s.fwd with injectPath := aset s.fwd.injectPath g rest } }) := by
  have hhead : agetD s.fwd.injectPath g [] = p :: rest := by simp [hpath, agetD, aget]
  have hkeys : akeys s.fwd.injectPath = [g] := by simp [hpath, akeys]
  subst hleaf
  simp only [execDirectInjectEnqueue, hkeys, List.foldl_cons, List.foldl_nil, hhead, hdirect, releasePath, htakes, beq_self_eq_true,
    Bool.and_self, if_true]

/-! ### Receive buffers and fetches -/

theorem execBufferPost_fetches {d : Desc} (hx : ring? d.ring s = some x) (htyp : x.typ = .buffer) (hen : x.state = .enabled)
    (hbus : (pciFn x.fn s).busMaster = true) (hroom : 0 < fetchRoom x) :
    execBufferPost d s = .next (updRing d.ring (fun x => { x with fetched := x.fetched ++ [fit 64 d.bytes] }) s) := by
  simp [execBufferPost, hx, htyp, hen, hbus, hroom]

/-- Descriptors are read in order, as many as there is room for (R358). -/
theorem execDescriptorFetch_fetches {first : Nat} {ds : List (List Byte)} (hx : ring? r s = some x) (hen : x.state = .enabled)
    (hpart : partWritten x.typ = false) (hfetch : x.fetchStopped = false) (hbus : (pciFn x.fn s).busMaster = true)
    (hstall : cqStalled x s = false) (hfirst : first = (x.partIndex + x.begun + x.fetched.length) % 4294967296) :
    execDescriptorFetch r first ds s =
      .next (updRing r (fun x => { x with fetched := x.fetched ++ (ds.take (fetchRoom x)).map (fit 64) }) s) := by
  simp [execDescriptorFetch, hx, hen, hpart, hfetch, hbus, hstall, hfirst]

/-! ### Doorbells and host indices -/

/-- A doorbell to a ring of its own function is not discarded (R352). -/
theorem doorbellFault_own {fn : Nat} (hx : ring? r s = some x) (hfn : x.fn = fn) : doorbellFault fn r s = none := by
  simp [doorbellFault, hx, hfn]

theorem execNewWork_own {fn h : Nat} (hx : ring? r s = some x) (hfn : x.fn = fn) (hen : x.state = .enabled)
    (hbus : (pciFn fn s).busMaster = true) : execNewWork fn r (some h) s = .next (
      if partWritten x.typ then drainRing r (rearm r (hostIndexRead r h s))
      else hostIndexRead r h (updRing r (fun x => { x with fetchStopped := false }) s)) := by
  subst hfn
  simp [execNewWork, doorbellFault_own hx rfl, newWork, hx, hen, hbus]

/-- A work ring with nothing begun drops what it fetched and completes the invalidation at once (R359). -/
theorem execInvalidate_completes {fn : Nat} {host : Option Nat} (hx : ring? r s = some x) (hfn : x.fn = fn) (hen : x.state = .enabled)
    (hpart : partWritten x.typ = false) (hbegun : x.begun = 0) : execInvalidate fn r host s =
      .next (invalidated r 1 (updRing r (fun x => { x with fetched := [], fetchStopped := true }) (dropPosted r s))) := by
  simp [execInvalidate, doorbellFault_own hx hfn, hx, hpart, invalidate, hen, hbegun]

theorem execDoorbellDiscard_records {fn off size value k : Nat} (hk : doorbellCause fn off size value s = some k) :
    ∃ t, execDoorbellDiscard fn off size value s = .next t ∧ t.host.error = s.host.error ||| 2 ^ k ∧
      t.host.errorRing = fn * 2147483648 + off / 32 % 32768 ∧ t.host.rings = s.host.rings ∧ t.hostMem = s.hostMem := by
  unfold execDoorbellDiscard
  rw [hk]
  exact ⟨_, rfl, rfl, rfl, rfl, rfl⟩

theorem execHostIndexPoll_one {h : Nat} (hx : ring? r s = some x) (hen : x.state = .enabled) (hpart : partWritten x.typ = true)
    (hbus : (pciFn x.fn s).busMaster = true) : execHostIndexPoll [(r, some h)] s = .next (drainRing r (hostIndexRead r h s)) := by
  simp [execHostIndexPoll, pollRing, hx, hen, hpart, hbus]

/-! ### Reads that fail, and interrupts -/

theorem execDmaTimeout_stops (hx : ring? r s = some x) (hbus : (pciFn x.fn s).busMaster = true) :
    execDmaTimeout r s = .next (stopRing r 3 (tally (hifCtr 0x110) s)) := by
  simp [execDmaTimeout, hx, hbus]

/-- The moderation's end signals what an armed ring has not signalled (R374). -/
theorem execInterruptModeration_signals {d : Nat} (hx : ring? r s = some x) (hmod : x.modDeadline = some d) (harmed : x.armed = true)
    (huns : 0 < x.unsignalled) : execInterruptModeration r s = .next (signalRing r (advanceTo d s)) := by
  simp [execInterruptModeration, hx, hmod, harmed, huns]

/-! ### Punted packets -/

theorem execPuntDelivery_landed {y : Xfer} {l : Landed} (h : landed s = some (y, l)) :
    execPuntDelivery s = .next (deliverPunt l { s with bridge := { s.bridge with atFd := s.bridge.atFd.erase y } }) := by
  simp [execPuntDelivery, h]

/-- With nothing on FD, and a pool for every queue that is ready, the next queue in turn sends its packet over (R15, R371). -/
theorem execPuntDelivery_sends {q : Ready} {s1 : State} {place pool : Nat} {fallback : Bool} (hnone : landed s = none)
    (hpools : ∀ q ∈ readyQueues s, q.pool.isSome = true) (hpick : drrPick (readyQueues s) s = some (q, s1))
    (hpool : q.pool = some (place, pool, fallback)) : execPuntDelivery s = .next (sendPunt q place pool fallback s1) := by
  have hempty : (readyQueues s).filter (fun q => q.pool.isNone) = [] :=
    List.filter_eq_nil_iff.mpr fun q hq => by simpa using Option.isSome_iff_ne_none.mp (hpools q hq)
  have hall : (readyQueues s).filter (fun q => q.pool.isSome) = readyQueues s := List.filter_eq_self.mpr hpools
  simp only [execPuntDelivery, hnone, hempty, List.foldl_nil, hall, hpick, hpool]
end

/-- Settles O19: each descriptor and row, in the case that its rule gives. -/
theorem hostRowsComplete : Obligations.HostRowsComplete := by
  unfold Obligations.HostRowsComplete
  refine ⟨fun d s x n b credits hx htyp hmay hblock hroom hform hlen hn hturn hdata => ?_,
    fun d s x n b m y credits hx htyp hmay hblock hroom hform hlen hdata hleaf hm hy hn hturn => ?_,
    fun d s x hx htyp hen hbus hroom => ?_, fun fn r h s x hx hfn hen hbus hpart => ?_, fun fn r h s x hx hfn hen hbus hpart => ?_,
    fun fn r host s x hx hfn hen hpart hbegun => ?_, fun fn off size value s k hk => ?_,
    fun r first ds s x hx hen hpart hfetch hbus hstall hfirst => ?_, fun r h s x hx hen hpart hbus => ?_, fun r d s => rfl,
    fun r s x hx hbus => ?_, fun r s => rfl, fun r s x d hx hmod harmed huns => ?_, fun leaf g p rest s hpath hdirect hleaf htakes => ?_,
    fun s y l h => ?_, fun s s1 q place pool fallback hnone hpools hpick hpool => ?_⟩
  · exact congrArg _ (beginInject_goes hx htyp hmay hblock hroom hform hlen (if_neg (Nat.not_lt.mpr hn)) hturn hdata)
  · exact congrArg _ (beginInject_goes hx htyp hmay hblock hroom hform hlen (directCheck_passes hleaf hm hy hn) hturn hdata)
  · exact execBufferPost_fetches hx htyp hen hbus hroom
  · exact (execNewWork_own hx hfn hen hbus).trans (congrArg _ (if_neg (by simp [hpart])))
  · exact (execNewWork_own hx hfn hen hbus).trans (congrArg _ (if_pos hpart))
  · exact execInvalidate_completes hx hfn hen hpart hbegun
  · exact execDoorbellDiscard_records hk
  · exact execDescriptorFetch_fetches hx hen hpart hfetch hbus hstall hfirst
  · exact execHostIndexPoll_one hx hen hpart hbus
  · exact execDmaTimeout_stops hx hbus
  · exact execInterruptModeration_signals hx hmod harmed huns
  · exact execDirectInjectEnqueue_releases hpath hdirect hleaf htakes
  · exact execPuntDelivery_landed h
  · exact execPuntDelivery_sends hnone hpools hpick hpool

end Sys2Proof.Proofs
end

section
/-! SUPPORT. The accesses to BAR0 of a function that it serves, and the register window (R9 to R11, R42, R393, R394, R402, R423, R573, R581 to
R591). -/

namespace Sys2Proof.Proofs
open Sys2Proof Sys2Proof.Machine Sys2Proof.Laws

section
variable {fn : Nat} {s : State}

/-- Where BAR0 is served a write acts (R592). -/
theorem writeThrough_live {act : State → State} (hf : fnExists fn s = true) (hb : barServed s = true) : writeThrough fn act s = act s := by
  simp [writeThrough, hf, hb]

/-! ### Stored registers -/

/-- A threshold of R423's range is stored and journalled. -/
theorem execDdrRhThresholdWrite_stores {value : Word} (hf : fnExists fn s = true) (hb : barServed s = true)
    (hgood : goodThreshold (value.toNat % 65536) = true) : execDdrRhThresholdWrite fn value s =
      .next (captureWrite fn 0x10004 value.toNat { s with mem := { s.mem with rhThreshold := value.toNat % 65536 } }) := by
  simp [execDdrRhThresholdWrite, writeThrough_live hf hb, hgood]

/-- The enable bits are stored; one that meets a standing status bit sends the message at once (R587). -/
theorem execGlbIntEnableWrite_stores (value : Word) (hf : fnExists fn s = true) (hb : barServed s = true) :
    execGlbIntEnableWrite fn value s = .next (
      if value.toNat % 64 &&& (63 - s.glb.intEnable % 64) &&& s.glb.intStatus = 0 then
        captureWrite fn 0x24 value.toNat { s with glb := { s.glb with intEnable := value.toNat % 64 } }
      else sendMsix (bit s.glb.intVector 31) (s.glb.intVector % 2048)
        (captureWrite fn 0x24 value.toNat { s with glb := { s.glb with intEnable := value.toNat % 64 } })) :=
  congrArg _ (writeThrough_live hf hb)

theorem execW1cClear_writes (off : Nat) (ones sets : Word) (hf : fnExists fn s = true) (hb : barServed s = true) :
    execW1cClear fn off ones sets s = .next (writeOnes off ones.toNat sets.toNat s) := congrArg _ (writeThrough_live hf hb)

/-- A register without a row of its own stores the value, and the write is journalled (R402). -/
theorem execRegisterWrite_stores {off : Nat} {value : Word} {t : State} (hf : fnExists fn s = true) (hb : barServed s = true)
    (hr : readableAt fn off = true) (hstore : storeReg off value.toNat s = some t) :
    execRegisterWrite fn off value s = .next (captureWrite fn off value.toNat t) := by
  simp [execRegisterWrite, hr, writeThrough_live hf hb, writeReg, hstore]

theorem execDbgInject_arms {value : Word} (hf : fnExists fn s = true) (hb : barServed s = true) (hkey : value.toNat / 65536 = 0x494A) :
    execDbgInject fn value s = .next (armInjection value.toNat s) := by
  simp [execDbgInject, writeThrough_live hf hb, hkey]

/-! ### Reads -/

/-- Running or stopped, a read of a counter's _LO word answers bits 31:0 and copies bits 63:32; Toll itself stays as it was (R112, R113). -/
theorem clearingRead_answers (off id counted : Nat) (s : State) :
    ∃ t, clearingRead off id counted s = emit (.readData (readCounter id s % 4294967296)) t ∧
      agetD t.glb.hiCopy (off + 4) 0 = readCounter id s / 4294967296 ∧ (s.toll.running = false → ctr id t = counted) ∧
      (s.toll.running = true → t.toll = s.toll) := by
  cases hrun : s.toll.running <;> simp only [clearingRead, hrun, if_true, Bool.false_eq_true, if_false]
  · exact ⟨_, rfl, agetD_aset_self _ _ _ _, fun _ => agetD_aset_self _ _ _ _, False.elim⟩
  · exact ⟨_, rfl, agetD_aset_self _ _ _ _, fun h => absurd h.symm Bool.false_ne_true, fun _ => rfl⟩

theorem readReg_ungrouped {off : Nat} (hc : counterAt off = none) (hsel : off ≠ 0x6008) (hg : groupAt off = none) :
    readReg off s = emit (.readData (readWord off s)) s := by
  simp [readReg, hc, hsel, hg]

/-- The lowest register of a group answers its own word and latches the group (R42). -/
theorem readReg_lowest {base n : Nat} (hc : counterAt base = none) (hsel : base ≠ 0x6008) (hg : groupAt base = some (base, n)) :
    readReg base s = emit (.readData (plainWord base s)) (latchGroupAt base n s) := by
  simp [readReg, readWord, hc, hsel, hg]

theorem execCntValRead_latches (hf : fnExists fn s = true) (hb : barServed s = true) (hname : namesCounter s.toll.sel = true) :
    execCntValRead fn s = .next (emit (.readData (readCounter s.toll.sel s % 4294967296))
      { s with toll := { s.toll with val := readCounter s.toll.sel s, noCounter := false } }) := by
  simp [execCntValRead, readThrough_live hf hb, latchCounter, hname]

/-! ### Accesses that name no register -/

theorem execBar0BadAccess_write (off : Nat) (hf : fnExists fn s = true) (hb : barServed s = true) :
    execBar0BadAccess fn off true s = .next (recordAccess 1 fn off true s) := congrArg _ (writeThrough_live hf hb)

theorem execBar0BadAccess_read (off : Nat) (hf : fnExists fn s = true) (hb : barServed s = true) :
    execBar0BadAccess fn off false s = .next (emit (.readData 0xFFFFFFFF) (recordAccess 1 fn off false s)) := by
  simp [execBar0BadAccess, readThrough_live hf hb]

theorem execUnmappedAccess_write {off : Nat} (hf : fnExists fn s = true) (hb : barServed s = true) (hu : unassigned fn off = true) :
    execUnmappedAccess fn off true s = .next (recordAccess 2 fn off true s) := by
  simp [execUnmappedAccess, hu, writeThrough_live hf hb]

theorem execUnmappedAccess_read {off : Nat} (hf : fnExists fn s = true) (hb : barServed s = true) (hu : unassigned fn off = true) :
    execUnmappedAccess fn off false s = .next (emit (.readData 0) (recordAccess 2 fn off false s)) := by
  simp [execUnmappedAccess, hu, readThrough_live hf hb]

/-! ### The register window -/

/-- A window that is free hands a block that fits it to Teruo, who can take it (R388, R394). -/
theorem enter_window {begin : HeldCmd → State → State} {h : HeldCmd} (hfn : fn ≤ 1) (hsrc : h.source = 2 + fn) (hf : fnExists fn s = true)
    (hb : barServed s = true) (hmbx : s.mgmt.mbx = .idle ∨ s.mgmt.mbx = .done) (hlen : 16 + h.paramLen ≤ 1024)
    (hc : canAccept s = true) : enter begin h s = begin h { s with mgmt := { s.mgmt with mbx := .pending, mbxFn := fn } } := by
  have hring : ¬ h.source ≤ 1 := by omega
  have hwin : h.source ≤ 3 := by omega
  have hof : h.source - 2 = fn := by omega
  have hfree : (s.mgmt.mbx == .pending || s.mgmt.mbx == .running) = false := by rcases hmbx with hm | hm <;> rw [hm] <;> rfl
  have hc' : canAccept { s with mgmt := { s.mgmt with mbx := .pending, mbxFn := fn } } = true := hc
  simp only [enter, hring, hwin, hof, hf, hb, hfree, Nat.not_lt.mpr hlen, hc', Bool.not_true, Bool.or_self, Bool.false_eq_true, if_false,
    if_true]

/-- A query of the window that its own rules answer is DONE at once (R386). -/
theorem beginCmd_query {spec : CmdSpec} {h : HeldCmd} {resp : List Byte} {t : State} (hsrc : h.source = 2 ∨ h.source = 3)
    (hk : spec.kind = .query) (hhdr : headerBad spec.minLen h = false) (htarget : h.target = 0xFF) (hrom : s.mgmt.rom = false)
    (htag : tagInUse h s = false) (hbody : spec.body h { s with mgmt := { s.mgmt with mbx := .running } } = .done St.ok resp t) :
    beginCmd spec h s = finish h 0 St.ok resp false 0 0 t := by
  have hring : ¬ h.source ≤ 1 := by omega
  have htaken : windowRunning h (consumeCmd h s) = { s with mgmt := { s.mgmt with mbx := .running } } := by
    rcases hsrc with h2 | h3
    · simp [windowRunning, consumeCmd, h2]
    · simp [windowRunning, consumeCmd, h3]
  rw [← htaken] at hbody
  simp [beginCmd, hrom, htag, hhdr, relayTo_own (.inl htarget), hbody, hk, standbyRefuses, cmdIndex, cmdDue, hring, markDue]

theorem execMbxSubmit_query {data : Option (List Byte)} {h : HeldCmd} {spec : CmdSpec} {u t : State} {resp : List Byte} (hfn : fn ≤ 1)
    (hf : fnExists fn s = true) (hb : barServed s = true) (hmbx : s.mgmt.mbx = .idle ∨ s.mgmt.mbx = .done)
    (hh : h = parseBlock (2 + fn) 0 0 (16 + rd (windowBytes s) 2 2) data (windowBytes s)) (hlen : 16 + h.paramLen ≤ 1024)
    (hspec : specOf h.op = some spec) (hk : spec.kind = .query) (hhdr : headerBad spec.minLen h = false) (htarget : h.target = 0xFF)
    (hc : canAccept s = true) (hrom : s.mgmt.rom = false) (htag : tagInUse h s = false)
    (hu : u = { s with mgmt := { s.mgmt with mbx := .running, mbxFn := fn } }) (hbody : spec.body h u = .done St.ok resp t) :
    execMbxSubmit fn data s = .next (finish h 0 St.ok resp false 0 0 t) := by
  have hsrc : h.source = 2 + fn := by rw [hh]; rfl
  have hany : beginAny h { s with mgmt := { s.mgmt with mbx := .pending, mbxFn := fn } } = finish h 0 St.ok resp false 0 0 t := by
    rw [beginAny, hspec]
    exact beginCmd_query (by omega) hk hhdr htarget hrom htag (hu ▸ hbody)
  rw [execMbxSubmit, if_neg (Nat.not_lt.mpr hfn)]
  dsimp only
  rw [← hh, enter_window hfn hsrc hf hb hmbx hlen hc, hany]

/-- The abort ends the window's RUNNING command early (R394). -/
theorem execMbxAbort_ends {r : Running} (hf : fnExists fn s = true) (hb : barServed s = true) (hmbx : s.mgmt.mbx = .running)
    (hres : s.mgmt.restarting = false) (hready : s.mgmt.ready = true) (hrun : s.mgmt.running = [r])
    (hsrc : r.cmd.source = 2 + s.mgmt.mbxFn) : execMbxAbort fn s = .next (endEarly St.aborted r s) := by
  simp [execMbxAbort, writeThrough_live hf hb, hmbx, hres, hready, hrun, hsrc]
end

/-- Settles O20: each access, where its function serves it, and the two writes of the register window. -/
theorem registerRowsComplete : Obligations.RegisterRowsComplete := by
  unfold Obligations.RegisterRowsComplete
  refine ⟨fun fn s hf hb => ⟨fun value hv => ?_, fun value hv => ?_, fun value hv => ?_, fun ones sets => ?_, fun ones sets => ?_,
      fun off id counted hc => ?_, fun off hr hc hsel hg => ?_, fun base n hr hc hsel _ hg => ?_, fun hname => ?_,
      fun off value t hr hstore => ?_, fun off => ?_, fun off => ?_, fun off hu => ?_, fun off hu => ?_, fun value hkey hcode => ?_,
      fun value hkey hcode => ?_⟩,
    fun fn data s h spec u resp t hfn hf hb hmbx hh hlen hspec hk hhdr htarget hc hrom htag hu hbody => ?_,
    fun fn s r hf hb hmbx hres hready hrun hsrc => ?_⟩
  · exact execDdrRhThresholdWrite_stores hf hb (by rcases hv with hv | hv | hv <;> rw [hv] <;> rfl)
  · exact (execGlbIntEnableWrite_stores value hf hb).trans (congrArg _ (if_pos hv))
  · exact (execGlbIntEnableWrite_stores value hf hb).trans (congrArg _ (if_neg hv))
  · exact execW1cClear_writes 0x3004 ones sets hf hb
  · exact execW1cClear_writes 0x180C ones sets hf hb
  · obtain ⟨t, hread, hcopy, hstopped, hruns⟩ := clearingRead_answers off id counted s
    exact ⟨t, (exec_counterClearingRead counted hf hb hc).trans (congrArg _ hread), hcopy, hstopped, hruns⟩
  · exact (exec_groupLatchRead hf hb hr).trans (congrArg _ (readReg_ungrouped hc hsel hg))
  · exact (exec_groupLatchRead hf hb hr).trans (congrArg _ (readReg_lowest hc hsel hg))
  · exact execCntValRead_latches hf hb hname
  · exact execRegisterWrite_stores hf hb hr hstore
  · exact execBar0BadAccess_write off hf hb
  · exact execBar0BadAccess_read off hf hb
  · exact execUnmappedAccess_write hf hb hu
  · exact execUnmappedAccess_read hf hb hu
  · exact (execDbgInject_arms hf hb hkey).trans (congrArg _ (if_pos hcode))
  · exact (execDbgInject_arms hf hb hkey).trans (congrArg _ (if_neg (Nat.not_lt.mpr hcode)))
  · exact execMbxSubmit_query hfn hf hb hmbx hh hlen hspec hk hhdr htarget hc hrom htag hu hbody
  · exact execMbxAbort_ends hf hb hmbx hres hready hrun hsrc

end Sys2Proof.Proofs
end

section
/-! SUPPORT. The rows of the carillon and of the management bus (R38, R446 to R465). -/

namespace Sys2Proof.Proofs
open Sys2Proof Sys2Proof.Machine Sys2Proof.Laws

/-! ### What passing time leaves alone -/

@[simp] theorem advanceTo_crl (d : Nat) (s : State) : (advanceTo d s).crl = s.crl := by
  unfold advanceTo
  split <;> rfl

@[simp] theorem advanceTo_glb (d : Nat) (s : State) : (advanceTo d s).glb = s.glb := by
  unfold advanceTo
  split <;> rfl

@[simp] theorem advanceTempo_crl (t : Nat) (s : State) : (advanceTempo t s).crl = s.crl := by
  unfold advanceTempo
  split <;> rfl

@[simp] theorem advanceTempo_fw (t : Nat) (s : State) : (advanceTempo t s).fw = s.fw := by
  unfold advanceTempo
  split <;> rfl

/-! ### Heartbeats sent -/

/-- A port whose PCS is not aligned sends no heartbeat (R450). -/
theorem heartbeatOut_off {p : Nat} {s : State} (h : (crlPort p s).pcs = false) : heartbeatOut p s = s :=
  if_neg (by simp [h])

/-- Without a schedule no package is late. -/
theorem scheduleLate_none {s : State} (h : s.fw.schedule = none) : scheduleLate s = s := by
  unfold scheduleLate
  rw [h]

section
variable {s u : State}

/-- A package whose carillon runs sends at the next multiple of 10 ms of Tempo, a head its beacon too (R450, R452). -/
theorem execHeartbeatSend_running (henable : s.crl.enable = true) (hparked : s.crl.parked = false) (hlevel : s.pwr.level < 5)
    (hrom : s.mgmt.rom = false)
    (hu : u = setTempo (fun t => { t with lastBeat := some (beatInstant s), beatDue := none })
      (advanceTempo (beatInstant s * tuPerNs) s)) :
    execHeartbeatSend s = .next (
      if (scheduleLate (heartbeatOut 1 (heartbeatOut 0 u))).crl.role == .head then
        flood 0x02 0xFF
          (beaconPayload (updCrl (fun c => { c with beat := (c.beat + 1) % 4294967296 }) (scheduleLate (heartbeatOut 1 (heartbeatOut 0 u)))))
          (updCrl (fun c => { c with beat := (c.beat + 1) % 4294967296 }) (scheduleLate (heartbeatOut 1 (heartbeatOut 0 u))))
      else scheduleLate (heartbeatOut 1 (heartbeatOut 0 u))) := by
  simp only [execHeartbeatSend, henable, hparked, hrom, Nat.not_le.mpr hlevel, ← hu, decide_false, Bool.not_true, Bool.or_self,
    Bool.false_eq_true, if_false]

/-- With no aligned port, no schedule and no beacon to send, only the instant of the heartbeat passes. -/
theorem execHeartbeatSend_silent (henable : s.crl.enable = true) (hparked : s.crl.parked = false) (hlevel : s.pwr.level < 5)
    (hrom : s.mgmt.rom = false) (hrole : s.crl.role ≠ .head) (hup : s.crl.up.pcs = false) (hdown : s.crl.down.pcs = false)
    (hschedule : s.fw.schedule = none)
    (hu : u = setTempo (fun t => { t with lastBeat := some (beatInstant s), beatDue := none })
      (advanceTempo (beatInstant s * tuPerNs) s)) :
    execHeartbeatSend s = .next u := by
  have hcrl : u.crl = s.crl := by rw [hu, setTempo_crl, advanceTempo_crl]
  have hfw : u.fw.schedule = none := by rw [hu, setTempo_fw, advanceTempo_fw, hschedule]
  have hsent : scheduleLate (heartbeatOut 1 (heartbeatOut 0 u)) = u := by
    rw [heartbeatOut_off (p := 0) (by simp [crlPort, hcrl, hup]), heartbeatOut_off (p := 1) (by simp [crlPort, hcrl, hdown]),
      scheduleLate_none hfw]
  rw [execHeartbeatSend_running henable hparked hlevel hrom hu, hsent, if_neg (by simp [hcrl, hrole])]
end

/-! ### Messages of the carillon -/

section
variable {port : Nat} {msg : List Byte} {s u v : State} {m w : Msg}

/-- R451: a heartbeat whose CARILLON_ID and port bit fit is taken. -/
theorem execHeartbeat_consistent (henable : s.crl.enable = true) (hrom : s.mgmt.rom = false) (hfcs : fcsGood msg = true)
    (htype : rdBe msg 12 2 = 0x88B5) (hm : m = msgOf msg) (hu : u = updCrlPort port (fun p => { p with pcs := true }) s)
    (htaken : msgRefused 0 msg u = false) (hversion : m.version = 1) (hdomain : m.domain = 0) (htyp : m.typ = 1)
    (hlen : 38 + m.length ≤ msg.length) (hcid : m.cid = u.crl.cid) (hport : (bit (rdBe m.payload 19 1) 0 == 1) = (port == 0)) :
    execHeartbeat port msg s = .next (onHeartbeat port m u) := by
  unfold execHeartbeat
  rw [if_neg (by simp [henable, hrom, hfcs, htype])]
  dsimp only
  rw [← hu, htaken, ← hm]
  simp only [Bool.false_eq_true, if_false]
  rw [if_neg (by simp [hversion, hdomain, htyp, Nat.not_lt.mpr hlen]), if_neg (by simp [hcid, hport])]

theorem execNeighbourLost_silent {n : Neighbour} (henable : s.crl.enable = true) (hn : (crlPort port s).neighbour = some n) :
    execNeighbourLost port false s = .next (loseNeighbour port (advanceTo (n.seenAt + 30000000) s)) := by
  simp [execNeighbourLost, henable, hn]

theorem execNeighbourLost_pcs (henable : s.crl.enable = true) :
    execNeighbourLost port true s =
      .next (loseNeighbour port (updCrlPort port (fun p => { p with pcs := false, miswire := false }) s)) := by
  simp [execNeighbourLost, henable]

theorem execHeadBeacon_received (hr : crlReceive port 0x02 msg s = (some m, u)) :
    execHeadBeacon port msg s = .next (onBeacon port m u) := by
  unfold execHeadBeacon
  rw [hr]

theorem execHeadLost_follower (hrole : s.crl.role = .follower) :
    execHeadLost s = .next (enterElecting (advanceTo (s.crl.lastBeacon + 30000000) s)) :=
  congrArg _ (if_pos (by simp [hrole]))

theorem execClaim_received (hr : crlReceive port 0x03 msg s = (some m, u)) : execClaim port msg s = .next (onClaim m u) := by
  unfold execClaim
  rw [hr]

/-- R453: a package whose own claim is the best when its wait ends is the head. -/
theorem execElectionSettle_won {c : Claim} (hrole : s.crl.role = .electing) (hrestart : s.mgmt.restarting = false)
    (hu : u = advanceTo s.crl.settleAt s) (hbest : s.crl.best = some c) (hserial : c.serial = s.glb.serial) :
    execElectionSettle s = .next (becomeHead u) := by
  unfold execElectionSettle
  rw [if_neg (by simp [hrole, hrestart]), ← hu]
  exact congrArg _ (if_pos (by simp [hu, hbest, hserial]))

theorem execElectionRetry_claims (hrole : s.crl.role = .electing) (hrestart : s.mgmt.restarting = false) :
    execElectionRetry s = .next (claimTerm (s.crl.term + 1) (advanceTo (s.crl.electionAt + 100000000) s)) :=
  congrArg _ (if_neg (by simp [hrole, hrestart]))

theorem execPosition_up (hr : crlReceive 0 0x04 msg s = (some m, u)) : execPosition 0 msg s = .next (onPosition m u) := by
  unfold execPosition
  rw [hr]
  rfl

/-! ### Members and the schedule -/

@[simp] theorem keepMember_fw (m : Msg) (s : State) : (keepMember m s).fw = s.fw := by
  unfold keepMember
  split <;> rfl

theorem scheduleDone_none {pos version : Nat} (h : s.fw.schedule = none) : scheduleDone pos version s = s := by
  unfold scheduleDone
  rw [h]

theorem scheduleReverted_none {pos version : Nat} (h : s.fw.schedule = none) : scheduleReverted pos version s = s := by
  unfold scheduleReverted
  rw [h]

theorem scheduleStep_none {fuel : Nat} (h : s.fw.schedule = none) : scheduleStep fuel s = s := by
  cases fuel with
  | zero => rfl
  | succ fuel =>
    unfold scheduleStep
    rw [h]

/-- Where no schedule runs, a member's state is only kept. -/
theorem execMember_keeps (hr : crlReceive port 0x05 msg s = (some m, u)) (hschedule : u.fw.schedule = none) :
    execMember port msg s = .next (keepMember m u) := by
  have hkept : (keepMember m u).fw.schedule = none := by rw [keepMember_fw, hschedule]
  unfold execMember
  rw [hr]
  dsimp only
  rw [scheduleDone_none hkept, scheduleReverted_none hkept, ite_self, scheduleStep_none hkept]

/-! ### Commands that a message brings -/

/-- R459: the whole block enters Teruo with source CARILLON. -/
theorem execRelayCmd_enters (hr : crlFragment port 0x20 msg s = (some m, u)) (hrestart : u.mgmt.restarting = false)
    (hwhole : assemble false m u = (some w, v)) :
    execRelayCmd port msg s = .next (enter beginAny (parseBlock 5 m.src m.msgId w.payload.length none w.payload) v) := by
  unfold execRelayCmd
  rw [hr]
  dsimp only
  rw [if_neg (by simp [hrestart]), relayFragment, hwhole]

/-- R464: a node that has neither an answered nor a RUNNING command has its whole one acknowledged and entered. -/
theorem execCommand_enters (hr : busFragment 0x01 msg s = (some m, u)) (hrestart : u.mgmt.restarting = false)
    (hlast : aget u.bus.lastResp m.src = none) (hrun : ∀ r ∈ u.bus.running, r.1 ≠ m.src)
    (hwhole : assemble true m u = (some w, v)) :
    execCommand msg s =
      .next (enter beginAny (parseBlock 4 m.src m.msgId w.payload.length none w.payload) (busAck m.src m.msgId 1 [] v)) := by
  have hnone : u.bus.running.any (fun r => r.1 == m.src && r.2.1 == m.msgId) = false := by
    simp only [List.any_eq_false, Bool.and_eq_true, beq_iff_eq, not_and]
    exact fun r hmem hsrc => absurd hsrc (hrun r hmem)
  unfold execCommand
  rw [hr]
  dsimp only
  rw [if_neg (by simp [hrestart]), commandFragment, hlast]
  dsimp only
  rw [commandFragment.fresh, hnone, hwhole]
  rfl

/-- R459: the response ends the command that was relayed under its MSG_ID. -/
theorem execRelayResp_ends {r : Running} (hr : crlReceive port 0x21 msg s = (some m, u)) (hrestart : u.mgmt.restarting = false)
    (hfind : u.mgmt.running.find? (fun r => r.waits == .relay m.src m.msgId) = some r) :
    execRelayResp port msg s =
      .next (finishRunning r (rdBe m.payload 0 2) (slice m.payload 8 (rdBe m.payload 4 4)) false 0 0 u) := by
  unfold execRelayResp
  rw [hr]
  dsimp only
  rw [if_neg (by simp [hrestart]), onRelayResp]
  simp only [hfind]

/-! ### Fragments, collisions and images -/

theorem execFragmentTimeout_discards {bus : Bool} {src id : Nat} {p : Partial}
    (hp : s.crl.partials.find? (fun p => p.bus == bus && p.src == src && p.msgId == id) = some p)
    (hu : u = advanceTo (p.firstAt + 100000000) s) :
    execFragmentTimeout bus src id s = .next { u with crl := { u.crl with
      partials := u.crl.partials.filter (fun q => !(q.bus == bus && q.src == src && q.msgId == id)) } } := by
  unfold execFragmentTimeout
  rw [hp, hu]

/-- R462: before its sixteenth attempt a frame backs off and is sent again. -/
theorem execBusCollision_backsOff {f : List Byte} {n slots : Nat} (hf : s.bus.sending = some f) (henable : s.bus.enable = true)
    (hn : n = s.bus.attempts + 1) (hmore : n < 16) (hslots : slots = Config.random s.fresh % 2 ^ min n 10)
    (hu : u = tally (ctrId 8 0 6) s) :
    execBusCollision s = .next (emit (.bus f) (drawn { u with bus := { u.bus with
      attempts := n, retryAt := s.elapsed + 3200 + slots * 51200 } })) := by
  unfold execBusCollision
  rw [hf]
  dsimp only
  rw [if_neg (by simp [henable]), ← hn, if_pos hmore, ← hslots, ← hu]

theorem execImageChunk_ready (hr : crlReceive port 0x30 msg s = (some m, u)) (hready : u.mgmt.ready = true) :
    execImageChunk port msg s = .next (onChunk port msg m u) := by
  unfold execImageChunk
  rw [hr]
  exact congrArg _ (if_pos (by simp [hready]))

theorem execImageAck_received (hsrc : (msgOf msg).src ≠ 0xFF) (hr : crlReceive port 0x31 msg s = (some m, u)) :
    execImageAck port msg s = .next (onImageAck m u) := by
  unfold execImageAck
  rw [if_neg (by simp [hsrc]), hr]
end

/-- Settles O25: each row, and each message that its frame delivers, does what its rule gives. -/
theorem carillonRowsComplete : Obligations.CarillonRowsComplete := by
  unfold Obligations.CarillonRowsComplete
  refine ⟨fun s u henable hparked hlevel hrom hrole hup hdown hschedule hu => ?_,
    fun s u v w henable hparked hlevel hrom hu hv hrole hw => ?_,
    fun port msg s m u henable hrom hfcs htype hm hu htaken hversion hdomain htyp hlen hcid hport => ?_,
    fun port s n henable hn => ?_, fun port s henable => ?_, fun port msg s m u hr => ?_, fun s hrole => ?_,
    fun port msg s m u hr => ?_, fun s u c hrole hrestart hu hbest hserial => ?_, fun s hrole hrestart => ?_,
    fun msg s m u hr => ?_, fun port msg s m u hr hschedule => ?_, fun port msg s m u v w hr hrestart hwhole => ?_,
    fun msg s m u v w hr hrestart hlast hrun hwhole => ?_, fun port msg s m u r hr hrestart hfind => ?_,
    fun bus src id s p u hp hu => ?_, fun s f n slots u hf henable hn hmore hslots hu => ?_,
    fun port msg s m u hr hready => ?_, fun port msg s m u hsrc hr => ?_⟩
  · exact execHeartbeatSend_silent henable hparked hlevel hrom hrole hup hdown hschedule hu
  · have hsend := execHeartbeatSend_running henable hparked hlevel hrom hu
    rw [← hv, if_pos (by simp [hrole]), ← hw] at hsend
    exact hsend
  · exact execHeartbeat_consistent henable hrom hfcs htype hm hu htaken hversion hdomain htyp hlen hcid hport
  · exact execNeighbourLost_silent henable hn
  · exact execNeighbourLost_pcs henable
  · exact execHeadBeacon_received hr
  · exact execHeadLost_follower hrole
  · exact execClaim_received hr
  · exact execElectionSettle_won hrole hrestart hu hbest hserial
  · exact execElectionRetry_claims hrole hrestart
  · exact execPosition_up hr
  · exact execMember_keeps hr hschedule
  · exact execRelayCmd_enters hr hrestart hwhole
  · exact execCommand_enters hr hrestart hlast hrun hwhole
  · exact execRelayResp_ends hr hrestart hfind
  · exact execFragmentTimeout_discards hp hu
  · exact execBusCollision_backsOff hf henable hn hmore hslots hu
  · exact execImageChunk_ready hr hready
  · exact execImageAck_received hsrc hr

end Sys2Proof.Proofs
end

section
/-! SUPPORT. The passes of Hum, the rewrites of Teruo and the reads of an audit scan (R174, R175, R522 to R533, R538). -/

namespace Sys2Proof.Proofs
open Sys2Proof Sys2Proof.Machine Sys2Proof.Laws

/-! ### The start of a pass (R527) -/

section
variable {id period : Nat} {pass : State → State} {s u : State}

/-- A pass starts where the one before does not still run. -/
theorem humStart_starts (hu : u = nextInstant period s) (hidle : humBusy id u = false) : humStart id period pass s = pass u := by
  subst hu
  exact if_neg (by simp [hidle])

/-- Where the one before still runs, it goes on, and the overrun is reported. -/
theorem humStart_overruns (hu : u = nextInstant period s) (hbusy : humBusy id u = true) :
    humStart id period pass s = humOverrun id u := by
  subst hu
  exact if_pos hbusy
end

section
variable {s u v : State}

/-! ### Rewrites by Teruo (R174, R538) -/

theorem execTcamEntryRewrite_rule {entry id x : Nat} (hready : s.mgmt.ready = true) (hrom : s.mgmt.rom = false)
    (hrestart : s.mgmt.restarting = false) (he : entryAtIndex (entry / 131072) (entry % 131072) s = some (false, id, x)) :
    execTcamEntryRewrite entry s =
      .next { s with fwd := { s.fwd with removed := adel s.fwd.removed id, missing := adel s.fwd.missing id } } := by
  unfold execTcamEntryRewrite
  rw [if_neg (by simp [hready, hrom, hrestart]), he]

theorem execTcamEntryRewrite_selector {entry id x : Nat} (hready : s.mgmt.ready = true) (hrom : s.mgmt.rom = false)
    (hrestart : s.mgmt.restarting = false) (he : entryAtIndex (entry / 131072) (entry % 131072) s = some (true, id, x)) :
    execTcamEntryRewrite entry s =
      .next { s with fwd := { s.fwd with removedSel := adel s.fwd.removedSel id, missingSel := adel s.fwd.missingSel id } } := by
  unfold execTcamEntryRewrite
  rw [if_neg (by simp [hready, hrom, hrestart]), he]

theorem execConfigWordRewrite_rewrites {table word : Nat} (hready : s.mgmt.ready = true) (hrom : s.mgmt.rom = false)
    (hrestart : s.mgmt.restarting = false) :
    execConfigWordRewrite table word s =
      .next { s with pwr := { s.pwr with badWords := s.pwr.badWords.filter (fun w => !(w.1 == table && w.2.1 == word)) } } :=
  congrArg _ (if_neg (by simp [hready, hrom, hrestart]))

/-! ### Passes of the hardware -/

/-- R175: the TCAM scrub starts at its instant, at S1 to S3 too. -/
theorem execTcamScrubPass_atInstant {fixed : List Nat} (hawake : awake s = true) (hlevel : s.pwr.level < 4) :
    execTcamScrubPass fixed s = .next (humStart 1 50000000 (fun s =>
      humPass 1 (s.fwd.missing.length + s.fwd.missingSel.length + fixed.length)
        (bump (ctrId 12 0 4) (s.fwd.missing.length + s.fwd.missingSel.length + fixed.length)
          { s with fwd := { s.fwd with missing := [], missingSel := [] } })) s) :=
  congrArg _ (if_neg (by simp [hawake, Nat.not_le.mpr hlevel]))

theorem execTcamScrubPass_rewrites {fixed : List Nat} {n : Nat} (hawake : awake s = true) (hlevel : s.pwr.level < 4)
    (hu : u = nextInstant 50000000 s) (hidle : humBusy 1 u = false)
    (hn : n = u.fwd.missing.length + u.fwd.missingSel.length + fixed.length) :
    execTcamScrubPass fixed s =
      .next (humPass 1 n (bump (ctrId 12 0 4) n { u with fwd := { u.fwd with missing := [], missingSel := [] } })) := by
  rw [execTcamScrubPass_atInstant hawake hlevel, humStart_starts hu hidle, hn]

theorem execTcamScrubPass_overruns {fixed : List Nat} (hawake : awake s = true) (hlevel : s.pwr.level < 4)
    (hu : u = nextInstant 50000000 s) (hbusy : humBusy 1 u = true) :
    execTcamScrubPass fixed s = .next (humOverrun 1 u) := by
  rw [execTcamScrubPass_atInstant hawake hlevel, humStart_overruns hu hbusy]

/-- R523, R538: every word is read, corrections counted and errors contained. -/
theorem execSramScrubPass_scrubs {errors all : List SramError} {fixed : Nat} (hruns : hardwareRuns s = true)
    (hu : u = nextInstant 10000000000 s) (hidle : humBusy 2 u = false) (hv : v = storeInjection u)
    (hall : all = errors ++ foundInjected v) (hfixed : fixed = all.countP (fun e => !e.uncorrectable && e.memory ≤ 9)) :
    execSramScrubPass errors s = .next (humPass 2 fixed (bump (ctrId 12 0 8) fixed
      (all.foldl (fun s e => sramError e s) { drawn v with glb := { v.glb with injected := [] } }))) := by
  unfold execSramScrubPass
  rw [if_neg (by simp [hruns]), humStart_starts hu hidle, hfixed, hall, hv]

/-- R524: where every stored copy still has its reference, no buffer returns to its pool. -/
theorem execBufferAuditPass_nothingLost (hruns : hardwareRuns s = true) (hu : u = nextInstant 10000000000 s)
    (hidle : humBusy 6 u = false) (hused : ∀ x ∈ u.qdm.stored, (storesIn u).contains x.1 = true) :
    execBufferAuditPass s = .next (humPass 6 0 (bump (ctrId 22 0 1) 0 u)) := by
  have hnone : u.qdm.stored.filter (fun x => !(storesIn u).contains x.1) = [] :=
    List.filter_eq_nil_iff.mpr fun x hx => by simp only [hused x hx, Bool.not_true, Bool.false_eq_true, not_false_eq_true]
  have hfold (l : List Nat) (t : State) : l.foldl (fun t _ => t) t = t := by induction l <;> simp_all
  unfold execBufferAuditPass
  rw [if_neg (by simp [hruns]), humStart_starts hu hidle]
  simp only [hnone, List.countP_nil, List.foldl_nil, List.length_nil, if_true, hfold]

/-! ### Passes of Teruo -/

/-- R525: the tables that did not agree are rewritten and reported. -/
theorem execConfigAuditPass_audits {bad : List (Nat × Nat)} {words : Nat} (hruns : teruoRunsHum s = true)
    (hon : (humOf 7 s).enabled = true) (hperiod : 0 < (humOf 7 s).period) (hu : u = nextInstant ((humOf 7 s).period * 1000000000) s)
    (hidle : humBusy 7 u = false) (hv : v = teruoContext 0 1 u) (hwords : words = bad.foldl (fun n x => n + x.2) 0) :
    execConfigAuditPass bad s = .next (humPass 7 words
      (bad.foldl (fun s x => raiseEvent Ev.auditTable x.1 x.2 0 (teruoMismatch 0 s)) (bump (ctrId 12 0 7) words v))) := by
  unfold execConfigAuditPass
  rw [if_neg (by simp [hruns, hon, Nat.ne_of_gt hperiod]), humStart_starts hu hidle, hwords, hv]

/-- R526: the slots and the copies of the settings and the update record are read. -/
theorem execFlashPatrol_patrols (hruns : teruoRunsHum s = true) (hon : (humOf 8 s).enabled = true) (hperiod : 0 < (humOf 8 s).period)
    (hflash : flashUsable s = true) (hu : u = nextInstant ((humOf 8 s).period * 1000000000) s) (hidle : humBusy 8 u = false)
    (hv : v = teruoContext 1 1 u) :
    execFlashPatrol s = .next (humPass 8 0 ((patrolCopies v).foldl (fun s bad => if bad then teruoMismatch 1 s else s)
      ((List.range 3).foldl (fun s k => patrolSlot k s) v))) := by
  unfold execFlashPatrol
  rw [if_neg (by simp [hruns, hon, hflash, Nat.ne_of_gt hperiod]), humStart_starts hu hidle, hv]

/-! ### Audit scans (R530 to R532) -/

/-- The units read are run through the context; the scan ends at its region's end, or where the read failed. -/
theorem execAuditScanComplete_reads {k : Nat} {r : ScanRead} {x y : Scan} {b : List Byte} (hrestart : s.mgmt.restarting = false)
    (hx : s.pwr.scans.find? (fun x => x.context == k) = some x) (hspace : x.space ≠ 1 ∨ flashUsable s = true)
    (hb : b = scanUnits x r s) (hy : y = { x with done := x.done + b.length / 64 })
    (hu : u = setCtx k { algo := x.algo, value := auditRun x.algo (auditCtx k s).value b, running := true }
      { s with pwr := { s.pwr with scans := s.pwr.scans.map (fun z => if z.context == k then y else z) } }) :
    execAuditScanComplete k r s = .next (if 64 * y.done = y.length then endOfScan y u
      else if r.failed then stopScan y (scanError x.space) u else u) := by
  have hreadable : (x.space == 1 && !flashUsable s) = false := by
    rcases hspace with h | h <;> simp [h]
  have hunits : (if x.space = 1 && !flashUsable s then [] else scanUnits x r s) = b := by
    rw [hb]
    exact if_neg (by rw [← Bool.beq_eq_decide_eq, hreadable]; exact Bool.false_ne_true)
  unfold execAuditScanComplete
  rw [if_neg (by simp [hrestart]), hx]
  dsimp only
  rw [hreadable, hunits, Bool.or_false, hu, hy]
  rfl

/-- R532: flash that cannot be read ends a scan of it before its region's end. -/
theorem execAuditScanComplete_flashError {k : Nat} {r : ScanRead} {x : Scan} (hrestart : s.mgmt.restarting = false)
    (hx : s.pwr.scans.find? (fun x => x.context == k) = some x) (hspace : x.space = 1) (hflash : flashUsable s = false)
    (hmore : 64 * x.done ≠ x.length) :
    execAuditScanComplete k r s = .next (stopScan x St.flashError
      (setCtx k { algo := x.algo, value := auditRun x.algo (auditCtx k s).value [], running := true }
        { s with pwr := { s.pwr with scans := s.pwr.scans.map (fun z => if z.context == k then x else z) } })) := by
  obtain ⟨context, algo, compare, space, start, length, expected, done⟩ := x
  obtain rfl : space = 1 := hspace
  unfold execAuditScanComplete
  rw [if_neg (by simp [hrestart]), hx]
  simp only [hflash, Bool.not_false, decide_true, beq_self_eq_true, Bool.and_self, Bool.or_true, if_true, List.length_nil,
    Nat.zero_div, Nat.add_zero, hmore, if_false]
  rfl
end

/-- Settles O28: each pass, rewrite or read does what its rule gives, once nothing stops its activity. -/
theorem humPassesComplete : Obligations.HumPassesComplete := by
  unfold Obligations.HumPassesComplete
  refine ⟨fun entry s id x hready hrom hrestart he => ?_, fun entry s id x hready hrom hrestart he => ?_,
    fun fixed s u n hawake hlevel hu hidle hn => ?_, fun fixed s u hawake hlevel hu hbusy => ?_,
    fun errors s u v all fixed hruns hu hidle hv hall hfixed => ?_, fun s u hruns hu hidle hused => ?_,
    fun bad s u v words hruns hon hperiod hu hidle hv hwords => ?_, fun s u v hruns hon hperiod hflash hu hidle hv => ?_,
    fun k r s x b y u hrestart hx hspace hb hy hu => ?_, fun k r s x hrestart hx hspace hflash hmore => ?_,
    fun table word s hready hrom hrestart => ?_⟩
  · exact execTcamEntryRewrite_rule hready hrom hrestart he
  · exact execTcamEntryRewrite_selector hready hrom hrestart he
  · exact execTcamScrubPass_rewrites hawake hlevel hu hidle hn
  · exact execTcamScrubPass_overruns hawake hlevel hu hbusy
  · exact execSramScrubPass_scrubs hruns hu hidle hv hall hfixed
  · exact execBufferAuditPass_nothingLost hruns hu hidle hused
  · exact execConfigAuditPass_audits hruns hon hperiod hu hidle hv hwords
  · exact execFlashPatrol_patrols hruns hon hperiod hflash hu hidle hv
  · exact execAuditScanComplete_reads hrestart hx hspace hb hy hu
  · exact execAuditScanComplete_flashError hrestart hx hspace hflash hmore
  · exact execConfigWordRewrite_rewrites hready hrom hrestart

end Sys2Proof.Proofs
end

section
/-! SUPPORT. The rows of DDR4 and HBM3 (R413 to R436). -/

namespace Sys2Proof.Proofs
open Sys2Proof Sys2Proof.Machine Sys2Proof.Laws

section
variable {s u v : State}

/-! ### Re-centring (R414) -/

/-- A channel that is not up runs no pass; its interval ends all the same. -/
theorem execDdrRecenter_noneUp {margins : List (Nat × Nat)} (hawake : awake s = true) (hlevel : s.pwr.level < 5)
    (hu : u = nextInstant 100000000 s) (hdown : ∀ n, n < 8 → ddrUp n u = false) :
    execDdrRecenter margins s =
      .next ((List.range 8).foldl (fun s n => updDdr n (fun d => { d with ceInterval := 0 }) s) u) := by
  have hrun : (List.range 8).filter (fun n => ddrUp n u && recenters n u) = [] :=
    List.filter_eq_nil_iff.mpr fun n hn => by simp [hdown n (List.mem_range.mp hn)]
  unfold execDdrRecenter
  rw [if_neg (by simp [hawake, Nat.not_le.mpr hlevel]), ← hu]
  simp only [hrun, ite_self, List.foldl_nil, List.isEmpty_nil, if_true]

/-- Where D0 alone re-centres, its pass takes the margins that it finds. -/
theorem execDdrRecenter_first {m : Nat × Nat} (hawake : awake s = true) (hlevel : s.pwr.level < 5)
    (hu : u = nextInstant 100000000 s) (hidle : humBusy 4 u = false)
    (hrun : (List.range 8).filter (fun n => ddrUp n u && recenters n u) = [0]) :
    execDdrRecenter [m] s =
      .next (humPass 4 0 ((List.range 8).foldl (fun s n => updDdr n (fun d => { d with ceInterval := 0 }) s) (recenter 0 m u))) := by
  unfold execDdrRecenter
  rw [if_neg (by simp [hawake, Nat.not_le.mpr hlevel]), ← hu]
  simp only [hrun, hidle, Bool.false_eq_true, if_false, List.foldl_cons, List.foldl_nil, List.getElem?_cons_zero, List.isEmpty_cons]

/-! ### Scrubbing (R427) -/

/-- The next MiB of a channel that is up; the pass is over once every channel has reached its end. -/
theorem execDdrScrub_scrubs {channel : Nat} {errors again : List (Nat × List Nat)} (hup : ddrUp channel s = true)
    (hruns : hardwareRuns s = true)
    (hu : u = updDdr channel (fun d => { d with scrubPos := d.scrubPos + 1 }) (errors.foldl (scrubWord channel again) s)) :
    execDdrScrub channel errors again s = .next (
      if u.mem.ddr.all (fun d => channelMiB u ≤ d.scrubPos) then
        humDone 3 { u with mem := { u.mem with
          scrubPasses := u.mem.scrubPasses + 1, ddr := u.mem.ddr.map (fun d => { d with scrubPos := 0 }) } }
      else u) := by
  unfold execDdrScrub
  rw [if_neg (by simp [hup, hruns]), hu]

/-! ### Requests (R416, R419, R421) -/

theorem execDdrRequestTimeout_retries {channel port address : Nat} (hup : ddrUp channel s = true) (hport : port ≤ 5) :
    execDdrRequestTimeout channel port address false s = .next (countLate channel (tickBy 20000 s)) := by
  simp [execDdrRequestTimeout, hup, Nat.not_lt.mpr hport]

theorem execDdrRequestTimeout_fails {channel port address : Nat} (hup : ddrUp channel s = true) (hport : port ≤ 5)
    (hu : u = withdrawRead channel port address (countLate channel (tickBy 20000 s))) :
    execDdrRequestTimeout channel port address true s =
      .next (requesterError port address (raiseEvent Ev.ddrTimeout channel port address (tally (ddrCtr channel 3) u))) := by
  simp [execDdrRequestTimeout, hup, Nat.not_lt.mpr hport, hu]

theorem execDdrWriteQueueAge_empty {channel : Nat} {events : List DdrEvent} (hup : ddrUp channel s = true)
    (hu : u = events.foldl (ddrEvent channel) s) (hw : (ddrOf channel u).writes = []) :
    execDdrWriteQueueAge channel events s = .next u := by
  unfold execDdrWriteQueueAge
  rw [if_neg (by simp [hup]), ← hu]
  simp only [hw, List.head?_nil]

/-- R419: an oldest write of 10 µs begins a drain. -/
theorem execDdrWriteQueueAge_drains {channel : Nat} {events : List DdrEvent} {w : DdrWait} {l : List DdrWait}
    (hup : ddrUp channel s = true) (hu : u = events.foldl (ddrEvent channel) s) (hw : (ddrOf channel u).writes = w :: l)
    (hv : v = countLate channel (tickBy (w.at' + 10000 - u.elapsed) u)) :
    execDdrWriteQueueAge channel events s = .next (runDrain channel ((ddrOf channel v).writes.length + (ddrOf channel v).reads.length)
      (updDdr channel beginDrain v)) := by
  unfold execDdrWriteQueueAge
  rw [if_neg (by simp [hup]), ← hu]
  simp only [hw, List.head?_cons, ← hv]

/-! ### Row disturbance (R422) and HBM training (R431) -/

@[simp] theorem nextInstant_mem (period : Nat) (s : State) : (nextInstant period s).mem = s.mem := by
  unfold nextInstant advanceTempo
  split <;> rfl

/-- The activates of a window, each at its channel. -/
def countActivates (l : List (Nat × Nat × Nat)) (s : State) : State :=
  l.foldl (fun s x => if ddrUp x.1 s && 0 < x.2.2 then activate x.1 x.2.1 x.2.2 s else s) s

/-- Every channel forgets its row counts. -/
def clearRows (s : State) : State := { s with mem := { s.mem with ddr := s.mem.ddr.map (fun d => { d with rows := [] }) } }

theorem clearRows_rhThreshold (s : State) : (clearRows s).mem.rhThreshold = s.mem.rhThreshold := rfl

theorem rows_clearRows {d : DdrChan} (h : d ∈ (clearRows s).mem.ddr) : d.rows = [] := by
  obtain ⟨_, -, rfl⟩ := List.mem_map.mp h
  rfl

/-- Activates leave the threshold of the row counts. -/
theorem countActivates_rhThreshold (l : List (Nat × Nat × Nat)) (s : State) :
    (countActivates l s).mem.rhThreshold = s.mem.rhThreshold := by
  induction l generalizing s with
  | nil => rfl
  | cons x l ih =>
    refine (ih _).trans ?_
    dsimp only
    split
    · rfl
    · rfl

theorem execRowWindowStart_clears {l : List (Nat × Nat × Nat)} (hawake : awake s = true) (hlevel : s.pwr.level < 5) :
    execRowWindowStart l s = .next (clearRows (nextInstant 64000000 (countActivates l s))) := by
  unfold execRowWindowStart clearRows countActivates
  rw [if_neg (by simp [hawake, Nat.not_le.mpr hlevel])]

theorem execHbmTrainingDone_trains {failed : Nat} (hawake : awake s = true) (hlevel : s.pwr.level < 5) :
    execHbmTrainingDone failed s = .next (trainStacks failed s) :=
  congrArg _ (if_pos (by simp [hawake, hlevel]))
end

/-- Settles O29: each row does what its rule gives at a channel, or a stack, that has its power. -/
theorem memoryRowsComplete : Obligations.MemoryRowsComplete := by
  unfold Obligations.MemoryRowsComplete
  refine ⟨fun margins s u hawake hlevel hu hdown => ?_, fun n m s u hawake hlevel hu hidle hrun hn => ?_,
    fun channel errors again s u d hup hruns hu hd hpos => ?_, fun channel errors again s u hup hruns hu hall => ?_,
    fun channel port address s hup hport => ?_, fun channel port address s u hup hport hu => ?_,
    fun channel events s u hup hu hw => ?_, fun channel events s u v w l hup hu hw hv => ?_, fun l s hawake hlevel => ?_,
    fun failed s hawake hlevel => ?_⟩
  · exact execDdrRecenter_noneUp hawake hlevel hu hdown
  · subst hn
    exact execDdrRecenter_first hawake hlevel hu hidle hrun
  · refine (execDdrScrub_scrubs hup hruns hu).trans (congrArg _ (if_neg fun hall => ?_))
    exact Nat.not_le.mpr hpos (of_decide_eq_true (List.all_eq_true.mp hall d hd))
  · exact (execDdrScrub_scrubs hup hruns hu).trans
      (congrArg _ (if_pos (List.all_eq_true.mpr fun d hd => decide_eq_true (hall d hd))))
  · exact execDdrRequestTimeout_retries hup hport
  · exact execDdrRequestTimeout_fails hup hport hu
  · exact execDdrWriteQueueAge_empty hup hu hw
  · exact execDdrWriteQueueAge_drains hup hu hw hv
  · refine ⟨_, execRowWindowStart_clears hawake hlevel, fun d hd => rows_clearRows hd, ?_⟩
    rw [clearRows_rhThreshold, nextInstant_mem, countActivates_rhThreshold]
  · exact execHbmTrainingDone_trains hawake hlevel

end Sys2Proof.Proofs
end

section
/-! SUPPORT. The rows of the ports and of FlexE (R84 to R111, R123 to R143). -/

namespace Sys2Proof.Proofs
open Sys2Proof Sys2Proof.Machine Sys2Proof.Laws

section
variable {mac : Nat} {s u : State} {x : Mac}

/-! ### The link and its timers (R105 to R108) -/

theorem execPortLinkOk_powered (hx : mac? mac s = some x) (hpower : Machine.powered x = true) :
    execPortLinkOk mac s =
      .next (linkChange mac (updMac mac (fun x => { x with pcs := true, localFault := false, remoteFault := false })) s) :=
  congrArg _ (if_pos (by simp [hx, hpower]))

theorem execPortLinkFail_powered {a b c : Bool} (hx : mac? mac s = some x) (hpower : Machine.powered x = true) :
    execPortLinkFail mac a b c s = .next (linkChange mac (updMac mac (fun x => { x with
      pcs := x.pcs && !a, localFault := b, remoteFault := c })) s) :=
  congrArg _ (if_pos (by simp [hx, hpower]))

/-- Table 03-4: DEBOUNCE over, the link is up; a port with a MAC is announced. -/
theorem execUpDebounceEnd_debounce {d : Nat} (hx : mac? mac s = some x) (hd : x.debounceAt = some d) (hlink : x.link = .debounce)
    (hu : u = setLink mac .up (fun x => { noTimers x with announced := !x.cfg.flexePhy }) (advanceTempo d s)) :
    execUpDebounceEnd mac s =
      .next (raiseEvent Ev.portLinkUp mac 0 0 (if x.cfg.flexePhy then u else announcePort true mac u)) := by
  unfold execUpDebounceEnd
  simp only [hx, hd, hlink, beq_self_eq_true, if_true, hu]

/-- Table 03-4: HOLD_DEBOUNCE over, the link is up again, without the frames that are over age. -/
theorem execUpDebounceEnd_holdDebounce {d : Nat} (hx : mac? mac s = some x) (hd : x.debounceAt = some d)
    (hlink : x.link = .holdDebounce) :
    execUpDebounceEnd mac s = .next (dropAgedTx mac (setLink mac .up noTimers (advanceTempo d s))) := by
  unfold execUpDebounceEnd
  simp only [hx, hd, hlink]
  rfl

theorem execHoldTimerExpiry_hold {d : Nat} (hx : mac? mac s = some x) (hd : x.holdUntil = some d) (hlink : x.link = .hold) :
    execHoldTimerExpiry mac s = .next (flush mac (setLink mac .down noTimers (advanceTempo d s))) := by
  unfold execHoldTimerExpiry
  simp only [hx, hd, hlink, beq_self_eq_true, if_true]

theorem execHoldTimerExpiry_holdDebounce {d : Nat} (hx : mac? mac s = some x) (hd : x.holdUntil = some d)
    (hlink : x.link = .holdDebounce) :
    execHoldTimerExpiry mac s = .next (updMac mac (fun x => { x with holdExpired := true }) (advanceTempo d s)) := by
  unfold execHoldTimerExpiry
  simp only [hx, hd, hlink]
  rfl

/-! ### Degraded signal (R141, R336) -/

/-- Without a configured port only the fabric lanes count. -/
theorem execDegWindowEnd_noPort {counts : List WindowCount} (hmacs : ∀ p ∈ s.macs, 80 ≤ p.1)
    (hu : u = advanceTempo (windowEnd s) s) :
    execDegWindowEnd counts s = .next (counts.foldl (fun s w => laneWindow w s) u) := by
  have hnone : s.macs.filter (fun p => p.1 < 80) = [] :=
    List.filter_eq_nil_iff.mpr fun p hp => by simpa using hmacs p hp
  unfold execDegWindowEnd
  rw [hnone, ← hu]
  rfl

/-- A port is no fabric lane. -/
theorem laneWindow_port {w : WindowCount} (h : w.line < 128) : laneWindow w s = s := if_pos (by simp [h])

theorem execDegWindowEnd_onePort {n : Nat} {w : WindowCount} (hmacs : s.macs = [(n, x)]) (hn : n < 80) (hline : w.line = n)
    (hu : u = advanceTempo (windowEnd s) s) :
    execDegWindowEnd [w] s = .next (degWindow n w u) := by
  have hport : s.macs.filter (fun p => p.1 < 80) = [(n, x)] := by simp [hmacs, hn]
  have hfind : [w].find? (fun c => c.line == n) = some w := by simp [hline]
  unfold execDegWindowEnd
  rw [hport, ← hu]
  simp only [akeys, List.map_cons, List.map_nil, List.foldl_cons, List.foldl_nil, hfind, Option.getD_some]
  rw [laneWindow_port (by omega)]

/-! ### Frames received (R84 to R94) -/

/-- R85: a whole frame that passes every check is counted, and goes to its class. -/
theorem receiveFrame_good {f : List Byte} (hx : mac? mac s = some x) (hreceives : receives mac x s = true) (hmin : 64 ≤ f.length)
    (hmax : f.length ≤ x.cfg.maxFrame) (hfcs : fcsGood f = true) :
    receiveFrame mac f false s =
      if isControl f then macControl mac f (bump (portCtr mac 0x108) f.length (tally (portCtr mac 0x100) s))
      else if standbyPort mac s then
        dropCause St.standby (tally (ctrId 8 0 2) (bump (portCtr mac 0x108) f.length (tally (portCtr mac 0x100) s)))
      else toFifo mac x (framePriority x f)
        { newPkt (f.take (f.length - 4)) f.length mac (stamp x.cfg.rxCorr s) with bad := 0 }
        (bump (portCtr mac 0x108) f.length (tally (portCtr mac 0x100) s)) := by
  have hrunt : ¬ f.length < 14 := by omega
  have hsome : ¬ f.length = 0 := by omega
  unfold receiveFrame
  simp only [hx, hreceives, hfcs, hsome, hrunt, Nat.not_lt.mpr hmin, Nat.not_lt.mpr hmax, Bool.not_true, Bool.not_false, Bool.and_self,
    decide_false, Bool.or_self, Bool.false_eq_true, if_false]

theorem execFrameReceived_toFifo {f : List Byte} (hx : mac? mac s = some x) (hreceives : receives mac x s = true)
    (hmin : 64 ≤ f.length) (hmax : f.length ≤ x.cfg.maxFrame) (hfcs : fcsGood f = true) (hdata : isControl f = false)
    (hactive : standbyPort mac s = false) :
    execFrameReceived mac f false s = .next (toFifo mac x (framePriority x f)
      { newPkt (f.take (f.length - 4)) f.length mac (stamp x.cfg.rxCorr s) with bad := 0 }
      (bump (portCtr mac 0x108) f.length (tally (portCtr mac 0x100) s))) := by
  unfold execFrameReceived
  rw [receiveFrame_good hx hreceives hmin hmax hfcs, if_neg (by simp [hdata]), if_neg (by simp [hactive])]

theorem execMacControlFrameRx_acts {f : List Byte} (hx : mac? mac s = some x) (hreceives : receives mac x s = true)
    (hmin : 64 ≤ f.length) (hmax : f.length ≤ x.cfg.maxFrame) (hfcs : fcsGood f = true) (hcontrol : isControl f = true) :
    execMacControlFrameRx mac f s =
      .next (macControl mac f (bump (portCtr mac 0x108) f.length (tally (portCtr mac 0x100) s))) := by
  unfold execMacControlFrameRx
  rw [receiveFrame_good hx hreceives hmin hmax hfcs, if_pos hcontrol]

/-! ### Pauses (R92, R94) -/

/-- The earliest refresh that is due comes first. -/
theorem execPauseRefresh_refreshes {t : Nat} {l : List Nat} (hx : mac? mac s = some x)
    (hl : x.refreshAt.toList ++ avals x.pfcRefreshAt = t :: l) :
    execPauseRefresh mac s = .next (refreshPause mac (advanceTo (l.foldl min t) s)) := by
  unfold execPauseRefresh
  simp only [hx, hl]

theorem execPauseExpiry_port {d : Nat} (hx : mac? mac s = some x) (hd : x.pausedUntil = some d) :
    execPauseExpiry mac none s = .next (updMac mac (fun x => { x with pausedUntil := none }) (settleMac mac (advanceTo d s))) := by
  unfold execPauseExpiry
  simp only [hx, hd]

theorem execPauseExpiry_priority {p d : Nat} (hx : mac? mac s = some x) (hd : aget x.pfcPausedUntil p = some d) :
    execPauseExpiry mac (some p) s =
      .next (updMac mac (fun x => { x with pfcPausedUntil := adel x.pfcPausedUntil p }) (settleMac mac (advanceTo d s))) := by
  unfold execPauseExpiry
  simp only [hx, hd]

/-! ### Frames sent (R92, R95 to R99) -/

/-- The frame in transmission goes on. -/
theorem execFrameTransmit_goesOn {ends : TxEnd} {underrun : Bool} {f : SentFrame} (hx : mac? mac s = some x) (hlink : x.link = .up)
    (hphy : x.cfg.flexePhy = false) (hsending : x.sending = some f) :
    execFrameTransmit mac ends underrun s = .next (goOn mac x f ends underrun s) := by
  unfold execFrameTransmit
  simp only [hx, hsending]
  rw [if_neg (by simp [hlink, hphy])]

/-- R92: a pause frame goes out before the next frame starts. -/
theorem execFrameTransmit_control {ends : TxEnd} {underrun : Bool} {b : ControlFrame} {rest : List ControlFrame}
    (hx : mac? mac s = some x) (hlink : x.link = .up) (hphy : x.cfg.flexePhy = false) (hsending : x.sending = none)
    (hcontrol : x.control = b :: rest) :
    execFrameTransmit mac ends underrun s = .next (sendControlFrame mac x b s) := by
  unfold execFrameTransmit
  simp only [hx, hsending, hcontrol]
  rw [if_neg (by simp [hlink, hphy])]

theorem execFrameTransmit_starts {ends : TxEnd} {underrun : Bool} (hx : mac? mac s = some x) (hlink : x.link = .up)
    (hphy : x.cfg.flexePhy = false) (hsending : x.sending = none) (hcontrol : x.control = []) :
    execFrameTransmit mac ends underrun s = .next (startNext mac x ends underrun s) := by
  unfold execFrameTransmit
  simp only [hx, hsending, hcontrol]
  rw [if_neg (by simp [hlink, hphy])]

/-- R95: the head of the highest TXQ starts where it may, and no other queue is looked at. -/
theorem startNext_highest {ends : TxEnd} {underrun : Bool} {f : TxFrame} {rest : List TxFrame} (hq : txq x 3 = f :: rest)
    (hstart : mayStart mac x f s = true) :
    startNext mac x ends underrun s = goOn mac x (startFrame x f s) ends underrun
      (tally (ctrId 25 (mac * 8 + f.gate) 1) (updMac mac (fun x => { x with txq := aset x.txq 3 rest }) s)) := by
  have hpick : [3, 2, 1, 0].find? (fun q => ((txq x q).head?).any (fun f => mayStart mac x f s)) = some 3 :=
    List.find?_cons_of_pos (by simp [hq, hstart])
  have habove : [3, 2, 1, 0].filter (fun q => (some 3).all (fun k => k < q)) = [] := by decide
  unfold startNext
  simp only [hpick, habove, hq, List.foldl_nil]
end

/-! ### FlexE -/

section
variable {group : Nat} {s u : State} {x : FlxGroup}

/-- R131: a marker on a PHY whose link is OK brings its frame to the group. -/
theorem execFlexeOhFrameRx_received {f : OhFrame} {g : Nat} (hg : phyGroup f.port s = some g) (hx : flxGroup g s = some x)
    (htype : f.blockType = markerType) (hcode : f.oCode = markerCode) (hinst : f.inst < instCount x) (hon : groupOn x = true)
    (hlink : linkOk f.port s = true) :
    execFlexeOhFrameRx f s = .next (withGroup g (ohFrame g x f) s) := by
  unfold execFlexeOhFrameRx
  simp only [hg, hx]
  rw [if_neg (by simp [htype, hcode, Nat.not_le.mpr hinst, hon, hlink])]

theorem execFlexeMarkerMissed_misses {port inst g : Nat} (hg : phyGroup port s = some g) :
    execFlexeMarkerMissed port inst s = .next (withGroup g (fun s => updInst port inst (fun y =>
      let a := alignMiss (y.align, y.seen)
      if inFrame y.align && inFrame a.1 then { lostFrame y with align := a.1, seen := a.2 } else realign a y) s) s) := by
  unfold execFlexeMarkerMissed
  simp only [hg]

/-- R127: CR goes out once a multiframe of the staged calendar has. -/
theorem execFlexeCrSet_sets {w : CalSwitch} (hx : flxGroup group s = some x) (hw : x.switch = some w) (hcr : w.crAt = none)
    (hrestart : s.mgmt.restarting = false) (hu : u = advanceTo (w.startedAt + multiNs) s) :
    execFlexeCrSet group s = .next (sendOverhead group (updGroup group (fun x => { x with
      crB := !x.txB, switch := some { w with crAt := some u.elapsed } }) u)) := by
  unfold execFlexeCrSet
  simp only [hx, hw]
  rw [if_neg (by simp [hcr, hrestart]), hu]

/-- R128: with every CA received, a group without clients switches, and its command completes. -/
theorem execFlexeCBitChange_noClients {w : CalSwitch} {r : Nat} (hrestart : s.mgmt.restarting = false) (hx : flxGroup group s = some x)
    (hw : x.switch = some w) (hcr : w.crAt = some r) (hca : caReceived x s = true) (hclients : clientsOf group s = [])
    (hu : u = followClients group (tally (ctrId 2 group 1) (updGroup group (fun x => { x with txB := !x.txB, switch := none }) s))) :
    execFlexeCBitChange group s = .next (finishWaiting (fun w => w == .calendar group) St.ok (fun _ => []) true 0 0
      (sendOverhead group (raiseEvent Ev.flexeCalSwitched group (2 * b2n (!x.txB)) 0 u))) := by
  unfold execFlexeCBitChange
  simp only [hx]
  rw [if_neg (by simp [hw, hcr, hca, hrestart]), hclients, List.foldl_nil, hu]

/-- R129: without CA the switch ends ten multiframes after CR. -/
theorem execFlexeNoAck_ends {w : CalSwitch} {r : Nat} (hrestart : s.mgmt.restarting = false) (hx : flxGroup group s = some x)
    (hw : x.switch = some w) (hcr : w.crAt = some r) (hca : caReceived x s = false) :
    execFlexeNoAck group s = .next (endSwitch group St.flexeNoAck (advanceTo (r + 10 * multiNs) s)) := by
  unfold execFlexeNoAck
  simp only [hx, hw, Option.bind_some, hcr]
  rw [if_neg (by simp [hca, hrestart])]
end

/-- Settles O30: each row does what its rule gives at the port, client or group that it names. -/
theorem portRowsComplete : Obligations.PortRowsComplete := by
  unfold Obligations.PortRowsComplete
  refine ⟨fun mac s x hx hpower => ?_, fun mac s x a b c hx hpower => ?_, fun mac s x d u hx hd hlink hphy hu => ?_,
    fun mac s x d u hx hd hlink hphy hu => ?_, fun mac s x d hx hd hlink => ?_, fun mac s x d hx hd hlink => ?_,
    fun mac s x d hx hd hlink => ?_, fun counts s u hmacs hu => ?_, fun s n x u w hmacs hn hline hu => ?_,
    fun mac f s x hx hreceives hmin hmax hfcs hdata hactive => ?_, fun mac f s x hx hreceives hmin hmax hfcs hcontrol => ?_,
    fun mac s x t l hx hl => ?_, fun mac s x d hx hd => ?_, fun mac p s x d hx hd => ?_,
    fun mac ends underrun s x b rest hx hlink hphy hsending hcontrol => ?_,
    fun mac ends underrun s x f rest u hx hlink hphy hsending hcontrol hq hstart hu => ?_,
    fun mac underrun s x f hx hlink hphy hsending => ?_, fun mac cause underrun s x f hx hlink hphy hsending => ?_,
    fun f s g x hg hx htype hcode hinst hon hlink => ?_, fun port inst s g hg => ?_,
    fun group s x w u hx hw hcr hrestart hu => ?_, fun group s x w r u hrestart hx hw hcr hca hclients hu => ?_,
    fun group s x w r hrestart hx hw hcr hca => ?_⟩
  · exact execPortLinkOk_powered hx hpower
  · exact execPortLinkFail_powered hx hpower
  · exact (execUpDebounceEnd_debounce hx hd hlink hu).trans (by rw [if_neg (by simp [hphy])])
  · exact (execUpDebounceEnd_debounce hx hd hlink hu).trans (by rw [if_pos hphy])
  · exact execUpDebounceEnd_holdDebounce hx hd hlink
  · exact execHoldTimerExpiry_hold hx hd hlink
  · exact execHoldTimerExpiry_holdDebounce hx hd hlink
  · exact execDegWindowEnd_noPort hmacs hu
  · exact execDegWindowEnd_onePort hmacs hn hline hu
  · exact execFrameReceived_toFifo hx hreceives hmin hmax hfcs hdata hactive
  · exact execMacControlFrameRx_acts hx hreceives hmin hmax hfcs hcontrol
  · exact execPauseRefresh_refreshes hx hl
  · exact execPauseExpiry_port hx hd
  · exact execPauseExpiry_priority hx hd
  · exact execFrameTransmit_control hx hlink hphy hsending hcontrol
  · refine (execFrameTransmit_starts hx hlink hphy hsending hcontrol).trans ?_
    rw [startNext_highest hq hstart, hu]
  · exact execFrameTransmit_goesOn hx hlink hphy hsending
  · exact execFrameTransmit_goesOn hx hlink hphy hsending
  · exact execFlexeOhFrameRx_received hg hx htype hcode hinst hon hlink
  · exact execFlexeMarkerMissed_misses hg
  · exact execFlexeCrSet_sets hx hw hcr hrestart hu
  · exact execFlexeCBitChange_noClients hrestart hx hw hcr hca hclients hu
  · exact execFlexeNoAck_ends hrestart hx hw hcr hca

end Sys2Proof.Proofs
end

section
/-! SUPPORT. The rows of the pipelines, the bridge and admission (R14 to R30, R225, R237, R242, R264, R535). -/

namespace Sys2Proof.Proofs
open Sys2Proof Sys2Proof.Machine Sys2Proof.Laws

section
variable {pipe : Nat} {s u v : State}

/-! ### The ingress pipelines (R24, R225) -/

theorem not_stalled (h : ∀ x ∈ s.fwd.stalled, x.1 ≠ pipe) : ¬ s.fwd.stalled.any (fun x => x.1 == pipe) = true := by
  simp only [List.any_eq_true, beq_iff_eq, not_exists, not_and]
  exact h

/-- A pipeline that is neither stalled nor muffled takes its next packet, and meets the errors of its searches. -/
theorem execIngressPass_takes {sel faults : List (Nat × TcamFault)} {p : Pkt} (hpipe : pipe < 8) (hhalted : halted s = false)
    (hstalled : ∀ x ∈ s.fwd.stalled, x.1 ≠ pipe) (hmuffled : bit s.fwd.muffled pipe = 0) (htake : takeIngress pipe s = some (p, u))
    (hv : v = badEntries 0 pipe
      (sel.filter (fun f => decide (f.1 < 2048)) ++ faults.filter (fun f => decide (2048 ≤ f.1))) u) :
    execIngressPass pipe sel faults s = .next (
      if cacheMiss p v then { v with fwd := { v.fwd with stalled := v.fwd.stalled ++ [(pipe, p, v.cfg)] } }
      else ingressSteps pipe false p v) := by
  unfold execIngressPass
  rw [if_neg (by simp [hhalted, Nat.not_le.mpr hpipe]), if_neg (not_stalled hstalled), if_neg (by simp [hmuffled]), htake, hv]

theorem execIngressPass_muffled {sel faults : List (Nat × TcamFault)} (hpipe : pipe < 8) (hhalted : halted s = false)
    (hstalled : ∀ x ∈ s.fwd.stalled, x.1 ≠ pipe) (hmuffled : bit s.fwd.muffled pipe = 1) :
    execIngressPass pipe sel faults s = .next (slot pipe slotMuffle s) := by
  unfold execIngressPass
  rw [if_neg (by simp [hhalted, Nat.not_le.mpr hpipe]), if_neg (not_stalled hstalled), if_pos hmuffled]

/-- The slot of a pipeline whose pass waits is a stall. -/
theorem execIngressPass_stalled {sel faults : List (Nat × TcamFault)} (hpipe : pipe < 8) (hhalted : halted s = false)
    (hstalled : ∃ x ∈ s.fwd.stalled, x.1 = pipe) :
    execIngressPass pipe sel faults s = .next (tally (ctrId 12 0 6) (slot pipe slotStall s)) := by
  unfold execIngressPass
  rw [if_neg (by simp [hhalted, Nat.not_le.mpr hpipe]), if_pos (by simpa using hstalled)]

/-- The pass that waited goes on with what its read found, in the epoch in which it began (log 31). -/
theorem execFlowCacheFill_resumes {read : CtxRead} {x : Nat × Pkt × Conf} {lost : Bool} {t : State}
    (hx : s.fwd.stalled.find? (fun x => x.1 == pipe) = some x) (hread : readContext read s = (lost, t))
    (hu : u = { t with cfg := x.2.2, fwd := { t.fwd with stalled := t.fwd.stalled.filter (fun y => y.1 != pipe) } }) :
    execFlowCacheFill pipe read s =
      .next { ingressSteps pipe lost x.2.1 (if lost then u else cacheRead x.2.1 u) with cfg := s.cfg } := by
  unfold execFlowCacheFill
  rw [hx]
  dsimp only
  rw [hread, hu]

/-! ### The egress pipelines and the watch on stages (R21, R535) -/

/-- The head packet takes its pass where its transmit queue has room, or where it has no port. -/
theorem execEgressPass_passes {faults : List (Nat × TcamFault)} {x : Xfer} {m l : Nat} {p : Pkt} (hpipe : pipe < 8)
    (hhalted : halted s = false) (hhead : egressHead pipe s = some (x, m, l, p))
    (hroom : (mac? m s).any (fun c => txqFull c (txqOf c (leafClass l p s))) = false) :
    execEgressPass pipe faults s = .next (egressSteps pipe m l p (badEntries 1 (8 + pipe) faults (takeFd x s))) := by
  unfold execEgressPass
  rw [if_neg (by simp [hhalted, Nat.not_le.mpr hpipe]), hhead]
  exact congrArg _ (if_neg (by simp [hroom]))

theorem execStageTimeout_ingress {x : Nat × Pkt × Conf} (hpipe : pipe < 8)
    (hx : s.fwd.stalled.find? (fun x => x.1 == pipe) = some x) :
    execStageTimeout pipe s =
      .next (stageTimeout pipe x.2.1 { s with fwd := { s.fwd with stalled := s.fwd.stalled.filter (fun y => y.1 != pipe) } }) := by
  unfold execStageTimeout
  rw [if_pos hpipe, hx]

theorem execStageTimeout_egress {x : Xfer} {m l : Nat} {p : Pkt} (hpipe : 8 ≤ pipe)
    (hhead : egressHead (pipe - 8) s = some (x, m, l, p)) :
    execStageTimeout pipe s = .next (stageTimeout pipe p (unref p.store (takeFd x s))) := by
  unfold execStageTimeout
  rw [if_neg (Nat.not_lt.mpr hpipe), hhead]

/-! ### The bridge (R27 to R30) -/

theorem execBridgeTransfer_toQd {n : Nat} {x : Xfer} {rest : List Xfer} (hstopped : s.bridge.stopped = false)
    (hq : s.bridge.toQd = x :: rest) (hu : u = bump (ctrId 11 0 0) (min n 3) { s with bridge := { s.bridge with toQd := rest } }) :
    execBridgeTransfer true n s = .next (if 4 ≤ n then abandon true x u else crossed x u) := by
  unfold execBridgeTransfer
  simp only [hstopped, hq, Bool.false_eq_true, if_false, if_true, hu]
  rfl

theorem execBridgeTransfer_toFd {n : Nat} {x : Xfer} {rest : List Xfer} (hstopped : s.bridge.stopped = false)
    (hq : s.bridge.toFd = x :: rest) (hu : u = bump (ctrId 11 0 1) (min n 3) { s with bridge := { s.bridge with toFd := rest } }) :
    execBridgeTransfer false n s = .next (if 4 ≤ n then abandon false x u else crossed x u) := by
  unfold execBridgeTransfer
  simp only [hstopped, hq, Bool.false_eq_true, if_false, hu]
  rfl

theorem execBridgeStall_fails {toQd : Bool} (hstopped : s.bridge.stopped = false) :
    execBridgeStall toQd s = .next (fatalReport Ev.bridgeFailed (raiseEvent Ev.bridgeFailed (b2n (!toQd)) 0 0
      { s with bridge := { s.bridge with stopped := true }, glb := { s.glb with bridgeFailed := true } })) :=
  congrArg _ (if_neg (by simp [hstopped]))

/-! ### Admission and the packets that wait (R237, R242) -/

/-- The packet at the head that has crossed is offered where none of its own head waits. -/
theorem execVoqAdmission_offers {p : Pkt} {rest : List Xfer} {w : Option Waiting} (hq : s.bridge.atQd = .toVoq p :: rest)
    (hfirst : ∀ w ∈ s.qdm.waiting, sameHead p w = false) (hu : u = { s with bridge := { s.bridge with atQd := rest } })
    (hoffer : offer p u = (w, v)) :
    execVoqAdmission s =
      .next (if p.injected then w.elim v (fun w => waits w v) else checkXoff p.source (w.elim v (fun w => waits w v))) := by
  have hnone : s.qdm.waiting.any (sameHead p) = false := by simpa using hfirst
  unfold execVoqAdmission
  simp only [hq, List.findSome?_cons_of_isSome, Option.isSome_some, List.erase_cons_head, hnone, Bool.false_eq_true, if_false, ← hu,
    hoffer]
  cases w <;> rfl

/-- One request in a list of consumers stands where its consumer does. -/
theorem flatMap_consumer {w : Waiting} (hw : w.lossless = false) (l : List Nat) :
    l.flatMap (fun c => [w].filter (fun w => !w.lossless && w.consumer == c)) = List.replicate (l.count w.consumer) w := by
  induction l with
  | nil => rfl
  | cons c l ih =>
    rw [List.flatMap_cons, ih]
    by_cases hc : c = w.consumer
    · simp [hc, hw, List.replicate_succ]
    · simp [hc, hw, Ne.symm hc]

/-- The rotating order names every consumer once. -/
theorem count_rotation {n c : Nat} (hc : c < 10) : ((List.range 10).map (fun k => (n + k) % 10)).count c = 1 := by
  have hmod : (List.range 10).map (fun k => (n + k) % 10) = (List.range 10).map (fun k => (n % 10 + k) % 10) :=
    List.map_congr_left fun k _ => by omega
  have hall : ∀ r < 10, ∀ c < 10, ((List.range 10).map (fun k => (r + k) % 10)).count c = 1 := by decide
  rw [hmod]
  exact hall (n % 10) (Nat.mod_lt _ (by decide)) c hc

theorem execBufAllocRetry_none (hw : s.qdm.waiting = []) :
    execBufAllocRetry s = .next { s with qdm := { s.qdm with allocNext := (s.qdm.allocNext + 1) % 10 } } := by
  have hreqs (l : List Nat) : l.flatMap (fun c => ([] : List Waiting).filter (fun w => !w.lossless && w.consumer == c)) = [] :=
    List.flatMap_eq_nil_iff.mpr fun _ _ => rfl
  unfold execBufAllocRetry
  dsimp only
  rw [hw, hreqs, List.foldl_nil]

theorem execBufAllocRetry_one {w : Waiting} (hw : s.qdm.waiting = [w]) (hlossless : w.lossless = false) (hc : w.consumer < 10) :
    execBufAllocRetry s = .next (retryOne w { s with qdm := { s.qdm with allocNext := (s.qdm.allocNext + 1) % 10 } }) := by
  unfold execBufAllocRetry
  dsimp only
  rw [hw, flatMap_consumer hlossless, count_rotation hc, List.replicate_one, List.foldl_cons, List.foldl_nil]

theorem execBufExhaust_one {w : Waiting} (hw : s.qdm.waiting = [w]) (hlossless : w.lossless = false) :
    execBufExhaust s = .next (exhaust w (advanceTo (w.since + 2000) s)) := by
  simp [execBufExhaust, hw, hlossless]

/-- The only packet that waits stands at the head of its sub-queue. -/
theorem isHead_only {w : Waiting} (hw : s.qdm.waiting = [w]) (hhead : sameHead w.pkt w = true) : isHead w s = true := by
  simp [isHead, hw, hhead]

theorem execLosslessReoffer_leaves {w : Waiting} {n : Nat} (hw : s.qdm.waiting = [w]) (hlossless : w.lossless = true)
    (hhead : sameHead w.pkt w = true) (hn : n = w.pkt.dest * 8 + w.pkt.cls) (hleft : reoffer w s = (true, u)) :
    execLosslessReoffer n s = .next (headLeft w u) := by
  have hmine : [w].filter (fun w => w.lossless && w.pkt.dest * 8 + w.pkt.cls == n) = [w] := by simp [hlossless, hn]
  unfold execLosslessReoffer
  rw [hw, hmine, List.foldl_cons, List.foldl_nil, if_neg (by simp [isHead_only hw hhead]), hleft]
  rfl

theorem execRefusedPacketAge_drops {w : Waiting} (hw : s.qdm.waiting = [w]) (hlossless : w.lossless = true)
    (hhead : sameHead w.pkt w = true) (hold : tooOld w.pkt.ts s = true) :
    execRefusedPacketAge s = .next (headLeft w (admitDrop (w.pkt.dest * 8 + w.pkt.cls) St.age w.pkt (unwait w s))) := by
  have hmine : [w].filter (fun w => w.lossless && tooOld w.pkt.ts s) = [w] := by simp [hlossless, hold]
  unfold execRefusedPacketAge
  rw [hw, hmine, List.foldl_cons, List.foldl_nil, if_neg (by simp [isHead_only hw hhead])]
end

/-- Settles O31: each row does what its rule gives at the pipeline, the transfer or the packet that it takes. -/
theorem pipelineRowsComplete : Obligations.PipelineRowsComplete := by
  unfold Obligations.PipelineRowsComplete
  refine ⟨fun pipe sel faults s p u v hpipe hhalted hstalled hmuffled htake hv hmiss => ?_,
    fun pipe sel faults s p u v hpipe hhalted hstalled hmuffled htake hv hmiss => ?_,
    fun pipe sel faults s hpipe hhalted hstalled hmuffled => ?_, fun pipe sel faults s hpipe hhalted hstalled => ?_,
    fun pipe faults s x m l p hpipe hhalted hhead hm => ?_, fun pipe faults s x m l p y hpipe hhalted hhead hm hroom => ?_,
    fun pipe s x hpipe hx => ?_, fun pipe s x m l p hpipe hhead => ?_, fun pipe read s x t u hx hread hu => ?_,
    fun pipe read s x t u hx hread hu => ?_, fun n s x rest hstopped hn hq => ?_, fun n s x rest hstopped hn hq => ?_,
    fun n s x rest hstopped hn hq => ?_, fun toQd s hstopped => ?_, fun s p rest u v hq hfirst hinject hu hoffer => ?_,
    fun s p rest u v w hq hfirst hinject hu hoffer => ?_, fun s hw => ?_, fun s w hw hlossless hc => ?_,
    fun s w hw hlossless => ?_, fun s w v u hw hlossless hhead hv hleft => ?_, fun s w hw hlossless hhead hold => ?_⟩
  · exact (execIngressPass_takes hpipe hhalted hstalled hmuffled htake hv).trans (by rw [if_neg (by simp [hmiss])])
  · exact (execIngressPass_takes hpipe hhalted hstalled hmuffled htake hv).trans (by rw [if_pos hmiss])
  · exact execIngressPass_muffled hpipe hhalted hstalled hmuffled
  · exact execIngressPass_stalled hpipe hhalted hstalled
  · exact execEgressPass_passes hpipe hhalted hhead (by rw [hm]; rfl)
  · exact execEgressPass_passes hpipe hhalted hhead (by rw [hm]; exact hroom)
  · exact execStageTimeout_ingress hpipe hx
  · exact execStageTimeout_egress hpipe hhead
  · exact execFlowCacheFill_resumes hx hread hu
  · exact execFlowCacheFill_resumes hx hread hu
  · exact (execBridgeTransfer_toQd hstopped hq rfl).trans (by rw [if_neg (Nat.not_le.mpr hn)])
  · exact (execBridgeTransfer_toFd hstopped hq rfl).trans (by rw [if_neg (Nat.not_le.mpr hn)])
  · exact (execBridgeTransfer_toQd hstopped hq rfl).trans (by rw [if_pos hn])
  · exact execBridgeStall_fails hstopped
  · exact (execVoqAdmission_offers hq hfirst hu hoffer).trans (by rw [if_pos hinject]; rfl)
  · exact (execVoqAdmission_offers hq hfirst hu hoffer).trans (by rw [if_neg (by simp [hinject])]; rfl)
  · exact execBufAllocRetry_none hw
  · exact execBufAllocRetry_one hw hlossless hc
  · exact execBufExhaust_one hw hlossless
  · exact execLosslessReoffer_leaves hw hlossless hhead hv hleft
  · exact execRefusedPacketAge_drops hw hlossless hhead hold

end Sys2Proof.Proofs
end

section
/-! SUPPORT. The rows of the VOQs, the spill path, the grants, the fabric lanes and the reassembly (R252 to R333). -/

namespace Sys2Proof.Proofs
open Sys2Proof Sys2Proof.Machine Sys2Proof.Laws

section
variable {s u : State}

/-! ### The spill path (R247 to R253) -/

/-- The queue whose turn it is writes its burst: all of it where its pages hold it or another page is free, else what its last page holds. -/
theorem execSpillWrite_writes {v n room : Nat} {q : Voq} (hq : q = voq v s) (hturn : writeTurn v s = true) (hspilled : q.spilled = true)
    (hpath : spillPath s = true) (hhalted : halted s = false) (hn : n = min 2048 (bytesOf q.backlog - q.written)) (hsome : n ≠ 0)
    (hu : u = { s with qdm := { s.qdm with lastWrite := some v } }) (hroom : room = (8192 - q.segEnd % 8192) % 8192) :
    execSpillWrite v s = .next (
      if pagesOf q.segStart q.segEnd < pagesOf q.segStart (q.segEnd + n) then
        (pickPage u).elim (if room = 0 then u else spillBytes v (min n room) u) (fun p => spillBytes v n (addPage v p u))
      else spillBytes v n u) := by
  have hpath' : spillPath u = true := by rw [hu]; exact hpath
  have hhalted' : halted u = false := by rw [hu]; exact hhalted
  unfold execSpillWrite
  simp only [hturn, if_true, ← hq, ← hn, ← hu, ← hroom]
  rw [if_neg (by simp [hspilled, hpath', hhalted', hsome])]
  by_cases hgrows : pagesOf q.segStart q.segEnd < pagesOf q.segStart (q.segEnd + n)
  · rw [if_neg (by simp [hgrows]), if_pos hgrows]
    cases pickPage u <;> rfl
  · rw [if_pos (by simp [hgrows]), if_neg hgrows]

theorem execReadBack_reads {v : Nat} {errors : ReadErrors} (hspilled : (voq v s).spilled = true) (hhalted : halted s = false)
    (hturn : readTurn v s = true) (hu : u = readSegment v errors { s with qdm := { s.qdm with lastRead := some v } }) :
    execReadBack v errors s = .next (checkHbmIdle (voqMoved v (checkUnspill v (backToHead v u)))) := by
  unfold execReadBack
  dsimp only
  rw [if_neg (by simp [hspilled, hhalted]), if_pos hturn, hu]

/-! ### Requests and grants (R290 to R317) -/

theorem execRerequest_asks {v : Nat} (hneed : needOf (voq v s) ≠ 0) (hreaches : reaches (voqEndpoint v s) s = true)
    (hu : u = advanceTo (max ((voq v s).lastReq.getD 0) ((voq v s).lastGrant.getD 0) + 10000000) s) (hmay : mayRequest v u = true) :
    execRerequest v s = .next (tally (fabCtr 0x130) (sendRequest v u)) := by
  unfold execRerequest
  dsimp only
  rw [if_neg (by simp [hneed, hreaches]), ← hu, if_pos hmay]

theorem execDenyHoldoffEnd_asks {v d : Nat} (hd : (voq v s).denyUntil = some d) :
    execDenyHoldoffEnd v s = .next (askIf v (updVoq v (fun q => { q with denyUntil := none }) (advanceTo d s))) := by
  unfold execDenyHoldoffEnd
  rw [hd]

/-! ### Units that arrive (R17, R306) -/

section
variable {lane typ : Nat} {unit : List Byte} {act : List Byte → State → State}

/-- A lane in CHECK takes the lane-local TYPEs only. -/
theorem unitArrives_check (hlane : lane < 112) (hcheck : (fabLane lane s).state = .check) (hgood : headerGood unit = true)
    (htyp : hdr unit 127 124 = typ) (hlocal : 8 ≤ typ) : unitArrives lane typ unit s = (true, headerSeen lane s) := by
  simp [unitArrives, headerSeen, Nat.ne_of_lt hlane, hcheck, hgood, htyp, hlocal]

theorem onUnit_check (hlane : lane < 112) (hcheck : (fabLane lane s).state = .check) (hgood : headerGood unit = true)
    (htyp : hdr unit 127 124 = typ) (hlocal : 8 ≤ typ) :
    onUnit lane typ unit act s = .next (act unit (headerSeen lane s)) := by
  simp only [onUnit, unitArrives_check hlane hcheck hgood htyp hlocal, if_true]

/-- The internal loop is lane 112: its unit leaves it (log 35). -/
theorem onUnit_loop (hunit : unit ∈ s.fab.loop) (hu : u = { s with fab := { s.fab with loop := s.fab.loop.erase unit } })
    (htyp : hdr unit 127 124 = typ) : onUnit 112 typ unit act s = .next (act unit u) := by
  have hin : unitArrives 112 typ unit s = (true, u) := by
    unfold unitArrives
    rw [if_pos rfl, if_pos (by simp [hunit, htyp]), hu]
  simp only [onUnit, hin, if_true]

/-- A row of a lane-local TYPE takes the units of the 112 lanes. -/
theorem onLane_of_onUnit {r : Res} (hlane : lane < 112) (h : onUnit lane typ unit act s = r) :
    (if lane = 112 then Host.Outcome.next s else onUnit lane typ unit act s) = r :=
  (if_neg (Nat.ne_of_lt hlane)).trans h
end

/-! ### Dequeue (R314, R321, R331) -/

theorem execVoqDequeue_sends {v : Nat} {p : Pkt} {rest : List Pkt} (hhead : (voq v s).head = p :: rest) (hcredit : 0 < (voq v s).credit)
    (hhalted : halted s = false) (hexists : voqExists v s = true) (hage : ageAtDequeue p s = false) (hheld : streamHeld v s = false)
    (hreaches : reaches (voqEndpoint v s) s = true) :
    execVoqDequeue v s = .next (sendHead v p rest s) := by
  unfold execVoqDequeue
  simp only [hhead]
  rw [if_neg (by simp [hhalted, hexists, Int.not_le.mpr hcredit]), if_neg (by simp [hage]), if_neg (by simp [hheld, hreaches])]

theorem execAgeDrain_drains {v d : Nat} (hd : drainAt v s = some d) (hhalted : halted s = false) :
    execAgeDrain v s = .next (dropOldFront v (advanceTo d s)) := by
  unfold execAgeDrain
  simp only [hd, hhalted, Bool.false_eq_true, if_false]

/-- A VOQ that has sent no cell takes the other stream at once. -/
theorem execDualStreamSwitch_unsent {v : Nat} (hother : (voq v s).dualStream ≠ dualWanted v s) (hunsent : (voq v s).lastCell = 0) :
    execDualStreamSwitch v s = .next (updVoq v (fun q => { q with dualStream := dualWanted v s }) s) := by
  unfold execDualStreamSwitch
  dsimp only
  rw [if_neg (by simp [hother]), if_pos hunsent]

/-! ### Reassembly and destinations (R309, R320) -/

theorem execReassemblyGap_skips {source : Nat} {dual : Bool} {x : Stream} {g : Nat}
    (hx : aget s.fab.streams (source * 2 + b2n dual) = some x) (hg : x.gapSince = some g) :
    execReassemblyGap source dual s = .next (skipGap (source * 2 + b2n dual) x (advanceTo (g + 20000) s)) := by
  unfold execReassemblyGap
  simp only [hx, hg]

theorem execAnnounceRepeat_repeats {dest : Nat} {a : AnnSend} (ha : aget s.fab.announcing dest = some a) (hu : u = advanceTo a.due s)
    (hheld : (heldHere dest u).isSome = true)
    (hback : (heldHere dest u).any (fun x => !a.up && (mac? x.localPort u).any (·.announced)) = false) :
    execAnnounceRepeat dest s = .next (announceDue dest u) := by
  unfold execAnnounceRepeat
  simp only [ha]
  rw [← hu, if_pos (by rw [hheld, hback]; rfl)]

theorem execWithdrawalLapse_restores {dest : Nat} {w : Nat × Nat} (hw : aget s.fab.withdrawn dest = some w)
    (hu : u = advanceTo (w.2 + 35000000) s) : execWithdrawalLapse dest s = .next (restoreDest dest u) := by
  unfold execWithdrawalLapse
  simp only [hw, hu]

/-! ### The fabric lanes (R306, R313, R319, R333) -/

section
variable {lane : Nat}

theorem execReachChunkExpiry_forgets {chunk : Nat} {k : Nat × Nat} (hk : aget (fabLane lane s).chunks chunk = some k) :
    execReachChunkExpiry lane chunk s =
      .next (lookReach (updLane lane (fun l => { l with chunks := adel l.chunks chunk }) (advanceTo (k.2 + 3000000) s))) := by
  unfold execReachChunkExpiry
  simp only [hk]

theorem execFabricLaneAligned_hunts (hstate : (fabLane lane s).state = .down) :
    execFabricLaneAligned lane s = .next (moveLane lane .hunt s) :=
  congrArg _ (if_pos (by simp [hstate]))

theorem execFabricLaneLoss_down (hstate : (fabLane lane s).state = .hunt ∨ (fabLane lane s).state = .check ∨ (fabLane lane s).state = .up) :
    execFabricLaneLoss lane s = .next (moveLane lane .down s) :=
  congrArg _ (if_pos (by simpa [or_assoc] using hstate))

theorem execFabricLaneConfirmed_up {g : Nat} (hg : (fabLane lane s).consistentSince = some g) (hstate : (fabLane lane s).state = .check)
    (hslot : slotAgrees lane (fabLane lane s).peerEndpoint s = true) :
    execFabricLaneConfirmed lane s = .next (laneUp lane (advanceTo (g + 1000000) s)) := by
  unfold execFabricLaneConfirmed
  simp only [hg, hstate, hslot, beq_self_eq_true, Bool.and_self, if_true]

theorem execLinkSilence_checks (hstate : (fabLane lane s).state = .up) :
    execLinkSilence lane s = .next (moveLane lane .check (advanceTo ((fabLane lane s).lastLink + 200000) s)) :=
  congrArg _ (if_pos (by simp [hstate]))

theorem execSecondConfirmation_checks (hstate : (fabLane lane s).state = .hunt) (hhold : s.prot.hold = false) :
    execSecondConfirmation lane s = .next (moveLane lane .check s) :=
  congrArg _ (if_pos (by simp [hstate, hhold]))
end

theorem execSchedulerSelection_selects {group l m : Nat} {p : Pkt}
    (hselect : selectOnce (s.sched.queues.length + 1) group s = (some (l, m, p), u)) :
    execSchedulerSelection group s = .next { u with bridge := { u.bridge with toFd := u.bridge.toFd ++ [.toEgress m l p] } } := by
  unfold execSchedulerSelection
  rw [hselect]
end

/-- Settles O32: each row does what its rule gives, and a unit reaches the receiver of its TYPE. -/
theorem fabricRowsComplete : Obligations.FabricRowsComplete := by
  unfold Obligations.FabricRowsComplete
  refine ⟨fun v s n q u hq hturn hspilled hpath hhalted hn hsome hu hfits => ?_,
    fun v s n q room u hq hturn hspilled hpath hhalted hn hsome hu hroom hgrows => ?_,
    fun v errors s u hspilled hhalted hturn hu => ?_, fun v s u hneed hreaches hu hmay => ?_,
    fun lane unit s u hlane hup hgood hu => ?_, fun lane unit s u hlane hcheck hgood hu => ?_, fun unit s u hunit hu => ?_,
    fun x s => rfl, fun d k s => rfl, fun v s d hd => ?_,
    fun v s p rest hhead hcredit hhalted hexists hage hheld hreaches => ?_, fun v s d hd hhalted => ?_,
    fun v s hother hunsent => ?_, fun source dual s x g hx hg => ?_, fun dest s a u ha hu hheld hback => ?_,
    fun dest s w u hw hu => ?_, fun lane s => rfl, fun lane s chunk k hk => ?_, fun lane s => rfl, fun lane s hstate => ?_,
    fun lane s hstate => ?_, fun lane s g hg hstate hslot => ?_, fun lane s hstate => ?_, fun lane s hstate hhold => ?_,
    fun group s u l m p hselect => ?_⟩
  · exact (execSpillWrite_writes hq hturn hspilled hpath hhalted hn hsome hu rfl).trans (by rw [if_neg (Nat.not_lt.mpr hfits)])
  · refine (execSpillWrite_writes hq hturn hspilled hpath hhalted hn hsome hu hroom).trans ?_
    rw [if_pos hgrows]
    cases pickPage u <;> rfl
  · exact execReadBack_reads hspilled hhalted hturn hu
  · exact execRerequest_asks hneed hreaches hu hmay
  · subst hu
    exact ⟨onUnit_up hlane hup hgood, onUnit_up hlane hup hgood, onUnit_up hlane hup hgood, onUnit_up hlane hup hgood,
      onUnit_up hlane hup hgood, fun htyp => onLane_of_onUnit hlane (onUnit_up hlane hup hgood htyp),
      fun htyp => onLane_of_onUnit hlane (onUnit_up hlane hup hgood htyp),
      fun htyp => onLane_of_onUnit hlane (onUnit_up hlane hup hgood htyp)⟩
  · subst hu
    exact ⟨fun htyp => onLane_of_onUnit hlane (onUnit_check hlane hcheck hgood htyp (by decide)),
      fun htyp => onLane_of_onUnit hlane (onUnit_check hlane hcheck hgood htyp (by decide)),
      fun htyp => onLane_of_onUnit hlane (onUnit_check hlane hcheck hgood htyp (by decide))⟩
  · exact ⟨onUnit_loop hunit hu, onUnit_loop hunit hu, onUnit_loop hunit hu, onUnit_loop hunit hu, onUnit_loop hunit hu⟩
  · exact execDenyHoldoffEnd_asks hd
  · exact execVoqDequeue_sends hhead hcredit hhalted hexists hage hheld hreaches
  · exact execAgeDrain_drains hd hhalted
  · exact execDualStreamSwitch_unsent hother hunsent
  · exact execReassemblyGap_skips hx hg
  · exact execAnnounceRepeat_repeats ha hu hheld hback
  · exact execWithdrawalLapse_restores hw hu
  · exact execReachChunkExpiry_forgets hk
  · exact execFabricLaneAligned_hunts hstate
  · exact execFabricLaneLoss_down hstate
  · exact execFabricLaneConfirmed_up hg hstate hslot
  · exact execLinkSilence_checks hstate
  · exact execSecondConfirmation_checks hstate hhold
  · exact execSchedulerSelection_selects hselect

end Sys2Proof.Proofs
end
